-- ==== Sys2Proof/Word.lean ====
section
/-! DEFINITION. The word types of the module, with the bit numbering of R4: bit 0 of every register is the most
significant bit, and every multi-byte value is big-endian. -/

namespace Sys2Proof

/-- A byte of memory. -/
abbrev Byte := BitVec 8

/-- A 16-bit Grecel word (R346). -/
abbrev Half := BitVec 16

/-- A 64-bit register or memory word (R4). -/
abbrev Word := BitVec 64

/-- The bits `lo:hi` of a 64-bit register in the numbering of R4, as a number. -/
def Word.field (w : Word) (lo hi : Nat) : Nat := (w.toNat >>> (63 - hi)) % 2 ^ (hi + 1 - lo)

/-- The register with its bits `lo:hi` (R4) replaced by the low bits of `v`. -/
def Word.setField (w : Word) (lo hi v : Nat) : Word :=
  let mask := (2 ^ (hi + 1 - lo) - 1) <<< (63 - hi)
  (w &&& ~~~(BitVec.ofNat 64 mask)) ||| (BitVec.ofNat 64 ((v % 2 ^ (hi + 1 - lo)) <<< (63 - hi)))

/-- Bit `n` of a 64-bit register in the numbering of R4. -/
def Word.bit (w : Word) (n : Nat) : Bool := w.getLsbD (63 - n)

end Sys2Proof
end

