-- ==== Sys2Proof/Machine/Units.lean ====
section
/-! DEFINITION. The recursive unit tree (R12-R14): unit types, instances, parents, children and subtrees. -/

namespace Sys2Proof.Machine

/-- The unit types of R14 and R35. -/
inductive UnitType where
  | module | complex | tile | core | lane | l3 | mcs | ring | foreman
  | iodie | memch | home | hauler | lanegrp | cplgrp | jbank | crusher | cipher | ctxstore | drain
  | svcdie | steward | cube | node | tally | power | entropy | seamctl
  deriving DecidableEq, Repr

/-- The type code of UNIT_TYPE (R35). -/
def UnitType.code : UnitType → Nat
  | .module => 0x0001 | .complex => 0x0002 | .tile => 0x0010 | .core => 0x0011 | .lane => 0x0012
  | .l3 => 0x0013 | .mcs => 0x0014 | .ring => 0x0015 | .foreman => 0x0016 | .iodie => 0x0020
  | .memch => 0x0021 | .home => 0x0022 | .hauler => 0x0023 | .lanegrp => 0x0024 | .cplgrp => 0x0025
  | .jbank => 0x0026 | .crusher => 0x0027 | .cipher => 0x0028 | .ctxstore => 0x0029 | .drain => 0x002A
  | .svcdie => 0x0030 | .steward => 0x0031 | .cube => 0x0032 | .node => 0x0033 | .tally => 0x0034
  | .power => 0x0035 | .entropy => 0x0036 | .seamctl => 0x0037

/-- All unit types. -/
def UnitType.all : List UnitType :=
  [.module, .complex, .tile, .core, .lane, .l3, .mcs, .ring, .foreman, .iodie, .memch, .home, .hauler, .lanegrp,
   .cplgrp, .jbank, .crusher, .cipher, .ctxstore, .drain, .svcdie, .steward, .cube, .node, .tally, .power, .entropy,
   .seamctl]

/-- The type with a given code, if R35 lists it. -/
def UnitType.ofCode (c : Nat) : Option UnitType := UnitType.all.find? fun t => t.code == c

/-- How many instances of the type one module has (R14). The coupled complex counts as one. -/
def UnitType.instances : UnitType → Nat
  | .module => 1 | .complex => 1 | .tile => 4 | .core => 48 | .lane => 96 | .l3 => 32 | .mcs => 48 | .ring => 4
  | .foreman => 1 | .iodie => 2 | .memch => 16 | .home => 16 | .hauler => 64 | .lanegrp => 32 | .cplgrp => 4
  | .jbank => 2 | .crusher => 4 | .cipher => 8 | .ctxstore => 2 | .drain => 2 | .svcdie => 1 | .steward => 2
  | .cube => 1 | .node => 7 | .tally => 1 | .power => 1 | .entropy => 1 | .seamctl => 1

/-- The LAYOUT of UNIT_REV for stepping B1 (R36). -/
def UnitType.layout : UnitType → Nat
  | .module => 4 | .complex => 2 | .tile => 3 | .core => 5 | .lane => 2 | .l3 => 3 | .mcs => 2 | .ring => 1
  | .foreman => 3 | .iodie => 3 | .memch => 4 | .home => 4 | .hauler => 3 | .lanegrp => 2 | .cplgrp => 2
  | .jbank => 3 | .crusher => 1 | .cipher => 2 | .ctxstore => 1 | .drain => 2 | .svcdie => 2 | .steward => 3
  | .cube => 1 | .node => 2 | .tally => 2 | .power => 3 | .entropy => 2 | .seamctl => 3

/-- The nesting depth of UNIT_TYPE (R14, R20). -/
def UnitType.depth : UnitType → Nat
  | .module => 0 | .complex => 0 | .tile => 1 | .iodie => 1 | .svcdie => 1
  | .lane => 3 | .mcs => 3
  | _ => 2

/-- A unit: its type and its instance number, unique among units of the type (R14). -/
structure UnitId where
  type : UnitType
  inst : Nat
  deriving DecidableEq, Repr

/-- Does the module have this unit? -/
def UnitId.valid (u : UnitId) : Bool := decide (u.inst < u.type.instances)

/-- One number for a unit: its type code and instance. -/
def UnitId.key (u : UnitId) : Nat := u.type.code * 65536 + u.inst

/-- `n` units of type `t`, from instance `first`. -/
def unitRange (t : UnitType) (first n : Nat) : List UnitId := (List.range n).map fun i => ⟨t, first + i⟩

/-- The children of a unit, in the row order of R14 and in ascending instance number (R38). The children of the coupled
complex are module pages of the members, which its page lists as remote references (R20). -/
def UnitId.children (u : UnitId) : List UnitId :=
  match u.type with
  | .module => unitRange .tile 0 4 ++ unitRange .iodie 0 2 ++ [⟨.svcdie, 0⟩]
  | .tile => unitRange .core (12 * u.inst) 12 ++ unitRange .l3 (8 * u.inst) 8 ++ [⟨.ring, u.inst⟩, ⟨.node, u.inst⟩]
  | .core => [⟨.lane, 2 * u.inst⟩, ⟨.lane, 2 * u.inst + 1⟩, ⟨.mcs, u.inst⟩]
  | .iodie =>
    let d := u.inst
    unitRange .memch (8 * d) 8 ++ unitRange .home (8 * d) 8 ++ unitRange .hauler (32 * d) 32
      ++ unitRange .lanegrp (16 * d) 16 ++ unitRange .cplgrp (2 * d) 2 ++ [⟨.jbank, d⟩]
      ++ unitRange .crusher (2 * d) 2 ++ unitRange .cipher (4 * d) 4
      ++ [⟨.ctxstore, d⟩, ⟨.drain, d⟩, ⟨.node, 4 + d⟩]
  | .svcdie => [⟨.steward, 0⟩, ⟨.steward, 1⟩, ⟨.cube, 0⟩, ⟨.node, 6⟩, ⟨.tally, 0⟩, ⟨.power, 0⟩, ⟨.entropy, 0⟩,
      ⟨.seamctl, 0⟩, ⟨.foreman, 0⟩]
  | _ => []

/-- The parent of a unit (R14); none for the module page and for the coupled complex. -/
def UnitId.parent (u : UnitId) : Option UnitId :=
  match u.type with
  | .module | .complex => none
  | .tile | .iodie | .svcdie => some ⟨.module, 0⟩
  | .core => some ⟨.tile, u.inst / 12⟩
  | .l3 => some ⟨.tile, u.inst / 8⟩
  | .ring => some ⟨.tile, u.inst⟩
  | .lane => some ⟨.core, u.inst / 2⟩
  | .mcs => some ⟨.core, u.inst⟩
  | .node => if u.inst < 4 then some ⟨.tile, u.inst⟩ else if u.inst < 6 then some ⟨.iodie, u.inst - 4⟩
      else some ⟨.svcdie, 0⟩
  | .memch | .home => some ⟨.iodie, u.inst / 8⟩
  | .hauler => some ⟨.iodie, u.inst / 32⟩
  | .lanegrp => some ⟨.iodie, u.inst / 16⟩
  | .cplgrp | .crusher => some ⟨.iodie, u.inst / 2⟩
  | .jbank | .ctxstore | .drain => some ⟨.iodie, u.inst⟩
  | .cipher => some ⟨.iodie, u.inst / 4⟩
  | .foreman | .steward | .cube | .tally | .power | .entropy | .seamctl => some ⟨.svcdie, 0⟩

/-- The units above a unit in the tree, nearest first. -/
def UnitId.ancestors (u : UnitId) : List UnitId :=
  match u.parent with
  | none => []
  | some p => p :: (match p.parent with
    | none => []
    | some q => q :: (match q.parent with
      | none => []
      | some r => [r]))

/-- A unit and every unit below it (R12, R17). -/
def UnitId.subtree (u : UnitId) : List UnitId :=
  u :: u.children.flatMap fun c => c :: c.children.flatMap fun d => d :: d.children

/-- Is `u` the unit `a` or below it? -/
def UnitId.within (u a : UnitId) : Bool := u == a || u.ancestors.contains a

/-- The die slot of the die that implements the unit (R9, R15); 0xFF for the module and the coupled complex. -/
def UnitId.dieSlot (u : UnitId) : Nat :=
  match u.type with
  | .module | .complex => 0xFF
  | .tile | .ring => u.inst
  | .core | .mcs => u.inst / 12
  | .lane => u.inst / 24
  | .l3 => u.inst / 8
  | .iodie | .jbank | .ctxstore => 4 + u.inst
  | .drain => 7 + u.inst
  | .memch | .home => 4 + u.inst / 8
  | .hauler => 4 + u.inst / 32
  | .lanegrp => 4 + u.inst / 16
  | .cplgrp | .crusher => 4 + u.inst / 2
  | .cipher => 4 + u.inst / 4
  | .node => u.inst
  | _ => 6

/-- The fault collector node of the die that holds the unit (R450): nodes 0-3 on the tiles, 4-5 on the I/O dies, 6 the root. -/
def UnitId.nodeInst (u : UnitId) : Nat :=
  if u.type = .drain then 4 + u.inst else if u.dieSlot < 7 then u.dieSlot else 6

/-- All units of one module. -/
def UnitId.allUnits : List UnitId := UnitId.subtree ⟨.module, 0⟩

end Sys2Proof.Machine
end

