-- ==== Sys2Proof/Machine/Types.lean ====
section
/-! DEFINITION. Types that the commands share with the state: lines of data, agents of coherence, atomics, write hints. -/

namespace Sys2Proof.Machine

/-- A line of data with one poison mark for each 64-bit word (R163, R289). -/
structure LineData where
  data : BitVec 1024
  poison : BitVec 16
  deriving DecidableEq, Repr

/-- An agent that sends requests to home agents (R167): a tile controller, or an I/O agent with its unit. -/
inductive Agent where
  | tile (t : Nat)
  | io (u : UnitId)
  deriving DecidableEq, Repr

/-- The atomic operations of R122. -/
inductive AtomicOp where
  | cswp | swp | ladd
  deriving DecidableEq, Repr

/-- What an RdX.A carries (R182): the operation, operand offset in the line and size, the compare value and the new value. -/
structure AtomicReq where
  op : AtomicOp
  off : Nat
  size : Nat
  cmp : Word
  val : Word
  deriving DecidableEq, Repr

/-- A target of a write hint (R145): a core's L2, or a tile's L3. -/
inductive HintTarget where
  | l2 (k : Nat)
  | l3 (t : Nat)
  deriving DecidableEq, Repr

/-- A server of job rings (R404): a Crusher engine, a cipher engine or the entropy source. -/
inductive EngineId where
  | crusher (n : Fin 4)
  | cipher (n : Fin 8)
  | entropy
  deriving DecidableEq, Repr

/-- Who uses a path of a path group (R315, R333): an exchange, by die and context index, or a target write of a journal entry. -/
inductive PathUser where
  | exchange (die : Fin 2) (ctx : Fin 131072)
  | target (slot : Fin 16384) (second : Bool)
  deriving DecidableEq, Repr

/-- How a drive completes a command (R315): without error, or with a status code type and status code. -/
inductive NvmeEnd where
  | success
  | error (sct : BitVec 3) (code : BitVec 8)
  deriving DecidableEq, Repr

/-- Who writes or reads a page of the control window (R25, R32, R400, R433): a steward, a core of seam 0 or a hauler acting for
seam 0, or a coupled module, which may hold its own cube. -/
inductive Sender where
  | steward (n : Fin 2)
  | core (k : Fin 48)
  | hauler (h : Fin 64)
  | remote (holdsCube : Bool)
  deriving DecidableEq, Repr

/-- The header of a coupling frame that the link layer reads (R393): SEQ, ACKSEQ, the VC and number of returned credits, TAG. -/
structure FrameHead where
  seq : BitVec 12
  ack : BitVec 12
  cvc : BitVec 2
  credits : BitVec 6
  tag : BitVec 16
  deriving DecidableEq, Repr

/-- A cache: the L1 caches and the L2 of a core, or an L3 slice (R139); and the eviction buffers of an L1D (`l1e`) and of an L2 (`l2e`),
which hold lines as a cache does (R143, R168). -/
inductive CacheId where
  | l1i (k : Nat) | l1d (k : Nat) | l2 (k : Nat) | l3 (i : Nat) | l1e (k : Nat) | l2e (k : Nat)
  deriving DecidableEq, Repr

/-- What a maintenance operation does to a line (R155). -/
inductive MaintOp where
  | clean | inval | cleanInval
  deriving DecidableEq, Repr

/-- The address fields of a load or store (R55, R58): the D4 form (base, displacement) or the X6 form (index, base, scale, displacement). -/
inductive AddrForm where
  | d4 (b : BitVec 5) (d : BitVec 14)
  | x6 (x b : BitVec 5) (sc : BitVec 2) (d : BitVec 17)
  deriving DecidableEq, Repr

/-- What a march command found (R374, R376, R380): the arrays of the die that failed (for MARCH, any of them names the array tested),
and the first failure: array kind and index, element, signature mismatch, word and differing bits. -/
structure MarchFinding where
  pits : BitVec 32
  ctxs : Bool
  jbank : Bool
  patch : Bool
  kind : BitVec 2
  index : BitVec 6
  element : BitVec 3
  sig : Bool
  addr : BitVec 24
  diff : Word
  deriving DecidableEq, Repr

/-- An inbound PCI Express memory request. -/
inductive Inbound where
  | read (len : BitVec 13)
  | write (data : List Byte)
  | atomic
  deriving DecidableEq, Repr

/-- What reading a core's checkpoint record has met for a comparison (R199): whether it can be read, and how many single-bit errors are
corrected in it. -/
structure RecordRead where
  readable : Bool
  corr : BitVec 8
  deriving DecidableEq, Repr

/-- What the copy of a checkpoint record has met (R199): whether the record cannot be read, its corrected errors, and the lost entries of
the translation image. -/
structure CopyRead where
  unreadable : Bool
  corr : BitVec 8
  lost : BitVec 127
  deriving DecidableEq, Repr

/-- How a remote page access ends at its target. -/
inductive RemoteEnd where
  | data (w : Word)
  | done
  | error
  | refused
  deriving DecidableEq, Repr

/-- An image slot of the flash: its bytes, or none where reading it fails. -/
abbrev FlashSlot := Option (List Byte)

end Sys2Proof.Machine
end

