-- ==== Sys2Proof/Syntax.lean ====
section
/-! DEFINITION. The commands of the module, one constructor for each row of spec/opcode_table.json, in the table's order. An instruction of
an Ezxis core names the core `k`, one of a Grecel hauler the hauler `h`; a register command names its sender; an event names the
unit it happens in, with what comes from outside the model as operands (log entries 1, 5 and 9). -/

namespace Sys2Proof

open Machine

/-- A command (R5 to R503, as the docstring of each constructor says). -/
inductive Instr where
  /-- A write to a register field that has no row of its own takes effect as its access code directs (R5). Without a value it is the read of
  that doubleword by the sender (R430). A unit that the module does not have stands for the page slot of its instance number (log
  entry 102). -/
  | registerWrite (sender : Sender) (u : UnitId) (off : BitVec 12) (v : Option Word)
  /-- A write of 1 to UNIT_STICKY_CLR CLR_OWN clears every own sticky cause of the unit (R16). -/
  | clrOwn (sender : Sender) (u : UnitId)
  /-- A write of 1 to UNIT_STICKY_CLR CLR_ONE clears the one sticky cause named by INDEX (R16). -/
  | clrOne (sender : Sender) (u : UnitId) (index : BitVec 8)
  /-- A write of 1 to UNIT_RESET REQ starts a U reset of the unit's subtree, or is absorbed into a reset already running; on the module
  page it starts an M reset (R17). -/
  | uResetRequest (sender : Sender) (u : UnitId) (allow : Bool)
  /-- The U reset of a subtree completes, so BUSY clears and the unit's consequential window runs on (R17). -/
  | uResetComplete (u : UnitId) (persist : Bool)
  /-- A write to UNIT_POWER REQ and PIN requests a power state and pins or releases the unit from the Foreman (R41). -/
  | unitPowerWrite (sender : Sender) (u : UnitId) (req : BitVec 2) (pin : Bool)
  /-- A unit finishes entering or leaving a power state once its entry or wake time has passed (R482). -/
  | powerTransitionDone (u : UnitId)
  /-- A write to UNIT_OWNER sets the owner of the unit or of its subtree, after the checks of R42 (R42). -/
  | unitOwnerWrite (sender : Sender) (u : UnitId) (owner : BitVec 8)
  /-- The pit clear ends after 5.12 µs, and the hauler may run again (R367). -/
  | pitClearDone (h : Fin 64)
  /-- A program write of SP_CQ_HEAD releases completion-queue entries to hardware (R275). -/
  | cqHeadWrite (seam : Fin 64) (head : BitVec 20)
  /-- The target unit accepts a posted device store, and the store is performed (R131). -/
  | deviceStoreAccept (k : Fin 48) (n : BitVec 8)
  /-- Load one byte, sign-extended, into g(r1) (R58). -/
  | lb (k : Fin 48) (r1 : BitVec 5) (f : AddrForm)
  /-- Load one byte, zero-extended, into g(r1) (R58). -/
  | lbu (k : Fin 48) (r1 : BitVec 5) (f : AddrForm)
  /-- Load two bytes, sign-extended (R58). -/
  | lh (k : Fin 48) (r1 : BitVec 5) (f : AddrForm)
  /-- Load two bytes, zero-extended (R58). -/
  | lhu (k : Fin 48) (r1 : BitVec 5) (f : AddrForm)
  /-- Load four bytes, sign-extended (R58). -/
  | lw (k : Fin 48) (r1 : BitVec 5) (f : AddrForm)
  /-- Load four bytes, zero-extended (R58). -/
  | lwu (k : Fin 48) (r1 : BitVec 5) (f : AddrForm)
  /-- Load eight bytes into g(r1) (R58). -/
  | ld (k : Fin 48) (r1 : BitVec 5) (f : AddrForm)
  /-- Load sixteen bytes into an even/odd g pair (R58). -/
  | lq (k : Fin 48) (r1 : BitVec 5) (f : AddrForm)
  /-- Store the low byte of g(r1) (R58). -/
  | stb (k : Fin 48) (r1 : BitVec 5) (f : AddrForm)
  /-- Store the low two bytes of g(r1) (R58). -/
  | sth (k : Fin 48) (r1 : BitVec 5) (f : AddrForm)
  /-- Store the low four bytes of g(r1) (R58). -/
  | stw (k : Fin 48) (r1 : BitVec 5) (f : AddrForm)
  /-- Store the eight bytes of g(r1) (R58). -/
  | std (k : Fin 48) (r1 : BitVec 5) (f : AddrForm)
  /-- Store the sixteen bytes of an even/odd g pair (R58). -/
  | stq (k : Fin 48) (r1 : BitVec 5) (f : AddrForm)
  /-- Place the operand address in g(r1), with no access and no check (R58). -/
  | la (k : Fin 48) (r1 : BitVec 5) (f : AddrForm)
  /-- Load eight bytes into f(r1) (R58). -/
  | lf (k : Fin 48) (r1 : BitVec 5) (f : AddrForm)
  /-- Load a binary32 operand and convert it exactly to binary64 (R58). -/
  | lf32 (k : Fin 48) (r1 : BitVec 5) (f : AddrForm)
  /-- Load a decimal128 value into an even/odd f pair (R58). -/
  | lfq (k : Fin 48) (r1 : BitVec 5) (f : AddrForm)
  /-- Store the eight bytes of f(r1) (R58). -/
  | stf (k : Fin 48) (r1 : BitVec 5) (f : AddrForm)
  /-- Store f(r1) rounded to binary32 under BRM (R58). -/
  | stf32 (k : Fin 48) (r1 : BitVec 5) (f : AddrForm)
  /-- Store the sixteen bytes of an even/odd f pair (R58). -/
  | stfq (k : Fin 48) (r1 : BitVec 5) (f : AddrForm)
  /-- Branch with a 16-bit offset when the condition mask selects CC (R60). -/
  | bc (k : Fin 48) (mask : BitVec 4) (off : BitVec 16)
  /-- Save the return address in g31 and branch always, with a 16-bit offset (R60). -/
  | bal (k : Fin 48) (mask : BitVec 4) (off : BitVec 16)
  /-- Conditional branch with a 32-bit offset (R60). -/
  | bcl (k : Fin 48) (mask : BitVec 4) (off : BitVec 32)
  /-- Branch and link with a 32-bit offset (R60). -/
  | ball (k : Fin 48) (mask : BitVec 4) (off : BitVec 32)
  /-- Branch to the address in g(r2) when the mask selects CC (R60). -/
  | brr (k : Fin 48) (bit6 : Bool) (mask : BitVec 4) (r2 : BitVec 5)
  /-- Save the return address in g(r1) and branch to g(r2) (R60). -/
  | balr (k : Fin 48) (r1 r2 : BitVec 5)
  /-- Copy g(r2) to g(r1) (R61). -/
  | movr (k : Fin 48) (r1 r2 : BitVec 5)
  /-- Copy the bits of f(r2) to f(r1) (R61). -/
  | fmovr (k : Fin 48) (r1 r2 : BitVec 5)
  /-- Copy the bits of f(r2) to g(r1) (R61). -/
  | ftog (k : Fin 48) (r1 r2 r3 : BitVec 5)
  /-- Copy the bits of g(r2) to f(r1) (R61). -/
  | gtof (k : Fin 48) (r1 r2 r3 : BitVec 5)
  /-- Load a sign-extended 32-bit immediate into g(r1) (R61). -/
  | lil (k : Fin 48) (r1 : BitVec 5) (imm : BitVec 32)
  /-- Load a 32-bit immediate into the high half of g(r1) (R61). -/
  | lih (k : Fin 48) (r1 : BitVec 5) (imm : BitVec 32)
  /-- Add a sign-extended 32-bit immediate to g(r1) (R61). -/
  | addil (k : Fin 48) (r1 : BitVec 5) (imm : BitVec 32)
  /-- Compare g(r1) with a sign-extended 32-bit immediate (R61). -/
  | cmpil (k : Fin 48) (r1 : BitVec 5) (imm : BitVec 32)
  /-- Start a channel program on a subchannel, with the outcome in CC (R81). -/
  | issue (k : Fin 48) (r1 r2 r3 : BitVec 5)
  /-- Take the final status of a subchannel, with the outcome in CC (R82). -/
  | test (k : Fin 48) (r1 r2 r3 : BitVec 5)
  /-- Tell the open exchange on a subchannel to end (R83). -/
  | halt (k : Fin 48) (r1 r2 r3 : BitVec 5)
  /-- Post a work-unit descriptor to a ready ring, with the outcome in CC (R84). -/
  | enqw (k : Fin 48) (r1 r2 r3 : BitVec 5)
  /-- Save the work unit's state and return the work unit to the tail of its ready ring (R85). -/
  | yield (k : Fin 48) (r1 r2 r3 : BitVec 5)
  /-- Register a wait condition and suspend the work unit unless the condition already holds (R86). -/
  | wait (k : Fin 48) (r1 r2 r3 : BitVec 5)
  /-- Load barrier (R124). -/
  | barl (k : Fin 48) (r1 r2 r3 : BitVec 5)
  /-- Store barrier (R124). -/
  | bars (k : Fin 48) (r1 r2 r3 : BitVec 5)
  /-- Full barrier (R124). -/
  | barf (k : Fin 48) (r1 r2 r3 : BitVec 5)
  /-- Discard instructions that have been fetched but not executed (R91). -/
  | isync (k : Fin 48) (r1 r2 r3 : BitVec 5)
  /-- Replace SW with g(r1) (R52). -/
  | lsw (k : Fin 48) (r1 r2 r3 : BitVec 5)
  /-- Return from interruption, restoring SW and IA from OLDSW and OLDIA (R77). -/
  | rfi (k : Fin 48) (r1 r2 r3 : BitVec 5)
  /-- Load a control register from g(r2) (R87). -/
  | lctl (k : Fin 48) (r1 r2 r3 : BitVec 5)
  /-- Store a control register to g(r1) (R87). -/
  | stctl (k : Fin 48) (r1 r2 r3 : BitVec 5)
  /-- Purge translations on every core that has run the seam, and wait for the purge (R68). -/
  | ptlb (k : Fin 48) (r1 r2 r3 : BitVec 5)
  /-- Read the time base into g(r1) (R88). -/
  | rdtb (k : Fin 48) (r1 r2 r3 : BitVec 5)
  /-- Supervisor call with a code (R74). -/
  | svc (k : Fin 48) (code : BitVec 10)
  /-- Signed add of g registers, setting CC (R93). -/
  | add (k : Fin 48) (w : Bool) (r1 r2 r3 : BitVec 5)
  /-- Unsigned add, setting CC from zero and carry (R93). -/
  | addl (k : Fin 48) (w : Bool) (r1 r2 r3 : BitVec 5)
  /-- Signed subtract (R93). -/
  | sub (k : Fin 48) (w : Bool) (r1 r2 r3 : BitVec 5)
  /-- Unsigned subtract (R93). -/
  | subl (k : Fin 48) (w : Bool) (r1 r2 r3 : BitVec 5)
  /-- Low half of the signed product (R93). -/
  | mul (k : Fin 48) (w : Bool) (r1 r2 r3 : BitVec 5)
  /-- High half of the signed double-width product (R93). -/
  | mulh (k : Fin 48) (w : Bool) (r1 r2 r3 : BitVec 5)
  /-- High half of the unsigned double-width product (R93). -/
  | mulhu (k : Fin 48) (w : Bool) (r1 r2 r3 : BitVec 5)
  /-- Signed divide into an even/odd quotient and remainder pair (R94). -/
  | div (k : Fin 48) (w : Bool) (r1 r2 r3 : BitVec 5)
  /-- Unsigned divide into an even/odd quotient and remainder pair (R94). -/
  | divu (k : Fin 48) (w : Bool) (r1 r2 r3 : BitVec 5)
  /-- Negate g(r2) (R95). -/
  | neg (k : Fin 48) (w : Bool) (r1 r2 r3 : BitVec 5)
  /-- Bitwise AND (R93). -/
  | and (k : Fin 48) (w : Bool) (r1 r2 r3 : BitVec 5)
  /-- Bitwise OR (R93). -/
  | or (k : Fin 48) (w : Bool) (r1 r2 r3 : BitVec 5)
  /-- Bitwise XOR (R93). -/
  | xor (k : Fin 48) (w : Bool) (r1 r2 r3 : BitVec 5)
  /-- Logical shift left (R96). -/
  | sll (k : Fin 48) (w : Bool) (r1 r2 r3 : BitVec 5)
  /-- Logical shift right (R96). -/
  | srl (k : Fin 48) (w : Bool) (r1 r2 r3 : BitVec 5)
  /-- Arithmetic shift right (R96). -/
  | sra (k : Fin 48) (w : Bool) (r1 r2 r3 : BitVec 5)
  /-- Rotate left (R96). -/
  | rotl (k : Fin 48) (w : Bool) (r1 r2 r3 : BitVec 5)
  /-- Signed compare, setting CC (R93). -/
  | cmp (k : Fin 48) (w : Bool) (r1 r2 r3 : BitVec 5)
  /-- Unsigned compare, setting CC (R93). -/
  | cmpl (k : Fin 48) (w : Bool) (r1 r2 r3 : BitVec 5)
  /-- Add a sign-extended 16-bit immediate (R97). -/
  | addi (k : Fin 48) (r1 : BitVec 5) (imm : BitVec 16)
  /-- Compare with a sign-extended 16-bit immediate (R97). -/
  | cmpi (k : Fin 48) (r1 : BitVec 5) (imm : BitVec 16)
  /-- AND with a zero-extended immediate (R97). -/
  | andi (k : Fin 48) (r1 : BitVec 5) (imm : BitVec 16)
  /-- OR with a zero-extended immediate (R97). -/
  | ori (k : Fin 48) (r1 : BitVec 5) (imm : BitVec 16)
  /-- XOR with a zero-extended immediate (R97). -/
  | xori (k : Fin 48) (r1 : BitVec 5) (imm : BitVec 16)
  /-- Load a sign-extended 16-bit immediate (R97). -/
  | li (k : Fin 48) (r1 : BitVec 5) (imm : BitVec 16)
  /-- Set FPC from g(r1) (R101). -/
  | lfpc (k : Fin 48) (r1 : BitVec 5)
  /-- Copy FPC to g(r1) (R101). -/
  | stfpc (k : Fin 48) (r1 : BitVec 5)
  /-- Binary64 add (R102). -/
  | fadd (k : Fin 48) (r1 r2 r3 : BitVec 5)
  /-- Binary64 subtract (R102). -/
  | fsub (k : Fin 48) (r1 r2 r3 : BitVec 5)
  /-- Binary64 multiply (R102). -/
  | fmul (k : Fin 48) (r1 r2 r3 : BitVec 5)
  /-- Binary64 divide (R102). -/
  | fdiv (k : Fin 48) (r1 r2 r3 : BitVec 5)
  /-- Binary64 square root (R102). -/
  | fsqrt (k : Fin 48) (r1 r2 r3 : BitVec 5)
  /-- Binary64 fused multiply-add with one rounding (R102). -/
  | fma (k : Fin 48) (r1 r2 r3 : BitVec 5)
  /-- Quiet binary64 compare (R102). -/
  | fcmp (k : Fin 48) (r1 r2 r3 : BitVec 5)
  /-- Signalling binary64 compare (R102). -/
  | fcmps (k : Fin 48) (r1 r2 r3 : BitVec 5)
  /-- Convert binary64 to a signed 64-bit integer (R107). -/
  | fcvti (k : Fin 48) (r1 r2 : BitVec 5)
  /-- Convert a signed integer to binary64 (R102). -/
  | icvtf (k : Fin 48) (r1 r2 : BitVec 5)
  /-- Round binary64 to an integral value (R102). -/
  | frnd (k : Fin 48) (r1 r2 : BitVec 5)
  /-- Invert the sign bit of f(r2) (R102). -/
  | fneg (k : Fin 48) (r1 r2 : BitVec 5)
  /-- Clear the sign bit of f(r2) (R102). -/
  | fabs (k : Fin 48) (r1 r2 : BitVec 5)
  /-- Decimal add (R103). -/
  | dadd (k : Fin 48) (q : Bool) (r1 r2 r3 : BitVec 5)
  /-- Decimal subtract (R103). -/
  | dsub (k : Fin 48) (q : Bool) (r1 r2 r3 : BitVec 5)
  /-- Decimal multiply (R103). -/
  | dmul (k : Fin 48) (q : Bool) (r1 r2 r3 : BitVec 5)
  /-- Decimal divide (R103). -/
  | ddiv (k : Fin 48) (q : Bool) (r1 r2 r3 : BitVec 5)
  /-- Decimal square root (R103). -/
  | dsqrt (k : Fin 48) (q : Bool) (r1 r2 r3 : BitVec 5)
  /-- Round a decimal value to a given exponent (R104). -/
  | dqua (k : Fin 48) (q : Bool) (r1 r2 r3 : BitVec 5)
  /-- Quiet decimal compare (R103). -/
  | dcmp (k : Fin 48) (q : Bool) (r1 r2 r3 : BitVec 5)
  /-- Signalling decimal compare (R103). -/
  | dcmps (k : Fin 48) (q : Bool) (r1 r2 r3 : BitVec 5)
  /-- Convert a decimal value to a signed 64-bit integer (R107). -/
  | dcvti (k : Fin 48) (q : Bool) (r1 r2 : BitVec 5)
  /-- Convert a signed integer to decimal (R103). -/
  | icvtd (k : Fin 48) (q : Bool) (r1 r2 : BitVec 5)
  /-- Round a decimal value to an integral value (R103). -/
  | drnd (k : Fin 48) (q : Bool) (r1 r2 : BitVec 5)
  /-- Compare and swap, performed atomically (R122). -/
  | cswp (k : Fin 48) (w : Bool) (r1 r2 r3 : BitVec 5)
  /-- Swap, performed atomically (R122). -/
  | swp (k : Fin 48) (w : Bool) (r1 r2 r3 : BitVec 5)
  /-- Atomic fetch-and-add (R122). -/
  | ladd (k : Fin 48) (w : Bool) (r1 r2 r3 : BitVec 5)
  /-- Clean one line by address, module-wide (R155). -/
  | clna (k : Fin 48) (r1 r2 r3 : BitVec 5)
  /-- Invalidate one line by address, module-wide (R155). -/
  | inva (k : Fin 48) (r1 r2 r3 : BitVec 5)
  /-- Clean and invalidate one line by address (R155). -/
  | clia (k : Fin 48) (r1 r2 r3 : BitVec 5)
  /-- Clean an address range, page by page and interruptibly (R156). -/
  | clnr (k : Fin 48) (r1 r2 r3 : BitVec 5) (stop : Option Nat)
  /-- Invalidate an address range, skipping locked lines unless INCL_LOCKED (R156). -/
  | invr (k : Fin 48) (r1 r2 r3 : BitVec 5) (stop : Option Nat)
  /-- Clean and invalidate an address range (R156). -/
  | clir (k : Fin 48) (r1 r2 r3 : BitVec 5) (stop : Option Nat)
  /-- Clean one line of the issuing core's caches by set and way (R157). -/
  | clns (k : Fin 48) (r1 r2 r3 : BitVec 5)
  /-- Invalidate one line by set and way (R157). -/
  | invs (k : Fin 48) (r1 r2 r3 : BitVec 5)
  /-- Clean and invalidate one line by set and way (R157). -/
  | clis (k : Fin 48) (r1 r2 r3 : BitVec 5)
  /-- The checkweigher compares a completed retirement group, and the group retires and writes the checkpoint when both lanes agree
  (R193). -/
  | groupCompare (k : Fin 48) (kind : BitVec 9) (disagree : Bool) (read : RecordRead) (lane : Option (Fin 2))
  /-- A pending enabled interruption is taken at an instruction boundary, saving OLDIA and OLDSW and entering the handler (R75). -/
  | interruption (k : Fin 48)
  /-- The time base reaches c16 DEADLINE, and external interruption 0x1001 becomes pending (R87). -/
  | deadlineMatch (k : Fin 48)
  /-- The time base reaches a WAIT deadline, and the wait ends with CC 1 (R86). -/
  | waitDeadline (num : BitVec 56)
  /-- A store-gather entry closes 64 core cycles after it opened (R129). -/
  | gatherEntryTimeout (k : Fin 48)
  /-- START of L2_PRELOAD_CTL cleans the masked ways, loads the range into them and locks them (R151). -/
  | l2Preload (sender : Sender) (k : Fin 48) (ways : BitVec 8) (lines : BitVec 24)
  /-- START of L3_PRELOAD_CTL loads this slice's lines of the range into the masked ways and locks them (R151). -/
  | l3Preload (sender : Sender) (n : Fin 32) (ways : BitVec 8) (lines : BitVec 24)
  /-- A preload ends, setting LOCKED, DONE and PRELOAD_MISSED (R151). -/
  | preloadDone (u : UnitId)
  /-- A W1C write to LOCKED unlocks ways, whose lines stay valid as ordinary lines (R150). -/
  | lockRelease (sender : Sender) (u : UnitId) (ways : BitVec 8)
  /-- L3_FLUSH OP 0b01 sweeps the slice and cleans every line (R158). -/
  | l3FlushClean (sender : Sender) (n : Fin 32) (incl : Bool)
  /-- L3_FLUSH OP 0b10 sweeps the slice and invalidates every line (R158). -/
  | l3FlushInvalidate (sender : Sender) (n : Fin 32) (incl : Bool)
  /-- L3_FLUSH OP 0b11 sweeps the slice and cleans and invalidates every line (R158). -/
  | l3FlushCleanInvalidate (sender : Sender) (n : Fin 32) (incl : Bool)
  /-- The slice sweep completes and DONE reads 1 (R158). -/
  | l3FlushDone (n : Fin 32)
  /-- A core's ring read is served at the line's slice (R171). -/
  | trd (k : Fin 48) (line : BitVec 28) (seam : Fin 64)
  /-- A core's ring ownership request invalidates the other copies in the tile (R171). -/
  | trdx (k : Fin 48) (line : BitVec 28) (seam : Fin 64) (atomic : Option AtomicReq)
  /-- The tile controller's ring action on SnpS downgrades the owner (R171). -/
  | tdown (t : Fin 4) (line : BitVec 28) (clean : Bool)
  /-- The tile controller's ring action on Inv or SnpX removes every copy in the tile (R171). -/
  | tkill (t : Fin 4) (line : BitVec 28)
  /-- A read-for-sharing request arrives at the home agent (R175). -/
  | rds (t : Fin 4) (line : BitVec 28) (seam : Fin 64)
  /-- A read-for-ownership request arrives at the home agent (R175). -/
  | rdx (t : Fin 4) (line : BitVec 28) (seam : Fin 64)
  /-- An ownership request carrying an atomic arrives, and is performed at home when the entry is HOT (R182). -/
  | rdxA (t : Fin 4) (line : BitVec 28) (seam : Fin 64) (a : AtomicReq)
  /-- An upgrade request for a line held S or O arrives (R175). -/
  | upg (t : Fin 4) (line : BitVec 28) (seam : Fin 64)
  /-- A maintenance request for a line arrives at the home agent (R175). -/
  | mnt (t : Fin 4) (line : BitVec 28) (seam : Fin 64) (op : MaintOp) (skip : Bool)
  /-- An I/O agent's line read arrives (R175). -/
  | ior (u : UnitId) (line : BitVec 28) (seam : Fin 64)
  /-- An I/O agent's masked line write, optionally with a hint target, arrives (R181). -/
  | iow (u : UnitId) (line : BitVec 28) (seam : Fin 64) (mask : BitVec 128) (data : BitVec 1024) (hint : Option HintTarget)
  /-- A tile controller receives Inv and removes its shared copy (R172). -/
  | inv (t : Fin 4) (line : BitVec 28) (skip : Bool)
  /-- The owner tile receives SnpS, or SnpS.C, and supplies dirty data while keeping a copy (R172). -/
  | snps (t : Fin 4) (line : BitVec 28) (clean : Bool)
  /-- The owner tile receives SnpX, gives up its copy and supplies dirty data (R172). -/
  | snpx (t : Fin 4) (line : BitVec 28) (skip : Bool)
  /-- A target tile receives a Hint and installs the line or declines it (R145). -/
  | hint (target : HintTarget) (line : BitVec 28) (seam : Fin 64) (dirty : Bool) (data : LineData)
  /-- An InvAck arrives at the home agent and is counted against its transaction (R175). -/
  | invack (t : Fin 4) (line : BitVec 28) (kept : Bool)
  /-- A SnpAck arrives at the home agent (R175). -/
  | snpack (t : Fin 4) (line : BitVec 28) (kept : Bool)
  /-- A snoop response with dirty data arrives at the home agent (R175). -/
  | snpd (t : Fin 4) (line : BitVec 28) (data : LineData) (kept : Bool)
  /-- HintAck arrives, and the home records the target as owner and sends Cmp (R175). -/
  | hintack (t : Fin 4) (line : BitVec 28)
  /-- HintDecl arrives, and the home writes memory if deferred and sends Cmp (R175). -/
  | hintdecl (t : Fin 4) (line : BitVec 28)
  /-- Done arrives and closes a WR or WX transaction (R175). -/
  | done (t : Fin 4) (line : BitVec 28)
  /-- A tile receives line data in state S (R172). -/
  | datas (t : Fin 4) (line : BitVec 28) (data : LineData)
  /-- A tile receives line data in state E (R172). -/
  | datae (t : Fin 4) (line : BitVec 28) (data : LineData)
  /-- A tile receives line data in state M (R172). -/
  | datam (t : Fin 4) (line : BitVec 28) (data : LineData)
  /-- A tile receives an upgrade grant with no data (R172). -/
  | gntx (t : Fin 4) (line : BitVec 28)
  /-- A tile receives the old value of an atomic performed at the home agent (R172). -/
  | atmr (t : Fin 4) (line : BitVec 28)
  /-- A tile receives WBAck for its WB or Evc (R172). -/
  | wback (t : Fin 4) (line : BitVec 28)
  /-- A tile receives Retry for a refused request (R173). -/
  | retry (t : Fin 4) (line : BitVec 28)
  /-- 64 Shaft cycles after a Retry, the tile controller resends the request (R173). -/
  | retryResend (t : Fin 4) (line : BitVec 28)
  /-- An I/O agent receives Cmp, and its IOW or Mnt is performed (R181). -/
  | ioCmp (u : UnitId) (line : BitVec 28)
  /-- An I/O agent receives IOR data (R170). -/
  | iodata (u : UnitId) (line : BitVec 28)
  /-- A write-back of the tile's last dirty copy arrives at the home agent, or is dropped as stale (R175). -/
  | wb (t : Fin 4) (line : BitVec 28) (data : LineData)
  /-- A notice that the tile's last clean copy left arrives at the home agent (R175). -/
  | evc (t : Fin 4) (line : BitVec 28)
  /-- HOT clears after HOT_WINDOW Shaft cycles with no owner change (R180). -/
  | hotWindowExpiry (line : BitVec 28)
  /-- A tile transaction open for 20 µs ends, with poisoned data or discarded stores (R183). -/
  | tileTransactionTimeout (t : Fin 4) (line : BitVec 28)
  /-- A home transaction that has awaited an answer for 20 µs is closed (R183). -/
  | homeTransactionTimeout (line : BitVec 28)
  /-- A Shaft slot received with a bad CRC is replayed, and the segment is declared down after 16 replays within 1 ms (R186). -/
  | slotReplay (stop : Fin 7) (against : Bool)
  /-- The channel serves a read presented by its home agent in READ_CLK memory clocks (R292). -/
  | channelRead (ch : Fin 16) (line : BitVec 24) (single double : BitVec 16)
  /-- The channel serves a write presented by its home agent in WRITE_CLK memory clocks (R292). -/
  | channelWrite (ch : Fin 16) (line : BitVec 24) (mask : BitVec 128) (data : BitVec 1024) (poison : BitVec 16)
  /-- CKW_CMD PROMOTE brings up a pawn and resumes the failed core's work unit on it (R203). -/
  | promote (sender : Sender) (tile : Fin 4) (src dst : BitVec 4)
  /-- CKW_CMD ROTATE moves work off an active core, brings up a pawn and makes the source a pawn (R209). -/
  | rotate (sender : Sender) (tile : Fin 4) (src dst : BitVec 4)
  /-- CKW_CMD RELOCATE writes the failed core's state to the state area and requeues the work unit (R207). -/
  | relocate (sender : Sender) (tile : Fin 4) (src dst : BitVec 4)
  /-- A CKW_CMD command ends and sets RESULT and LAST_US (R214). -/
  | ckwCmdDone (tile : Fin 4) (dstFails : Bool) (copy : CopyRead)
  /-- 10 ms after resume with no failure, the core's ROLE becomes active (R204). -/
  | watchEnd (k : Fin 48)
  /-- CKW_SLOTS ASSIGN assigns active and pawn roles from the good, unfenced slots (R10). -/
  | assign (sender : Sender) (tile : Fin 4)
  /-- A write of 1 to CKW_SLOTS FENCED fences a pawn or off slot (R210). -/
  | fencedWrite (sender : Sender) (tile : Fin 4) (mask : BitVec 12)
  /-- A write to MCS_LDR_DATA stores 8 bytes in the staging buffer, advances ADDR and clears STAGED (R221). -/
  | mcsLdrData (sender : Sender) (data : Word)
  /-- The patch loader checks the staged bundle and stages it if every check passes (R221). -/
  | verify (sender : Sender) (ecc : Bool)
  /-- The loader makes the staged bundle the active copy, measures it and rolls it out to the cores (R221). -/
  | activate (sender : Sender)
  /-- MCS_LDR_CTL DISCARD clears the staged state (R221). -/
  | mcsLdrDiscard (sender : Sender)
  /-- MCS_LDR_CTL RAISE_FLOOR blows floor fuses up to ACTIVE_GEN (R221). -/
  | raiseFloor (sender : Sender)
  /-- A core loads its patch memory and match registers from the active copy, once it holds no work unit (R222). -/
  | patchLoad (k : Fin 48)
  /-- A per-core patch load ends, so the core may execute, and PENDING falls (R222). -/
  | patchLoadDone (k : Fin 48)
  /-- The Foreman makes one placement decision in response to a queued event (R233). -/
  | foremanDecision
  /-- Every TICK_US, the Foreman makes a decision, takes work units off where needed and checks spilled deadlines (R236). -/
  | foremanTick
  /-- At the core's next instruction boundary the Foreman drains the core's buffers, saves the work unit and requeues it (R236). -/
  | takeOff (k : Fin 48)
  /-- A tile reports a sampled L3 miss to the Foreman's granule counters (R241). -/
  | missReport
  /-- At each EPOCH_MS the Foreman evaluates the migration candidates, starts migrations and halves the counters (R242). -/
  | epochEnd
  /-- Once the copy completes, the granule's home switches, the remap is broadcast and the source copy is freed (R242). -/
  | migrationSwitch (gran : BitVec 19)
  /-- A gated core with no dispatch for OFF_US is powered off (R244). -/
  | corePark (k : Fin 48)
  /-- A tile whose cores have all been off for RET_MS enters retention (R244). -/
  | tileRetention (t : Fin 4)
  /-- A write to a Foreman policy field triggers a decision and a kind 0x10 trace record (R233). -/
  | fmnPolicyWrite (sender : Sender) (off : BitVec 12) (v : Word)
  /-- FMN_EVICT START holds a core and takes its work unit off (R252). -/
  | fmnEvict (sender : Sender) (core : BitVec 8)
  /-- SEAM_CMD CREATE builds a free seam with a map base (R256). -/
  | create (sender : Sender) (n : BitVec 8)
  /-- SEAM_CMD GRANT zeroes n free granules and adds them to the seam (R260). -/
  | grant (sender : Sender) (seam : BitVec 8) (stop : Option (BitVec 20))
  /-- SEAM_CMD REVOKE removes the top n granules, purging and zeroing them (R261). -/
  | revoke (sender : Sender) (seam : BitVec 8)
  /-- SEAM_CMD SET writes one allotment selected by FIELD (R263). -/
  | set (sender : Sender) (seam : BitVec 8) (field : BitVec 8)
  /-- SEAM_CMD SEAL seals a seam that meets the preconditions (R264). -/
  | seal (sender : Sender) (seam : BitVec 8)
  /-- SEAM_CMD CHECKSTOP checkstops a seam with CAUSE 0x04 (R265). -/
  | checkstop (sender : Sender) (seam : BitVec 8)
  /-- SEAM_CMD RESET performs the S reset of a seam (R266). -/
  | reset (sender : Sender) (seam : BitVec 8)
  /-- SEAM_CMD DESTROY resets a seam, revokes its granules and frees it (R256). -/
  | destroy (sender : Sender) (seam : BitVec 8)
  /-- A seam command ends, setting RESULT and writing a Tally record (R257). -/
  | seamCmdDone
  /-- MEM_TRAIN TRAIN calibrates, deskews, tests and zero-fills a memory channel (R295). -/
  | train (sender : Sender) (ch : Fin 16)
  /-- MEM_TRAIN RESYNC copies every slot from the surviving partner of a mirrored pair (R288). -/
  | resync (sender : Sender) (ch : Fin 16)
  /-- A TRAIN or RESYNC ends, setting RESULT, TRAINED and the failure bits (R296). -/
  | memTrainDone (ch : Fin 16) (found lane : BitVec 8)
  /-- At its interval, patrol scrub reads the next line and writes back any corrected word (R291). -/
  | scrubAccess (ch : Fin 16) (single double : BitVec 16)
  /-- Every 100 ms, impedance calibration applies a new code between transfers (R292). -/
  | zqCalibration (ch : Fin 16) (code : BitVec 16)
  /-- A channel loses its devices, clock or training, poisons reads in flight and reads DOWN (R290). -/
  | channelDown (ch : Fin 16)
  /-- A hauler fetches and checks the next channel command entry of an exchange (R314). -/
  | entryFetch (die : Fin 2) (ctx : Fin 131072)
  /-- Channel command WRITE writes blocks from ADDRESS at the current LBA (R306). -/
  | write (die : Fin 2) (ctx : Fin 131072)
  /-- Channel command READ reads blocks into ADDRESS from the current LBA (R306). -/
  | read (die : Fin 2) (ctx : Fin 131072) (data : List Byte)
  /-- Channel command FLUSH issues an NVMe Flush of the namespace (R306). -/
  | flush (die : Fin 2) (ctx : Fin 131072)
  /-- Channel command LOCATE sets the current LBA (R306). -/
  | locate (die : Fin 2) (ctx : Fin 131072)
  /-- Channel command NOP does nothing (R306). -/
  | nop (die : Fin 2) (ctx : Fin 131072)
  /-- Channel command TARGET names the second target of a secured write (R307). -/
  | target (die : Fin 2) (ctx : Fin 131072)
  /-- Channel command SEND transmits one frame carrying the exchange sequence (R310). -/
  | send (die : Fin 2) (ctx : Fin 131072)
  /-- Channel command RECEIVE places matching frames into the buffer (R309). -/
  | receive (die : Fin 2) (ctx : Fin 131072)
  /-- An entry ends on its path: the next entry is fetched, or final status is placed (R314). -/
  | entryEnd (die : Fin 2) (ctx : Fin 131072) (result : NvmeEnd)
  /-- The current path fails, its data window is revoked and the entry is redriven on another path or ends with 0x20 (R315). -/
  | pathFailure (user : PathUser)
  /-- An entry that has not ended within TIMEOUT_MS is treated as a path failure (R315). -/
  | entryTimeout (user : PathUser)
  /-- An exchange that has been HALTING for 1 ms ends with code 0x04 (R314). -/
  | haltingTimeout (die : Fin 2) (ctx : Fin 131072)
  /-- The device confirms the abort of a halted command, and the exchange ends with code 0x04 (R314). -/
  | abortConfirmed (die : Fin 2) (ctx : Fin 131072)
  /-- A late transfer or completion from a failed path is discarded and counted (R315). -/
  | lateDiscard (die : Fin 2)
  /-- The peer store takes over an exchange whose store was lost or whose hot context is bad, and places status (R313). -/
  | orphaning (die : Fin 2) (ctx : Fin 131072)
  /-- When the other store returns, each unpaired exchange is entered in its peer list within 1 ms (R313). -/
  | unpairedRepair (die : Fin 2)
  /-- A PCI Express or Ethernet link goes down, causing a path failure (R383). -/
  | linkDown (lane : BitVec 7)
  /-- Every 100 ms, a down PCI Express port attempts to retrain its link (R383). -/
  | retrainAttempt (lane : BitVec 7)
  /-- A link trains, and its group becomes usable and its CHS_PATH_DOWN bit clears (R383). -/
  | linkUp (lane : BitVec 7) (width : Fin 5) (rate : BitVec 8)
  /-- An inbound PCI Express memory request or MSI write is decoded, checked and performed or refused (R384). -/
  | inboundRequest (lane : BitVec 7) (addr : Word) (req : Inbound)
  /-- An Ethernet frame arrives and is checked, buffered or dropped, with PFC applied (R388). -/
  | frameReceive (lane : BitVec 7) (frame : List Byte)
  /-- A secured entry enters JOURNAL: checks pass, the slot is allocated and the record is copied into both banks (R330). -/
  | journalCommit (die : Fin 2) (ctx : Fin 131072)
  /-- Both marks, and the peer acknowledgement with XMOD, are confirmed, and secured status is placed (R330). -/
  | commitPoint (die : Fin 2) (ctx : Fin 131072)
  /-- A target write completes, its PROG bit is set, and the entry retires once every target is written (R333). -/
  | targetWriteDone (slot : Fin 16384) (second : Bool) (result : NvmeEnd)
  /-- JNL_CMD RESTORE restores committed entries from the drain images into both banks (R341). -/
  | restore (sender : Sender) (bank : Fin 2)
  /-- JNL_CMD REDRIVE rewrites the targets of one or every held entry (R342). -/
  | redrive (sender : Sender) (bank : Fin 2)
  /-- JNL_CMD DISCARD frees a held entry (R334). -/
  | discard (sender : Sender) (bank : Fin 2)
  /-- A journal command ends and sets RESULT (R344). -/
  | jnlCmdDone
  /-- No peer acknowledgement within PEER_US frees the local entry and ends the exchange with code 0x03 (R336). -/
  | peerAckTimeout (die : Fin 2) (ctx : Fin 131072)
  /-- The drain writes the image MARK and ends (R338). -/
  | drainDone (die : Fin 2)
  /-- Hauler instruction NOP (R352). -/
  | grecelNop (h : Fin 64) (cond : Option (Fin 14))
  /-- Hauler instruction HALT stops the hauler (R352). -/
  | grecelHalt (h : Fin 64) (cond : Option (Fin 14))
  /-- Return from trap, restoring FLAGS and resuming at TNPC (R364). -/
  | rtt (h : Fin 64) (cond : Option (Fin 14))
  /-- Branch to h15 with a delay slot (R352). -/
  | ret (h : Fin 64) (cond : Option (Fin 14))
  /-- Wait clock-gated until an unmasked event is pending (R352). -/
  | wfe (h : Fin 64) (cond : Option (Fin 14))
  /-- An unmasked event ends a WFE, and the hauler resumes within 8 hauler cycles (R352). -/
  | wfeResume (h : Fin 64)
  /-- Hauler register move (R352). -/
  | mov (h : Fin 64) (cond : Option (Fin 14)) (rd rs : Fin 16)
  /-- Hauler add (R352). -/
  | grecelAdd (h : Fin 64) (cond : Option (Fin 14)) (rd rs : Fin 16)
  /-- Hauler add with carry (R352). -/
  | adc (h : Fin 64) (cond : Option (Fin 14)) (rd rs : Fin 16)
  /-- Hauler subtract (R352). -/
  | grecelSub (h : Fin 64) (cond : Option (Fin 14)) (rd rs : Fin 16)
  /-- Hauler subtract with borrow (R352). -/
  | sbc (h : Fin 64) (cond : Option (Fin 14)) (rd rs : Fin 16)
  /-- Hauler bitwise AND (R352). -/
  | grecelAnd (h : Fin 64) (cond : Option (Fin 14)) (rd rs : Fin 16)
  /-- Hauler bitwise OR (R352). -/
  | grecelOr (h : Fin 64) (cond : Option (Fin 14)) (rd rs : Fin 16)
  /-- Hauler bitwise XOR (R352). -/
  | grecelXor (h : Fin 64) (cond : Option (Fin 14)) (rd rs : Fin 16)
  /-- Hauler compare (R352). -/
  | grecelCmp (h : Fin 64) (cond : Option (Fin 14)) (rd rs : Fin 16)
  /-- Hauler test (R352). -/
  | tst (h : Fin 64) (cond : Option (Fin 14)) (rd rs : Fin 16)
  /-- Hauler shift left (R354). -/
  | shl (h : Fin 64) (cond : Option (Fin 14)) (rd rs : Fin 16)
  /-- Hauler logical shift right (R354). -/
  | shr (h : Fin 64) (cond : Option (Fin 14)) (rd rs : Fin 16)
  /-- Hauler arithmetic shift right (R354). -/
  | sar (h : Fin 64) (cond : Option (Fin 14)) (rd rs : Fin 16)
  /-- Hauler rotate left (R354). -/
  | rol (h : Fin 64) (cond : Option (Fin 14)) (rd rs : Fin 16)
  /-- Hauler multiply, low half (R352). -/
  | grecelMul (h : Fin 64) (cond : Option (Fin 14)) (rd rs : Fin 16)
  /-- Hauler unsigned multiply, high half (R352). -/
  | grecelMulh (h : Fin 64) (cond : Option (Fin 14)) (rd rs : Fin 16)
  /-- Hauler move immediate (R352). -/
  | movi (h : Fin 64) (cond : Option (Fin 14)) (rd : Fin 16) (wide : Bool) (imm : Half)
  /-- Hauler add immediate (R352). -/
  | grecelAddi (h : Fin 64) (cond : Option (Fin 14)) (rd : Fin 16) (wide : Bool) (imm : Half)
  /-- Hauler subtract immediate (R352). -/
  | subi (h : Fin 64) (cond : Option (Fin 14)) (rd : Fin 16) (wide : Bool) (imm : Half)
  /-- Hauler AND immediate (R352). -/
  | grecelAndi (h : Fin 64) (cond : Option (Fin 14)) (rd : Fin 16) (wide : Bool) (imm : Half)
  /-- Hauler OR immediate (R352). -/
  | grecelOri (h : Fin 64) (cond : Option (Fin 14)) (rd : Fin 16) (wide : Bool) (imm : Half)
  /-- Hauler XOR immediate (R352). -/
  | grecelXori (h : Fin 64) (cond : Option (Fin 14)) (rd : Fin 16) (wide : Bool) (imm : Half)
  /-- Hauler compare immediate (R352). -/
  | grecelCmpi (h : Fin 64) (cond : Option (Fin 14)) (rd : Fin 16) (wide : Bool) (imm : Half)
  /-- Hauler test immediate (R352). -/
  | tsti (h : Fin 64) (cond : Option (Fin 14)) (rd : Fin 16) (wide : Bool) (imm : Half)
  /-- Hauler shift left by an immediate count (R352). -/
  | shli (h : Fin 64) (cond : Option (Fin 14)) (rd : Fin 16) (imm : Byte)
  /-- Hauler logical shift right by an immediate count (R352). -/
  | shri (h : Fin 64) (cond : Option (Fin 14)) (rd : Fin 16) (imm : Byte)
  /-- Hauler arithmetic shift right by an immediate count (R352). -/
  | sari (h : Fin 64) (cond : Option (Fin 14)) (rd : Fin 16) (imm : Byte)
  /-- Hauler rotate left by an immediate count (R352). -/
  | roli (h : Fin 64) (cond : Option (Fin 14)) (rd : Fin 16) (imm : Byte)
  /-- Load a pit word with register-plus-displacement addressing (R352). -/
  | grecelLd (h : Fin 64) (cond : Option (Fin 14)) (rd rs : Fin 16) (mode : Fin 3) (wide : Bool) (disp : Half)
  /-- Store a pit word with register-plus-displacement addressing (R352). -/
  | st (h : Fin 64) (cond : Option (Fin 14)) (rd rs : Fin 16) (mode : Fin 3) (wide : Bool) (disp : Half)
  /-- Load a pit word at an absolute address (R352). -/
  | lda (h : Fin 64) (cond : Option (Fin 14)) (rd : Fin 16) (addr : Half)
  /-- Store a pit word at an absolute address (R352). -/
  | sta (h : Fin 64) (cond : Option (Fin 14)) (rd : Fin 16) (addr : Half)
  /-- Read a port at an absolute port number (R368). -/
  | portIn (h : Fin 64) (cond : Option (Fin 14)) (rd : Fin 16) (port : Half)
  /-- Write a port at an absolute port number (R368). -/
  | portOut (h : Fin 64) (cond : Option (Fin 14)) (rd : Fin 16) (port : Half)
  /-- Read the port whose number is in rs (R368). -/
  | inr (h : Fin 64) (cond : Option (Fin 14)) (rd rs : Fin 16)
  /-- Write the port whose number is in rs (R368). -/
  | outr (h : Fin 64) (cond : Option (Fin 14)) (rd rs : Fin 16)
  /-- Jump with a delay slot (R352). -/
  | jmp (h : Fin 64) (cond : Option (Fin 14)) (target : Half)
  /-- Call with a delay slot, saving the return address in h15 (R352). -/
  | call (h : Fin 64) (cond : Option (Fin 14)) (target : Half)
  /-- Jump to rs with a delay slot (R352). -/
  | jr (h : Fin 64) (cond : Option (Fin 14)) (rs : Fin 16)
  /-- Move a register to a special register (R347). -/
  | mts (h : Fin 64) (cond : Option (Fin 14)) (rd : Fin 16) (n : Byte)
  /-- Move a special register to a register (R347). -/
  | mfs (h : Fin 64) (cond : Option (Fin 14)) (rd : Fin 16) (n : Byte)
  /-- Set up a hardware loop level (R360). -/
  | lset (h : Fin 64) (level : Fin 4) (stop count : Half)
  /-- Ones' complement add (R352). -/
  | oca (h : Fin 64) (cond : Option (Fin 14)) (rd rs : Fin 16)
  /-- A DMA transfer ends with its RESULT, clears BUSY and sets EVT_DMA when asked (R369). -/
  | dmaDone (h : Fin 64) (c : Fin 16)
  /-- An outbound PCI Express access completes or times out and sets its result (R391). -/
  | outboundDone (h : Fin 64) (result : Fin 3) (data : Word)
  /-- TIMER reaches TCMP and sets EVT_MISC bit 3 (R368). -/
  | timerCompare (h : Fin 64)
  /-- A steward write of HLR_MBOX_TO sets EVT_MISC bit 4 of the hauler (R379). -/
  | hlrMboxTo (sender : Sender) (h : Fin 64) (v : Word)
  /-- A write of HLR_CTL RUN halts or resumes the hauler (R373). -/
  | run (sender : Sender) (h : Fin 64) (run autorun : Bool)
  /-- A write of PIT_DATA stores the selected pit word while the hauler is halted or faulted (R379). -/
  | pitData (sender : Sender) (h : Fin 64) (v : BitVec 16)
  /-- HLR_IMG_CTL START loads a hauler image into the selected haulers (R372). -/
  | load (sender : Sender) (d : Fin 2) (targets : BitVec 32)
  /-- An image load ends: targets reset, digest recorded and measurement extended (R372). -/
  | loadDone (d : Fin 2)
  /-- MCH_CMD MARCH tests one array in the given form (R374). -/
  | march (sender : Sender) (d : Fin 2) (form : Bool) (kind : BitVec 2) (index : BitVec 6)
  /-- MCH_CMD SWEEP tests every pit, the context store and the journal bank of the die destructively (R376). -/
  | sweep (sender : Sender) (d : Fin 2) (form : Bool) (kind : BitVec 2) (index : BitVec 6)
  /-- A march command ends with its result, and failing arrays are fenced (R377). -/
  | marchDone (d : Fin 2) (found : Option MarchFinding)
  /-- A coupling IDLE frame delivers acknowledgements and credits (R395). -/
  | idle (g : Fin 4) (head : FrameHead)
  /-- A NAK frame makes the sender replay from ACKSEQ + 1 (R394). -/
  | nak (g : Fin 4) (head : FrameHead)
  /-- An INIT frame advertises initial credits at link-up (R394). -/
  | init (g : Fin 4) (c0 c1 c2 c3 : BitVec 16)
  /-- A HELLO frame feeds enumeration of the coupled complex (R398). -/
  | hello (g : Fin 4) (head : FrameHead) (lot : BitVec 40) (cxid : BitVec 16) (group : BitVec 8) (lots : List (BitVec 40))
  /-- The root's ROSTER frame indexes the members (R398). -/
  | roster (g : Fin 4) (head : FrameHead) (l0 l1 l2 l3 : BitVec 40)
  /-- A STATUS frame carries a member's sticky and live summaries (R395). -/
  | status (g : Fin 4) (head : FrameHead) (sticky live : Word)
  /-- Every 100 µs a module sends a STATUS frame (R395). -/
  | statusPeriod
  /-- A remote page read arrives and is answered (R400). -/
  | pageRd (g : Fin 4) (head : FrameHead) (slot : BitVec 12) (off : BitVec 12)
  /-- A remote page write arrives and is performed if allowed (R400). -/
  | pageWr (g : Fin 4) (head : FrameHead) (slot : BitVec 12) (off : BitVec 12) (data : Word) (holds : Bool)
  /-- A remote page access response completes a CPL_RA access (R400). -/
  | pageRsp (g : Fin 4) (head : FrameHead) (result : RemoteEnd)
  /-- A peer receives the header of a journal copy and allocates space (R396). -/
  | jmHdr (g : Fin 4) (head : FrameHead) (header : BitVec 1024)
  /-- A peer receives a chunk of a journal copy, and stores the copy and acknowledges it once complete (R396). -/
  | jmData (g : Fin 4) (head : FrameHead) (payload : List Byte)
  /-- The origin receives the peer acknowledgement of a journal copy (R396). -/
  | jmAck (g : Fin 4) (head : FrameHead) (num : Word)
  /-- The origin receives a refusal of a journal copy, and the exchange ends with 0x03 (R396). -/
  | jmNack (g : Fin 4) (head : FrameHead) (num : Word)
  /-- The peer frees its copy of a retired entry (R397). -/
  | jmRetire (g : Fin 4) (head : FrameHead) (num : Word)
  /-- The origin answers a peer's list of held copies with JM_RETIRE (R397). -/
  | jmQuery (g : Fin 4) (head : FrameHead) (nums : List Word)
  /-- A coupling group that receives nothing for 10 µs is declared down (R394). -/
  | couplingSilence (g : Fin 4)
  /-- REENUM, or enabling or a group coming up, starts enumeration of the complex (R398). -/
  | reenum (sender : Sender)
  /-- CPL_ADOPT ADOPT turns a peer copy into a held local entry (R397). -/
  | adopt (sender : Sender) (member : Fin 4)
  /-- CPL_ADOPT DISCARD frees a peer copy (R397). -/
  | cplAdoptDiscard (sender : Sender) (member : Fin 4)
  /-- CPL_RA read of a remote page doubleword (R400). -/
  | cplRaRead (sender : Sender)
  /-- CPL_RA write of a remote page doubleword (R400). -/
  | cplRaWrite (sender : Sender)
  /-- Every POLL_NS a unit re-reads the idle ring's descriptor at HEAD (R406). -/
  | ringPoll (e : EngineId) (seam : Fin 64)
  /-- A unit takes a descriptor whose GO is 1 and advances HEAD (R406). -/
  | jobPickup (e : EngineId) (seam : Fin 64)
  /-- A job ends: outputs, then the descriptor line with DONE, and NOTIFY or HINT actions (R407). -/
  | jobEnd (e : EngineId) (seam : Fin 64)
  /-- A quantum ends: the job is saved and the next quantum's ring is scrubbed and restored (R409). -/
  | quantumEnd (e : EngineId)
  /-- Crusher DEFLATE compression (R414). -/
  | compress (n : Fin 4) (seam : Fin 64)
  /-- Crusher DEFLATE decompression (R415). -/
  | decompress (n : Fin 4) (seam : Fin 64)
  /-- AES-GCM encryption with tag (R416). -/
  | aesGcmEncrypt (n : Fin 8) (seam : Fin 64)
  /-- AES-GCM decryption with tag check (R416). -/
  | aesGcmDecrypt (n : Fin 8) (seam : Fin 64)
  /-- AES-XTS encryption of one data unit (R416). -/
  | aesXtsEncrypt (n : Fin 8) (seam : Fin 64)
  /-- AES-XTS decryption of one data unit (R416). -/
  | aesXtsDecrypt (n : Fin 8) (seam : Fin 64)
  /-- AES-CBC encryption (R416). -/
  | aesCbcEncrypt (n : Fin 8) (seam : Fin 64)
  /-- AES-CBC decryption (R416). -/
  | aesCbcDecrypt (n : Fin 8) (seam : Fin 64)
  /-- SHA-2 or SHA-3 digest (R416). -/
  | hash (n : Fin 8) (seam : Fin 64)
  /-- ECDSA signature with an RFC 6979 nonce (R416). -/
  | ecdsaSign (n : Fin 8) (seam : Fin 64)
  /-- ECDSA signature verification (R416). -/
  | ecdsaVerify (n : Fin 8) (seam : Fin 64)
  /-- Ed25519 signature (R416). -/
  | ed25519Sign (n : Fin 8) (seam : Fin 64)
  /-- Ed25519 verification (R416). -/
  | ed25519Verify (n : Fin 8) (seam : Fin 64)
  /-- RSA signature verification (R416). -/
  | rsaVerify (n : Fin 8) (seam : Fin 64)
  /-- DRBG output from a seam's instance, reseeding first when due (R421). -/
  | generate (seam : Fin 64)
  /-- Reseed a DRBG instance (R421). -/
  | reseed (seam : Fin 64)
  /-- 896 raw bits are health-tested and conditioned into a block, or a test failure sets STATE failed (R419). -/
  | entropyBlock (raw : BitVec 896)
  /-- ENT_CTL RESTART runs the start-up health test (R419). -/
  | restart (sender : Sender)
  /-- ENT_CTL RAW enters raw mode (R427). -/
  | raw (sender : Sender)
  /-- Hash ATT_LEN bytes at ATT_ADDR and extend the measurement log (R424). -/
  | measure (sender : Sender) (kind : BitVec 8) (subject : BitVec 16)
  /-- Extend the measurement log with a declared digest (R424). -/
  | declare (sender : Sender) (kind : BitVec 8) (subject : BitVec 16)
  /-- Write a signed attestation report with the auditor's nonce (R425). -/
  | report (sender : Sender) (kind : BitVec 8) (subject : BitVec 16)
  /-- An attestation command ends and sets RESULT (R425). -/
  | attDone
  /-- CUBE_OP REQUEST records a steward's request for the cube (R431). -/
  | request (n : Fin 2)
  /-- CUBE_OP RENEW restarts the holder's lease (R432). -/
  | renew (n : Fin 2)
  /-- CUBE_OP RELEASE ends the holder's lease (R432). -/
  | release (n : Fin 2)
  /-- At a tick with no holder and a pending request, the arbiter grants the cube (R431). -/
  | cubeGrant
  /-- The lease expires when REMAIN_US reaches 0, setting EXPIRED (R432). -/
  | leaseExpiry
  /-- STW_REPL_CTL EPOCH copies an epoch into the peer store (R437). -/
  | epoch (sender : Sender) (n : Fin 2) (len : BitVec 22) (step : Byte) (source : List Byte) (bad : Bool)
  /-- STW_REPL_CTL JLOG appends one steward journal record to the peer store (R438). -/
  | jlog (sender : Sender) (n : Fin 2) (len : BitVec 22) (source : List Byte) (bad : Bool)
  /-- An EPOCH or JLOG ends with its RESULT (R439). -/
  | replDone (n : Fin 2)
  /-- After P, M or U of a steward, the boot ROM verifies an image slot, measures it and starts the firmware or halts (R444). -/
  | bootRom (n : Fin 2) (flash : Bool) (a b : FlashSlot)
  /-- STW_FWFLOOR RAISE blows floor fuses up to the holder's FW_GEN (R449). -/
  | raise (sender : Sender)
  /-- A rising fault pair is reported by its node to the root, which records it and starts a canary interval where its class requires
  (R452). -/
  | faultReport (u : UnitId) (index : BitVec 8) (peer : Option UnitId) (syndrome : Word) (held : Bool)
  /-- A fault pair held equal for more than 2 collector clocks is reported as a wire fault (R451). -/
  | wireFault (u : UnitId)
  /-- A report waiting at a full node enters the queue when an entry frees (R454). -/
  | nodeQueueEntry (node : Fin 7)
  /-- A write of a slot number to FLT_ACK acknowledges its canary interval and frees the slot (R456). -/
  | fltAck (sender : Sender) (slot : Fin 64)
  /-- A write of 1 to FLT_NOTICE_POP removes the oldest notice (R472). -/
  | fltNoticePop (sender : Sender)
  /-- An unacknowledged canary interval expires and rung 1 fences the unit (R459). -/
  | canaryExpiry (slot : Fin 64)
  /-- 10 µs after rung 1, the unit is U reset (R459). -/
  | rung2 (slot : Fin 64)
  /-- After the rung-2 reset, the fence is lifted or rung 3 and rung 4 follow (R459). -/
  | ladderCheck (slot : Fin 64)
  /-- A consequential window closes, writes its summary and re-reports faults still present (R462). -/
  | conseqWindowClose (u : UnitId)
  /-- Every 1 µs the Tally writes one buffered record to MRAM (R465). -/
  | tallyWrite (fails : Bool)
  /-- Every 60 s the operating time is committed to MRAM (R466). -/
  | optimeCommit
  /-- TLY_WRITE GO enters a steward record in the Tally (R470). -/
  | tlyWrite (sender : Sender) (event : BitVec 16) (seam : BitVec 8)
  /-- VIN valid for 10 ms starts P, which ends with PWRGOOD and Tally and drain-store scans (R484). -/
  | powerOn (vin : BitVec 16) (removed : Bool)
  /-- MRST_N low for 1 µs starts an M reset (R484). -/
  | mrstNLow
  /-- MRST_N returning high lets M complete and the boot ROMs start (R484). -/
  | mrstNHigh
  /-- VAVG crossing a boundary moves the module to another supply envelope (R475). -/
  | envelopeChange (vavg : BitVec 16)
  /-- Every 10 µs P_CORE_W and the charging current are recomputed (R476). -/
  | pCoreRecompute (inW : BitVec 16)
  /-- P_CUT rises every 100 µs under overload or heat, and falls every 100 ms after (R477). -/
  | pCutStep (limit : Bool)
  /-- A converter phase fails and its switch opens (R478). -/
  | phaseFail (phase : Fin 12)
  /-- One always-on regulator is lost and AO_SUPPLY is set (R479). -/
  | aoSupplyLoss (which : Fin 2)
  /-- The crystal stops or drifts, and always-on time is taken from the reference (R481). -/
  | xtalFail
  /-- The reference stops for 10 µs, and the fast PLLs lose lock (R481). -/
  | refLost
  /-- PWR_CMD STANDBY enters module standby Y (R483). -/
  | standby (sender : Sender)
  /-- PWR_CMD WAKE powers the module from standby (R483). -/
  | wake (sender : Sender)
  /-- PWR_CMD OFF runs the hold-up drain sequence without a declaration (R490). -/
  | off (sender : Sender)
  /-- Input failure is declared, and the module enters hold-up drain (R489). -/
  | powerFailDeclare (cause : BitVec 8) (vin mean : BitVec 16)
  /-- After the drain and the Tally commit, the I/O dies and service die are powered off (R490). -/
  | holdupPowerDown
  /-- HLD_CFG TEST starts a capacitance and ESR test of the hold-up bank (R487). -/
  | bankTest (sender : Sender) (testEn : Bool) (hours : BitVec 8)
  /-- At the first full charge and every TEST_HOURS, the bank test starts (R487). -/
  | bankTestPeriodic
  /-- The bank test ends and records C and ESR in HLD_TEST (R487). -/
  | bankTestDone (c : BitVec 24) (esr : BitVec 16)
  /-- Every 1 ms E_USABLE and ENOUGH are recomputed (R488). -/
  | energyRecompute (v : BitVec 16)
  /-- A bank not within 1 V of 56 V after 10 s of full charging sets CHARGE_FAIL (R486). -/
  | chargeTimeout
  /-- The monitor samples a channel and sets its ENV_ALARM bit outside its limits (R491). -/
  | envSample (channel : Fin 32) (code : BitVec 14)
  /-- Boundary-scan BYPASS instruction (R503). -/
  | bypass
  /-- Boundary-scan SAMPLE/PRELOAD instruction (R503). -/
  | samplePreload (lands cells : BitVec 3312)
  /-- Boundary-scan EXTEST instruction, effective only while MRST_N is low (R503). -/
  | extest (lands cells : BitVec 3312)
  /-- Boundary-scan IDCODE instruction (R503). -/
  | idcode
  /-- TRST_N low resets the test access port (R503). -/
  | trstNLow
  /-- The oldest committed store leaves the core's store buffer into the store-gather buffer, requesting ownership of its line where
  needed (R126). -/
  | storeBufferEntryLeave (k : Fin 48)
  /-- The hold-up bank falls to the 20 V cut-off before the drain ends, leaving the drain image incomplete and the dies unpowered (R490). -/
  | holdupCutoff (writing : Bool)
  /-- A coupling frame arrives with a bad CRC or an out-of-order SEQ; it is discarded and a NAK is sent (R394). -/
  | couplingFrameCrcError (g : Fin 4)
  /-- A coupling frame with a reserved TYPE arrives, is handled as a CREDIT_ERR and takes the group down (R395). -/
  | reservedFrameType (g : Fin 4) (type : BitVec 8)
  /-- A coupling lane fails, so its group runs at half rate with DEGRADED and LANE_FAIL set, or goes down with fewer than two good
  lanes (R392). -/
  | couplingLaneFail (g : Fin 4) (lane : Fin 4)
  /-- One of the two phase controllers fails, and the other takes all phases within 5 µs (R478). -/
  | phaseControllerFail (which : Fin 2)
  /-- A short in one VIN quadrant opens its electronic fuse, losing three phases and limiting P_AVAIL (R478). -/
  | quadrantShort (quadrant : Fin 4)
  /-- A patch loader VERIFY, DISCARD or RAISE_FLOOR operation ends, sets RESULT and clears BUSY (R221). -/
  | mcsLdrDone
  /-- The entropy start-up test of 65,536 raw bits ends after 16.4 µs, leaving the source healthy or failed with RESULT set (R419). -/
  | startupTestDone (raw : BitVec 65536)
  /-- A CPL_RA remote access with no response within 5 µs ends with RESULT 0x04 (R400). -/
  | cplRaTimeout
  /-- A rung-2 U reset that has not completed within 1 ms sends the ladder to rung 3 (R459). -/
  | ladderResetTimeout (slot : Fin 64)
  /-- An undefined primary or extended Ezxis opcode is executed, is nullified and raises operation exception 0x0001 (R56). -/
  | operationException (k : Fin 48) (w : BitVec 48)
  /-- A hauler executes a reserved Grecel byte sequence and traps with cause 0x01 (R354). -/
  | reservedEncoding (h : Fin 64)
  deriving DecidableEq, Repr

end Sys2Proof
end

