-- ==== Sys2Proof/WellFormed.lean ====
section
/-! DEFINITION. Well-formed commands: the operands that the types of Instr leave too wide name units, caches and registers that exist. -/

namespace Sys2Proof

open Machine

/-- A unit operand that may be absent. -/
def optUnit (u : Option UnitId) : Bool := u.all UnitId.valid

/-- An atomic acts on an aligned operand of 4 or 8 bytes in its line (R122). -/
def Machine.AtomicReq.wf (a : AtomicReq) : Bool := (a.size == 4 || a.size == 8) && a.off % a.size == 0 && decide (a.off + a.size ≤ 128)

def optAtomic (a : Option AtomicReq) : Bool := a.all AtomicReq.wf

/-- A hint names one of 48 cores or 4 tiles (R145). -/
def Machine.HintTarget.wf : HintTarget → Bool
  | .l2 k => decide (k < 48)
  | .l3 t => decide (t < 4)

def optHint (h : Option HintTarget) : Bool := h.all HintTarget.wf

/-- A register is an aligned doubleword of its page (R28). -/
def wholeRegister (off : BitVec 12) : Bool := off.toNat % 8 == 0

/-- Is a command well-formed? -/
def Instr.wf : Instr → Bool
  | .registerWrite .. => true
  | .clrOwn _ u => u.valid
  | .clrOne _ u _ => u.valid
  | .uResetRequest _ u _ => u.valid
  | .uResetComplete u _ => u.valid
  | .unitPowerWrite _ u _ _ => u.valid
  | .powerTransitionDone u => u.valid
  | .unitOwnerWrite _ u _ => u.valid
  | .preloadDone u => u.valid
  | .lockRelease _ u _ => u.valid
  | .trdx _ _ _ atomic => optAtomic atomic
  | .rdxA _ _ _ a => a.wf
  | .ior u _ _ => u.valid
  | .iow u _ _ _ _ h => u.valid && optHint h
  | .hint tgt _ _ _ _ => tgt.wf
  | .ioCmp u _ => u.valid
  | .iodata u _ => u.valid
  | .fmnPolicyWrite _ reg _ => wholeRegister reg
  | .pageRd .. => true
  | .pageWr .. => true
  | .faultReport u _ peer _ _ => u.valid && optUnit peer
  | .wireFault u => u.valid
  | .conseqWindowClose u => u.valid
  | .pitClearDone .. | .cqHeadWrite .. | .deviceStoreAccept .. | .lb .. | .lbu .. | .lh .. | .lhu .. | .lw .. | .lwu .. | .ld ..
  | .lq .. | .stb .. | .sth .. | .stw .. | .std .. | .stq .. | .la .. | .lf .. | .lf32 .. | .lfq .. | .stf .. | .stf32 ..
  | .stfq .. | .bc .. | .bal .. | .bcl .. | .ball .. | .brr .. | .balr .. | .movr .. | .fmovr .. | .ftog .. | .gtof .. | .lil ..
  | .lih .. | .addil .. | .cmpil .. | .issue .. | .test .. | .halt .. | .enqw .. | .yield .. | .wait .. | .barl .. | .bars ..
  | .barf .. | .isync .. | .lsw .. | .rfi .. | .lctl .. | .stctl .. | .ptlb .. | .rdtb .. | .svc .. | .add .. | .addl ..
  | .sub .. | .subl .. | .mul .. | .mulh .. | .mulhu .. | .div .. | .divu .. | .neg .. | .and .. | .or .. | .xor .. | .sll ..
  | .srl .. | .sra .. | .rotl .. | .cmp .. | .cmpl .. | .addi .. | .cmpi .. | .andi .. | .ori .. | .xori .. | .li .. | .lfpc ..
  | .stfpc .. | .fadd .. | .fsub .. | .fmul .. | .fdiv .. | .fsqrt .. | .fma .. | .fcmp .. | .fcmps .. | .fcvti .. | .icvtf ..
  | .frnd .. | .fneg .. | .fabs .. | .dadd .. | .dsub .. | .dmul .. | .ddiv .. | .dsqrt .. | .dqua .. | .dcmp .. | .dcmps ..
  | .dcvti .. | .icvtd .. | .drnd .. | .cswp .. | .swp .. | .ladd .. | .clna .. | .inva .. | .clia .. | .clnr .. | .invr ..
  | .clir .. | .clns .. | .invs .. | .clis .. | .groupCompare .. | .interruption .. | .deadlineMatch .. | .waitDeadline ..
  | .gatherEntryTimeout .. | .l2Preload .. | .l3Preload .. | .l3FlushClean .. | .l3FlushInvalidate ..
  | .l3FlushCleanInvalidate .. | .l3FlushDone .. | .trd .. | .tdown .. | .tkill .. | .rds .. | .rdx .. | .upg .. | .mnt ..
  | .inv .. | .snps .. | .snpx .. | .invack .. | .snpack .. | .snpd .. | .hintack .. | .hintdecl .. | .done .. | .datas ..
  | .datae .. | .datam .. | .gntx .. | .atmr .. | .wback .. | .retry .. | .retryResend .. | .wb .. | .evc ..
  | .hotWindowExpiry .. | .tileTransactionTimeout .. | .homeTransactionTimeout .. | .slotReplay .. | .channelRead ..
  | .channelWrite .. | .promote .. | .rotate .. | .relocate .. | .ckwCmdDone .. | .watchEnd .. | .assign .. | .fencedWrite ..
  | .mcsLdrData .. | .verify .. | .activate .. | .mcsLdrDiscard .. | .raiseFloor .. | .patchLoad .. | .patchLoadDone ..
  | .foremanDecision | .foremanTick | .takeOff .. | .missReport | .epochEnd | .migrationSwitch .. | .corePark ..
  | .tileRetention .. | .fmnEvict .. | .create .. | .grant .. | .revoke .. | .set .. | .seal .. | .checkstop .. | .reset ..
  | .destroy .. | .seamCmdDone | .train .. | .resync .. | .memTrainDone .. | .scrubAccess .. | .zqCalibration ..
  | .channelDown .. | .entryFetch .. | .write .. | .read .. | .flush .. | .locate .. | .nop .. | .target .. | .send ..
  | .receive .. | .entryEnd .. | .pathFailure .. | .entryTimeout .. | .haltingTimeout .. | .abortConfirmed .. | .lateDiscard ..
  | .orphaning .. | .unpairedRepair .. | .linkDown .. | .retrainAttempt .. | .linkUp .. | .inboundRequest .. | .frameReceive ..
  | .journalCommit .. | .commitPoint .. | .targetWriteDone .. | .restore .. | .redrive .. | .discard .. | .jnlCmdDone
  | .peerAckTimeout .. | .drainDone .. | .grecelNop .. | .grecelHalt .. | .rtt .. | .ret .. | .wfe .. | .wfeResume .. | .mov ..
  | .grecelAdd .. | .adc .. | .grecelSub .. | .sbc .. | .grecelAnd .. | .grecelOr .. | .grecelXor .. | .grecelCmp .. | .tst ..
  | .shl .. | .shr .. | .sar .. | .rol .. | .grecelMul .. | .grecelMulh .. | .movi .. | .grecelAddi .. | .subi ..
  | .grecelAndi .. | .grecelOri .. | .grecelXori .. | .grecelCmpi .. | .tsti .. | .shli .. | .shri .. | .sari .. | .roli ..
  | .grecelLd .. | .st .. | .lda .. | .sta .. | .portIn .. | .portOut .. | .inr .. | .outr .. | .jmp .. | .call .. | .jr ..
  | .mts .. | .mfs .. | .lset .. | .oca .. | .dmaDone .. | .outboundDone .. | .timerCompare .. | .hlrMboxTo .. | .run ..
  | .pitData .. | .load .. | .loadDone .. | .march .. | .sweep .. | .marchDone .. | .idle .. | .nak .. | .init .. | .hello ..
  | .roster .. | .status .. | .statusPeriod | .pageRsp .. | .jmHdr .. | .jmData .. | .jmAck .. | .jmNack .. | .jmRetire ..
  | .jmQuery .. | .couplingSilence .. | .reenum .. | .adopt .. | .cplAdoptDiscard .. | .cplRaRead .. | .cplRaWrite ..
  | .ringPoll .. | .jobPickup .. | .jobEnd .. | .quantumEnd .. | .compress .. | .decompress .. | .aesGcmEncrypt ..
  | .aesGcmDecrypt .. | .aesXtsEncrypt .. | .aesXtsDecrypt .. | .aesCbcEncrypt .. | .aesCbcDecrypt .. | .hash .. | .ecdsaSign ..
  | .ecdsaVerify .. | .ed25519Sign .. | .ed25519Verify .. | .rsaVerify .. | .generate .. | .reseed .. | .entropyBlock ..
  | .restart .. | .raw .. | .measure .. | .declare .. | .report .. | .attDone | .request .. | .renew .. | .release ..
  | .cubeGrant | .leaseExpiry | .epoch .. | .jlog .. | .replDone .. | .bootRom .. | .raise .. | .nodeQueueEntry .. | .fltAck ..
  | .fltNoticePop .. | .canaryExpiry .. | .rung2 .. | .ladderCheck .. | .tallyWrite .. | .optimeCommit | .tlyWrite ..
  | .powerOn .. | .mrstNLow | .mrstNHigh | .envelopeChange .. | .pCoreRecompute .. | .pCutStep .. | .phaseFail ..
  | .aoSupplyLoss .. | .xtalFail | .refLost | .standby .. | .wake .. | .off .. | .powerFailDeclare .. | .holdupPowerDown
  | .bankTest .. | .bankTestPeriodic | .bankTestDone .. | .energyRecompute .. | .chargeTimeout | .envSample .. | .bypass
  | .samplePreload .. | .extest .. | .idcode | .trstNLow | .storeBufferEntryLeave .. | .holdupCutoff ..
  | .couplingFrameCrcError .. | .reservedFrameType .. | .couplingLaneFail .. | .phaseControllerFail .. | .quadrantShort ..
  | .mcsLdrDone | .startupTestDone .. | .cplRaTimeout | .ladderResetTimeout .. | .operationException .. | .reservedEncoding .. => true

end Sys2Proof
end

