-- ==== Sys2Proof/Decode.lean ====
section
/-! DEFINITION. Command words. spec/opcode_table.json gives the bits of no row, so no word spells a command (log entry 68). -/

namespace Sys2Proof

/-- The command that a word of `nbits` bits spells: the table gives bits for no row. -/
def decodeTableWord (_nbits _w : Nat) : Option Instr := none

end Sys2Proof
end

