-- ==== Sys2Proof/Config.lean ====
section
/-! DEFINITION. What an implementation fixes and the spec leaves open: free values without a body (nothing can be proved of
their value), and the constants of one module (fuses, keys, ROM contents, page placement). Log entries 4, 7 and 13. -/

namespace Sys2Proof

/-- A free value: the `n`-th value that the spec leaves open in a run (log entry 7). -/
opaque Config.freeWord : Nat → Word

/-- The page slot of a unit, by type code and instance (R13, R26; log entry 4). The module page is in slot 0. -/
opaque Config.slotOf : Nat → Nat → Nat

/-- The offset of the child list within a unit's page (R38; log entry 4). -/
opaque Config.childList : Nat → Nat

/-- The fabrication lot of a die slot, and the module assembly lot for slot 0xFF (R15; log entry 13). -/
opaque Config.lot : Nat → BitVec 40

/-- Wafer, column and row of a die slot (R15; log entry 13). -/
opaque Config.waferXY : Nat → BitVec 24

/-- ROM_ID of the microcode ROM of stepping B1 (R225). -/
def romId : Nat := 0x7240B104

/-- Key hashes of the microcode and firmware signing keys: doubleword `i` (R220, R442; log entry 13). -/
opaque Config.mcsKeyHash : Nat → Word
opaque Config.fwKeyHash : Nat → Word

/-- The private device key, as a number (R422; log entry 13). -/
opaque Config.deviceKey : Nat

/-- The device key certificate, byte by byte, and its length (R422; log entry 13). -/
opaque Config.certByte : Nat → Byte
opaque Config.certLen : Nat

/-- The contents of the boot ROM and of the microcode ROM as the measurement log sees them (R444; log entry 13). -/
opaque Config.bootRomDigest : Nat → Byte

/-- The microwords of the microcode ROM by microaddress, and the microaddresses that the microcode of the `n`-th open value's instruction
fetches (R215, R217; log entry 114). -/
opaque Config.romWord : Nat → BitVec 32
opaque Config.microPath : Nat → List Nat

/-- The body that the compressor's match search gives for a coding, a dictionary and an input (R414; log entry 14). -/
opaque Config.deflateBody (coding : Nat) (dict input : List Byte) : List Byte

end Sys2Proof
end

