-- ==== Sys2Proof/Machine/RegTable.lean ====
section
/-! DEFINITION. The register fields of every unit page, as the register tables of the chapters give them (R5, R34 and the
page rules R165, R166, R188-R190, R212-R214, R225-R226, R253-R254, R273-R275, R296-R298, R324, R344-R345, R379-R380, R401-R403,
R426-R428, R447-R448, R471-R473, R493): offset, bits, access code, reset value and the codes under Kept across. -/

namespace Sys2Proof.Machine

/-- The access codes of R5. -/
inductive Access where
  | ro | rw | rwl | w1c | wo | rs
  deriving DecidableEq, Repr

/-- What the Reset column of a field holds (R7): a value, a fuse value, or hardware state. -/
inductive ResetKind where
  | value | fuse | hw
  deriving DecidableEq, Repr

/-- The place of a field: byte offset of its register (element 0 of an array), array stride, bits `lo:hi` (R4). -/
structure Field where
  off : Nat
  stride : Nat
  lo : Nat
  hi : Nat
  deriving DecidableEq, Repr

/-- Element `i` of an array of registers. -/
def Field.ix (f : Field) (i : Nat) : Field := { f with off := f.off + i * f.stride }

/-- A row of a register table (R5). `kept` is the sum of the codes of R8 under Kept across:
P 1, M 2, U 4, S 8, G 16, O 32, T 64, Y 128, H 256. -/
structure Row where
  field : Field
  count : Nat
  access : Access
  kind : ResetKind
  reset : Nat
  kept : Nat
  deriving DecidableEq, Repr

namespace Reg

/-- UNIT_TYPE TYPE, bits 0:15 (R34). -/
abbrev UNIT_TYPE.TYPE : Field := ⟨0x000, 0, 0, 15⟩
/-- UNIT_TYPE INSTANCE, bits 16:31 (R34). -/
abbrev UNIT_TYPE.INSTANCE : Field := ⟨0x000, 0, 16, 31⟩
/-- UNIT_TYPE DEPTH, bits 32:39 (R34). -/
abbrev UNIT_TYPE.DEPTH : Field := ⟨0x000, 0, 32, 39⟩

/-- UNIT_REV STEP_LETTER, bits 0:7 (R35). -/
abbrev UNIT_REV.STEP_LETTER : Field := ⟨0x008, 0, 0, 7⟩
/-- UNIT_REV STEP_DIGIT, bits 8:15 (R35). -/
abbrev UNIT_REV.STEP_DIGIT : Field := ⟨0x008, 0, 8, 15⟩
/-- UNIT_REV LAYOUT, bits 16:31 (R35). -/
abbrev UNIT_REV.LAYOUT : Field := ⟨0x008, 0, 16, 31⟩

/-- UNIT_LOT LOT, bits 24:63 (R37). -/
abbrev UNIT_LOT.LOT : Field := ⟨0x010, 0, 24, 63⟩

/-- UNIT_DIEPOS WAFER, bits 0:7 (R37). -/
abbrev UNIT_DIEPOS.WAFER : Field := ⟨0x018, 0, 0, 7⟩
/-- UNIT_DIEPOS DIE_X, bits 8:15 (R37). -/
abbrev UNIT_DIEPOS.DIE_X : Field := ⟨0x018, 0, 8, 15⟩
/-- UNIT_DIEPOS DIE_Y, bits 16:23 (R37). -/
abbrev UNIT_DIEPOS.DIE_Y : Field := ⟨0x018, 0, 16, 23⟩
/-- UNIT_DIEPOS SLOT, bits 24:31 (R37). -/
abbrev UNIT_DIEPOS.SLOT : Field := ⟨0x018, 0, 24, 31⟩

/-- UNIT_CHILDREN COUNT, bits 0:15 (R37). -/
abbrev UNIT_CHILDREN.COUNT : Field := ⟨0x020, 0, 0, 15⟩
/-- UNIT_CHILDREN LIST, bits 16:31 (R37). -/
abbrev UNIT_CHILDREN.LIST : Field := ⟨0x020, 0, 16, 31⟩

/-- UNIT_STICKY OWN, bits 0:0 (R38). -/
abbrev UNIT_STICKY.OWN : Field := ⟨0x028, 0, 0, 0⟩
/-- UNIT_STICKY ANY_CHILD, bits 1:1 (R38). -/
abbrev UNIT_STICKY.ANY_CHILD : Field := ⟨0x028, 0, 1, 1⟩
/-- UNIT_STICKY CHILD, bits 2:63 (R38). -/
abbrev UNIT_STICKY.CHILD : Field := ⟨0x028, 0, 2, 63⟩

/-- UNIT_STICKY_CLR CLR_OWN, bits 0:0 (R38). -/
abbrev UNIT_STICKY_CLR.CLR_OWN : Field := ⟨0x030, 0, 0, 0⟩
/-- UNIT_STICKY_CLR CLR_ONE, bits 1:1 (R38). -/
abbrev UNIT_STICKY_CLR.CLR_ONE : Field := ⟨0x030, 0, 1, 1⟩
/-- UNIT_STICKY_CLR INDEX, bits 56:63 (R38). -/
abbrev UNIT_STICKY_CLR.INDEX : Field := ⟨0x030, 0, 56, 63⟩

/-- UNIT_LIVE OWN_LIVE, bits 0:0 (R38). -/
abbrev UNIT_LIVE.OWN_LIVE : Field := ⟨0x038, 0, 0, 0⟩
/-- UNIT_LIVE ANY_CHILD_LIVE, bits 1:1 (R38). -/
abbrev UNIT_LIVE.ANY_CHILD_LIVE : Field := ⟨0x038, 0, 1, 1⟩
/-- UNIT_LIVE CHILD_LIVE, bits 2:63 (R38). -/
abbrev UNIT_LIVE.CHILD_LIVE : Field := ⟨0x038, 0, 2, 63⟩

/-- UNIT_RESET REQ, bits 0:0 (R38). -/
abbrev UNIT_RESET.REQ : Field := ⟨0x040, 0, 0, 0⟩
/-- UNIT_RESET BUSY, bits 1:1 (R38). -/
abbrev UNIT_RESET.BUSY : Field := ⟨0x040, 0, 1, 1⟩
/-- UNIT_RESET ABSORBED, bits 2:2 (R38). -/
abbrev UNIT_RESET.ABSORBED : Field := ⟨0x040, 0, 2, 2⟩
/-- UNIT_RESET LAST, bits 8:15 (R38). -/
abbrev UNIT_RESET.LAST : Field := ⟨0x040, 0, 8, 15⟩

/-- UNIT_POWER STATE, bits 0:2 (R39). -/
abbrev UNIT_POWER.STATE : Field := ⟨0x048, 0, 0, 2⟩
/-- UNIT_POWER REQ, bits 4:5 (R39). -/
abbrev UNIT_POWER.REQ : Field := ⟨0x048, 0, 4, 5⟩
/-- UNIT_POWER PIN, bits 6:6 (R39). -/
abbrev UNIT_POWER.PIN : Field := ⟨0x048, 0, 6, 6⟩

/-- UNIT_OWNER OWNER, bits 0:7 (R41). -/
abbrev UNIT_OWNER.OWNER : Field := ⟨0x050, 0, 0, 7⟩

/-- UNIT_CFGLOCK LOCK, bits 0:0 (R42). -/
abbrev UNIT_CFGLOCK.LOCK : Field := ⟨0x058, 0, 0, 0⟩

/-- L1_CFG L1I_NL_EN, bits 0:0 (R165). -/
abbrev L1_CFG.L1I_NL_EN : Field := ⟨0x400, 0, 0, 0⟩
/-- L1_CFG L1D_PF_EN, bits 1:1 (R165). -/
abbrev L1_CFG.L1D_PF_EN : Field := ⟨0x400, 0, 1, 1⟩

/-- L1_ECC L1I_CORR, bits 0:31 (R165). -/
abbrev L1_ECC.L1I_CORR : Field := ⟨0x408, 0, 0, 31⟩
/-- L1_ECC L1D_CORR, bits 32:63 (R165). -/
abbrev L1_ECC.L1D_CORR : Field := ⟨0x408, 0, 32, 63⟩

/-- L1_STATUS L1D_UNCORR, bits 0:0 (R165). -/
abbrev L1_STATUS.L1D_UNCORR : Field := ⟨0x410, 0, 0, 0⟩

/-- L2_PF_CFG PF_EN, bits 0:0 (R165). -/
abbrev L2_PF_CFG.PF_EN : Field := ⟨0x500, 0, 0, 0⟩
/-- L2_PF_CFG DEGREE, bits 1:3 (R165). -/
abbrev L2_PF_CFG.DEGREE : Field := ⟨0x500, 0, 1, 3⟩
/-- L2_PF_CFG CONFIRM, bits 4:5 (R165). -/
abbrev L2_PF_CFG.CONFIRM : Field := ⟨0x500, 0, 4, 5⟩
/-- L2_PF_CFG FAR_L3, bits 6:6 (R165). -/
abbrev L2_PF_CFG.FAR_L3 : Field := ⟨0x500, 0, 6, 6⟩

/-- L2_LOCK LOCKED, bits 0:7 (R165). -/
abbrev L2_LOCK.LOCKED : Field := ⟨0x508, 0, 0, 7⟩
/-- L2_LOCK OWNER, bits 8:15 (R165). -/
abbrev L2_LOCK.OWNER : Field := ⟨0x508, 0, 8, 15⟩

/-- L2_PRELOAD_BASE BASE, bits 16:56 (R165). -/
abbrev L2_PRELOAD_BASE.BASE : Field := ⟨0x510, 0, 16, 56⟩

/-- L2_PRELOAD_CTL WAYS, bits 0:7 (R165). -/
abbrev L2_PRELOAD_CTL.WAYS : Field := ⟨0x518, 0, 0, 7⟩
/-- L2_PRELOAD_CTL START, bits 8:8 (R165). -/
abbrev L2_PRELOAD_CTL.START : Field := ⟨0x518, 0, 8, 8⟩
/-- L2_PRELOAD_CTL BUSY, bits 9:9 (R165). -/
abbrev L2_PRELOAD_CTL.BUSY : Field := ⟨0x518, 0, 9, 9⟩
/-- L2_PRELOAD_CTL DONE, bits 10:10 (R165). -/
abbrev L2_PRELOAD_CTL.DONE : Field := ⟨0x518, 0, 10, 10⟩
/-- L2_PRELOAD_CTL LINES, bits 16:39 (R165). -/
abbrev L2_PRELOAD_CTL.LINES : Field := ⟨0x518, 0, 16, 39⟩

/-- L2_PRELOAD_MISSED PRELOAD_MISSED, bits 0:31 (R165). -/
abbrev L2_PRELOAD_MISSED.PRELOAD_MISSED : Field := ⟨0x520, 0, 0, 31⟩

/-- L2_MAINT_SKIP COUNT, bits 0:31 (R165). -/
abbrev L2_MAINT_SKIP.COUNT : Field := ⟨0x528, 0, 0, 31⟩

/-- L2_LOCKSTAT LOCK_LOST, bits 0:0 (R165). -/
abbrev L2_LOCKSTAT.LOCK_LOST : Field := ⟨0x530, 0, 0, 0⟩
/-- L2_LOCKSTAT LOST_LINES, bits 32:63 (R165). -/
abbrev L2_LOCKSTAT.LOST_LINES : Field := ⟨0x530, 0, 32, 63⟩

/-- L2_HINT ACCEPTED, bits 0:31 (R165). -/
abbrev L2_HINT.ACCEPTED : Field := ⟨0x538, 0, 0, 31⟩
/-- L2_HINT DECLINED, bits 32:63 (R165). -/
abbrev L2_HINT.DECLINED : Field := ⟨0x538, 0, 32, 63⟩

/-- L2_ECC CORR, bits 0:31 (R165). -/
abbrev L2_ECC.CORR : Field := ⟨0x540, 0, 0, 31⟩
/-- L2_ECC UNCORR, bits 32:32 (R165). -/
abbrev L2_ECC.UNCORR : Field := ⟨0x540, 0, 32, 32⟩

/-- L3_WAYOWN0 WAYOWN0, bits 0:63 (R166). -/
abbrev L3_WAYOWN0.WAYOWN0 : Field := ⟨0x080, 0, 0, 63⟩

/-- L3_WAYOWN1 WAYOWN1, bits 0:63 (R166). -/
abbrev L3_WAYOWN1.WAYOWN1 : Field := ⟨0x088, 0, 0, 63⟩

/-- L3_LOCK LOCKED, bits 0:7 (R166). -/
abbrev L3_LOCK.LOCKED : Field := ⟨0x090, 0, 0, 7⟩

/-- L3_PRELOAD_BASE BASE, bits 16:56 (R166). -/
abbrev L3_PRELOAD_BASE.BASE : Field := ⟨0x098, 0, 16, 56⟩

/-- L3_PRELOAD_CTL WAYS, bits 0:7 (R166). -/
abbrev L3_PRELOAD_CTL.WAYS : Field := ⟨0x0A0, 0, 0, 7⟩
/-- L3_PRELOAD_CTL START, bits 8:8 (R166). -/
abbrev L3_PRELOAD_CTL.START : Field := ⟨0x0A0, 0, 8, 8⟩
/-- L3_PRELOAD_CTL BUSY, bits 9:9 (R166). -/
abbrev L3_PRELOAD_CTL.BUSY : Field := ⟨0x0A0, 0, 9, 9⟩
/-- L3_PRELOAD_CTL DONE, bits 10:10 (R166). -/
abbrev L3_PRELOAD_CTL.DONE : Field := ⟨0x0A0, 0, 10, 10⟩
/-- L3_PRELOAD_CTL LINES, bits 16:39 (R166). -/
abbrev L3_PRELOAD_CTL.LINES : Field := ⟨0x0A0, 0, 16, 39⟩

/-- L3_PRELOAD_MISSED PRELOAD_MISSED, bits 0:31 (R166). -/
abbrev L3_PRELOAD_MISSED.PRELOAD_MISSED : Field := ⟨0x0A8, 0, 0, 31⟩

/-- L3_MAINT_SKIP COUNT, bits 0:31 (R166). -/
abbrev L3_MAINT_SKIP.COUNT : Field := ⟨0x0B0, 0, 0, 31⟩

/-- L3_OFFER ACCEPTED, bits 0:31 (R166). -/
abbrev L3_OFFER.ACCEPTED : Field := ⟨0x0B8, 0, 0, 31⟩
/-- L3_OFFER DECLINED, bits 32:63 (R166). -/
abbrev L3_OFFER.DECLINED : Field := ⟨0x0B8, 0, 32, 63⟩

/-- L3_DECLINE_CFG WBQ_LIMIT, bits 0:5 (R166). -/
abbrev L3_DECLINE_CFG.WBQ_LIMIT : Field := ⟨0x0C0, 0, 0, 5⟩

/-- L3_ECC CORR, bits 0:31 (R166). -/
abbrev L3_ECC.CORR : Field := ⟨0x0C8, 0, 0, 31⟩
/-- L3_ECC UNCORR, bits 32:32 (R166). -/
abbrev L3_ECC.UNCORR : Field := ⟨0x0C8, 0, 32, 32⟩
/-- L3_ECC LOCK_LOST, bits 33:33 (R166). -/
abbrev L3_ECC.LOCK_LOST : Field := ⟨0x0C8, 0, 33, 33⟩

/-- L3_FLUSH OP, bits 0:1 (R166). -/
abbrev L3_FLUSH.OP : Field := ⟨0x0D0, 0, 0, 1⟩
/-- L3_FLUSH START, bits 2:2 (R166). -/
abbrev L3_FLUSH.START : Field := ⟨0x0D0, 0, 2, 2⟩
/-- L3_FLUSH BUSY, bits 3:3 (R166). -/
abbrev L3_FLUSH.BUSY : Field := ⟨0x0D0, 0, 3, 3⟩
/-- L3_FLUSH DONE, bits 4:4 (R166). -/
abbrev L3_FLUSH.DONE : Field := ⟨0x0D0, 0, 4, 4⟩
/-- L3_FLUSH INCL_LOCKED, bits 5:5 (R166). -/
abbrev L3_FLUSH.INCL_LOCKED : Field := ⟨0x0D0, 0, 5, 5⟩

/-- HOME_CFG HOT_WINDOW, bits 0:15 (R188). -/
abbrev HOME_CFG.HOT_WINDOW : Field := ⟨0x080, 0, 0, 15⟩
/-- HOME_CFG HINT_DEFER, bits 16:16 (R188). -/
abbrev HOME_CFG.HINT_DEFER : Field := ⟨0x080, 0, 16, 16⟩
/-- HOME_CFG RESERVED, bits 17:17 (R188). -/
abbrev HOME_CFG.RESERVED : Field := ⟨0x080, 0, 17, 17⟩

/-- HOME_QOWN0 QOWN0, bits 0:63 (R188). -/
abbrev HOME_QOWN0.QOWN0 : Field := ⟨0x088, 0, 0, 63⟩

/-- HOME_QOWN1 QOWN1, bits 0:63 (R188). -/
abbrev HOME_QOWN1.QOWN1 : Field := ⟨0x090, 0, 0, 63⟩

/-- HOME_QSTAT OCC, bits 0:7 (R188). -/
abbrev HOME_QSTAT.OCC : Field := ⟨0x098, 0, 0, 7⟩
/-- HOME_QSTAT PEAK, bits 8:15 (R188). -/
abbrev HOME_QSTAT.PEAK : Field := ⟨0x098, 0, 8, 15⟩
/-- HOME_QSTAT FULL_RETRY, bits 16:47 (R188). -/
abbrev HOME_QSTAT.FULL_RETRY : Field := ⟨0x098, 0, 16, 47⟩

/-- HOME_WB STALE, bits 0:31 (R188). -/
abbrev HOME_WB.STALE : Field := ⟨0x0A0, 0, 0, 31⟩

/-- HOME_HINT INSTALLED, bits 0:31 (R188). -/
abbrev HOME_HINT.INSTALLED : Field := ⟨0x0A8, 0, 0, 31⟩
/-- HOME_HINT DECLINED, bits 32:63 (R188). -/
abbrev HOME_HINT.DECLINED : Field := ⟨0x0A8, 0, 32, 63⟩

/-- HOME_ATOM AT_HOME, bits 0:31 (R188). -/
abbrev HOME_ATOM.AT_HOME : Field := ⟨0x0B0, 0, 0, 31⟩
/-- HOME_ATOM GRANTED, bits 32:63 (R188). -/
abbrev HOME_ATOM.GRANTED : Field := ⟨0x0B0, 0, 32, 63⟩

/-- HOME_ERR TIMEOUT, bits 0:0 (R188). -/
abbrev HOME_ERR.TIMEOUT : Field := ⟨0x0B8, 0, 0, 0⟩
/-- HOME_ERR POISON_WB, bits 1:1 (R188). -/
abbrev HOME_ERR.POISON_WB : Field := ⟨0x0B8, 0, 1, 1⟩
/-- HOME_ERR PARTNER_LOST, bits 2:2 (R188). -/
abbrev HOME_ERR.PARTNER_LOST : Field := ⟨0x0B8, 0, 2, 2⟩
/-- HOME_ERR TIMEOUTS, bits 32:63 (R188). -/
abbrev HOME_ERR.TIMEOUTS : Field := ⟨0x0B8, 0, 32, 63⟩

/-- DIR_WAYOWN0 WAYOWN0, bits 0:63 (R188). -/
abbrev DIR_WAYOWN0.WAYOWN0 : Field := ⟨0x0C0, 0, 0, 63⟩

/-- DIR_WAYOWN1 WAYOWN1, bits 0:63 (R188). -/
abbrev DIR_WAYOWN1.WAYOWN1 : Field := ⟨0x0C8, 0, 0, 63⟩

/-- DIR_OCC VALID, bits 0:19 (R188). -/
abbrev DIR_OCC.VALID : Field := ⟨0x0D0, 0, 0, 19⟩

/-- DIR_EVICT EVICTIONS, bits 0:31 (R188). -/
abbrev DIR_EVICT.EVICTIONS : Field := ⟨0x0D8, 0, 0, 31⟩
/-- DIR_EVICT REFUSED, bits 32:63 (R188). -/
abbrev DIR_EVICT.REFUSED : Field := ⟨0x0D8, 0, 32, 63⟩

/-- DIR_ECC CORR, bits 0:31 (R188). -/
abbrev DIR_ECC.CORR : Field := ⟨0x0E0, 0, 0, 31⟩
/-- DIR_ECC UNCORR, bits 32:32 (R188). -/
abbrev DIR_ECC.UNCORR : Field := ⟨0x0E0, 0, 32, 32⟩

/-- SHF_TCC_STAT OPEN, bits 0:15 (R189). -/
abbrev SHF_TCC_STAT.OPEN : Field := ⟨0x080, 0, 0, 15⟩
/-- SHF_TCC_STAT PEAK, bits 16:31 (R189). -/
abbrev SHF_TCC_STAT.PEAK : Field := ⟨0x080, 0, 16, 31⟩
/-- SHF_TCC_STAT RETRIED, bits 32:63 (R189). -/
abbrev SHF_TCC_STAT.RETRIED : Field := ⟨0x080, 0, 32, 63⟩

/-- SHF_TCC_ERR TIMEOUT, bits 0:0 (R189). -/
abbrev SHF_TCC_ERR.TIMEOUT : Field := ⟨0x088, 0, 0, 0⟩
/-- SHF_TCC_ERR TIMEOUTS, bits 32:63 (R189). -/
abbrev SHF_TCC_ERR.TIMEOUTS : Field := ⟨0x088, 0, 32, 63⟩

/-- SHF_RING LOCAL, bits 0:31 (R189). -/
abbrev SHF_RING.LOCAL : Field := ⟨0x090, 0, 0, 31⟩
/-- SHF_RING FORWARDED, bits 32:63 (R189). -/
abbrev SHF_RING.FORWARDED : Field := ⟨0x090, 0, 32, 63⟩

/-- SHF_MODE RESERVED, bits 0:0 (R190). -/
abbrev SHF_MODE.RESERVED : Field := ⟨0x200, 0, 0, 0⟩
/-- SHF_MODE FRAME, bits 8:15 (R190). -/
abbrev SHF_MODE.FRAME : Field := ⟨0x200, 0, 8, 15⟩

/-- SHF_SLOT SLOT, bits 0:63 (R190). -/
abbrev SHF_SLOT.SLOT : Field := ⟨0x240, 8, 0, 63⟩

/-- SHF_STOP_STAT UP_DOWN, bits 0:0 (R190). -/
abbrev SHF_STOP_STAT.UP_DOWN : Field := ⟨0x5C0, 8, 0, 0⟩
/-- SHF_STOP_STAT DN_DOWN, bits 1:1 (R190). -/
abbrev SHF_STOP_STAT.DN_DOWN : Field := ⟨0x5C0, 8, 1, 1⟩
/-- SHF_STOP_STAT REPLAYS, bits 32:63 (R190). -/
abbrev SHF_STOP_STAT.REPLAYS : Field := ⟨0x5C0, 8, 32, 63⟩

/-- CKW_STAT ROLE, bits 0:2 (R212). -/
abbrev CKW_STAT.ROLE : Field := ⟨0x080, 0, 0, 2⟩
/-- CKW_STAT FAILED, bits 3:3 (R212). -/
abbrev CKW_STAT.FAILED : Field := ⟨0x080, 0, 3, 3⟩
/-- CKW_STAT WATCH_FAIL, bits 4:4 (R212). -/
abbrev CKW_STAT.WATCH_FAIL : Field := ⟨0x080, 0, 4, 4⟩
/-- CKW_STAT STORE_LOSS, bits 5:5 (R212). -/
abbrev CKW_STAT.STORE_LOSS : Field := ⟨0x080, 0, 5, 5⟩
/-- CKW_STAT CKPT_LOST, bits 6:6 (R212). -/
abbrev CKW_STAT.CKPT_LOST : Field := ⟨0x080, 0, 6, 6⟩
/-- CKW_STAT SELF_FAIL, bits 7:7 (R212). -/
abbrev CKW_STAT.SELF_FAIL : Field := ⟨0x080, 0, 7, 7⟩

/-- CKW_RETRY RETRIES, bits 0:31 (R212). -/
abbrev CKW_RETRY.RETRIES : Field := ⟨0x088, 0, 0, 31⟩
/-- CKW_RETRY IN_WINDOW, bits 32:39 (R212). -/
abbrev CKW_RETRY.IN_WINDOW : Field := ⟨0x088, 0, 32, 39⟩

/-- CKW_LAST_IA IA, bits 0:63 (R212). -/
abbrev CKW_LAST_IA.IA : Field := ⟨0x090, 0, 0, 63⟩

/-- CKW_LAST_KIND KIND, bits 0:8 (R212). -/
abbrev CKW_LAST_KIND.KIND : Field := ⟨0x098, 0, 0, 8⟩
/-- CKW_LAST_KIND ATTEMPT, bits 16:17 (R212). -/
abbrev CKW_LAST_KIND.ATTEMPT : Field := ⟨0x098, 0, 16, 17⟩
/-- CKW_LAST_KIND SEQ, bits 32:63 (R212). -/
abbrev CKW_LAST_KIND.SEQ : Field := ⟨0x098, 0, 32, 63⟩

/-- CKW_CKPT SEQ, bits 0:47 (R212). -/
abbrev CKW_CKPT.SEQ : Field := ⟨0x0A0, 0, 0, 47⟩
/-- CKW_CKPT CORR, bits 48:55 (R212). -/
abbrev CKW_CKPT.CORR : Field := ⟨0x0A0, 0, 48, 55⟩

/-- CKW_SLOTS GOOD, bits 0:11 (R213). -/
abbrev CKW_SLOTS.GOOD : Field := ⟨0x080, 0, 0, 11⟩
/-- CKW_SLOTS PAWN, bits 16:27 (R213). -/
abbrev CKW_SLOTS.PAWN : Field := ⟨0x080, 0, 16, 27⟩
/-- CKW_SLOTS FENCED, bits 32:43 (R213). -/
abbrev CKW_SLOTS.FENCED : Field := ⟨0x080, 0, 32, 43⟩
/-- CKW_SLOTS ASSIGN, bits 44:44 (R213). -/
abbrev CKW_SLOTS.ASSIGN : Field := ⟨0x080, 0, 44, 44⟩
/-- CKW_SLOTS ACTIVE, bits 48:55 (R213). -/
abbrev CKW_SLOTS.ACTIVE : Field := ⟨0x080, 0, 48, 55⟩

/-- CKW_CMD OP, bits 0:1 (R213). -/
abbrev CKW_CMD.OP : Field := ⟨0x088, 0, 0, 1⟩
/-- CKW_CMD SRC, bits 4:7 (R213). -/
abbrev CKW_CMD.SRC : Field := ⟨0x088, 0, 4, 7⟩
/-- CKW_CMD DST, bits 8:11 (R213). -/
abbrev CKW_CMD.DST : Field := ⟨0x088, 0, 8, 11⟩
/-- CKW_CMD START, bits 12:12 (R213). -/
abbrev CKW_CMD.START : Field := ⟨0x088, 0, 12, 12⟩
/-- CKW_CMD BUSY, bits 13:13 (R213). -/
abbrev CKW_CMD.BUSY : Field := ⟨0x088, 0, 13, 13⟩
/-- CKW_CMD RESULT, bits 16:23 (R213). -/
abbrev CKW_CMD.RESULT : Field := ⟨0x088, 0, 16, 23⟩
/-- CKW_CMD PHASE, bits 24:31 (R213). -/
abbrev CKW_CMD.PHASE : Field := ⟨0x088, 0, 24, 31⟩
/-- CKW_CMD LAST_US, bits 32:63 (R213). -/
abbrev CKW_CMD.LAST_US : Field := ⟨0x088, 0, 32, 63⟩

/-- CKW_COUNT PROMOTIONS, bits 0:15 (R213). -/
abbrev CKW_COUNT.PROMOTIONS : Field := ⟨0x090, 0, 0, 15⟩
/-- CKW_COUNT ROTATIONS, bits 16:31 (R213). -/
abbrev CKW_COUNT.ROTATIONS : Field := ⟨0x090, 0, 16, 31⟩
/-- CKW_COUNT RELOCATIONS, bits 32:47 (R213). -/
abbrev CKW_COUNT.RELOCATIONS : Field := ⟨0x090, 0, 32, 47⟩
/-- CKW_COUNT WATCH_FAILS, bits 48:63 (R213). -/
abbrev CKW_COUNT.WATCH_FAILS : Field := ⟨0x090, 0, 48, 63⟩

/-- CKW_EXHAUST EXHAUSTED, bits 0:0 (R213). -/
abbrev CKW_EXHAUST.EXHAUSTED : Field := ⟨0x098, 0, 0, 0⟩

/-- MCS_STAT VALID, bits 0:0 (R225). -/
abbrev MCS_STAT.VALID : Field := ⟨0x080, 0, 0, 0⟩
/-- MCS_STAT STALE, bits 1:1 (R225). -/
abbrev MCS_STAT.STALE : Field := ⟨0x080, 0, 1, 1⟩
/-- MCS_STAT LOADING, bits 2:2 (R225). -/
abbrev MCS_STAT.LOADING : Field := ⟨0x080, 0, 2, 2⟩
/-- MCS_STAT WORDS, bits 8:20 (R225). -/
abbrev MCS_STAT.WORDS : Field := ⟨0x080, 0, 8, 20⟩
/-- MCS_STAT MATCHES, bits 21:26 (R225). -/
abbrev MCS_STAT.MATCHES : Field := ⟨0x080, 0, 21, 26⟩
/-- MCS_STAT GEN, bits 32:63 (R225). -/
abbrev MCS_STAT.GEN : Field := ⟨0x080, 0, 32, 63⟩

/-- MCS_ROM ROM_ID, bits 0:31 (R225). -/
abbrev MCS_ROM.ROM_ID : Field := ⟨0x088, 0, 0, 31⟩

/-- MCS_ECC PATCH_CORR, bits 0:15 (R225). -/
abbrev MCS_ECC.PATCH_CORR : Field := ⟨0x090, 0, 0, 15⟩
/-- MCS_ECC ROM_CORR, bits 16:31 (R225). -/
abbrev MCS_ECC.ROM_CORR : Field := ⟨0x090, 0, 16, 31⟩
/-- MCS_ECC PATCH_UNCORR, bits 32:32 (R225). -/
abbrev MCS_ECC.PATCH_UNCORR : Field := ⟨0x090, 0, 32, 32⟩
/-- MCS_ECC ROM_UNCORR, bits 33:33 (R225). -/
abbrev MCS_ECC.ROM_UNCORR : Field := ⟨0x090, 0, 33, 33⟩

/-- MCS_LOADS LOADS, bits 0:15 (R225). -/
abbrev MCS_LOADS.LOADS : Field := ⟨0x098, 0, 0, 15⟩
/-- MCS_LOADS CAUSE, bits 16:23 (R225). -/
abbrev MCS_LOADS.CAUSE : Field := ⟨0x098, 0, 16, 23⟩
/-- MCS_LOADS LAST_US, bits 32:63 (R225). -/
abbrev MCS_LOADS.LAST_US : Field := ⟨0x098, 0, 32, 63⟩

/-- MCS_HITS HITS, bits 0:63 (R225). -/
abbrev MCS_HITS.HITS : Field := ⟨0x0A0, 0, 0, 63⟩

/-- MCS_MATCH EN, bits 0:0 (R225). -/
abbrev MCS_MATCH.EN : Field := ⟨0x100, 8, 0, 0⟩
/-- MCS_MATCH ROM_ADDR, bits 15:31 (R225). -/
abbrev MCS_MATCH.ROM_ADDR : Field := ⟨0x100, 8, 15, 31⟩
/-- MCS_MATCH PATCH_ADDR, bits 52:63 (R225). -/
abbrev MCS_MATCH.PATCH_ADDR : Field := ⟨0x100, 8, 52, 63⟩

/-- MCS_LDR_CTL OP, bits 0:2 (R226). -/
abbrev MCS_LDR_CTL.OP : Field := ⟨0x800, 0, 0, 2⟩
/-- MCS_LDR_CTL START, bits 3:3 (R226). -/
abbrev MCS_LDR_CTL.START : Field := ⟨0x800, 0, 3, 3⟩
/-- MCS_LDR_CTL BUSY, bits 4:4 (R226). -/
abbrev MCS_LDR_CTL.BUSY : Field := ⟨0x800, 0, 4, 4⟩
/-- MCS_LDR_CTL RESULT, bits 8:15 (R226). -/
abbrev MCS_LDR_CTL.RESULT : Field := ⟨0x800, 0, 8, 15⟩
/-- MCS_LDR_CTL PENDING, bits 16:31 (R226). -/
abbrev MCS_LDR_CTL.PENDING : Field := ⟨0x800, 0, 16, 31⟩

/-- MCS_LDR_ADDR ADDR, bits 48:63 (R226). -/
abbrev MCS_LDR_ADDR.ADDR : Field := ⟨0x808, 0, 48, 63⟩

/-- MCS_LDR_DATA DATA, bits 0:63 (R226). -/
abbrev MCS_LDR_DATA.DATA : Field := ⟨0x810, 0, 0, 63⟩

/-- MCS_LDR_STAT STAGED, bits 0:0 (R226). -/
abbrev MCS_LDR_STAT.STAGED : Field := ⟨0x818, 0, 0, 0⟩
/-- MCS_LDR_STAT ACTIVE, bits 1:1 (R226). -/
abbrev MCS_LDR_STAT.ACTIVE : Field := ⟨0x818, 0, 1, 1⟩
/-- MCS_LDR_STAT FLOOR, bits 8:15 (R226). -/
abbrev MCS_LDR_STAT.FLOOR : Field := ⟨0x818, 0, 8, 15⟩

/-- MCS_LDR_GEN ACTIVE_GEN, bits 0:31 (R226). -/
abbrev MCS_LDR_GEN.ACTIVE_GEN : Field := ⟨0x820, 0, 0, 31⟩
/-- MCS_LDR_GEN STAGED_GEN, bits 32:63 (R226). -/
abbrev MCS_LDR_GEN.STAGED_GEN : Field := ⟨0x820, 0, 32, 63⟩

/-- MCS_LDR_DIGEST DIGEST, bits 0:63 (R226). -/
abbrev MCS_LDR_DIGEST.DIGEST : Field := ⟨0x828, 8, 0, 63⟩

/-- MCS_KEYHASH KEYHASH, bits 0:63 (R226). -/
abbrev MCS_KEYHASH.KEYHASH : Field := ⟨0x858, 8, 0, 63⟩

/-- FMN_CTL ENABLE, bits 0:0 (R253). -/
abbrev FMN_CTL.ENABLE : Field := ⟨0x080, 0, 0, 0⟩
/-- FMN_CTL TICK_US, bits 1:4 (R253). -/
abbrev FMN_CTL.TICK_US : Field := ⟨0x080, 0, 1, 4⟩
/-- FMN_CTL QUANTUM_US, bits 8:23 (R253). -/
abbrev FMN_CTL.QUANTUM_US : Field := ⟨0x080, 0, 8, 23⟩

/-- FMN_WEIGHT W_FOOT, bits 0:3 (R253). -/
abbrev FMN_WEIGHT.W_FOOT : Field := ⟨0x088, 0, 0, 3⟩
/-- FMN_WEIGHT W_GROUP, bits 4:7 (R253). -/
abbrev FMN_WEIGHT.W_GROUP : Field := ⟨0x088, 0, 4, 7⟩
/-- FMN_WEIGHT W_NEAR, bits 8:11 (R253). -/
abbrev FMN_WEIGHT.W_NEAR : Field := ⟨0x088, 0, 8, 11⟩
/-- FMN_WEIGHT W_POWER, bits 12:15 (R253). -/
abbrev FMN_WEIGHT.W_POWER : Field := ⟨0x088, 0, 12, 15⟩

/-- FMN_PARK OFF_US, bits 0:15 (R253). -/
abbrev FMN_PARK.OFF_US : Field := ⟨0x090, 0, 0, 15⟩
/-- FMN_PARK RET_MS, bits 16:31 (R253). -/
abbrev FMN_PARK.RET_MS : Field := ⟨0x090, 0, 16, 31⟩
/-- FMN_PARK SPARE_GATED, bits 32:35 (R253). -/
abbrev FMN_PARK.SPARE_GATED : Field := ⟨0x090, 0, 32, 35⟩

/-- FMN_ENV ENVELOPE, bits 0:1 (R253). -/
abbrev FMN_ENV.ENVELOPE : Field := ⟨0x098, 0, 0, 1⟩
/-- FMN_ENV CAP, bits 8:15 (R253). -/
abbrev FMN_ENV.CAP : Field := ⟨0x098, 0, 8, 15⟩
/-- FMN_ENV P_CORE_W, bits 16:31 (R253). -/
abbrev FMN_ENV.P_CORE_W : Field := ⟨0x098, 0, 16, 31⟩
/-- FMN_ENV POWERED, bits 32:39 (R253). -/
abbrev FMN_ENV.POWERED : Field := ⟨0x098, 0, 32, 39⟩
/-- FMN_ENV BUSY_CORES, bits 40:47 (R253). -/
abbrev FMN_ENV.BUSY_CORES : Field := ⟨0x098, 0, 40, 47⟩

/-- FMN_MIG MIG_EN, bits 0:0 (R253). -/
abbrev FMN_MIG.MIG_EN : Field := ⟨0x0A0, 0, 0, 0⟩
/-- FMN_MIG EPOCH_MS, bits 8:15 (R253). -/
abbrev FMN_MIG.EPOCH_MS : Field := ⟨0x0A0, 0, 8, 15⟩
/-- FMN_MIG THRESH, bits 16:31 (R253). -/
abbrev FMN_MIG.THRESH : Field := ⟨0x0A0, 0, 16, 31⟩
/-- FMN_MIG DOMINANCE, bits 32:35 (R253). -/
abbrev FMN_MIG.DOMINANCE : Field := ⟨0x0A0, 0, 32, 35⟩
/-- FMN_MIG SAMPLE, bits 36:39 (R253). -/
abbrev FMN_MIG.SAMPLE : Field := ⟨0x0A0, 0, 36, 39⟩
/-- FMN_MIG MAX_MIG, bits 40:47 (R253). -/
abbrev FMN_MIG.MAX_MIG : Field := ⟨0x0A0, 0, 40, 47⟩

/-- FMN_HINT HINT_EN, bits 0:0 (R253). -/
abbrev FMN_HINT.HINT_EN : Field := ⟨0x0A8, 0, 0, 0⟩
/-- FMN_HINT L2_LINES, bits 8:11 (R253). -/
abbrev FMN_HINT.L2_LINES : Field := ⟨0x0A8, 0, 8, 11⟩
/-- FMN_HINT L3_LINES, bits 16:31 (R253). -/
abbrev FMN_HINT.L3_LINES : Field := ⟨0x0A8, 0, 16, 31⟩

/-- FMN_TRACE_BASE TRACE_BASE, bits 16:51 (R253). -/
abbrev FMN_TRACE_BASE.TRACE_BASE : Field := ⟨0x0B0, 0, 16, 51⟩

/-- FMN_TRACE_CTL EN, bits 0:0 (R253). -/
abbrev FMN_TRACE_CTL.EN : Field := ⟨0x0B8, 0, 0, 0⟩
/-- FMN_TRACE_CTL OVERWRITE, bits 1:1 (R253). -/
abbrev FMN_TRACE_CTL.OVERWRITE : Field := ⟨0x0B8, 0, 1, 1⟩
/-- FMN_TRACE_CTL SIZE, bits 8:12 (R253). -/
abbrev FMN_TRACE_CTL.SIZE : Field := ⟨0x0B8, 0, 8, 12⟩

/-- FMN_TRACE_PTR HEAD, bits 0:31 (R253). -/
abbrev FMN_TRACE_PTR.HEAD : Field := ⟨0x0C0, 0, 0, 31⟩
/-- FMN_TRACE_PTR TAIL, bits 32:63 (R253). -/
abbrev FMN_TRACE_PTR.TAIL : Field := ⟨0x0C0, 0, 32, 63⟩

/-- FMN_TRACE_STAT LOST, bits 0:31 (R253). -/
abbrev FMN_TRACE_STAT.LOST : Field := ⟨0x0C8, 0, 0, 31⟩

/-- FMN_COUNT DISPATCHES, bits 0:31 (R253). -/
abbrev FMN_COUNT.DISPATCHES : Field := ⟨0x0D0, 0, 0, 31⟩
/-- FMN_COUNT TAKEOFFS, bits 32:63 (R253). -/
abbrev FMN_COUNT.TAKEOFFS : Field := ⟨0x0D0, 0, 32, 63⟩

/-- FMN_COUNT2 MIGRATIONS, bits 0:31 (R253). -/
abbrev FMN_COUNT2.MIGRATIONS : Field := ⟨0x0D8, 0, 0, 31⟩
/-- FMN_COUNT2 PARKS, bits 32:63 (R253). -/
abbrev FMN_COUNT2.PARKS : Field := ⟨0x0D8, 0, 32, 63⟩

/-- FMN_LIVE LIVE, bits 0:16 (R253). -/
abbrev FMN_LIVE.LIVE : Field := ⟨0x0E0, 0, 0, 16⟩
/-- FMN_LIVE SPILL, bits 32:47 (R253). -/
abbrev FMN_LIVE.SPILL : Field := ⟨0x0E0, 0, 32, 47⟩

/-- FMN_ERR ENV_SHORT, bits 0:0 (R253). -/
abbrev FMN_ERR.ENV_SHORT : Field := ⟨0x0E8, 0, 0, 0⟩
/-- FMN_ERR TABLE_UNCORR, bits 1:1 (R253). -/
abbrev FMN_ERR.TABLE_UNCORR : Field := ⟨0x0E8, 0, 1, 1⟩
/-- FMN_ERR QUEUE_ERR, bits 2:2 (R253). -/
abbrev FMN_ERR.QUEUE_ERR : Field := ⟨0x0E8, 0, 2, 2⟩
/-- FMN_ERR MIG_ABORT, bits 3:3 (R253). -/
abbrev FMN_ERR.MIG_ABORT : Field := ⟨0x0E8, 0, 3, 3⟩

/-- FMN_EVICT CORE, bits 0:7 (R253). -/
abbrev FMN_EVICT.CORE : Field := ⟨0x0F0, 0, 0, 7⟩
/-- FMN_EVICT START, bits 8:8 (R253). -/
abbrev FMN_EVICT.START : Field := ⟨0x0F0, 0, 8, 8⟩
/-- FMN_EVICT BUSY, bits 9:9 (R253). -/
abbrev FMN_EVICT.BUSY : Field := ⟨0x0F0, 0, 9, 9⟩
/-- FMN_EVICT RESULT, bits 16:23 (R253). -/
abbrev FMN_EVICT.RESULT : Field := ⟨0x0F0, 0, 16, 23⟩

/-- FMN_HOLD HOLD, bits 0:47 (R253). -/
abbrev FMN_HOLD.HOLD : Field := ⟨0x0F8, 0, 0, 47⟩

/-- FMN_SEAM_ALLOT MIN, bits 0:7 (R254). -/
abbrev FMN_SEAM_ALLOT.MIN : Field := ⟨0x400, 32, 0, 7⟩
/-- FMN_SEAM_ALLOT MAX, bits 8:15 (R254). -/
abbrev FMN_SEAM_ALLOT.MAX : Field := ⟨0x400, 32, 8, 15⟩
/-- FMN_SEAM_ALLOT SHARE, bits 16:23 (R254). -/
abbrev FMN_SEAM_ALLOT.SHARE : Field := ⟨0x400, 32, 16, 23⟩
/-- FMN_SEAM_ALLOT RANK, bits 24:31 (R254). -/
abbrev FMN_SEAM_ALLOT.RANK : Field := ⟨0x400, 32, 24, 31⟩
/-- FMN_SEAM_ALLOT TRACE, bits 32:32 (R254). -/
abbrev FMN_SEAM_ALLOT.TRACE : Field := ⟨0x400, 32, 32, 32⟩
/-- FMN_SEAM_ALLOT HINT_OFF, bits 33:33 (R254). -/
abbrev FMN_SEAM_ALLOT.HINT_OFF : Field := ⟨0x400, 32, 33, 33⟩
/-- FMN_SEAM_ALLOT MIG_OFF, bits 34:34 (R254). -/
abbrev FMN_SEAM_ALLOT.MIG_OFF : Field := ⟨0x400, 32, 34, 34⟩
/-- FMN_SEAM_ALLOT MAX_WU, bits 48:63 (R254). -/
abbrev FMN_SEAM_ALLOT.MAX_WU : Field := ⟨0x400, 32, 48, 63⟩

/-- FMN_SEAM_POWER BUDGET_W, bits 0:15 (R254). -/
abbrev FMN_SEAM_POWER.BUDGET_W : Field := ⟨0x408, 32, 0, 15⟩

/-- FMN_SEAM_STAT RUNNING, bits 0:7 (R254). -/
abbrev FMN_SEAM_STAT.RUNNING : Field := ⟨0x410, 32, 0, 7⟩
/-- FMN_SEAM_STAT LIVE, bits 15:31 (R254). -/
abbrev FMN_SEAM_STAT.LIVE : Field := ⟨0x410, 32, 15, 31⟩
/-- FMN_SEAM_STAT READY, bits 32:48 (R254). -/
abbrev FMN_SEAM_STAT.READY : Field := ⟨0x410, 32, 32, 48⟩

/-- FMN_SEAM_COUNT REJECTS, bits 0:31 (R254). -/
abbrev FMN_SEAM_COUNT.REJECTS : Field := ⟨0x418, 32, 0, 31⟩
/-- FMN_SEAM_COUNT PREEMPTED, bits 32:63 (R254). -/
abbrev FMN_SEAM_COUNT.PREEMPTED : Field := ⟨0x418, 32, 32, 63⟩

/-- SEAM_CMD OP, bits 0:3 (R272). -/
abbrev SEAM_CMD.OP : Field := ⟨0x080, 0, 0, 3⟩
/-- SEAM_CMD START, bits 4:4 (R272). -/
abbrev SEAM_CMD.START : Field := ⟨0x080, 0, 4, 4⟩
/-- SEAM_CMD BUSY, bits 5:5 (R272). -/
abbrev SEAM_CMD.BUSY : Field := ⟨0x080, 0, 5, 5⟩
/-- SEAM_CMD SEAM, bits 8:15 (R272). -/
abbrev SEAM_CMD.SEAM : Field := ⟨0x080, 0, 8, 15⟩
/-- SEAM_CMD RESULT, bits 16:23 (R272). -/
abbrev SEAM_CMD.RESULT : Field := ⟨0x080, 0, 16, 23⟩
/-- SEAM_CMD FIELD, bits 24:31 (R272). -/
abbrev SEAM_CMD.FIELD : Field := ⟨0x080, 0, 24, 31⟩

/-- SEAM_ARG ARG, bits 0:63 (R272). -/
abbrev SEAM_ARG.ARG : Field := ⟨0x088, 0, 0, 63⟩

/-- SEAM_MODE RESMODE, bits 0:0 (R272). -/
abbrev SEAM_MODE.RESMODE : Field := ⟨0x090, 0, 0, 0⟩

/-- SEAM_FREE FREE_GRAN, bits 0:19 (R272). -/
abbrev SEAM_FREE.FREE_GRAN : Field := ⟨0x098, 0, 0, 19⟩
/-- SEAM_FREE FREE_CTX, bits 32:50 (R272). -/
abbrev SEAM_FREE.FREE_CTX : Field := ⟨0x098, 0, 32, 50⟩

/-- SEAM_ERR ISOLATION, bits 0:0 (R272). -/
abbrev SEAM_ERR.ISOLATION : Field := ⟨0x0A0, 0, 0, 0⟩
/-- SEAM_ERR MAP_UNCORR, bits 1:1 (R272). -/
abbrev SEAM_ERR.MAP_UNCORR : Field := ⟨0x0A0, 0, 1, 1⟩
/-- SEAM_ERR SEAM_PAGE, bits 2:2 (R272). -/
abbrev SEAM_ERR.SEAM_PAGE : Field := ⟨0x0A0, 0, 2, 2⟩

/-- SEAM_SEALED SEALED, bits 0:63 (R272). -/
abbrev SEAM_SEALED.SEALED : Field := ⟨0x0A8, 0, 0, 63⟩

/-- SEAM_TIMING TIMING_OK, bits 0:63 (R272). -/
abbrev SEAM_TIMING.TIMING_OK : Field := ⟨0x0B0, 0, 0, 63⟩

/-- SEAM_CHKSTOP CHKSTOP, bits 0:63 (R272). -/
abbrev SEAM_CHKSTOP.CHKSTOP : Field := ⟨0x0B8, 0, 0, 63⟩

/-- SEAM_RSV SEAM_RSV, bits 0:19 (R272). -/
abbrev SEAM_RSV.SEAM_RSV : Field := ⟨0x0C0, 0, 0, 19⟩

/-- SEAM_STATE STATE, bits 0:1 (R273). -/
abbrev SEAM_STATE.STATE : Field := ⟨0x100, 48, 0, 1⟩
/-- SEAM_STATE SEALED, bits 2:2 (R273). -/
abbrev SEAM_STATE.SEALED : Field := ⟨0x100, 48, 2, 2⟩
/-- SEAM_STATE TIMING_OK, bits 3:3 (R273). -/
abbrev SEAM_STATE.TIMING_OK : Field := ⟨0x100, 48, 3, 3⟩
/-- SEAM_STATE CAUSE, bits 8:15 (R273). -/
abbrev SEAM_STATE.CAUSE : Field := ⟨0x100, 48, 8, 15⟩
/-- SEAM_STATE GEN, bits 32:63 (R273). -/
abbrev SEAM_STATE.GEN : Field := ⟨0x100, 48, 32, 63⟩

/-- SEAM_MAP MAP_BASE, bits 16:42 (R273). -/
abbrev SEAM_MAP.MAP_BASE : Field := ⟨0x108, 48, 16, 42⟩

/-- SEAM_GRAN LIMIT, bits 0:19 (R273). -/
abbrev SEAM_GRAN.LIMIT : Field := ⟨0x110, 48, 0, 19⟩

/-- SEAM_SCH FIRST, bits 0:17 (R273). -/
abbrev SEAM_SCH.FIRST : Field := ⟨0x118, 48, 0, 17⟩
/-- SEAM_SCH COUNT, bits 32:50 (R273). -/
abbrev SEAM_SCH.COUNT : Field := ⟨0x118, 48, 32, 50⟩

/-- SEAM_QUOTA CTX, bits 0:18 (R273). -/
abbrev SEAM_QUOTA.CTX : Field := ⟨0x120, 48, 0, 18⟩
/-- SEAM_QUOTA JNL_KIB, bits 24:40 (R273). -/
abbrev SEAM_QUOTA.JNL_KIB : Field := ⟨0x120, 48, 24, 40⟩
/-- SEAM_QUOTA DRBG, bits 44:47 (R273). -/
abbrev SEAM_QUOTA.DRBG : Field := ⟨0x120, 48, 44, 47⟩

/-- SEAM_COUNT ISO_REJ, bits 0:31 (R273). -/
abbrev SEAM_COUNT.ISO_REJ : Field := ⟨0x128, 48, 0, 31⟩
/-- SEAM_COUNT RESETS, bits 32:47 (R273). -/
abbrev SEAM_COUNT.RESETS : Field := ⟨0x128, 48, 32, 47⟩

/-- HOME_GRAN_SEL SEL, bits 49:63 (R274). -/
abbrev HOME_GRAN_SEL.SEL : Field := ⟨0x200, 0, 49, 63⟩

/-- HOME_GRAN_OWNER OWNER, bits 0:7 (R274). -/
abbrev HOME_GRAN_OWNER.OWNER : Field := ⟨0x208, 0, 0, 7⟩

/-- SP_ID SEAM, bits 0:7 (R275). -/
abbrev SP_ID.SEAM : Field := ⟨0x000, 0, 0, 7⟩
/-- SP_ID GEN, bits 32:63 (R275). -/
abbrev SP_ID.GEN : Field := ⟨0x000, 0, 32, 63⟩

/-- SP_STATE SEALED, bits 0:0 (R275). -/
abbrev SP_STATE.SEALED : Field := ⟨0x008, 0, 0, 0⟩
/-- SP_STATE TIMING_OK, bits 1:1 (R275). -/
abbrev SP_STATE.TIMING_OK : Field := ⟨0x008, 0, 1, 1⟩
/-- SP_STATE ENVELOPE, bits 2:3 (R275). -/
abbrev SP_STATE.ENVELOPE : Field := ⟨0x008, 0, 2, 3⟩

/-- SP_GRAN LIMIT, bits 0:19 (R275). -/
abbrev SP_GRAN.LIMIT : Field := ⟨0x010, 0, 0, 19⟩

/-- SP_SCH SCH, bits 0:63 (R275). -/
abbrev SP_SCH.SCH : Field := ⟨0x018, 0, 0, 63⟩

/-- SP_QUOTA QUOTA, bits 0:63 (R275). -/
abbrev SP_QUOTA.QUOTA : Field := ⟨0x020, 0, 0, 63⟩

/-- SP_CORES MIN, bits 0:7 (R275). -/
abbrev SP_CORES.MIN : Field := ⟨0x028, 0, 0, 7⟩
/-- SP_CORES MAX, bits 8:15 (R275). -/
abbrev SP_CORES.MAX : Field := ⟨0x028, 0, 8, 15⟩

/-- SP_READY BASE, bits 24:54 (R275). -/
abbrev SP_READY.BASE : Field := ⟨0x080, 8, 24, 54⟩
/-- SP_READY K, bits 59:63 (R275). -/
abbrev SP_READY.K : Field := ⟨0x080, 8, 59, 63⟩

/-- SP_READY_CNT COUNT, bits 0:16 (R275). -/
abbrev SP_READY_CNT.COUNT : Field := ⟨0x0C0, 8, 0, 16⟩

/-- SP_CQ_BASE BASE, bits 24:54 (R275). -/
abbrev SP_CQ_BASE.BASE : Field := ⟨0x100, 0, 24, 54⟩
/-- SP_CQ_BASE K, bits 59:63 (R275). -/
abbrev SP_CQ_BASE.K : Field := ⟨0x100, 0, 59, 63⟩

/-- SP_CQ_HEAD HEAD, bits 44:63 (R275). -/
abbrev SP_CQ_HEAD.HEAD : Field := ⟨0x108, 0, 44, 63⟩

/-- SP_CQ_TAIL TAIL, bits 44:63 (R275). -/
abbrev SP_CQ_TAIL.TAIL : Field := ⟨0x110, 0, 44, 63⟩

/-- MEM_CFG DEVICES, bits 0:2 (R297). -/
abbrev MEM_CFG.DEVICES : Field := ⟨0x080, 0, 0, 2⟩
/-- MEM_CFG DENSITY, bits 3:4 (R297). -/
abbrev MEM_CFG.DENSITY : Field := ⟨0x080, 0, 3, 4⟩
/-- MEM_CFG BL, bits 5:5 (R297). -/
abbrev MEM_CFG.BL : Field := ⟨0x080, 0, 5, 5⟩
/-- MEM_CFG RL, bits 8:11 (R297). -/
abbrev MEM_CFG.RL : Field := ⟨0x080, 0, 8, 11⟩
/-- MEM_CFG WL, bits 12:13 (R297). -/
abbrev MEM_CFG.WL : Field := ⟨0x080, 0, 12, 13⟩
/-- MEM_CFG MIRROR, bits 16:16 (R297). -/
abbrev MEM_CFG.MIRROR : Field := ⟨0x080, 0, 16, 16⟩
/-- MEM_CFG GUEST, bits 32:43 (R297). -/
abbrev MEM_CFG.GUEST : Field := ⟨0x080, 0, 32, 43⟩

/-- MEM_IO ODT, bits 0:1 (R297). -/
abbrev MEM_IO.ODT : Field := ⟨0x088, 0, 0, 1⟩
/-- MEM_IO DRV, bits 2:3 (R297). -/
abbrev MEM_IO.DRV : Field := ⟨0x088, 0, 2, 3⟩
/-- MEM_IO ZQ_CODE, bits 16:31 (R297). -/
abbrev MEM_IO.ZQ_CODE : Field := ⟨0x088, 0, 16, 31⟩
/-- MEM_IO ZQ_UPDATES, bits 32:63 (R297). -/
abbrev MEM_IO.ZQ_UPDATES : Field := ⟨0x088, 0, 32, 63⟩

/-- MEM_TRAIN OP, bits 0:1 (R297). -/
abbrev MEM_TRAIN.OP : Field := ⟨0x090, 0, 0, 1⟩
/-- MEM_TRAIN START, bits 2:2 (R297). -/
abbrev MEM_TRAIN.START : Field := ⟨0x090, 0, 2, 2⟩
/-- MEM_TRAIN BUSY, bits 3:3 (R297). -/
abbrev MEM_TRAIN.BUSY : Field := ⟨0x090, 0, 3, 3⟩
/-- MEM_TRAIN TRAINED, bits 4:4 (R297). -/
abbrev MEM_TRAIN.TRAINED : Field := ⟨0x090, 0, 4, 4⟩
/-- MEM_TRAIN PHASE, bits 5:7 (R297). -/
abbrev MEM_TRAIN.PHASE : Field := ⟨0x090, 0, 5, 7⟩
/-- MEM_TRAIN RESULT, bits 8:15 (R297). -/
abbrev MEM_TRAIN.RESULT : Field := ⟨0x090, 0, 8, 15⟩
/-- MEM_TRAIN LANE, bits 16:23 (R297). -/
abbrev MEM_TRAIN.LANE : Field := ⟨0x090, 0, 16, 23⟩
/-- MEM_TRAIN LAST_US, bits 32:63 (R297). -/
abbrev MEM_TRAIN.LAST_US : Field := ⟨0x090, 0, 32, 63⟩

/-- MEM_LAT READ_CLK, bits 0:7 (R297). -/
abbrev MEM_LAT.READ_CLK : Field := ⟨0x098, 0, 0, 7⟩
/-- MEM_LAT WRITE_CLK, bits 8:15 (R297). -/
abbrev MEM_LAT.WRITE_CLK : Field := ⟨0x098, 0, 8, 15⟩

/-- MEM_CAP SLOTS, bits 0:15 (R297). -/
abbrev MEM_CAP.SLOTS : Field := ⟨0x0A0, 0, 0, 15⟩
/-- MEM_CAP MAPPED, bits 16:31 (R297). -/
abbrev MEM_CAP.MAPPED : Field := ⟨0x0A0, 0, 16, 31⟩
/-- MEM_CAP GUESTS, bits 32:47 (R297). -/
abbrev MEM_CAP.GUESTS : Field := ⟨0x0A0, 0, 32, 47⟩

/-- MEM_ECC CORR, bits 0:31 (R297). -/
abbrev MEM_ECC.CORR : Field := ⟨0x0A8, 0, 0, 31⟩
/-- MEM_ECC UNCORR_RD, bits 32:47 (R297). -/
abbrev MEM_ECC.UNCORR_RD : Field := ⟨0x0A8, 0, 32, 47⟩
/-- MEM_ECC POISON_RD, bits 48:63 (R297). -/
abbrev MEM_ECC.POISON_RD : Field := ⟨0x0A8, 0, 48, 63⟩

/-- MEM_ERR UNCORR, bits 0:0 (R297). -/
abbrev MEM_ERR.UNCORR : Field := ⟨0x0B0, 0, 0, 0⟩
/-- MEM_ERR DOWN, bits 1:1 (R297). -/
abbrev MEM_ERR.DOWN : Field := ⟨0x0B0, 0, 1, 1⟩
/-- MEM_ERR TRAIN_FAIL, bits 2:2 (R297). -/
abbrev MEM_ERR.TRAIN_FAIL : Field := ⟨0x0B0, 0, 2, 2⟩
/-- MEM_ERR RESYNC_FAIL, bits 3:3 (R297). -/
abbrev MEM_ERR.RESYNC_FAIL : Field := ⟨0x0B0, 0, 3, 3⟩

/-- MEM_ERRADDR LINE, bits 40:63 (R297). -/
abbrev MEM_ERRADDR.LINE : Field := ⟨0x0B8, 0, 40, 63⟩

/-- MEM_SCRUB EN, bits 0:0 (R297). -/
abbrev MEM_SCRUB.EN : Field := ⟨0x0C0, 0, 0, 0⟩
/-- MEM_SCRUB HOURS, bits 8:15 (R297). -/
abbrev MEM_SCRUB.HOURS : Field := ⟨0x0C0, 0, 8, 15⟩
/-- MEM_SCRUB POS, bits 40:63 (R297). -/
abbrev MEM_SCRUB.POS : Field := ⟨0x0C0, 0, 40, 63⟩

/-- MEM_SCRUB_COUNT PASSES, bits 0:31 (R297). -/
abbrev MEM_SCRUB_COUNT.PASSES : Field := ⟨0x0C8, 0, 0, 31⟩
/-- MEM_SCRUB_COUNT FIXED, bits 32:63 (R297). -/
abbrev MEM_SCRUB_COUNT.FIXED : Field := ⟨0x0C8, 0, 32, 63⟩

/-- MEM_SLOT SLOT, bits 0:63 (R297). -/
abbrev MEM_SLOT.SLOT : Field := ⟨0x100, 8, 0, 63⟩

/-- MEM_REMAP_SEL IDX, bits 53:63 (R298). -/
abbrev MEM_REMAP_SEL.IDX : Field := ⟨0x210, 0, 53, 63⟩

/-- MEM_REMAP V, bits 0:0 (R298). -/
abbrev MEM_REMAP.V : Field := ⟨0x218, 0, 0, 0⟩
/-- MEM_REMAP KIND, bits 1:1 (R298). -/
abbrev MEM_REMAP.KIND : Field := ⟨0x218, 0, 1, 1⟩
/-- MEM_REMAP MGRAN, bits 13:31 (R298). -/
abbrev MEM_REMAP.MGRAN : Field := ⟨0x218, 0, 13, 31⟩
/-- MEM_REMAP SLOT, bits 49:63 (R298). -/
abbrev MEM_REMAP.SLOT : Field := ⟨0x218, 0, 49, 63⟩

/-- MEM_REMAP_CNT GUEST_N, bits 0:15 (R298). -/
abbrev MEM_REMAP_CNT.GUEST_N : Field := ⟨0x220, 0, 0, 15⟩
/-- MEM_REMAP_CNT FLIP_N, bits 16:31 (R298). -/
abbrev MEM_REMAP_CNT.FLIP_N : Field := ⟨0x220, 0, 16, 31⟩
/-- MEM_REMAP_CNT SKIPPED, bits 32:63 (R298). -/
abbrev MEM_REMAP_CNT.SKIPPED : Field := ⟨0x220, 0, 32, 63⟩

/-- CHS_SCH_BASE BASE, bits 16:39 (R324). -/
abbrev CHS_SCH_BASE.BASE : Field := ⟨0x080, 0, 16, 39⟩

/-- CHS_FULL_BASE BASE, bits 16:38 (R324). -/
abbrev CHS_FULL_BASE.BASE : Field := ⟨0x088, 0, 16, 38⟩

/-- CHS_CFG EN, bits 0:0 (R324). -/
abbrev CHS_CFG.EN : Field := ⟨0x090, 0, 0, 0⟩
/-- CHS_CFG REDRIVE_MAX, bits 5:7 (R324). -/
abbrev CHS_CFG.REDRIVE_MAX : Field := ⟨0x090, 0, 5, 7⟩
/-- CHS_CFG TIMEOUT_MS, bits 8:23 (R324). -/
abbrev CHS_CFG.TIMEOUT_MS : Field := ⟨0x090, 0, 8, 23⟩

/-- CHS_STAT IN_USE, bits 0:17 (R324). -/
abbrev CHS_STAT.IN_USE : Field := ⟨0x098, 0, 0, 17⟩
/-- CHS_STAT PEAK, bits 32:49 (R324). -/
abbrev CHS_STAT.PEAK : Field := ⟨0x098, 0, 32, 49⟩

/-- CHS_PEER PEER, bits 0:17 (R324). -/
abbrev CHS_PEER.PEER : Field := ⟨0x0A0, 0, 0, 17⟩
/-- CHS_PEER UNPAIRED, bits 32:49 (R324). -/
abbrev CHS_PEER.UNPAIRED : Field := ⟨0x0A0, 0, 32, 49⟩

/-- CHS_COUNT ACCEPTED, bits 0:31 (R324). -/
abbrev CHS_COUNT.ACCEPTED : Field := ⟨0x0A8, 0, 0, 31⟩
/-- CHS_COUNT REDRIVES, bits 32:63 (R324). -/
abbrev CHS_COUNT.REDRIVES : Field := ⟨0x0A8, 0, 32, 63⟩

/-- CHS_COUNT2 TIMEOUTS, bits 0:31 (R324). -/
abbrev CHS_COUNT2.TIMEOUTS : Field := ⟨0x0B0, 0, 0, 31⟩
/-- CHS_COUNT2 CQ_DROPPED, bits 32:63 (R324). -/
abbrev CHS_COUNT2.CQ_DROPPED : Field := ⟨0x0B0, 0, 32, 63⟩

/-- CHS_ERR CTX_UNCORR, bits 0:0 (R324). -/
abbrev CHS_ERR.CTX_UNCORR : Field := ⟨0x0B8, 0, 0, 0⟩
/-- CHS_ERR SCH_UNCORR, bits 1:1 (R324). -/
abbrev CHS_ERR.SCH_UNCORR : Field := ⟨0x0B8, 0, 1, 1⟩
/-- CHS_ERR PEER_LOST, bits 2:2 (R324). -/
abbrev CHS_ERR.PEER_LOST : Field := ⟨0x0B8, 0, 2, 2⟩

/-- CHS_COUNT3 LATE_DISCARD, bits 0:31 (R324). -/
abbrev CHS_COUNT3.LATE_DISCARD : Field := ⟨0x0C0, 0, 0, 31⟩
/-- CHS_COUNT3 FAILED, bits 32:47 (R324). -/
abbrev CHS_COUNT3.FAILED : Field := ⟨0x0C0, 0, 32, 47⟩
/-- CHS_COUNT3 BAD_PATH, bits 48:63 (R324). -/
abbrev CHS_COUNT3.BAD_PATH : Field := ⟨0x0C0, 0, 48, 63⟩

/-- CHS_PATH_DOWN DOWN, bits 0:63 (R324). -/
abbrev CHS_PATH_DOWN.DOWN : Field := ⟨0x0C8, 0, 0, 63⟩

/-- CHS_SLOT SLOT, bits 0:63 (R324). -/
abbrev CHS_SLOT.SLOT : Field := ⟨0x100, 8, 0, 63⟩

/-- JNL_CFG EN, bits 0:0 (R344). -/
abbrev JNL_CFG.EN : Field := ⟨0x080, 0, 0, 0⟩
/-- JNL_CFG XMOD, bits 1:1 (R344). -/
abbrev JNL_CFG.XMOD : Field := ⟨0x080, 0, 1, 1⟩
/-- JNL_CFG PEER_US, bits 8:15 (R344). -/
abbrev JNL_CFG.PEER_US : Field := ⟨0x080, 0, 8, 15⟩
/-- JNL_CFG PEER_KIB, bits 16:32 (R344). -/
abbrev JNL_CFG.PEER_KIB : Field := ⟨0x080, 0, 16, 32⟩

/-- JNL_STAT ENTRIES, bits 0:14 (R344). -/
abbrev JNL_STAT.ENTRIES : Field := ⟨0x088, 0, 0, 14⟩
/-- JNL_STAT PAGES, bits 15:29 (R344). -/
abbrev JNL_STAT.PAGES : Field := ⟨0x088, 0, 15, 29⟩
/-- JNL_STAT HELD, bits 30:44 (R344). -/
abbrev JNL_STAT.HELD : Field := ⟨0x088, 0, 30, 44⟩
/-- JNL_STAT AVAIL, bits 45:45 (R344). -/
abbrev JNL_STAT.AVAIL : Field := ⟨0x088, 0, 45, 45⟩

/-- JNL_NEXT NEXT, bits 0:63 (R344). -/
abbrev JNL_NEXT.NEXT : Field := ⟨0x090, 0, 0, 63⟩

/-- JNL_CMD OP, bits 0:3 (R344). -/
abbrev JNL_CMD.OP : Field := ⟨0x098, 0, 0, 3⟩
/-- JNL_CMD START, bits 4:4 (R344). -/
abbrev JNL_CMD.START : Field := ⟨0x098, 0, 4, 4⟩
/-- JNL_CMD BUSY, bits 5:5 (R344). -/
abbrev JNL_CMD.BUSY : Field := ⟨0x098, 0, 5, 5⟩
/-- JNL_CMD RESULT, bits 8:15 (R344). -/
abbrev JNL_CMD.RESULT : Field := ⟨0x098, 0, 8, 15⟩

/-- JNL_ARG ARG, bits 0:63 (R344). -/
abbrev JNL_ARG.ARG : Field := ⟨0x0A0, 0, 0, 63⟩

/-- JNL_COUNT COMMITTED, bits 0:31 (R344). -/
abbrev JNL_COUNT.COMMITTED : Field := ⟨0x0A8, 0, 0, 31⟩
/-- JNL_COUNT REFUSED, bits 32:63 (R344). -/
abbrev JNL_COUNT.REFUSED : Field := ⟨0x0A8, 0, 32, 63⟩

/-- JNL_COUNT2 RETIRED, bits 0:31 (R344). -/
abbrev JNL_COUNT2.RETIRED : Field := ⟨0x0B0, 0, 0, 31⟩
/-- JNL_COUNT2 DISCARDED, bits 32:47 (R344). -/
abbrev JNL_COUNT2.DISCARDED : Field := ⟨0x0B0, 0, 32, 47⟩
/-- JNL_COUNT2 ONE_SIDED, bits 48:63 (R344). -/
abbrev JNL_COUNT2.ONE_SIDED : Field := ⟨0x0B0, 0, 48, 63⟩

/-- JNL_ERR BANK_LOST, bits 0:0 (R344). -/
abbrev JNL_ERR.BANK_LOST : Field := ⟨0x0B8, 0, 0, 0⟩
/-- JNL_ERR UNCORR, bits 1:1 (R344). -/
abbrev JNL_ERR.UNCORR : Field := ⟨0x0B8, 0, 1, 1⟩
/-- JNL_ERR HELD_SET, bits 2:2 (R344). -/
abbrev JNL_ERR.HELD_SET : Field := ⟨0x0B8, 0, 2, 2⟩

/-- JNL_ENT_SEL IDX, bits 50:63 (R344). -/
abbrev JNL_ENT_SEL.IDX : Field := ⟨0x0C0, 0, 50, 63⟩

/-- JNL_ENT WORD, bits 0:63 (R344). -/
abbrev JNL_ENT.WORD : Field := ⟨0x100, 8, 0, 63⟩

/-- JNL_SLOT SLOT, bits 0:63 (R344). -/
abbrev JNL_SLOT.SLOT : Field := ⟨0x180, 8, 0, 63⟩

/-- DRN_STAT IMAGE, bits 0:1 (R345). -/
abbrev DRN_STAT.IMAGE : Field := ⟨0x080, 0, 0, 1⟩
/-- DRN_STAT DRAINING, bits 2:2 (R345). -/
abbrev DRN_STAT.DRAINING : Field := ⟨0x080, 0, 2, 2⟩
/-- DRN_STAT ENTRIES, bits 3:17 (R345). -/
abbrev DRN_STAT.ENTRIES : Field := ⟨0x080, 0, 3, 17⟩

/-- DRN_IMAGE PCYCLE, bits 0:31 (R345). -/
abbrev DRN_IMAGE.PCYCLE : Field := ⟨0x088, 0, 0, 31⟩
/-- DRN_IMAGE BYTES, bits 32:63 (R345). -/
abbrev DRN_IMAGE.BYTES : Field := ⟨0x088, 0, 32, 63⟩

/-- DRN_LAST LAST_US, bits 0:31 (R345). -/
abbrev DRN_LAST.LAST_US : Field := ⟨0x090, 0, 0, 31⟩

/-- DRN_ERR INCOMPLETE, bits 0:0 (R345). -/
abbrev DRN_ERR.INCOMPLETE : Field := ⟨0x098, 0, 0, 0⟩
/-- DRN_ERR UNCORR, bits 1:1 (R345). -/
abbrev DRN_ERR.UNCORR : Field := ⟨0x098, 0, 1, 1⟩

/-- DRN_COUNT DRAINS, bits 0:31 (R345). -/
abbrev DRN_COUNT.DRAINS : Field := ⟨0x0A0, 0, 0, 31⟩
/-- DRN_COUNT RESTORES, bits 32:63 (R345). -/
abbrev DRN_COUNT.RESTORES : Field := ⟨0x0A0, 0, 32, 63⟩

/-- HLR_CTL RUN, bits 0:0 (R379). -/
abbrev HLR_CTL.RUN : Field := ⟨0x080, 0, 0, 0⟩
/-- HLR_CTL AUTORUN, bits 1:1 (R379). -/
abbrev HLR_CTL.AUTORUN : Field := ⟨0x080, 0, 1, 1⟩

/-- HLR_STAT STATE, bits 0:2 (R379). -/
abbrev HLR_STAT.STATE : Field := ⟨0x088, 0, 0, 2⟩
/-- HLR_STAT TCAUSE, bits 8:15 (R379). -/
abbrev HLR_STAT.TCAUSE : Field := ⟨0x088, 0, 8, 15⟩
/-- HLR_STAT PC, bits 48:63 (R379). -/
abbrev HLR_STAT.PC : Field := ⟨0x088, 0, 48, 63⟩

/-- HLR_FAULT DOUBLE_TRAP, bits 0:0 (R379). -/
abbrev HLR_FAULT.DOUBLE_TRAP : Field := ⟨0x090, 0, 0, 0⟩
/-- HLR_FAULT ISTORE_UNCORR, bits 1:1 (R379). -/
abbrev HLR_FAULT.ISTORE_UNCORR : Field := ⟨0x090, 0, 1, 1⟩
/-- HLR_FAULT PIT_UNCORR, bits 2:2 (R379). -/
abbrev HLR_FAULT.PIT_UNCORR : Field := ⟨0x090, 0, 2, 2⟩
/-- HLR_FAULT MARCH_FAIL, bits 3:3 (R379). -/
abbrev HLR_FAULT.MARCH_FAIL : Field := ⟨0x090, 0, 3, 3⟩

/-- HLR_COUNT TRAPS, bits 0:31 (R379). -/
abbrev HLR_COUNT.TRAPS : Field := ⟨0x098, 0, 0, 31⟩
/-- HLR_COUNT ISTORE_CORR, bits 32:63 (R379). -/
abbrev HLR_COUNT.ISTORE_CORR : Field := ⟨0x098, 0, 32, 63⟩

/-- HLR_CYCLES CYCLES, bits 0:63 (R379). -/
abbrev HLR_CYCLES.CYCLES : Field := ⟨0x0A0, 0, 0, 63⟩

/-- HLR_IMG LOADS, bits 0:15 (R379). -/
abbrev HLR_IMG.LOADS : Field := ⟨0x0A8, 0, 0, 15⟩
/-- HLR_IMG GEN, bits 32:63 (R379). -/
abbrev HLR_IMG.GEN : Field := ⟨0x0A8, 0, 32, 63⟩

/-- HLR_DIGEST DIGEST, bits 0:63 (R379). -/
abbrev HLR_DIGEST.DIGEST : Field := ⟨0x0B0, 8, 0, 63⟩

/-- PIT_STAT CORR, bits 0:31 (R379). -/
abbrev PIT_STAT.CORR : Field := ⟨0x0E0, 0, 0, 31⟩
/-- PIT_STAT UNCORR, bits 32:47 (R379). -/
abbrev PIT_STAT.UNCORR : Field := ⟨0x0E0, 0, 32, 47⟩
/-- PIT_STAT CLEARS, bits 48:63 (R379). -/
abbrev PIT_STAT.CLEARS : Field := ⟨0x0E0, 0, 48, 63⟩

/-- PIT_ERRADDR ADDR, bits 48:63 (R379). -/
abbrev PIT_ERRADDR.ADDR : Field := ⟨0x0E8, 0, 48, 63⟩

/-- PIT_DMA DEFERRED, bits 0:31 (R379). -/
abbrev PIT_DMA.DEFERRED : Field := ⟨0x0F0, 0, 0, 31⟩
/-- PIT_DMA WORDS, bits 32:63 (R379). -/
abbrev PIT_DMA.WORDS : Field := ⟨0x0F0, 0, 32, 63⟩

/-- PIT_SEL ADDR, bits 48:63 (R379). -/
abbrev PIT_SEL.ADDR : Field := ⟨0x0F8, 0, 48, 63⟩

/-- PIT_DATA DATA, bits 48:63 (R379). -/
abbrev PIT_DATA.DATA : Field := ⟨0x100, 0, 48, 63⟩

/-- HLR_MBOX_TO TO, bits 0:63 (R379). -/
abbrev HLR_MBOX_TO.TO : Field := ⟨0x108, 0, 0, 63⟩

/-- HLR_MBOX_FROM FROM, bits 0:63 (R379). -/
abbrev HLR_MBOX_FROM.FROM : Field := ⟨0x110, 0, 0, 63⟩

/-- MCH_CMD OP, bits 0:1 (R380). -/
abbrev MCH_CMD.OP : Field := ⟨0x100, 0, 0, 1⟩
/-- MCH_CMD FORM, bits 2:2 (R380). -/
abbrev MCH_CMD.FORM : Field := ⟨0x100, 0, 2, 2⟩
/-- MCH_CMD START, bits 3:3 (R380). -/
abbrev MCH_CMD.START : Field := ⟨0x100, 0, 3, 3⟩
/-- MCH_CMD BUSY, bits 4:4 (R380). -/
abbrev MCH_CMD.BUSY : Field := ⟨0x100, 0, 4, 4⟩
/-- MCH_CMD KIND, bits 5:6 (R380). -/
abbrev MCH_CMD.KIND : Field := ⟨0x100, 0, 5, 6⟩
/-- MCH_CMD INDEX, bits 8:13 (R380). -/
abbrev MCH_CMD.INDEX : Field := ⟨0x100, 0, 8, 13⟩
/-- MCH_CMD RESULT, bits 16:23 (R380). -/
abbrev MCH_CMD.RESULT : Field := ⟨0x100, 0, 16, 23⟩

/-- MCH_STAT ELEMENT, bits 0:2 (R380). -/
abbrev MCH_STAT.ELEMENT : Field := ⟨0x108, 0, 0, 2⟩

/-- MCH_FAIL KIND, bits 0:1 (R380). -/
abbrev MCH_FAIL.KIND : Field := ⟨0x110, 0, 0, 1⟩
/-- MCH_FAIL INDEX, bits 2:7 (R380). -/
abbrev MCH_FAIL.INDEX : Field := ⟨0x110, 0, 2, 7⟩
/-- MCH_FAIL ELEMENT, bits 8:10 (R380). -/
abbrev MCH_FAIL.ELEMENT : Field := ⟨0x110, 0, 8, 10⟩
/-- MCH_FAIL SIG, bits 11:11 (R380). -/
abbrev MCH_FAIL.SIG : Field := ⟨0x110, 0, 11, 11⟩
/-- MCH_FAIL ADDR, bits 40:63 (R380). -/
abbrev MCH_FAIL.ADDR : Field := ⟨0x110, 0, 40, 63⟩

/-- MCH_FAILDIFF DIFF, bits 0:63 (R380). -/
abbrev MCH_FAILDIFF.DIFF : Field := ⟨0x118, 0, 0, 63⟩

/-- MCH_FAILMAP PITS, bits 0:31 (R380). -/
abbrev MCH_FAILMAP.PITS : Field := ⟨0x120, 0, 0, 31⟩
/-- MCH_FAILMAP CTXS, bits 32:32 (R380). -/
abbrev MCH_FAILMAP.CTXS : Field := ⟨0x120, 0, 32, 32⟩
/-- MCH_FAILMAP JBANK, bits 33:33 (R380). -/
abbrev MCH_FAILMAP.JBANK : Field := ⟨0x120, 0, 33, 33⟩
/-- MCH_FAILMAP JSKIP, bits 34:34 (R380). -/
abbrev MCH_FAILMAP.JSKIP : Field := ⟨0x120, 0, 34, 34⟩

/-- MCH_COUNT RUNS, bits 0:31 (R380). -/
abbrev MCH_COUNT.RUNS : Field := ⟨0x128, 0, 0, 31⟩
/-- MCH_COUNT FAILS, bits 32:63 (R380). -/
abbrev MCH_COUNT.FAILS : Field := ⟨0x128, 0, 32, 63⟩

/-- HLR_IMG_BASE BASE, bits 16:56 (R380). -/
abbrev HLR_IMG_BASE.BASE : Field := ⟨0x140, 0, 16, 56⟩

/-- HLR_IMG_CTL TARGETS, bits 0:31 (R380). -/
abbrev HLR_IMG_CTL.TARGETS : Field := ⟨0x148, 0, 0, 31⟩
/-- HLR_IMG_CTL START, bits 32:32 (R380). -/
abbrev HLR_IMG_CTL.START : Field := ⟨0x148, 0, 32, 32⟩
/-- HLR_IMG_CTL BUSY, bits 33:33 (R380). -/
abbrev HLR_IMG_CTL.BUSY : Field := ⟨0x148, 0, 33, 33⟩
/-- HLR_IMG_CTL RESULT, bits 40:47 (R380). -/
abbrev HLR_IMG_CTL.RESULT : Field := ⟨0x148, 0, 40, 47⟩

/-- HLR_IMG_STAT GEN, bits 0:31 (R380). -/
abbrev HLR_IMG_STAT.GEN : Field := ⟨0x150, 0, 0, 31⟩
/-- HLR_IMG_STAT LOADS, bits 32:63 (R380). -/
abbrev HLR_IMG_STAT.LOADS : Field := ⟨0x150, 0, 32, 63⟩

/-- HLR_IMG_DIGEST DIGEST, bits 0:63 (R380). -/
abbrev HLR_IMG_DIGEST.DIGEST : Field := ⟨0x158, 8, 0, 63⟩

/-- LNK_CFG LAYOUT, bits 0:2 (R401). -/
abbrev LNK_CFG.LAYOUT : Field := ⟨0x080, 0, 0, 2⟩
/-- LNK_CFG ENABLE, bits 3:3 (R401). -/
abbrev LNK_CFG.ENABLE : Field := ⟨0x080, 0, 3, 3⟩
/-- LNK_CFG PERS, bits 4:7 (R401). -/
abbrev LNK_CFG.PERS : Field := ⟨0x080, 0, 4, 7⟩
/-- LNK_CFG MAXRATE, bits 8:10 (R401). -/
abbrev LNK_CFG.MAXRATE : Field := ⟨0x080, 0, 8, 10⟩
/-- LNK_CFG FEC, bits 11:12 (R401). -/
abbrev LNK_CFG.FEC : Field := ⟨0x080, 0, 11, 12⟩

/-- LNK_STAT UP, bits 0:0 (R401). -/
abbrev LNK_STAT.UP : Field := ⟨0x088, 8, 0, 0⟩
/-- LNK_STAT DEGRADED, bits 1:1 (R401). -/
abbrev LNK_STAT.DEGRADED : Field := ⟨0x088, 8, 1, 1⟩
/-- LNK_STAT RATE, bits 8:15 (R401). -/
abbrev LNK_STAT.RATE : Field := ⟨0x088, 8, 8, 15⟩
/-- LNK_STAT DOWNS, bits 32:63 (R401). -/
abbrev LNK_STAT.DOWNS : Field := ⟨0x088, 8, 32, 63⟩

/-- LNK_ERR CFG_ERR, bits 0:0 (R401). -/
abbrev LNK_ERR.CFG_ERR : Field := ⟨0x0A8, 0, 0, 0⟩
/-- LNK_ERR PCIE_UNCORR, bits 1:1 (R401). -/
abbrev LNK_ERR.PCIE_UNCORR : Field := ⟨0x0A8, 0, 1, 1⟩

/-- LNK_ETH_STAT RX_FCS, bits 0:15 (R401). -/
abbrev LNK_ETH_STAT.RX_FCS : Field := ⟨0x0B0, 8, 0, 15⟩
/-- LNK_ETH_STAT RX_LEN, bits 16:31 (R401). -/
abbrev LNK_ETH_STAT.RX_LEN : Field := ⟨0x0B0, 8, 16, 31⟩
/-- LNK_ETH_STAT RX_CSUM, bits 32:47 (R401). -/
abbrev LNK_ETH_STAT.RX_CSUM : Field := ⟨0x0B0, 8, 32, 47⟩
/-- LNK_ETH_STAT RX_OVF, bits 48:63 (R401). -/
abbrev LNK_ETH_STAT.RX_OVF : Field := ⟨0x0B0, 8, 48, 63⟩

/-- LNK_ETH_DROP NOMATCH, bits 0:31 (R401). -/
abbrev LNK_ETH_DROP.NOMATCH : Field := ⟨0x0D0, 8, 0, 31⟩
/-- LNK_ETH_DROP INB_REJ, bits 32:63 (R401). -/
abbrev LNK_ETH_DROP.INB_REJ : Field := ⟨0x0D0, 8, 32, 63⟩

/-- LNK_PFC PFC_EN, bits 0:7 (R401). -/
abbrev LNK_PFC.PFC_EN : Field := ⟨0x0F0, 8, 0, 7⟩
/-- LNK_PFC XOFF_KIB, bits 8:23 (R401). -/
abbrev LNK_PFC.XOFF_KIB : Field := ⟨0x0F0, 8, 8, 23⟩

/-- LNK_INB INB, bits 0:63 (R401). -/
abbrev LNK_INB.INB : Field := ⟨0x110, 8, 0, 63⟩

/-- LNK_Q0 BASE, bits 16:51 (R401). -/
abbrev LNK_Q0.BASE : Field := ⟨0x130, 8, 16, 51⟩
/-- LNK_Q0 PAGES, bits 52:63 (R401). -/
abbrev LNK_Q0.PAGES : Field := ⟨0x130, 8, 52, 63⟩

/-- LNK_RXHAUL RXHAUL, bits 0:31 (R401). -/
abbrev LNK_RXHAUL.RXHAUL : Field := ⟨0x150, 8, 0, 31⟩

/-- LNK_SHARE SLOT, bits 0:63 (R401). -/
abbrev LNK_SHARE.SLOT : Field := ⟨0x200, 8, 0, 63⟩

/-- CPL_LINK ENABLE, bits 0:0 (R402). -/
abbrev CPL_LINK.ENABLE : Field := ⟨0x080, 0, 0, 0⟩
/-- CPL_LINK UP, bits 1:1 (R402). -/
abbrev CPL_LINK.UP : Field := ⟨0x080, 0, 1, 1⟩
/-- CPL_LINK DEGRADED, bits 2:2 (R402). -/
abbrev CPL_LINK.DEGRADED : Field := ⟨0x080, 0, 2, 2⟩
/-- CPL_LINK PEER, bits 6:7 (R402). -/
abbrev CPL_LINK.PEER : Field := ⟨0x080, 0, 6, 7⟩
/-- CPL_LINK PEER_GROUP, bits 8:15 (R402). -/
abbrev CPL_LINK.PEER_GROUP : Field := ⟨0x080, 0, 8, 15⟩
/-- CPL_LINK PEER_LOT, bits 24:63 (R402). -/
abbrev CPL_LINK.PEER_LOT : Field := ⟨0x080, 0, 24, 63⟩

/-- CPL_COUNT REPLAYS, bits 0:31 (R402). -/
abbrev CPL_COUNT.REPLAYS : Field := ⟨0x088, 0, 0, 31⟩
/-- CPL_COUNT DOWNS, bits 32:47 (R402). -/
abbrev CPL_COUNT.DOWNS : Field := ⟨0x088, 0, 32, 47⟩

/-- CPL_ERR DOWN, bits 0:0 (R402). -/
abbrev CPL_ERR.DOWN : Field := ⟨0x090, 0, 0, 0⟩
/-- CPL_ERR LANE_FAIL, bits 1:1 (R402). -/
abbrev CPL_ERR.LANE_FAIL : Field := ⟨0x090, 0, 1, 1⟩
/-- CPL_ERR CREDIT_ERR, bits 2:2 (R402). -/
abbrev CPL_ERR.CREDIT_ERR : Field := ⟨0x090, 0, 2, 2⟩

/-- CPL_CREDIT CREDITS, bits 0:63 (R402). -/
abbrev CPL_CREDIT.CREDITS : Field := ⟨0x098, 0, 0, 63⟩

/-- CPL_CX CXID, bits 0:15 (R403). -/
abbrev CPL_CX.CXID : Field := ⟨0x600, 0, 0, 15⟩
/-- CPL_CX EN, bits 16:16 (R403). -/
abbrev CPL_CX.EN : Field := ⟨0x600, 0, 16, 16⟩
/-- CPL_CX REMOTE_WR, bits 17:17 (R403). -/
abbrev CPL_CX.REMOTE_WR : Field := ⟨0x600, 0, 17, 17⟩
/-- CPL_CX MIRROR_PEER, bits 18:19 (R403). -/
abbrev CPL_CX.MIRROR_PEER : Field := ⟨0x600, 0, 18, 19⟩
/-- CPL_CX INDEX, bits 24:25 (R403). -/
abbrev CPL_CX.INDEX : Field := ⟨0x600, 0, 24, 25⟩
/-- CPL_CX MEMBERS, bits 26:28 (R403). -/
abbrev CPL_CX.MEMBERS : Field := ⟨0x600, 0, 26, 28⟩
/-- CPL_CX SLOT, bits 32:43 (R403). -/
abbrev CPL_CX.SLOT : Field := ⟨0x600, 0, 32, 43⟩

/-- CPL_ENUM RESULT, bits 0:7 (R403). -/
abbrev CPL_ENUM.RESULT : Field := ⟨0x608, 0, 0, 7⟩
/-- CPL_ENUM REENUM, bits 8:8 (R403). -/
abbrev CPL_ENUM.REENUM : Field := ⟨0x608, 0, 8, 8⟩

/-- CPL_PEERCOPY COPIES, bits 0:63 (R403). -/
abbrev CPL_PEERCOPY.COPIES : Field := ⟨0x610, 0, 0, 63⟩

/-- CPL_ADOPT MEMBER, bits 0:1 (R403). -/
abbrev CPL_ADOPT.MEMBER : Field := ⟨0x618, 0, 0, 1⟩
/-- CPL_ADOPT OP, bits 2:3 (R403). -/
abbrev CPL_ADOPT.OP : Field := ⟨0x618, 0, 2, 3⟩
/-- CPL_ADOPT START, bits 4:4 (R403). -/
abbrev CPL_ADOPT.START : Field := ⟨0x618, 0, 4, 4⟩
/-- CPL_ADOPT BUSY, bits 5:5 (R403). -/
abbrev CPL_ADOPT.BUSY : Field := ⟨0x618, 0, 5, 5⟩
/-- CPL_ADOPT RESULT, bits 8:15 (R403). -/
abbrev CPL_ADOPT.RESULT : Field := ⟨0x618, 0, 8, 15⟩

/-- CPL_ADOPT_ARG ENTRY, bits 0:63 (R403). -/
abbrev CPL_ADOPT_ARG.ENTRY : Field := ⟨0x620, 0, 0, 63⟩

/-- CPL_ADOPT_SCH SCH0, bits 14:31 (R403). -/
abbrev CPL_ADOPT_SCH.SCH0 : Field := ⟨0x628, 0, 14, 31⟩
/-- CPL_ADOPT_SCH SCH1, bits 46:63 (R403). -/
abbrev CPL_ADOPT_SCH.SCH1 : Field := ⟨0x628, 0, 46, 63⟩

/-- CPL_RA_SEL MEMBER, bits 0:1 (R403). -/
abbrev CPL_RA_SEL.MEMBER : Field := ⟨0x080, 0, 0, 1⟩
/-- CPL_RA_SEL SLOT, bits 4:15 (R403). -/
abbrev CPL_RA_SEL.SLOT : Field := ⟨0x080, 0, 4, 15⟩
/-- CPL_RA_SEL OFFSET, bits 52:63 (R403). -/
abbrev CPL_RA_SEL.OFFSET : Field := ⟨0x080, 0, 52, 63⟩

/-- CPL_RA_DATA DATA, bits 0:63 (R403). -/
abbrev CPL_RA_DATA.DATA : Field := ⟨0x088, 0, 0, 63⟩

/-- CPL_RA_CTL OP, bits 0:1 (R403). -/
abbrev CPL_RA_CTL.OP : Field := ⟨0x090, 0, 0, 1⟩
/-- CPL_RA_CTL START, bits 2:2 (R403). -/
abbrev CPL_RA_CTL.START : Field := ⟨0x090, 0, 2, 2⟩
/-- CPL_RA_CTL BUSY, bits 3:3 (R403). -/
abbrev CPL_RA_CTL.BUSY : Field := ⟨0x090, 0, 3, 3⟩
/-- CPL_RA_CTL RESULT, bits 8:15 (R403). -/
abbrev CPL_RA_CTL.RESULT : Field := ⟨0x090, 0, 8, 15⟩

/-- CFG EN, bits 0:0 (R426). -/
abbrev ENG_CFG.EN : Field := ⟨0x080, 0, 0, 0⟩
/-- CFG QUANTUM_US, bits 8:15 (R426). -/
abbrev ENG_CFG.QUANTUM_US : Field := ⟨0x080, 0, 8, 15⟩
/-- CFG POLL_NS, bits 16:31 (R426). -/
abbrev ENG_CFG.POLL_NS : Field := ⟨0x080, 0, 16, 31⟩

/-- STAT SEAM_NOW, bits 0:7 (R426). -/
abbrev ENG_STAT.SEAM_NOW : Field := ⟨0x088, 0, 0, 7⟩
/-- STAT QUANTUM, bits 8:12 (R426). -/
abbrev ENG_STAT.QUANTUM : Field := ⟨0x088, 0, 8, 12⟩

/-- COUNT JOBS, bits 0:31 (R426). -/
abbrev ENG_COUNT.JOBS : Field := ⟨0x090, 0, 0, 31⟩
/-- COUNT FAILED, bits 32:63 (R426). -/
abbrev ENG_COUNT.FAILED : Field := ⟨0x090, 0, 32, 63⟩

/-- ERR UNCORR, bits 0:0 (R426). -/
abbrev ENG_ERR.UNCORR : Field := ⟨0x098, 0, 0, 0⟩
/-- ERR SCRUB_FAIL, bits 1:1 (R426). -/
abbrev ENG_ERR.SCRUB_FAIL : Field := ⟨0x098, 0, 1, 1⟩
/-- ERR LOST, bits 2:2 (R426). -/
abbrev ENG_ERR.LOST : Field := ⟨0x098, 0, 2, 2⟩

/-- QOWN QOWN, bits 0:63 (R426). -/
abbrev ENG_QOWN.QOWN : Field := ⟨0x0A0, 8, 0, 63⟩

/-- RING BASE, bits 16:56 (R426). -/
abbrev ENG_RING.BASE : Field := ⟨0x100, 8, 16, 56⟩
/-- RING K, bits 59:63 (R426). -/
abbrev ENG_RING.K : Field := ⟨0x100, 8, 59, 63⟩

/-- HEAD HEAD, bits 52:63 (R426). -/
abbrev ENG_HEAD.HEAD : Field := ⟨0x300, 8, 52, 63⟩

/-- ENT_CTL OP, bits 0:1 (R427). -/
abbrev ENT_CTL.OP : Field := ⟨0x080, 0, 0, 1⟩
/-- ENT_CTL START, bits 2:2 (R427). -/
abbrev ENT_CTL.START : Field := ⟨0x080, 0, 2, 2⟩
/-- ENT_CTL BUSY, bits 3:3 (R427). -/
abbrev ENT_CTL.BUSY : Field := ⟨0x080, 0, 3, 3⟩
/-- ENT_CTL RESULT, bits 8:15 (R427). -/
abbrev ENT_CTL.RESULT : Field := ⟨0x080, 0, 8, 15⟩

/-- ENT_STAT STATE, bits 0:1 (R427). -/
abbrev ENT_STAT.STATE : Field := ⟨0x088, 0, 0, 1⟩

/-- ENT_CFG EN, bits 0:0 (R427). -/
abbrev ENT_CFG.EN : Field := ⟨0x090, 0, 0, 0⟩
/-- ENT_CFG QUANTUM_US, bits 8:15 (R427). -/
abbrev ENT_CFG.QUANTUM_US : Field := ⟨0x090, 0, 8, 15⟩
/-- ENT_CFG POLL_NS, bits 16:31 (R427). -/
abbrev ENT_CFG.POLL_NS : Field := ⟨0x090, 0, 16, 31⟩

/-- ENT_ERR RCT_FAIL, bits 0:0 (R427). -/
abbrev ENT_ERR.RCT_FAIL : Field := ⟨0x098, 0, 0, 0⟩
/-- ENT_ERR APT_FAIL, bits 1:1 (R427). -/
abbrev ENT_ERR.APT_FAIL : Field := ⟨0x098, 0, 1, 1⟩
/-- ENT_ERR STARTUP_FAIL, bits 2:2 (R427). -/
abbrev ENT_ERR.STARTUP_FAIL : Field := ⟨0x098, 0, 2, 2⟩

/-- ENT_COUNT BLOCKS, bits 0:31 (R427). -/
abbrev ENT_COUNT.BLOCKS : Field := ⟨0x0A0, 0, 0, 31⟩
/-- ENT_COUNT FAILS, bits 32:47 (R427). -/
abbrev ENT_COUNT.FAILS : Field := ⟨0x0A0, 0, 32, 47⟩
/-- ENT_COUNT RESTARTS, bits 48:63 (R427). -/
abbrev ENT_COUNT.RESTARTS : Field := ⟨0x0A0, 0, 48, 63⟩

/-- ENT_RAW RAW, bits 0:63 (R427). -/
abbrev ENT_RAW.RAW : Field := ⟨0x0A8, 0, 0, 63⟩

/-- ENT_QOWN QOWN, bits 0:63 (R427). -/
abbrev ENT_QOWN.QOWN : Field := ⟨0x0C0, 8, 0, 63⟩

/-- ENT_RING BASE, bits 16:56 (R427). -/
abbrev ENT_RING.BASE : Field := ⟨0x100, 8, 16, 56⟩
/-- ENT_RING K, bits 59:63 (R427). -/
abbrev ENT_RING.K : Field := ⟨0x100, 8, 59, 63⟩

/-- ENT_HEAD HEAD, bits 52:63 (R427). -/
abbrev ENT_HEAD.HEAD : Field := ⟨0x300, 8, 52, 63⟩

/-- ENT_INST INST, bits 0:7 (R427). -/
abbrev ENT_INST.INST : Field := ⟨0x500, 8, 0, 7⟩
/-- ENT_INST GENERATES, bits 32:63 (R427). -/
abbrev ENT_INST.GENERATES : Field := ⟨0x500, 8, 32, 63⟩

/-- ATT_CTL OP, bits 0:1 (R428). -/
abbrev ATT_CTL.OP : Field := ⟨0x900, 0, 0, 1⟩
/-- ATT_CTL START, bits 2:2 (R428). -/
abbrev ATT_CTL.START : Field := ⟨0x900, 0, 2, 2⟩
/-- ATT_CTL BUSY, bits 3:3 (R428). -/
abbrev ATT_CTL.BUSY : Field := ⟨0x900, 0, 3, 3⟩
/-- ATT_CTL RESULT, bits 8:15 (R428). -/
abbrev ATT_CTL.RESULT : Field := ⟨0x900, 0, 8, 15⟩
/-- ATT_CTL KIND, bits 16:23 (R428). -/
abbrev ATT_CTL.KIND : Field := ⟨0x900, 0, 16, 23⟩
/-- ATT_CTL SUBJECT, bits 24:39 (R428). -/
abbrev ATT_CTL.SUBJECT : Field := ⟨0x900, 0, 24, 39⟩

/-- ATT_ADDR ADDR, bits 16:63 (R428). -/
abbrev ATT_ADDR.ADDR : Field := ⟨0x908, 0, 16, 63⟩

/-- ATT_LEN LEN, bits 32:63 (R428). -/
abbrev ATT_LEN.LEN : Field := ⟨0x910, 0, 32, 63⟩

/-- ATT_LOG_STAT COUNT, bits 0:31 (R428). -/
abbrev ATT_LOG_STAT.COUNT : Field := ⟨0x918, 0, 0, 31⟩
/-- ATT_LOG_STAT OVERFLOW, bits 32:32 (R428). -/
abbrev ATT_LOG_STAT.OVERFLOW : Field := ⟨0x918, 0, 32, 32⟩

/-- ATT_CHAIN CHAIN, bits 0:63 (R428). -/
abbrev ATT_CHAIN.CHAIN : Field := ⟨0x920, 8, 0, 63⟩

/-- ATT_LOG_SEL IDX, bits 53:63 (R428). -/
abbrev ATT_LOG_SEL.IDX : Field := ⟨0x950, 0, 53, 63⟩

/-- ATT_LOG WORD, bits 0:63 (R428). -/
abbrev ATT_LOG.WORD : Field := ⟨0x958, 8, 0, 63⟩

/-- ATT_PUB PUB, bits 0:63 (R428). -/
abbrev ATT_PUB.PUB : Field := ⟨0x9D8, 8, 0, 63⟩

/-- ATT_CERT_LEN LEN, bits 48:63 (R428). -/
abbrev ATT_CERT_LEN.LEN : Field := ⟨0xA38, 0, 48, 63⟩

/-- ATT_CERT_SEL IDX, bits 56:63 (R428). -/
abbrev ATT_CERT_SEL.IDX : Field := ⟨0xA40, 0, 56, 63⟩

/-- ATT_CERT_DATA DATA, bits 0:63 (R428). -/
abbrev ATT_CERT_DATA.DATA : Field := ⟨0xA48, 0, 0, 63⟩

/-- STW_STAT ROLE, bits 0:1 (R447). -/
abbrev STW_STAT.ROLE : Field := ⟨0x080, 0, 0, 1⟩
/-- STW_STAT SLOT, bits 2:2 (R447). -/
abbrev STW_STAT.SLOT : Field := ⟨0x080, 0, 2, 2⟩
/-- STW_STAT PEER_SYNC, bits 3:3 (R447). -/
abbrev STW_STAT.PEER_SYNC : Field := ⟨0x080, 0, 3, 3⟩
/-- STW_STAT BOOT_RESULT, bits 8:15 (R447). -/
abbrev STW_STAT.BOOT_RESULT : Field := ⟨0x080, 0, 8, 15⟩
/-- STW_STAT FW_GEN, bits 32:63 (R447). -/
abbrev STW_STAT.FW_GEN : Field := ⟨0x080, 0, 32, 63⟩

/-- STW_ERR BOOT_FAIL, bits 0:0 (R447). -/
abbrev STW_ERR.BOOT_FAIL : Field := ⟨0x088, 0, 0, 0⟩
/-- STW_ERR BUS_ERR, bits 1:1 (R447). -/
abbrev STW_ERR.BUS_ERR : Field := ⟨0x088, 0, 1, 1⟩
/-- STW_ERR MEM_UNCORR, bits 2:2 (R447). -/
abbrev STW_ERR.MEM_UNCORR : Field := ⟨0x088, 0, 2, 2⟩
/-- STW_ERR REPL_ABORT, bits 3:3 (R447). -/
abbrev STW_ERR.REPL_ABORT : Field := ⟨0x088, 0, 3, 3⟩
/-- STW_ERR POISON, bits 4:4 (R447). -/
abbrev STW_ERR.POISON : Field := ⟨0x088, 0, 4, 4⟩

/-- STW_BUSADDR ADDR, bits 16:63 (R447). -/
abbrev STW_BUSADDR.ADDR : Field := ⟨0x090, 0, 16, 63⟩

/-- STW_REPL_CTL OP, bits 0:1 (R447). -/
abbrev STW_REPL_CTL.OP : Field := ⟨0x098, 0, 0, 1⟩
/-- STW_REPL_CTL START, bits 2:2 (R447). -/
abbrev STW_REPL_CTL.START : Field := ⟨0x098, 0, 2, 2⟩
/-- STW_REPL_CTL BUSY, bits 3:3 (R447). -/
abbrev STW_REPL_CTL.BUSY : Field := ⟨0x098, 0, 3, 3⟩
/-- STW_REPL_CTL RESULT, bits 8:15 (R447). -/
abbrev STW_REPL_CTL.RESULT : Field := ⟨0x098, 0, 8, 15⟩
/-- STW_REPL_CTL LEN, bits 32:53 (R447). -/
abbrev STW_REPL_CTL.LEN : Field := ⟨0x098, 0, 32, 53⟩

/-- STW_REPL_SRC SRC, bits 40:56 (R447). -/
abbrev STW_REPL_SRC.SRC : Field := ⟨0x0A0, 0, 40, 56⟩

/-- STW_NEXT_EPOCH EPOCH, bits 0:63 (R447). -/
abbrev STW_NEXT_EPOCH.EPOCH : Field := ⟨0x0A8, 0, 0, 63⟩

/-- STW_NEXT_JSEQ JSEQ, bits 0:63 (R447). -/
abbrev STW_NEXT_JSEQ.JSEQ : Field := ⟨0x0B0, 0, 0, 63⟩

/-- STW_PEERSTORE VALID0, bits 0:0 (R447). -/
abbrev STW_PEERSTORE.VALID0 : Field := ⟨0x0B8, 0, 0, 0⟩
/-- STW_PEERSTORE VALID1, bits 1:1 (R447). -/
abbrev STW_PEERSTORE.VALID1 : Field := ⟨0x0B8, 0, 1, 1⟩
/-- STW_PEERSTORE LAST, bits 16:63 (R447). -/
abbrev STW_PEERSTORE.LAST : Field := ⟨0x0B8, 0, 16, 63⟩

/-- STW_FWDIGEST DIGEST, bits 0:63 (R447). -/
abbrev STW_FWDIGEST.DIGEST : Field := ⟨0x0C0, 8, 0, 63⟩

/-- STW_COUNT EPOCHS, bits 0:31 (R447). -/
abbrev STW_COUNT.EPOCHS : Field := ⟨0x0F0, 0, 0, 31⟩
/-- STW_COUNT JLOGS, bits 32:63 (R447). -/
abbrev STW_COUNT.JLOGS : Field := ⟨0x0F0, 0, 32, 63⟩

/-- CUBE_CFG LEASE_MS, bits 0:9 (R448). -/
abbrev CUBE_CFG.LEASE_MS : Field := ⟨0x080, 0, 0, 9⟩
/-- CUBE_CFG SEAM0_WR, bits 10:10 (R448). -/
abbrev CUBE_CFG.SEAM0_WR : Field := ⟨0x080, 0, 10, 10⟩

/-- CUBE_STAT HOLDER, bits 0:1 (R448). -/
abbrev CUBE_STAT.HOLDER : Field := ⟨0x088, 0, 0, 1⟩
/-- CUBE_STAT PEND, bits 2:3 (R448). -/
abbrev CUBE_STAT.PEND : Field := ⟨0x088, 0, 2, 3⟩
/-- CUBE_STAT GEN, bits 32:63 (R448). -/
abbrev CUBE_STAT.GEN : Field := ⟨0x088, 0, 32, 63⟩

/-- CUBE_REMAIN REMAIN_US, bits 44:63 (R448). -/
abbrev CUBE_REMAIN.REMAIN_US : Field := ⟨0x090, 0, 44, 63⟩

/-- CUBE_OP OP, bits 0:1 (R448). -/
abbrev CUBE_OP.OP : Field := ⟨0x098, 0, 0, 1⟩

/-- CUBE_REJ REJ0, bits 0:31 (R448). -/
abbrev CUBE_REJ.REJ0 : Field := ⟨0x0A0, 0, 0, 31⟩
/-- CUBE_REJ REJ1, bits 32:63 (R448). -/
abbrev CUBE_REJ.REJ1 : Field := ⟨0x0A0, 0, 32, 63⟩

/-- CUBE_COUNT GRANTS, bits 0:15 (R448). -/
abbrev CUBE_COUNT.GRANTS : Field := ⟨0x0A8, 0, 0, 15⟩
/-- CUBE_COUNT EXPIRIES, bits 16:31 (R448). -/
abbrev CUBE_COUNT.EXPIRIES : Field := ⟨0x0A8, 0, 16, 31⟩
/-- CUBE_COUNT RELEASES, bits 32:47 (R448). -/
abbrev CUBE_COUNT.RELEASES : Field := ⟨0x0A8, 0, 32, 47⟩
/-- CUBE_COUNT REFUSED_RENEW, bits 48:63 (R448). -/
abbrev CUBE_COUNT.REFUSED_RENEW : Field := ⟨0x0A8, 0, 48, 63⟩

/-- CUBE_ERR EXPIRED, bits 0:0 (R448). -/
abbrev CUBE_ERR.EXPIRED : Field := ⟨0x0B0, 0, 0, 0⟩
/-- CUBE_ERR LATE, bits 1:1 (R448). -/
abbrev CUBE_ERR.LATE : Field := ⟨0x0B0, 0, 1, 1⟩

/-- STW_FWKEYHASH KEYHASH, bits 0:63 (R449). -/
abbrev STW_FWKEYHASH.KEYHASH : Field := ⟨0xB00, 8, 0, 63⟩

/-- STW_FWFLOOR FLOOR, bits 0:7 (R449). -/
abbrev STW_FWFLOOR.FLOOR : Field := ⟨0xB30, 0, 0, 7⟩
/-- STW_FWFLOOR RAISE, bits 8:8 (R449). -/
abbrev STW_FWFLOOR.RAISE : Field := ⟨0xB30, 0, 8, 8⟩
/-- STW_FWFLOOR RESULT, bits 16:23 (R449). -/
abbrev STW_FWFLOOR.RESULT : Field := ⟨0xB30, 0, 16, 23⟩

/-- FLT_REACT NOTIFY, bits 0:1 (R471). -/
abbrev FLT_REACT.NOTIFY : Field := ⟨0x080, 8, 0, 1⟩
/-- FLT_REACT CANARY_US, bits 12:31 (R471). -/
abbrev FLT_REACT.CANARY_US : Field := ⟨0x080, 8, 12, 31⟩

/-- FLT_COUNT CORR, bits 0:31 (R471). -/
abbrev FLT_COUNT.CORR : Field := ⟨0x0A8, 0, 0, 31⟩
/-- FLT_COUNT DEFER, bits 32:47 (R471). -/
abbrev FLT_COUNT.DEFER : Field := ⟨0x0A8, 0, 32, 47⟩
/-- FLT_COUNT UNCORR, bits 48:63 (R471). -/
abbrev FLT_COUNT.UNCORR : Field := ⟨0x0A8, 0, 48, 63⟩

/-- FLT_WIRE WIRES, bits 0:15 (R471). -/
abbrev FLT_WIRE.WIRES : Field := ⟨0x0B0, 0, 0, 15⟩
/-- FLT_WIRE TYPE, bits 16:31 (R471). -/
abbrev FLT_WIRE.TYPE : Field := ⟨0x0B0, 0, 16, 31⟩
/-- FLT_WIRE INST, bits 32:47 (R471). -/
abbrev FLT_WIRE.INST : Field := ⟨0x0B0, 0, 32, 47⟩

/-- FLT_CONSEQ COUNT, bits 0:31 (R471). -/
abbrev FLT_CONSEQ.COUNT : Field := ⟨0x0B8, 0, 0, 31⟩
/-- FLT_CONSEQ TYPE, bits 32:47 (R471). -/
abbrev FLT_CONSEQ.TYPE : Field := ⟨0x0B8, 0, 32, 47⟩
/-- FLT_CONSEQ INST, bits 48:63 (R471). -/
abbrev FLT_CONSEQ.INST : Field := ⟨0x0B8, 0, 48, 63⟩

/-- FLT_ERR WIRE, bits 0:0 (R471). -/
abbrev FLT_ERR.WIRE : Field := ⟨0x0C0, 0, 0, 0⟩
/-- FLT_ERR OVERFLOW, bits 1:1 (R471). -/
abbrev FLT_ERR.OVERFLOW : Field := ⟨0x0C0, 0, 1, 1⟩
/-- FLT_ERR LADDER, bits 2:2 (R471). -/
abbrev FLT_ERR.LADDER : Field := ⟨0x0C0, 0, 2, 2⟩

/-- FLT_NOTICE VALID, bits 0:0 (R472). -/
abbrev FLT_NOTICE.VALID : Field := ⟨0x100, 0, 0, 0⟩
/-- FLT_NOTICE CLASS, bits 1:3 (R472). -/
abbrev FLT_NOTICE.CLASS : Field := ⟨0x100, 0, 1, 3⟩
/-- FLT_NOTICE SLOT, bits 4:11 (R472). -/
abbrev FLT_NOTICE.SLOT : Field := ⟨0x100, 0, 4, 11⟩
/-- FLT_NOTICE TYPE, bits 16:31 (R472). -/
abbrev FLT_NOTICE.TYPE : Field := ⟨0x100, 0, 16, 31⟩
/-- FLT_NOTICE INST, bits 32:47 (R472). -/
abbrev FLT_NOTICE.INST : Field := ⟨0x100, 0, 32, 47⟩
/-- FLT_NOTICE INDEX, bits 48:55 (R472). -/
abbrev FLT_NOTICE.INDEX : Field := ⟨0x100, 0, 48, 55⟩
/-- FLT_NOTICE SEAM, bits 56:63 (R472). -/
abbrev FLT_NOTICE.SEAM : Field := ⟨0x100, 0, 56, 63⟩

/-- FLT_NOTICE_SEQ SEQ, bits 0:63 (R472). -/
abbrev FLT_NOTICE_SEQ.SEQ : Field := ⟨0x108, 0, 0, 63⟩

/-- FLT_NOTICE_POP POP, bits 0:0 (R472). -/
abbrev FLT_NOTICE_POP.POP : Field := ⟨0x110, 0, 0, 0⟩

/-- FLT_ACK SLOT, bits 0:5 (R472). -/
abbrev FLT_ACK.SLOT : Field := ⟨0x118, 0, 0, 5⟩

/-- FLT_CANARY PENDING, bits 0:63 (R472). -/
abbrev FLT_CANARY.PENDING : Field := ⟨0x120, 0, 0, 63⟩

/-- FLT_CANARY_SEL SEL, bits 58:63 (R472). -/
abbrev FLT_CANARY_SEL.SEL : Field := ⟨0x128, 0, 58, 63⟩

/-- FLT_CANARY_STAT CLASS, bits 0:2 (R472). -/
abbrev FLT_CANARY_STAT.CLASS : Field := ⟨0x130, 0, 0, 2⟩
/-- FLT_CANARY_STAT RUNG, bits 3:5 (R472). -/
abbrev FLT_CANARY_STAT.RUNG : Field := ⟨0x130, 0, 3, 5⟩
/-- FLT_CANARY_STAT TYPE, bits 16:31 (R472). -/
abbrev FLT_CANARY_STAT.TYPE : Field := ⟨0x130, 0, 16, 31⟩
/-- FLT_CANARY_STAT INST, bits 32:43 (R472). -/
abbrev FLT_CANARY_STAT.INST : Field := ⟨0x130, 0, 32, 43⟩
/-- FLT_CANARY_STAT REMAIN_US, bits 44:63 (R472). -/
abbrev FLT_CANARY_STAT.REMAIN_US : Field := ⟨0x130, 0, 44, 63⟩

/-- FLT_MODE TEST, bits 0:0 (R472). -/
abbrev FLT_MODE.TEST : Field := ⟨0x138, 0, 0, 0⟩
/-- FLT_MODE FIELD_SEALED, bits 1:1 (R472). -/
abbrev FLT_MODE.FIELD_SEALED : Field := ⟨0x138, 0, 1, 1⟩

/-- FLT_LADDER FENCES, bits 0:15 (R472). -/
abbrev FLT_LADDER.FENCES : Field := ⟨0x140, 0, 0, 15⟩
/-- FLT_LADDER RESETS, bits 16:31 (R472). -/
abbrev FLT_LADDER.RESETS : Field := ⟨0x140, 0, 16, 31⟩
/-- FLT_LADDER PARENT_FENCES, bits 32:47 (R472). -/
abbrev FLT_LADDER.PARENT_FENCES : Field := ⟨0x140, 0, 32, 47⟩
/-- FLT_LADDER ACKS, bits 48:63 (R472). -/
abbrev FLT_LADDER.ACKS : Field := ⟨0x140, 0, 48, 63⟩

/-- FLT_MCHK CHECKSTOP, bits 0:0 (R472). -/
abbrev FLT_MCHK.CHECKSTOP : Field := ⟨0x148, 0, 0, 0⟩
/-- FLT_MCHK NOTICE_LOST, bits 1:1 (R472). -/
abbrev FLT_MCHK.NOTICE_LOST : Field := ⟨0x148, 0, 1, 1⟩

/-- TLY_NEXT NEXT, bits 0:63 (R473). -/
abbrev TLY_NEXT.NEXT : Field := ⟨0x080, 0, 0, 63⟩

/-- TLY_OLDEST OLDEST, bits 0:63 (R473). -/
abbrev TLY_OLDEST.OLDEST : Field := ⟨0x088, 0, 0, 63⟩

/-- TLY_PCYCLE PCYCLE, bits 0:31 (R473). -/
abbrev TLY_PCYCLE.PCYCLE : Field := ⟨0x090, 0, 0, 31⟩

/-- TLY_OPTIME SECONDS, bits 0:39 (R473). -/
abbrev TLY_OPTIME.SECONDS : Field := ⟨0x098, 0, 0, 39⟩
/-- TLY_OPTIME FRACTION, bits 40:55 (R473). -/
abbrev TLY_OPTIME.FRACTION : Field := ⟨0x098, 0, 40, 55⟩

/-- TLY_COMMIT SECONDS, bits 0:39 (R473). -/
abbrev TLY_COMMIT.SECONDS : Field := ⟨0x0A0, 0, 0, 39⟩

/-- TLY_READ READ, bits 0:63 (R473). -/
abbrev TLY_READ.READ : Field := ⟨0x0A8, 0, 0, 63⟩

/-- TLY_CFG WARN, bits 0:17 (R473). -/
abbrev TLY_CFG.WARN : Field := ⟨0x0B0, 0, 0, 17⟩

/-- TLY_SEL SEQ, bits 0:63 (R473). -/
abbrev TLY_SEL.SEQ : Field := ⟨0x0B8, 0, 0, 63⟩

/-- TLY_SEL_STAT VALID, bits 0:0 (R473). -/
abbrev TLY_SEL_STAT.VALID : Field := ⟨0x0C0, 0, 0, 0⟩

/-- TLY_REC WORD, bits 0:63 (R473). -/
abbrev TLY_REC.WORD : Field := ⟨0x0C8, 8, 0, 63⟩

/-- TLY_WRITE EVENT, bits 0:15 (R473). -/
abbrev TLY_WRITE.EVENT : Field := ⟨0x108, 0, 0, 15⟩
/-- TLY_WRITE SEAM, bits 16:23 (R473). -/
abbrev TLY_WRITE.SEAM : Field := ⟨0x108, 0, 16, 23⟩
/-- TLY_WRITE GO, bits 24:24 (R473). -/
abbrev TLY_WRITE.GO : Field := ⟨0x108, 0, 24, 24⟩
/-- TLY_WRITE RESULT, bits 32:39 (R473). -/
abbrev TLY_WRITE.RESULT : Field := ⟨0x108, 0, 32, 39⟩

/-- TLY_WRITE_DATA DATA, bits 0:63 (R473). -/
abbrev TLY_WRITE_DATA.DATA : Field := ⟨0x110, 8, 0, 63⟩

/-- TLY_ERR LOST, bits 0:0 (R473). -/
abbrev TLY_ERR.LOST : Field := ⟨0x130, 0, 0, 0⟩
/-- TLY_ERR TORN, bits 1:1 (R473). -/
abbrev TLY_ERR.TORN : Field := ⟨0x130, 0, 1, 1⟩
/-- TLY_ERR MRAM_FAIL, bits 2:2 (R473). -/
abbrev TLY_ERR.MRAM_FAIL : Field := ⟨0x130, 0, 2, 2⟩

/-- TLY_COUNT WRITTEN, bits 0:31 (R473). -/
abbrev TLY_COUNT.WRITTEN : Field := ⟨0x138, 0, 0, 31⟩
/-- TLY_COUNT LOST_N, bits 32:63 (R473). -/
abbrev TLY_COUNT.LOST_N : Field := ⟨0x138, 0, 32, 63⟩

/-- PWR_STAT ENVELOPE, bits 0:1 (R493). -/
abbrev PWR_STAT.ENVELOPE : Field := ⟨0x080, 0, 0, 1⟩
/-- PWR_STAT P_AVAIL_W, bits 16:31 (R493). -/
abbrev PWR_STAT.P_AVAIL_W : Field := ⟨0x080, 0, 16, 31⟩
/-- PWR_STAT P_CORE_W, bits 32:47 (R493). -/
abbrev PWR_STAT.P_CORE_W : Field := ⟨0x080, 0, 32, 47⟩
/-- PWR_STAT P_IN_W, bits 48:63 (R493). -/
abbrev PWR_STAT.P_IN_W : Field := ⟨0x080, 0, 48, 63⟩

/-- PWR_CFG BASE_FULL, bits 0:15 (R493). -/
abbrev PWR_CFG.BASE_FULL : Field := ⟨0x088, 0, 0, 15⟩
/-- PWR_CFG BASE_SURV, bits 16:31 (R493). -/
abbrev PWR_CFG.BASE_SURV : Field := ⟨0x088, 0, 16, 31⟩
/-- PWR_CFG THROT_C, bits 32:39 (R493). -/
abbrev PWR_CFG.THROT_C : Field := ⟨0x088, 0, 32, 39⟩

/-- PWR_PHASE PHASE_OK, bits 0:11 (R493). -/
abbrev PWR_PHASE.PHASE_OK : Field := ⟨0x090, 0, 0, 11⟩
/-- PWR_PHASE P_CUT_W, bits 16:31 (R493). -/
abbrev PWR_PHASE.P_CUT_W : Field := ⟨0x090, 0, 16, 31⟩

/-- PWR_ERR PHASE_FAIL, bits 0:0 (R493). -/
abbrev PWR_ERR.PHASE_FAIL : Field := ⟨0x098, 0, 0, 0⟩
/-- PWR_ERR OVERLOAD, bits 1:1 (R493). -/
abbrev PWR_ERR.OVERLOAD : Field := ⟨0x098, 0, 1, 1⟩
/-- PWR_ERR THERMAL, bits 2:2 (R493). -/
abbrev PWR_ERR.THERMAL : Field := ⟨0x098, 0, 2, 2⟩
/-- PWR_ERR AO_SUPPLY, bits 3:3 (R493). -/
abbrev PWR_ERR.AO_SUPPLY : Field := ⟨0x098, 0, 3, 3⟩

/-- PWR_CMD OP, bits 0:1 (R493). -/
abbrev PWR_CMD.OP : Field := ⟨0x0A0, 0, 0, 1⟩
/-- PWR_CMD START, bits 2:2 (R493). -/
abbrev PWR_CMD.START : Field := ⟨0x0A0, 0, 2, 2⟩
/-- PWR_CMD BUSY, bits 3:3 (R493). -/
abbrev PWR_CMD.BUSY : Field := ⟨0x0A0, 0, 3, 3⟩
/-- PWR_CMD RESULT, bits 8:15 (R493). -/
abbrev PWR_CMD.RESULT : Field := ⟨0x0A0, 0, 8, 15⟩

/-- CLK_STAT SOURCE, bits 0:1 (R493). -/
abbrev CLK_STAT.SOURCE : Field := ⟨0x0A8, 0, 0, 1⟩
/-- CLK_STAT XTAL_FAIL, bits 2:2 (R493). -/
abbrev CLK_STAT.XTAL_FAIL : Field := ⟨0x0A8, 0, 2, 2⟩
/-- CLK_STAT REF_LOST, bits 3:3 (R493). -/
abbrev CLK_STAT.REF_LOST : Field := ⟨0x0A8, 0, 3, 3⟩

/-- HLD_STAT V_MV, bits 0:15 (R493). -/
abbrev HLD_STAT.V_MV : Field := ⟨0x0B0, 0, 0, 15⟩
/-- HLD_STAT E_MJ, bits 16:31 (R493). -/
abbrev HLD_STAT.E_MJ : Field := ⟨0x0B0, 0, 16, 31⟩
/-- HLD_STAT ENOUGH, bits 32:32 (R493). -/
abbrev HLD_STAT.ENOUGH : Field := ⟨0x0B0, 0, 32, 32⟩
/-- HLD_STAT CHARGING, bits 33:33 (R493). -/
abbrev HLD_STAT.CHARGING : Field := ⟨0x0B0, 0, 33, 33⟩
/-- HLD_STAT TESTING, bits 34:34 (R493). -/
abbrev HLD_STAT.TESTING : Field := ⟨0x0B0, 0, 34, 34⟩

/-- HLD_TEST C_UF, bits 0:23 (R493). -/
abbrev HLD_TEST.C_UF : Field := ⟨0x0B8, 0, 0, 23⟩
/-- HLD_TEST ESR_MOHM, bits 24:39 (R493). -/
abbrev HLD_TEST.ESR_MOHM : Field := ⟨0x0B8, 0, 24, 39⟩
/-- HLD_TEST AGE_S, bits 40:63 (R493). -/
abbrev HLD_TEST.AGE_S : Field := ⟨0x0B8, 0, 40, 63⟩

/-- HLD_CFG TEST_EN, bits 0:0 (R493). -/
abbrev HLD_CFG.TEST_EN : Field := ⟨0x0C0, 0, 0, 0⟩
/-- HLD_CFG TEST_HOURS, bits 8:15 (R493). -/
abbrev HLD_CFG.TEST_HOURS : Field := ⟨0x0C0, 0, 8, 15⟩
/-- HLD_CFG TEST, bits 16:16 (R493). -/
abbrev HLD_CFG.TEST : Field := ⟨0x0C0, 0, 16, 16⟩

/-- HLD_ERR LOW_ENERGY, bits 0:0 (R493). -/
abbrev HLD_ERR.LOW_ENERGY : Field := ⟨0x0C8, 0, 0, 0⟩
/-- HLD_ERR TEST_FAIL, bits 1:1 (R493). -/
abbrev HLD_ERR.TEST_FAIL : Field := ⟨0x0C8, 0, 1, 1⟩
/-- HLD_ERR CHARGE_FAIL, bits 2:2 (R493). -/
abbrev HLD_ERR.CHARGE_FAIL : Field := ⟨0x0C8, 0, 2, 2⟩

/-- HLD_MIN MIN_MJ, bits 0:15 (R493). -/
abbrev HLD_MIN.MIN_MJ : Field := ⟨0x0D0, 0, 0, 15⟩

/-- PWR_FAIL CAUSE, bits 0:7 (R493). -/
abbrev PWR_FAIL.CAUSE : Field := ⟨0x0D8, 0, 0, 7⟩
/-- PWR_FAIL VIN, bits 16:31 (R493). -/
abbrev PWR_FAIL.VIN : Field := ⟨0x0D8, 0, 16, 31⟩
/-- PWR_FAIL VMEAN_1S, bits 32:47 (R493). -/
abbrev PWR_FAIL.VMEAN_1S : Field := ⟨0x0D8, 0, 32, 47⟩

/-- ENV_ALARM ALARM, bits 0:31 (R493). -/
abbrev ENV_ALARM.ALARM : Field := ⟨0x0E0, 0, 0, 31⟩

/-- ENV_EN EN, bits 0:31 (R493). -/
abbrev ENV_EN.EN : Field := ⟨0x0E8, 0, 0, 31⟩

/-- ENV_LIMIT LOW, bits 2:15 (R493). -/
abbrev ENV_LIMIT.LOW : Field := ⟨0x100, 8, 2, 15⟩
/-- ENV_LIMIT HIGH, bits 18:31 (R493). -/
abbrev ENV_LIMIT.HIGH : Field := ⟨0x100, 8, 18, 31⟩

/-- ENV_DATA CODE, bits 50:63 (R493). -/
abbrev ENV_DATA.CODE : Field := ⟨0x200, 8, 50, 63⟩

end Reg

/-- Register table rows of the hdr page, part 1. -/
def rows_hdr_0 : List Row := [
  ⟨⟨0x000, 0, 0, 15⟩, 1, .ro, .hw, 0, 511⟩,
  ⟨⟨0x000, 0, 16, 31⟩, 1, .ro, .hw, 0, 511⟩,
  ⟨⟨0x000, 0, 32, 39⟩, 1, .ro, .hw, 0, 511⟩,
  ⟨⟨0x008, 0, 0, 7⟩, 1, .ro, .hw, 0, 511⟩,
  ⟨⟨0x008, 0, 8, 15⟩, 1, .ro, .hw, 0, 511⟩,
  ⟨⟨0x008, 0, 16, 31⟩, 1, .ro, .hw, 0, 511⟩,
  ⟨⟨0x010, 0, 24, 63⟩, 1, .ro, .fuse, 0, 511⟩,
  ⟨⟨0x018, 0, 0, 7⟩, 1, .ro, .fuse, 0, 511⟩,
  ⟨⟨0x018, 0, 8, 15⟩, 1, .ro, .fuse, 0, 511⟩,
  ⟨⟨0x018, 0, 16, 23⟩, 1, .ro, .fuse, 0, 511⟩,
  ⟨⟨0x018, 0, 24, 31⟩, 1, .ro, .fuse, 0, 511⟩,
  ⟨⟨0x020, 0, 0, 15⟩, 1, .ro, .hw, 0, 511⟩,
  ⟨⟨0x020, 0, 16, 31⟩, 1, .ro, .hw, 0, 511⟩,
  ⟨⟨0x028, 0, 0, 0⟩, 1, .rs, .value, 0, 126⟩,
  ⟨⟨0x028, 0, 1, 1⟩, 1, .ro, .hw, 0, 0⟩,
  ⟨⟨0x028, 0, 2, 63⟩, 1, .ro, .hw, 0, 0⟩,
  ⟨⟨0x030, 0, 0, 0⟩, 1, .wo, .value, 0, 0⟩,
  ⟨⟨0x030, 0, 1, 1⟩, 1, .wo, .value, 0, 0⟩,
  ⟨⟨0x030, 0, 56, 63⟩, 1, .wo, .value, 0, 0⟩,
  ⟨⟨0x038, 0, 0, 0⟩, 1, .ro, .hw, 0, 0⟩,
  ⟨⟨0x038, 0, 1, 1⟩, 1, .ro, .hw, 0, 0⟩,
  ⟨⟨0x038, 0, 2, 63⟩, 1, .ro, .hw, 0, 0⟩,
  ⟨⟨0x040, 0, 0, 0⟩, 1, .wo, .value, 0, 0⟩,
  ⟨⟨0x040, 0, 1, 1⟩, 1, .ro, .hw, 0, 0⟩]

/-- Register table rows of the hdr page, part 2. -/
def rows_hdr_1 : List Row := [
  ⟨⟨0x040, 0, 2, 2⟩, 1, .ro, .hw, 0, 0⟩,
  ⟨⟨0x040, 0, 8, 15⟩, 1, .ro, .hw, 0, 0⟩,
  ⟨⟨0x048, 0, 0, 2⟩, 1, .ro, .hw, 0, 0⟩,
  ⟨⟨0x048, 0, 4, 5⟩, 1, .rw, .value, 2, 124⟩,
  ⟨⟨0x048, 0, 6, 6⟩, 1, .rw, .value, 0, 124⟩,
  ⟨⟨0x050, 0, 0, 7⟩, 1, .rwl, .value, 0, 126⟩,
  ⟨⟨0x058, 0, 0, 0⟩, 1, .rwl, .value, 0, 88⟩]

/-- Register table rows of the hdr page. -/
def rows_hdr : List Row := rows_hdr_0 ++ rows_hdr_1

/-- Register table rows of the core page, part 1. -/
def rows_core_0 : List Row := [
  ⟨⟨0x080, 0, 0, 2⟩, 1, .ro, .hw, 0, 0⟩,
  ⟨⟨0x080, 0, 3, 3⟩, 1, .rs, .value, 0, 126⟩,
  ⟨⟨0x080, 0, 4, 4⟩, 1, .rs, .value, 0, 126⟩,
  ⟨⟨0x080, 0, 5, 5⟩, 1, .rs, .value, 0, 126⟩,
  ⟨⟨0x080, 0, 6, 6⟩, 1, .rs, .value, 0, 126⟩,
  ⟨⟨0x080, 0, 7, 7⟩, 1, .rs, .value, 0, 126⟩,
  ⟨⟨0x088, 0, 0, 31⟩, 1, .rw, .value, 0, 24⟩,
  ⟨⟨0x088, 0, 32, 39⟩, 1, .ro, .hw, 0, 0⟩,
  ⟨⟨0x090, 0, 0, 63⟩, 1, .ro, .value, 0, 28⟩,
  ⟨⟨0x098, 0, 0, 8⟩, 1, .ro, .value, 0, 28⟩,
  ⟨⟨0x098, 0, 16, 17⟩, 1, .ro, .value, 0, 28⟩,
  ⟨⟨0x098, 0, 32, 63⟩, 1, .ro, .value, 0, 28⟩,
  ⟨⟨0x0A0, 0, 0, 47⟩, 1, .ro, .hw, 0, 0⟩,
  ⟨⟨0x0A0, 0, 48, 55⟩, 1, .rw, .value, 0, 24⟩,
  ⟨⟨0x400, 0, 0, 0⟩, 1, .rwl, .value, 1, 24⟩,
  ⟨⟨0x400, 0, 1, 1⟩, 1, .rwl, .value, 1, 24⟩,
  ⟨⟨0x408, 0, 0, 31⟩, 1, .rw, .value, 0, 24⟩,
  ⟨⟨0x408, 0, 32, 63⟩, 1, .rw, .value, 0, 24⟩,
  ⟨⟨0x410, 0, 0, 0⟩, 1, .rs, .value, 0, 126⟩,
  ⟨⟨0x500, 0, 0, 0⟩, 1, .rwl, .value, 1, 24⟩,
  ⟨⟨0x500, 0, 1, 3⟩, 1, .rwl, .value, 3, 24⟩,
  ⟨⟨0x500, 0, 4, 5⟩, 1, .rwl, .value, 2, 24⟩,
  ⟨⟨0x500, 0, 6, 6⟩, 1, .rwl, .value, 1, 24⟩,
  ⟨⟨0x508, 0, 0, 7⟩, 1, .w1c, .value, 0, 16⟩]

/-- Register table rows of the core page, part 2. -/
def rows_core_1 : List Row := [
  ⟨⟨0x508, 0, 8, 15⟩, 1, .rwl, .value, 0, 16⟩,
  ⟨⟨0x510, 0, 16, 56⟩, 1, .rw, .value, 0, 16⟩,
  ⟨⟨0x518, 0, 0, 7⟩, 1, .rw, .value, 0, 16⟩,
  ⟨⟨0x518, 0, 8, 8⟩, 1, .wo, .value, 0, 0⟩,
  ⟨⟨0x518, 0, 9, 9⟩, 1, .ro, .hw, 0, 0⟩,
  ⟨⟨0x518, 0, 10, 10⟩, 1, .ro, .hw, 0, 0⟩,
  ⟨⟨0x518, 0, 16, 39⟩, 1, .rw, .value, 0, 16⟩,
  ⟨⟨0x520, 0, 0, 31⟩, 1, .ro, .hw, 0, 0⟩,
  ⟨⟨0x528, 0, 0, 31⟩, 1, .rw, .value, 0, 24⟩,
  ⟨⟨0x530, 0, 0, 0⟩, 1, .rs, .value, 0, 126⟩,
  ⟨⟨0x530, 0, 32, 63⟩, 1, .rw, .value, 0, 24⟩,
  ⟨⟨0x538, 0, 0, 31⟩, 1, .rw, .value, 0, 24⟩,
  ⟨⟨0x538, 0, 32, 63⟩, 1, .rw, .value, 0, 24⟩,
  ⟨⟨0x540, 0, 0, 31⟩, 1, .rw, .value, 0, 24⟩,
  ⟨⟨0x540, 0, 32, 32⟩, 1, .rs, .value, 0, 126⟩]

/-- Register table rows of the core page. -/
def rows_core : List Row := rows_core_0 ++ rows_core_1

/-- Register table rows of the l3 page. -/
def rows_l3 : List Row := [
  ⟨⟨0x080, 0, 0, 63⟩, 1, .rwl, .value, 18446744073709551615, 120⟩,
  ⟨⟨0x088, 0, 0, 63⟩, 1, .rwl, .value, 18446744073709551615, 120⟩,
  ⟨⟨0x090, 0, 0, 7⟩, 1, .w1c, .value, 0, 88⟩,
  ⟨⟨0x098, 0, 16, 56⟩, 1, .rw, .value, 0, 80⟩,
  ⟨⟨0x0A0, 0, 0, 7⟩, 1, .rw, .value, 0, 80⟩,
  ⟨⟨0x0A0, 0, 8, 8⟩, 1, .wo, .value, 0, 0⟩,
  ⟨⟨0x0A0, 0, 9, 9⟩, 1, .ro, .hw, 0, 0⟩,
  ⟨⟨0x0A0, 0, 10, 10⟩, 1, .ro, .hw, 0, 0⟩,
  ⟨⟨0x0A0, 0, 16, 39⟩, 1, .rw, .value, 0, 80⟩,
  ⟨⟨0x0A8, 0, 0, 31⟩, 1, .ro, .hw, 0, 0⟩,
  ⟨⟨0x0B0, 0, 0, 31⟩, 1, .rw, .value, 0, 88⟩,
  ⟨⟨0x0B8, 0, 0, 31⟩, 1, .rw, .value, 0, 88⟩,
  ⟨⟨0x0B8, 0, 32, 63⟩, 1, .rw, .value, 0, 88⟩,
  ⟨⟨0x0C0, 0, 0, 5⟩, 1, .rwl, .value, 24, 120⟩,
  ⟨⟨0x0C8, 0, 0, 31⟩, 1, .rw, .value, 0, 88⟩,
  ⟨⟨0x0C8, 0, 32, 32⟩, 1, .rs, .value, 0, 126⟩,
  ⟨⟨0x0C8, 0, 33, 33⟩, 1, .rs, .value, 0, 126⟩,
  ⟨⟨0x0D0, 0, 0, 1⟩, 1, .rw, .value, 0, 88⟩,
  ⟨⟨0x0D0, 0, 2, 2⟩, 1, .wo, .value, 0, 0⟩,
  ⟨⟨0x0D0, 0, 3, 3⟩, 1, .ro, .hw, 0, 0⟩,
  ⟨⟨0x0D0, 0, 4, 4⟩, 1, .ro, .hw, 0, 0⟩,
  ⟨⟨0x0D0, 0, 5, 5⟩, 1, .rw, .value, 0, 88⟩]

/-- Register table rows of the home page, part 1. -/
def rows_home_0 : List Row := [
  ⟨⟨0x080, 0, 0, 15⟩, 1, .rwl, .value, 1024, 24⟩,
  ⟨⟨0x080, 0, 16, 16⟩, 1, .rwl, .value, 0, 24⟩,
  ⟨⟨0x080, 0, 17, 17⟩, 1, .rwl, .value, 0, 24⟩,
  ⟨⟨0x088, 0, 0, 63⟩, 1, .rwl, .value, 18446744073709551615, 24⟩,
  ⟨⟨0x090, 0, 0, 63⟩, 1, .rwl, .value, 18446744073709551615, 24⟩,
  ⟨⟨0x098, 0, 0, 7⟩, 1, .ro, .hw, 0, 0⟩,
  ⟨⟨0x098, 0, 8, 15⟩, 1, .rw, .value, 0, 24⟩,
  ⟨⟨0x098, 0, 16, 47⟩, 1, .rw, .value, 0, 24⟩,
  ⟨⟨0x0A0, 0, 0, 31⟩, 1, .rw, .value, 0, 24⟩,
  ⟨⟨0x0A8, 0, 0, 31⟩, 1, .rw, .value, 0, 24⟩,
  ⟨⟨0x0A8, 0, 32, 63⟩, 1, .rw, .value, 0, 24⟩,
  ⟨⟨0x0B0, 0, 0, 31⟩, 1, .rw, .value, 0, 24⟩,
  ⟨⟨0x0B0, 0, 32, 63⟩, 1, .rw, .value, 0, 24⟩,
  ⟨⟨0x0B8, 0, 0, 0⟩, 1, .rs, .value, 0, 30⟩,
  ⟨⟨0x0B8, 0, 1, 1⟩, 1, .rs, .value, 0, 30⟩,
  ⟨⟨0x0B8, 0, 2, 2⟩, 1, .rs, .value, 0, 30⟩,
  ⟨⟨0x0B8, 0, 32, 63⟩, 1, .rw, .value, 0, 24⟩,
  ⟨⟨0x0C0, 0, 0, 63⟩, 1, .rwl, .value, 18446744073709551615, 24⟩,
  ⟨⟨0x0C8, 0, 0, 63⟩, 1, .rwl, .value, 18446744073709551615, 24⟩,
  ⟨⟨0x0D0, 0, 0, 19⟩, 1, .ro, .hw, 0, 0⟩,
  ⟨⟨0x0D8, 0, 0, 31⟩, 1, .rw, .value, 0, 24⟩,
  ⟨⟨0x0D8, 0, 32, 63⟩, 1, .rw, .value, 0, 24⟩,
  ⟨⟨0x0E0, 0, 0, 31⟩, 1, .rw, .value, 0, 24⟩,
  ⟨⟨0x0E0, 0, 32, 32⟩, 1, .rs, .value, 0, 30⟩]

/-- Register table rows of the home page, part 2. -/
def rows_home_1 : List Row := [
  ⟨⟨0x200, 0, 49, 63⟩, 1, .rw, .value, 0, 24⟩,
  ⟨⟨0x208, 0, 0, 7⟩, 1, .ro, .hw, 0, 0⟩,
  ⟨⟨0x210, 0, 53, 63⟩, 1, .rw, .value, 0, 24⟩,
  ⟨⟨0x218, 0, 0, 0⟩, 1, .ro, .hw, 0, 0⟩,
  ⟨⟨0x218, 0, 1, 1⟩, 1, .ro, .hw, 0, 0⟩,
  ⟨⟨0x218, 0, 13, 31⟩, 1, .ro, .hw, 0, 0⟩,
  ⟨⟨0x218, 0, 49, 63⟩, 1, .ro, .hw, 0, 0⟩,
  ⟨⟨0x220, 0, 0, 15⟩, 1, .ro, .hw, 0, 0⟩,
  ⟨⟨0x220, 0, 16, 31⟩, 1, .ro, .hw, 0, 0⟩,
  ⟨⟨0x220, 0, 32, 63⟩, 1, .rw, .value, 0, 24⟩]

/-- Register table rows of the home page. -/
def rows_home : List Row := rows_home_0 ++ rows_home_1

/-- Register table rows of the ring page. -/
def rows_ring : List Row := [
  ⟨⟨0x080, 0, 0, 15⟩, 1, .ro, .hw, 0, 0⟩,
  ⟨⟨0x080, 0, 16, 31⟩, 1, .rw, .value, 0, 88⟩,
  ⟨⟨0x080, 0, 32, 63⟩, 1, .rw, .value, 0, 88⟩,
  ⟨⟨0x088, 0, 0, 0⟩, 1, .rs, .value, 0, 126⟩,
  ⟨⟨0x088, 0, 32, 63⟩, 1, .rw, .value, 0, 88⟩,
  ⟨⟨0x090, 0, 0, 31⟩, 1, .rw, .value, 0, 88⟩,
  ⟨⟨0x090, 0, 32, 63⟩, 1, .rw, .value, 0, 88⟩]

/-- Register table rows of the module page. -/
def rows_module : List Row := [
  ⟨⟨0x200, 0, 0, 0⟩, 1, .rwl, .value, 0, 8⟩,
  ⟨⟨0x200, 0, 8, 15⟩, 1, .ro, .value, 64, 15⟩,
  ⟨⟨0x240, 8, 0, 63⟩, 112, .rwl, .value, 18446744073709551615, 8⟩,
  ⟨⟨0x5C0, 8, 0, 0⟩, 7, .rs, .value, 0, 14⟩,
  ⟨⟨0x5C0, 8, 1, 1⟩, 7, .rs, .value, 0, 14⟩,
  ⟨⟨0x5C0, 8, 32, 63⟩, 7, .rw, .value, 0, 8⟩,
  ⟨⟨0x600, 0, 0, 15⟩, 1, .rwl, .value, 0, 8⟩,
  ⟨⟨0x600, 0, 16, 16⟩, 1, .rwl, .value, 0, 8⟩,
  ⟨⟨0x600, 0, 17, 17⟩, 1, .rwl, .value, 0, 8⟩,
  ⟨⟨0x600, 0, 18, 19⟩, 1, .rwl, .value, 0, 8⟩,
  ⟨⟨0x600, 0, 24, 25⟩, 1, .ro, .hw, 0, 0⟩,
  ⟨⟨0x600, 0, 26, 28⟩, 1, .ro, .hw, 0, 0⟩,
  ⟨⟨0x600, 0, 32, 43⟩, 1, .ro, .hw, 0, 0⟩,
  ⟨⟨0x608, 0, 0, 7⟩, 1, .ro, .value, 0, 8⟩,
  ⟨⟨0x608, 0, 8, 8⟩, 1, .wo, .value, 0, 0⟩,
  ⟨⟨0x610, 0, 0, 63⟩, 1, .ro, .hw, 0, 0⟩,
  ⟨⟨0x618, 0, 0, 1⟩, 1, .rw, .value, 0, 8⟩,
  ⟨⟨0x618, 0, 2, 3⟩, 1, .rw, .value, 0, 8⟩,
  ⟨⟨0x618, 0, 4, 4⟩, 1, .wo, .value, 0, 0⟩,
  ⟨⟨0x618, 0, 5, 5⟩, 1, .ro, .hw, 0, 0⟩,
  ⟨⟨0x618, 0, 8, 15⟩, 1, .ro, .value, 0, 8⟩,
  ⟨⟨0x620, 0, 0, 63⟩, 1, .rw, .value, 0, 8⟩,
  ⟨⟨0x628, 0, 14, 31⟩, 1, .rw, .value, 0, 8⟩,
  ⟨⟨0x628, 0, 46, 63⟩, 1, .rw, .value, 0, 8⟩]

/-- Register table rows of the tile page. -/
def rows_tile : List Row := [
  ⟨⟨0x080, 0, 0, 11⟩, 1, .ro, .fuse, 4095, 95⟩,
  ⟨⟨0x080, 0, 16, 27⟩, 1, .ro, .hw, 0, 0⟩,
  ⟨⟨0x080, 0, 32, 43⟩, 1, .rwl, .value, 0, 88⟩,
  ⟨⟨0x080, 0, 44, 44⟩, 1, .wo, .value, 0, 0⟩,
  ⟨⟨0x080, 0, 48, 55⟩, 1, .ro, .hw, 0, 0⟩,
  ⟨⟨0x088, 0, 0, 1⟩, 1, .rw, .value, 0, 88⟩,
  ⟨⟨0x088, 0, 4, 7⟩, 1, .rw, .value, 0, 88⟩,
  ⟨⟨0x088, 0, 8, 11⟩, 1, .rw, .value, 0, 88⟩,
  ⟨⟨0x088, 0, 12, 12⟩, 1, .wo, .value, 0, 0⟩,
  ⟨⟨0x088, 0, 13, 13⟩, 1, .ro, .hw, 0, 0⟩,
  ⟨⟨0x088, 0, 16, 23⟩, 1, .ro, .value, 0, 88⟩,
  ⟨⟨0x088, 0, 24, 31⟩, 1, .ro, .hw, 0, 0⟩,
  ⟨⟨0x088, 0, 32, 63⟩, 1, .ro, .value, 0, 88⟩,
  ⟨⟨0x090, 0, 0, 15⟩, 1, .rw, .value, 0, 88⟩,
  ⟨⟨0x090, 0, 16, 31⟩, 1, .rw, .value, 0, 88⟩,
  ⟨⟨0x090, 0, 32, 47⟩, 1, .rw, .value, 0, 88⟩,
  ⟨⟨0x090, 0, 48, 63⟩, 1, .rw, .value, 0, 88⟩,
  ⟨⟨0x098, 0, 0, 0⟩, 1, .rs, .value, 0, 94⟩]

/-- Register table rows of the mcs page. -/
def rows_mcs : List Row := [
  ⟨⟨0x080, 0, 0, 0⟩, 1, .ro, .hw, 0, 0⟩,
  ⟨⟨0x080, 0, 1, 1⟩, 1, .ro, .hw, 0, 0⟩,
  ⟨⟨0x080, 0, 2, 2⟩, 1, .ro, .hw, 0, 0⟩,
  ⟨⟨0x080, 0, 8, 20⟩, 1, .ro, .hw, 0, 0⟩,
  ⟨⟨0x080, 0, 21, 26⟩, 1, .ro, .hw, 0, 0⟩,
  ⟨⟨0x080, 0, 32, 63⟩, 1, .ro, .hw, 0, 0⟩,
  ⟨⟨0x088, 0, 0, 31⟩, 1, .ro, .hw, 0, 511⟩,
  ⟨⟨0x090, 0, 0, 15⟩, 1, .rw, .value, 0, 120⟩,
  ⟨⟨0x090, 0, 16, 31⟩, 1, .rw, .value, 0, 120⟩,
  ⟨⟨0x090, 0, 32, 32⟩, 1, .rs, .value, 0, 126⟩,
  ⟨⟨0x090, 0, 33, 33⟩, 1, .rs, .value, 0, 126⟩,
  ⟨⟨0x098, 0, 0, 15⟩, 1, .rw, .value, 0, 124⟩,
  ⟨⟨0x098, 0, 16, 23⟩, 1, .ro, .value, 0, 124⟩,
  ⟨⟨0x098, 0, 32, 63⟩, 1, .ro, .value, 0, 124⟩,
  ⟨⟨0x0A0, 0, 0, 63⟩, 1, .rw, .value, 0, 120⟩,
  ⟨⟨0x100, 8, 0, 0⟩, 32, .ro, .hw, 0, 0⟩,
  ⟨⟨0x100, 8, 15, 31⟩, 32, .ro, .hw, 0, 0⟩,
  ⟨⟨0x100, 8, 52, 63⟩, 32, .ro, .hw, 0, 0⟩]

/-- Register table rows of the svc page, part 1. -/
def rows_svc_0 : List Row := [
  ⟨⟨0x800, 0, 0, 2⟩, 1, .rw, .value, 0, 412⟩,
  ⟨⟨0x800, 0, 3, 3⟩, 1, .wo, .value, 0, 0⟩,
  ⟨⟨0x800, 0, 4, 4⟩, 1, .ro, .hw, 0, 0⟩,
  ⟨⟨0x800, 0, 8, 15⟩, 1, .ro, .value, 0, 412⟩,
  ⟨⟨0x800, 0, 16, 31⟩, 1, .ro, .hw, 0, 0⟩,
  ⟨⟨0x808, 0, 48, 63⟩, 1, .rw, .value, 0, 412⟩,
  ⟨⟨0x810, 0, 0, 63⟩, 1, .wo, .value, 0, 0⟩,
  ⟨⟨0x818, 0, 0, 0⟩, 1, .ro, .value, 0, 412⟩,
  ⟨⟨0x818, 0, 1, 1⟩, 1, .ro, .value, 0, 412⟩,
  ⟨⟨0x818, 0, 8, 15⟩, 1, .ro, .fuse, 0, 511⟩,
  ⟨⟨0x820, 0, 0, 31⟩, 1, .ro, .value, 0, 412⟩,
  ⟨⟨0x820, 0, 32, 63⟩, 1, .ro, .value, 0, 412⟩,
  ⟨⟨0x828, 8, 0, 63⟩, 6, .ro, .value, 0, 412⟩,
  ⟨⟨0x858, 8, 0, 63⟩, 6, .ro, .fuse, 0, 511⟩,
  ⟨⟨0x900, 0, 0, 1⟩, 1, .rw, .value, 0, 412⟩,
  ⟨⟨0x900, 0, 2, 2⟩, 1, .wo, .value, 0, 0⟩,
  ⟨⟨0x900, 0, 3, 3⟩, 1, .ro, .hw, 0, 0⟩,
  ⟨⟨0x900, 0, 8, 15⟩, 1, .ro, .value, 0, 412⟩,
  ⟨⟨0x900, 0, 16, 23⟩, 1, .rw, .value, 0, 412⟩,
  ⟨⟨0x900, 0, 24, 39⟩, 1, .rw, .value, 0, 412⟩,
  ⟨⟨0x908, 0, 16, 63⟩, 1, .rw, .value, 0, 412⟩,
  ⟨⟨0x910, 0, 32, 63⟩, 1, .rw, .value, 0, 412⟩,
  ⟨⟨0x918, 0, 0, 31⟩, 1, .ro, .value, 0, 412⟩,
  ⟨⟨0x918, 0, 32, 32⟩, 1, .ro, .value, 0, 412⟩]

/-- Register table rows of the svc page, part 2. -/
def rows_svc_1 : List Row := [
  ⟨⟨0x920, 8, 0, 63⟩, 6, .ro, .value, 0, 412⟩,
  ⟨⟨0x950, 0, 53, 63⟩, 1, .rw, .value, 0, 412⟩,
  ⟨⟨0x958, 8, 0, 63⟩, 16, .ro, .value, 0, 412⟩,
  ⟨⟨0x9D8, 8, 0, 63⟩, 12, .ro, .fuse, 0, 511⟩,
  ⟨⟨0xA38, 0, 48, 63⟩, 1, .ro, .fuse, 0, 511⟩,
  ⟨⟨0xA40, 0, 56, 63⟩, 1, .rw, .value, 0, 412⟩,
  ⟨⟨0xA48, 0, 0, 63⟩, 1, .ro, .fuse, 0, 511⟩,
  ⟨⟨0xB00, 8, 0, 63⟩, 6, .ro, .fuse, 0, 511⟩,
  ⟨⟨0xB30, 0, 0, 7⟩, 1, .ro, .fuse, 0, 511⟩,
  ⟨⟨0xB30, 0, 8, 8⟩, 1, .wo, .value, 0, 0⟩,
  ⟨⟨0xB30, 0, 16, 23⟩, 1, .ro, .value, 0, 412⟩]

/-- Register table rows of the svc page. -/
def rows_svc : List Row := rows_svc_0 ++ rows_svc_1

/-- Register table rows of the fmn page, part 1. -/
def rows_fmn_0 : List Row := [
  ⟨⟨0x080, 0, 0, 0⟩, 1, .rw, .value, 0, 408⟩,
  ⟨⟨0x080, 0, 1, 4⟩, 1, .rwl, .value, 10, 408⟩,
  ⟨⟨0x080, 0, 8, 23⟩, 1, .rwl, .value, 1000, 408⟩,
  ⟨⟨0x088, 0, 0, 3⟩, 1, .rwl, .value, 4, 408⟩,
  ⟨⟨0x088, 0, 4, 7⟩, 1, .rwl, .value, 2, 408⟩,
  ⟨⟨0x088, 0, 8, 11⟩, 1, .rwl, .value, 2, 408⟩,
  ⟨⟨0x088, 0, 12, 15⟩, 1, .rwl, .value, 3, 408⟩,
  ⟨⟨0x090, 0, 0, 15⟩, 1, .rwl, .value, 2000, 408⟩,
  ⟨⟨0x090, 0, 16, 31⟩, 1, .rwl, .value, 100, 408⟩,
  ⟨⟨0x090, 0, 32, 35⟩, 1, .rwl, .value, 2, 408⟩,
  ⟨⟨0x098, 0, 0, 1⟩, 1, .ro, .hw, 0, 0⟩,
  ⟨⟨0x098, 0, 8, 15⟩, 1, .ro, .hw, 0, 0⟩,
  ⟨⟨0x098, 0, 16, 31⟩, 1, .ro, .hw, 0, 0⟩,
  ⟨⟨0x098, 0, 32, 39⟩, 1, .ro, .hw, 0, 0⟩,
  ⟨⟨0x098, 0, 40, 47⟩, 1, .ro, .hw, 0, 0⟩,
  ⟨⟨0x0A0, 0, 0, 0⟩, 1, .rwl, .value, 1, 408⟩,
  ⟨⟨0x0A0, 0, 8, 15⟩, 1, .rwl, .value, 100, 408⟩,
  ⟨⟨0x0A0, 0, 16, 31⟩, 1, .rwl, .value, 256, 408⟩,
  ⟨⟨0x0A0, 0, 32, 35⟩, 1, .rwl, .value, 12, 408⟩,
  ⟨⟨0x0A0, 0, 36, 39⟩, 1, .rwl, .value, 6, 408⟩,
  ⟨⟨0x0A0, 0, 40, 47⟩, 1, .rwl, .value, 64, 408⟩,
  ⟨⟨0x0A8, 0, 0, 0⟩, 1, .rwl, .value, 1, 408⟩,
  ⟨⟨0x0A8, 0, 8, 11⟩, 1, .rwl, .value, 4, 408⟩,
  ⟨⟨0x0A8, 0, 16, 31⟩, 1, .rwl, .value, 512, 408⟩]

/-- Register table rows of the fmn page, part 2. -/
def rows_fmn_1 : List Row := [
  ⟨⟨0x0B0, 0, 16, 51⟩, 1, .rwl, .value, 0, 408⟩,
  ⟨⟨0x0B8, 0, 0, 0⟩, 1, .rwl, .value, 0, 408⟩,
  ⟨⟨0x0B8, 0, 1, 1⟩, 1, .rwl, .value, 0, 408⟩,
  ⟨⟨0x0B8, 0, 8, 12⟩, 1, .rwl, .value, 10, 408⟩,
  ⟨⟨0x0C0, 0, 0, 31⟩, 1, .ro, .hw, 0, 0⟩,
  ⟨⟨0x0C0, 0, 32, 63⟩, 1, .rw, .value, 0, 408⟩,
  ⟨⟨0x0C8, 0, 0, 31⟩, 1, .rw, .value, 0, 408⟩,
  ⟨⟨0x0D0, 0, 0, 31⟩, 1, .rw, .value, 0, 408⟩,
  ⟨⟨0x0D0, 0, 32, 63⟩, 1, .rw, .value, 0, 408⟩,
  ⟨⟨0x0D8, 0, 0, 31⟩, 1, .rw, .value, 0, 408⟩,
  ⟨⟨0x0D8, 0, 32, 63⟩, 1, .rw, .value, 0, 408⟩,
  ⟨⟨0x0E0, 0, 0, 16⟩, 1, .ro, .hw, 0, 0⟩,
  ⟨⟨0x0E0, 0, 32, 47⟩, 1, .ro, .hw, 0, 0⟩,
  ⟨⟨0x0E8, 0, 0, 0⟩, 1, .rs, .value, 0, 414⟩,
  ⟨⟨0x0E8, 0, 1, 1⟩, 1, .rs, .value, 0, 414⟩,
  ⟨⟨0x0E8, 0, 2, 2⟩, 1, .rs, .value, 0, 414⟩,
  ⟨⟨0x0E8, 0, 3, 3⟩, 1, .rs, .value, 0, 414⟩,
  ⟨⟨0x0F0, 0, 0, 7⟩, 1, .rw, .value, 0, 408⟩,
  ⟨⟨0x0F0, 0, 8, 8⟩, 1, .wo, .value, 0, 0⟩,
  ⟨⟨0x0F0, 0, 9, 9⟩, 1, .ro, .hw, 0, 0⟩,
  ⟨⟨0x0F0, 0, 16, 23⟩, 1, .ro, .value, 0, 408⟩,
  ⟨⟨0x0F8, 0, 0, 47⟩, 1, .rw, .value, 0, 408⟩,
  ⟨⟨0x400, 32, 0, 7⟩, 64, .rwl, .value, 0, 408⟩,
  ⟨⟨0x400, 32, 8, 15⟩, 64, .rwl, .value, 0, 408⟩]

/-- Register table rows of the fmn page, part 3. -/
def rows_fmn_2 : List Row := [
  ⟨⟨0x400, 32, 16, 23⟩, 64, .rwl, .value, 1, 408⟩,
  ⟨⟨0x400, 32, 24, 31⟩, 64, .rwl, .value, 255, 408⟩,
  ⟨⟨0x400, 32, 32, 32⟩, 64, .rwl, .value, 0, 408⟩,
  ⟨⟨0x400, 32, 33, 33⟩, 64, .rwl, .value, 0, 408⟩,
  ⟨⟨0x400, 32, 34, 34⟩, 64, .rwl, .value, 0, 408⟩,
  ⟨⟨0x400, 32, 48, 63⟩, 64, .rwl, .value, 65535, 408⟩,
  ⟨⟨0x408, 32, 0, 15⟩, 64, .rwl, .value, 0, 408⟩,
  ⟨⟨0x410, 32, 0, 7⟩, 64, .ro, .hw, 0, 0⟩,
  ⟨⟨0x410, 32, 15, 31⟩, 64, .ro, .hw, 0, 0⟩,
  ⟨⟨0x410, 32, 32, 48⟩, 64, .ro, .hw, 0, 0⟩,
  ⟨⟨0x418, 32, 0, 31⟩, 64, .rw, .value, 0, 400⟩,
  ⟨⟨0x418, 32, 32, 63⟩, 64, .rw, .value, 0, 400⟩]

/-- Register table rows of the fmn page. -/
def rows_fmn : List Row := rows_fmn_0 ++ rows_fmn_1 ++ rows_fmn_2

/-- Register table rows of the seamctl page, part 1. -/
def rows_seamctl_0 : List Row := [
  ⟨⟨0x080, 0, 0, 3⟩, 1, .rw, .value, 0, 408⟩,
  ⟨⟨0x080, 0, 4, 4⟩, 1, .wo, .value, 0, 0⟩,
  ⟨⟨0x080, 0, 5, 5⟩, 1, .ro, .hw, 0, 0⟩,
  ⟨⟨0x080, 0, 8, 15⟩, 1, .rw, .value, 0, 408⟩,
  ⟨⟨0x080, 0, 16, 23⟩, 1, .ro, .value, 0, 408⟩,
  ⟨⟨0x080, 0, 24, 31⟩, 1, .rw, .value, 0, 408⟩,
  ⟨⟨0x088, 0, 0, 63⟩, 1, .rw, .value, 0, 408⟩,
  ⟨⟨0x090, 0, 0, 0⟩, 1, .rwl, .value, 0, 408⟩,
  ⟨⟨0x098, 0, 0, 19⟩, 1, .ro, .hw, 0, 0⟩,
  ⟨⟨0x098, 0, 32, 50⟩, 1, .ro, .hw, 0, 0⟩,
  ⟨⟨0x0A0, 0, 0, 0⟩, 1, .rs, .value, 0, 414⟩,
  ⟨⟨0x0A0, 0, 1, 1⟩, 1, .rs, .value, 0, 414⟩,
  ⟨⟨0x0A0, 0, 2, 2⟩, 1, .rs, .value, 0, 414⟩,
  ⟨⟨0x0A8, 0, 0, 63⟩, 1, .ro, .hw, 0, 0⟩,
  ⟨⟨0x0B0, 0, 0, 63⟩, 1, .ro, .hw, 0, 0⟩,
  ⟨⟨0x0B8, 0, 0, 63⟩, 1, .ro, .hw, 0, 0⟩,
  ⟨⟨0x0C0, 0, 0, 19⟩, 1, .rwl, .value, 0, 408⟩,
  ⟨⟨0x100, 48, 0, 1⟩, 64, .ro, .value, 0, 400⟩,
  ⟨⟨0x100, 48, 2, 2⟩, 64, .ro, .value, 0, 408⟩,
  ⟨⟨0x100, 48, 3, 3⟩, 64, .ro, .hw, 0, 0⟩,
  ⟨⟨0x100, 48, 8, 15⟩, 64, .ro, .value, 0, 400⟩,
  ⟨⟨0x100, 48, 32, 63⟩, 64, .ro, .value, 0, 408⟩,
  ⟨⟨0x108, 48, 16, 42⟩, 64, .ro, .value, 0, 408⟩,
  ⟨⟨0x110, 48, 0, 19⟩, 64, .ro, .value, 0, 408⟩]

/-- Register table rows of the seamctl page, part 2. -/
def rows_seamctl_1 : List Row := [
  ⟨⟨0x118, 48, 0, 17⟩, 64, .ro, .value, 0, 408⟩,
  ⟨⟨0x118, 48, 32, 50⟩, 64, .ro, .value, 0, 408⟩,
  ⟨⟨0x120, 48, 0, 18⟩, 64, .ro, .value, 0, 408⟩,
  ⟨⟨0x120, 48, 24, 40⟩, 64, .ro, .value, 0, 408⟩,
  ⟨⟨0x120, 48, 44, 47⟩, 64, .ro, .value, 0, 408⟩,
  ⟨⟨0x128, 48, 0, 31⟩, 64, .rw, .value, 0, 408⟩,
  ⟨⟨0x128, 48, 32, 47⟩, 64, .rw, .value, 0, 408⟩]

/-- Register table rows of the seamctl page. -/
def rows_seamctl : List Row := rows_seamctl_0 ++ rows_seamctl_1

/-- Register table rows of the seampage page. -/
def rows_seampage : List Row := [
  ⟨⟨0x000, 0, 0, 7⟩, 1, .ro, .hw, 0, 415⟩,
  ⟨⟨0x000, 0, 32, 63⟩, 1, .ro, .hw, 0, 0⟩,
  ⟨⟨0x008, 0, 0, 0⟩, 1, .ro, .hw, 0, 0⟩,
  ⟨⟨0x008, 0, 1, 1⟩, 1, .ro, .hw, 0, 0⟩,
  ⟨⟨0x008, 0, 2, 3⟩, 1, .ro, .hw, 0, 0⟩,
  ⟨⟨0x010, 0, 0, 19⟩, 1, .ro, .hw, 0, 0⟩,
  ⟨⟨0x018, 0, 0, 63⟩, 1, .ro, .hw, 0, 0⟩,
  ⟨⟨0x020, 0, 0, 63⟩, 1, .ro, .hw, 0, 0⟩,
  ⟨⟨0x028, 0, 0, 7⟩, 1, .ro, .hw, 0, 0⟩,
  ⟨⟨0x028, 0, 8, 15⟩, 1, .ro, .hw, 0, 0⟩,
  ⟨⟨0x080, 8, 24, 54⟩, 8, .rw, .value, 0, 408⟩,
  ⟨⟨0x080, 8, 59, 63⟩, 8, .rw, .value, 0, 408⟩,
  ⟨⟨0x0C0, 8, 0, 16⟩, 8, .ro, .hw, 0, 0⟩,
  ⟨⟨0x100, 0, 24, 54⟩, 1, .rw, .value, 0, 408⟩,
  ⟨⟨0x100, 0, 59, 63⟩, 1, .rw, .value, 0, 408⟩,
  ⟨⟨0x108, 0, 44, 63⟩, 1, .rw, .value, 0, 400⟩,
  ⟨⟨0x110, 0, 44, 63⟩, 1, .ro, .value, 0, 400⟩]

/-- Register table rows of the memch page, part 1. -/
def rows_memch_0 : List Row := [
  ⟨⟨0x080, 0, 0, 2⟩, 1, .rwl, .value, 0, 62⟩,
  ⟨⟨0x080, 0, 3, 4⟩, 1, .rwl, .value, 0, 62⟩,
  ⟨⟨0x080, 0, 5, 5⟩, 1, .rwl, .value, 1, 62⟩,
  ⟨⟨0x080, 0, 8, 11⟩, 1, .rwl, .value, 6, 62⟩,
  ⟨⟨0x080, 0, 12, 13⟩, 1, .rwl, .value, 1, 62⟩,
  ⟨⟨0x080, 0, 16, 16⟩, 1, .rwl, .value, 0, 62⟩,
  ⟨⟨0x080, 0, 32, 43⟩, 1, .rwl, .value, 0, 62⟩,
  ⟨⟨0x088, 0, 0, 1⟩, 1, .rwl, .value, 2, 62⟩,
  ⟨⟨0x088, 0, 2, 3⟩, 1, .rwl, .value, 1, 62⟩,
  ⟨⟨0x088, 0, 16, 31⟩, 1, .ro, .hw, 0, 0⟩,
  ⟨⟨0x088, 0, 32, 63⟩, 1, .rw, .value, 0, 24⟩,
  ⟨⟨0x090, 0, 0, 1⟩, 1, .rw, .value, 0, 24⟩,
  ⟨⟨0x090, 0, 2, 2⟩, 1, .wo, .value, 0, 0⟩,
  ⟨⟨0x090, 0, 3, 3⟩, 1, .ro, .hw, 0, 0⟩,
  ⟨⟨0x090, 0, 4, 4⟩, 1, .ro, .value, 0, 30⟩,
  ⟨⟨0x090, 0, 5, 7⟩, 1, .ro, .hw, 0, 0⟩,
  ⟨⟨0x090, 0, 8, 15⟩, 1, .ro, .value, 0, 30⟩,
  ⟨⟨0x090, 0, 16, 23⟩, 1, .ro, .value, 255, 30⟩,
  ⟨⟨0x090, 0, 32, 63⟩, 1, .ro, .value, 0, 30⟩,
  ⟨⟨0x098, 0, 0, 7⟩, 1, .ro, .hw, 0, 0⟩,
  ⟨⟨0x098, 0, 8, 15⟩, 1, .ro, .hw, 0, 0⟩,
  ⟨⟨0x0A0, 0, 0, 15⟩, 1, .ro, .hw, 0, 0⟩,
  ⟨⟨0x0A0, 0, 16, 31⟩, 1, .ro, .hw, 0, 0⟩,
  ⟨⟨0x0A0, 0, 32, 47⟩, 1, .ro, .hw, 0, 0⟩]

/-- Register table rows of the memch page, part 2. -/
def rows_memch_1 : List Row := [
  ⟨⟨0x0A8, 0, 0, 31⟩, 1, .rw, .value, 0, 24⟩,
  ⟨⟨0x0A8, 0, 32, 47⟩, 1, .rw, .value, 0, 24⟩,
  ⟨⟨0x0A8, 0, 48, 63⟩, 1, .rw, .value, 0, 24⟩,
  ⟨⟨0x0B0, 0, 0, 0⟩, 1, .rs, .value, 0, 62⟩,
  ⟨⟨0x0B0, 0, 1, 1⟩, 1, .rs, .value, 0, 62⟩,
  ⟨⟨0x0B0, 0, 2, 2⟩, 1, .rs, .value, 0, 62⟩,
  ⟨⟨0x0B0, 0, 3, 3⟩, 1, .rs, .value, 0, 62⟩,
  ⟨⟨0x0B8, 0, 40, 63⟩, 1, .ro, .value, 0, 30⟩,
  ⟨⟨0x0C0, 0, 0, 0⟩, 1, .rwl, .value, 1, 62⟩,
  ⟨⟨0x0C0, 0, 8, 15⟩, 1, .rwl, .value, 24, 62⟩,
  ⟨⟨0x0C0, 0, 40, 63⟩, 1, .ro, .value, 0, 30⟩,
  ⟨⟨0x0C8, 0, 0, 31⟩, 1, .rw, .value, 0, 30⟩,
  ⟨⟨0x0C8, 0, 32, 63⟩, 1, .rw, .value, 0, 30⟩,
  ⟨⟨0x100, 8, 0, 63⟩, 8, .rwl, .value, 18446744073709551615, 62⟩]

/-- Register table rows of the memch page. -/
def rows_memch : List Row := rows_memch_0 ++ rows_memch_1

/-- Register table rows of the chs page. -/
def rows_chs : List Row := [
  ⟨⟨0x080, 0, 16, 39⟩, 1, .rwl, .value, 0, 24⟩,
  ⟨⟨0x088, 0, 16, 38⟩, 1, .rwl, .value, 0, 24⟩,
  ⟨⟨0x090, 0, 0, 0⟩, 1, .rw, .value, 0, 24⟩,
  ⟨⟨0x090, 0, 5, 7⟩, 1, .rwl, .value, 3, 24⟩,
  ⟨⟨0x090, 0, 8, 23⟩, 1, .rwl, .value, 1000, 24⟩,
  ⟨⟨0x098, 0, 0, 17⟩, 1, .ro, .hw, 0, 0⟩,
  ⟨⟨0x098, 0, 32, 49⟩, 1, .rw, .value, 0, 24⟩,
  ⟨⟨0x0A0, 0, 0, 17⟩, 1, .ro, .hw, 0, 0⟩,
  ⟨⟨0x0A0, 0, 32, 49⟩, 1, .ro, .hw, 0, 0⟩,
  ⟨⟨0x0A8, 0, 0, 31⟩, 1, .rw, .value, 0, 24⟩,
  ⟨⟨0x0A8, 0, 32, 63⟩, 1, .rw, .value, 0, 24⟩,
  ⟨⟨0x0B0, 0, 0, 31⟩, 1, .rw, .value, 0, 24⟩,
  ⟨⟨0x0B0, 0, 32, 63⟩, 1, .rw, .value, 0, 24⟩,
  ⟨⟨0x0B8, 0, 0, 0⟩, 1, .rs, .value, 0, 30⟩,
  ⟨⟨0x0B8, 0, 1, 1⟩, 1, .rs, .value, 0, 30⟩,
  ⟨⟨0x0B8, 0, 2, 2⟩, 1, .rs, .value, 0, 30⟩,
  ⟨⟨0x0C0, 0, 0, 31⟩, 1, .rw, .value, 0, 24⟩,
  ⟨⟨0x0C0, 0, 32, 47⟩, 1, .rw, .value, 0, 24⟩,
  ⟨⟨0x0C0, 0, 48, 63⟩, 1, .rw, .value, 0, 24⟩,
  ⟨⟨0x0C8, 0, 0, 63⟩, 1, .ro, .hw, 0, 0⟩,
  ⟨⟨0x100, 8, 0, 63⟩, 8, .rwl, .value, 18446744073709551615, 24⟩]

/-- Register table rows of the jbank page, part 1. -/
def rows_jbank_0 : List Row := [
  ⟨⟨0x080, 0, 0, 0⟩, 1, .rw, .value, 0, 280⟩,
  ⟨⟨0x080, 0, 1, 1⟩, 1, .rwl, .value, 0, 280⟩,
  ⟨⟨0x080, 0, 8, 15⟩, 1, .rwl, .value, 4, 280⟩,
  ⟨⟨0x080, 0, 16, 32⟩, 1, .rwl, .value, 0, 280⟩,
  ⟨⟨0x088, 0, 0, 14⟩, 1, .ro, .hw, 0, 0⟩,
  ⟨⟨0x088, 0, 15, 29⟩, 1, .ro, .hw, 0, 0⟩,
  ⟨⟨0x088, 0, 30, 44⟩, 1, .ro, .hw, 0, 0⟩,
  ⟨⟨0x088, 0, 45, 45⟩, 1, .ro, .hw, 0, 0⟩,
  ⟨⟨0x090, 0, 0, 63⟩, 1, .ro, .hw, 0, 0⟩,
  ⟨⟨0x098, 0, 0, 3⟩, 1, .rw, .value, 0, 280⟩,
  ⟨⟨0x098, 0, 4, 4⟩, 1, .wo, .value, 0, 0⟩,
  ⟨⟨0x098, 0, 5, 5⟩, 1, .ro, .hw, 0, 0⟩,
  ⟨⟨0x098, 0, 8, 15⟩, 1, .ro, .value, 0, 280⟩,
  ⟨⟨0x0A0, 0, 0, 63⟩, 1, .rw, .value, 0, 280⟩,
  ⟨⟨0x0A8, 0, 0, 31⟩, 1, .rw, .value, 0, 280⟩,
  ⟨⟨0x0A8, 0, 32, 63⟩, 1, .rw, .value, 0, 280⟩,
  ⟨⟨0x0B0, 0, 0, 31⟩, 1, .rw, .value, 0, 280⟩,
  ⟨⟨0x0B0, 0, 32, 47⟩, 1, .rw, .value, 0, 280⟩,
  ⟨⟨0x0B0, 0, 48, 63⟩, 1, .rw, .value, 0, 280⟩,
  ⟨⟨0x0B8, 0, 0, 0⟩, 1, .rs, .value, 0, 286⟩,
  ⟨⟨0x0B8, 0, 1, 1⟩, 1, .rs, .value, 0, 286⟩,
  ⟨⟨0x0B8, 0, 2, 2⟩, 1, .rs, .value, 0, 286⟩,
  ⟨⟨0x0C0, 0, 50, 63⟩, 1, .rw, .value, 0, 280⟩,
  ⟨⟨0x100, 8, 0, 63⟩, 16, .ro, .hw, 0, 0⟩]

/-- Register table rows of the jbank page, part 2. -/
def rows_jbank_1 : List Row := [
  ⟨⟨0x180, 8, 0, 63⟩, 8, .rwl, .value, 18446744073709551615, 280⟩]

/-- Register table rows of the jbank page. -/
def rows_jbank : List Row := rows_jbank_0 ++ rows_jbank_1

/-- Register table rows of the drn page. -/
def rows_drn : List Row := [
  ⟨⟨0x080, 0, 0, 1⟩, 1, .ro, .hw, 0, 511⟩,
  ⟨⟨0x080, 0, 2, 2⟩, 1, .ro, .hw, 0, 0⟩,
  ⟨⟨0x080, 0, 3, 17⟩, 1, .ro, .hw, 0, 511⟩,
  ⟨⟨0x088, 0, 0, 31⟩, 1, .ro, .hw, 0, 511⟩,
  ⟨⟨0x088, 0, 32, 63⟩, 1, .ro, .hw, 0, 511⟩,
  ⟨⟨0x090, 0, 0, 31⟩, 1, .ro, .hw, 0, 511⟩,
  ⟨⟨0x098, 0, 0, 0⟩, 1, .rs, .value, 0, 126⟩,
  ⟨⟨0x098, 0, 1, 1⟩, 1, .rs, .value, 0, 126⟩,
  ⟨⟨0x0A0, 0, 0, 31⟩, 1, .ro, .hw, 0, 511⟩,
  ⟨⟨0x0A0, 0, 32, 63⟩, 1, .ro, .hw, 0, 511⟩]

/-- Register table rows of the hauler page, part 1. -/
def rows_hauler_0 : List Row := [
  ⟨⟨0x080, 0, 0, 0⟩, 1, .rw, .value, 0, 280⟩,
  ⟨⟨0x080, 0, 1, 1⟩, 1, .rwl, .value, 0, 312⟩,
  ⟨⟨0x088, 0, 0, 2⟩, 1, .ro, .hw, 0, 0⟩,
  ⟨⟨0x088, 0, 8, 15⟩, 1, .ro, .value, 0, 280⟩,
  ⟨⟨0x088, 0, 48, 63⟩, 1, .ro, .hw, 0, 0⟩,
  ⟨⟨0x090, 0, 0, 0⟩, 1, .rs, .value, 0, 318⟩,
  ⟨⟨0x090, 0, 1, 1⟩, 1, .rs, .value, 0, 318⟩,
  ⟨⟨0x090, 0, 2, 2⟩, 1, .rs, .value, 0, 318⟩,
  ⟨⟨0x090, 0, 3, 3⟩, 1, .rs, .value, 0, 318⟩,
  ⟨⟨0x098, 0, 0, 31⟩, 1, .rw, .value, 0, 280⟩,
  ⟨⟨0x098, 0, 32, 63⟩, 1, .rw, .value, 0, 312⟩,
  ⟨⟨0x0A0, 0, 0, 63⟩, 1, .rw, .value, 0, 280⟩,
  ⟨⟨0x0A8, 0, 0, 15⟩, 1, .rw, .value, 0, 316⟩,
  ⟨⟨0x0A8, 0, 32, 63⟩, 1, .ro, .value, 0, 316⟩,
  ⟨⟨0x0B0, 8, 0, 63⟩, 6, .ro, .value, 0, 316⟩,
  ⟨⟨0x0E0, 0, 0, 31⟩, 1, .rw, .value, 0, 280⟩,
  ⟨⟨0x0E0, 0, 32, 47⟩, 1, .rw, .value, 0, 280⟩,
  ⟨⟨0x0E0, 0, 48, 63⟩, 1, .rw, .value, 0, 312⟩,
  ⟨⟨0x0E8, 0, 48, 63⟩, 1, .ro, .value, 0, 280⟩,
  ⟨⟨0x0F0, 0, 0, 31⟩, 1, .rw, .value, 0, 280⟩,
  ⟨⟨0x0F0, 0, 32, 63⟩, 1, .rw, .value, 0, 280⟩,
  ⟨⟨0x0F8, 0, 48, 63⟩, 1, .rw, .value, 0, 280⟩,
  ⟨⟨0x100, 0, 48, 63⟩, 1, .rw, .value, 0, 0⟩,
  ⟨⟨0x108, 0, 0, 63⟩, 1, .rw, .value, 0, 280⟩]

/-- Register table rows of the hauler page, part 2. -/
def rows_hauler_1 : List Row := [
  ⟨⟨0x110, 0, 0, 63⟩, 1, .ro, .value, 0, 280⟩]

/-- Register table rows of the hauler page. -/
def rows_hauler : List Row := rows_hauler_0 ++ rows_hauler_1

/-- Register table rows of the iodie page, part 1. -/
def rows_iodie_0 : List Row := [
  ⟨⟨0x100, 0, 0, 1⟩, 1, .rw, .value, 0, 280⟩,
  ⟨⟨0x100, 0, 2, 2⟩, 1, .rw, .value, 0, 280⟩,
  ⟨⟨0x100, 0, 3, 3⟩, 1, .wo, .value, 0, 0⟩,
  ⟨⟨0x100, 0, 4, 4⟩, 1, .ro, .hw, 0, 0⟩,
  ⟨⟨0x100, 0, 5, 6⟩, 1, .rw, .value, 0, 280⟩,
  ⟨⟨0x100, 0, 8, 13⟩, 1, .rw, .value, 0, 280⟩,
  ⟨⟨0x100, 0, 16, 23⟩, 1, .ro, .value, 0, 280⟩,
  ⟨⟨0x108, 0, 0, 2⟩, 1, .ro, .hw, 0, 0⟩,
  ⟨⟨0x110, 0, 0, 1⟩, 1, .ro, .value, 0, 280⟩,
  ⟨⟨0x110, 0, 2, 7⟩, 1, .ro, .value, 0, 280⟩,
  ⟨⟨0x110, 0, 8, 10⟩, 1, .ro, .value, 0, 280⟩,
  ⟨⟨0x110, 0, 11, 11⟩, 1, .ro, .value, 0, 280⟩,
  ⟨⟨0x110, 0, 40, 63⟩, 1, .ro, .value, 0, 280⟩,
  ⟨⟨0x118, 0, 0, 63⟩, 1, .ro, .value, 0, 280⟩,
  ⟨⟨0x120, 0, 0, 31⟩, 1, .ro, .value, 0, 280⟩,
  ⟨⟨0x120, 0, 32, 32⟩, 1, .ro, .value, 0, 280⟩,
  ⟨⟨0x120, 0, 33, 33⟩, 1, .ro, .value, 0, 280⟩,
  ⟨⟨0x120, 0, 34, 34⟩, 1, .ro, .value, 0, 280⟩,
  ⟨⟨0x128, 0, 0, 31⟩, 1, .rw, .value, 0, 280⟩,
  ⟨⟨0x128, 0, 32, 63⟩, 1, .rw, .value, 0, 280⟩,
  ⟨⟨0x140, 0, 16, 56⟩, 1, .rwl, .value, 0, 280⟩,
  ⟨⟨0x148, 0, 0, 31⟩, 1, .rw, .value, 0, 280⟩,
  ⟨⟨0x148, 0, 32, 32⟩, 1, .wo, .value, 0, 0⟩,
  ⟨⟨0x148, 0, 33, 33⟩, 1, .ro, .hw, 0, 0⟩]

/-- Register table rows of the iodie page, part 2. -/
def rows_iodie_1 : List Row := [
  ⟨⟨0x148, 0, 40, 47⟩, 1, .ro, .value, 0, 280⟩,
  ⟨⟨0x150, 0, 0, 31⟩, 1, .ro, .value, 0, 312⟩,
  ⟨⟨0x150, 0, 32, 63⟩, 1, .rw, .value, 0, 312⟩,
  ⟨⟨0x158, 8, 0, 63⟩, 6, .ro, .value, 0, 312⟩]

/-- Register table rows of the iodie page. -/
def rows_iodie : List Row := rows_iodie_0 ++ rows_iodie_1

/-- Register table rows of the lanegrp page. -/
def rows_lanegrp : List Row := [
  ⟨⟨0x080, 0, 0, 2⟩, 1, .rwl, .value, 0, 56⟩,
  ⟨⟨0x080, 0, 3, 3⟩, 1, .rw, .value, 0, 24⟩,
  ⟨⟨0x080, 0, 4, 7⟩, 1, .rwl, .value, 0, 56⟩,
  ⟨⟨0x080, 0, 8, 10⟩, 1, .rwl, .value, 5, 56⟩,
  ⟨⟨0x080, 0, 11, 12⟩, 1, .rwl, .value, 0, 56⟩,
  ⟨⟨0x088, 8, 0, 0⟩, 4, .ro, .hw, 0, 0⟩,
  ⟨⟨0x088, 8, 1, 1⟩, 4, .ro, .hw, 0, 0⟩,
  ⟨⟨0x088, 8, 8, 15⟩, 4, .ro, .hw, 0, 0⟩,
  ⟨⟨0x088, 8, 32, 63⟩, 4, .rw, .value, 0, 24⟩,
  ⟨⟨0x0A8, 0, 0, 0⟩, 1, .rs, .value, 0, 62⟩,
  ⟨⟨0x0A8, 0, 1, 1⟩, 1, .rs, .value, 0, 62⟩,
  ⟨⟨0x0B0, 8, 0, 15⟩, 4, .rw, .value, 0, 24⟩,
  ⟨⟨0x0B0, 8, 16, 31⟩, 4, .rw, .value, 0, 24⟩,
  ⟨⟨0x0B0, 8, 32, 47⟩, 4, .rw, .value, 0, 24⟩,
  ⟨⟨0x0B0, 8, 48, 63⟩, 4, .rw, .value, 0, 24⟩,
  ⟨⟨0x0D0, 8, 0, 31⟩, 4, .rw, .value, 0, 24⟩,
  ⟨⟨0x0D0, 8, 32, 63⟩, 4, .rw, .value, 0, 24⟩,
  ⟨⟨0x0F0, 8, 0, 7⟩, 4, .rwl, .value, 0, 56⟩,
  ⟨⟨0x0F0, 8, 8, 23⟩, 4, .rwl, .value, 64, 56⟩,
  ⟨⟨0x110, 8, 0, 63⟩, 4, .rwl, .value, 0, 56⟩,
  ⟨⟨0x130, 8, 16, 51⟩, 4, .rwl, .value, 0, 56⟩,
  ⟨⟨0x130, 8, 52, 63⟩, 4, .rwl, .value, 0, 56⟩,
  ⟨⟨0x150, 8, 0, 31⟩, 4, .rwl, .value, 0, 56⟩,
  ⟨⟨0x200, 8, 0, 63⟩, 32, .rwl, .value, 18446744073709551615, 56⟩]

/-- Register table rows of the cplgrp page. -/
def rows_cplgrp : List Row := [
  ⟨⟨0x080, 0, 0, 0⟩, 1, .rwl, .value, 0, 56⟩,
  ⟨⟨0x080, 0, 1, 1⟩, 1, .ro, .hw, 0, 0⟩,
  ⟨⟨0x080, 0, 2, 2⟩, 1, .ro, .hw, 0, 0⟩,
  ⟨⟨0x080, 0, 6, 7⟩, 1, .ro, .hw, 0, 0⟩,
  ⟨⟨0x080, 0, 8, 15⟩, 1, .ro, .hw, 0, 0⟩,
  ⟨⟨0x080, 0, 24, 63⟩, 1, .ro, .hw, 0, 0⟩,
  ⟨⟨0x088, 0, 0, 31⟩, 1, .rw, .value, 0, 24⟩,
  ⟨⟨0x088, 0, 32, 47⟩, 1, .rw, .value, 0, 24⟩,
  ⟨⟨0x090, 0, 0, 0⟩, 1, .rs, .value, 0, 62⟩,
  ⟨⟨0x090, 0, 1, 1⟩, 1, .rs, .value, 0, 62⟩,
  ⟨⟨0x090, 0, 2, 2⟩, 1, .rs, .value, 0, 62⟩,
  ⟨⟨0x098, 0, 0, 63⟩, 1, .ro, .hw, 0, 0⟩]

/-- Register table rows of the complex page. -/
def rows_complex : List Row := [
  ⟨⟨0x080, 0, 0, 1⟩, 1, .rw, .value, 0, 8⟩,
  ⟨⟨0x080, 0, 4, 15⟩, 1, .rw, .value, 0, 8⟩,
  ⟨⟨0x080, 0, 52, 63⟩, 1, .rw, .value, 0, 8⟩,
  ⟨⟨0x088, 0, 0, 63⟩, 1, .rw, .value, 0, 8⟩,
  ⟨⟨0x090, 0, 0, 1⟩, 1, .rw, .value, 0, 8⟩,
  ⟨⟨0x090, 0, 2, 2⟩, 1, .wo, .value, 0, 0⟩,
  ⟨⟨0x090, 0, 3, 3⟩, 1, .ro, .hw, 0, 0⟩,
  ⟨⟨0x090, 0, 8, 15⟩, 1, .ro, .value, 0, 8⟩]

/-- Register table rows of the crusher page. -/
def rows_crusher : List Row := [
  ⟨⟨0x080, 0, 0, 0⟩, 1, .rwl, .value, 0, 56⟩,
  ⟨⟨0x080, 0, 8, 15⟩, 1, .rwl, .value, 8, 56⟩,
  ⟨⟨0x080, 0, 16, 31⟩, 1, .rwl, .value, 250, 56⟩,
  ⟨⟨0x088, 0, 0, 7⟩, 1, .ro, .hw, 0, 0⟩,
  ⟨⟨0x088, 0, 8, 12⟩, 1, .ro, .hw, 0, 0⟩,
  ⟨⟨0x090, 0, 0, 31⟩, 1, .rw, .value, 0, 56⟩,
  ⟨⟨0x090, 0, 32, 63⟩, 1, .rw, .value, 0, 56⟩,
  ⟨⟨0x098, 0, 0, 0⟩, 1, .rs, .value, 0, 62⟩,
  ⟨⟨0x098, 0, 1, 1⟩, 1, .rs, .value, 0, 62⟩,
  ⟨⟨0x098, 0, 2, 2⟩, 1, .rs, .value, 0, 62⟩,
  ⟨⟨0x0A0, 8, 0, 63⟩, 4, .rwl, .value, 18446744073709551615, 56⟩,
  ⟨⟨0x100, 8, 16, 56⟩, 64, .rwl, .value, 0, 56⟩,
  ⟨⟨0x100, 8, 59, 63⟩, 64, .rwl, .value, 0, 56⟩,
  ⟨⟨0x300, 8, 52, 63⟩, 64, .ro, .value, 0, 48⟩]

/-- Register table rows of the cipher page. -/
def rows_cipher : List Row := [
  ⟨⟨0x080, 0, 0, 0⟩, 1, .rwl, .value, 0, 56⟩,
  ⟨⟨0x080, 0, 8, 15⟩, 1, .rwl, .value, 8, 56⟩,
  ⟨⟨0x080, 0, 16, 31⟩, 1, .rwl, .value, 250, 56⟩,
  ⟨⟨0x088, 0, 0, 7⟩, 1, .ro, .hw, 0, 0⟩,
  ⟨⟨0x088, 0, 8, 12⟩, 1, .ro, .hw, 0, 0⟩,
  ⟨⟨0x090, 0, 0, 31⟩, 1, .rw, .value, 0, 56⟩,
  ⟨⟨0x090, 0, 32, 63⟩, 1, .rw, .value, 0, 56⟩,
  ⟨⟨0x098, 0, 0, 0⟩, 1, .rs, .value, 0, 62⟩,
  ⟨⟨0x098, 0, 1, 1⟩, 1, .rs, .value, 0, 62⟩,
  ⟨⟨0x098, 0, 2, 2⟩, 1, .rs, .value, 0, 62⟩,
  ⟨⟨0x0A0, 8, 0, 63⟩, 4, .rwl, .value, 18446744073709551615, 56⟩,
  ⟨⟨0x100, 8, 16, 56⟩, 64, .rwl, .value, 0, 56⟩,
  ⟨⟨0x100, 8, 59, 63⟩, 64, .rwl, .value, 0, 56⟩,
  ⟨⟨0x300, 8, 52, 63⟩, 64, .ro, .value, 0, 48⟩]

/-- Register table rows of the ent page. -/
def rows_ent : List Row := [
  ⟨⟨0x080, 0, 0, 1⟩, 1, .rw, .value, 0, 408⟩,
  ⟨⟨0x080, 0, 2, 2⟩, 1, .wo, .value, 0, 0⟩,
  ⟨⟨0x080, 0, 3, 3⟩, 1, .ro, .hw, 0, 0⟩,
  ⟨⟨0x080, 0, 8, 15⟩, 1, .ro, .value, 0, 408⟩,
  ⟨⟨0x088, 0, 0, 1⟩, 1, .ro, .hw, 0, 0⟩,
  ⟨⟨0x090, 0, 0, 0⟩, 1, .rwl, .value, 0, 408⟩,
  ⟨⟨0x090, 0, 8, 15⟩, 1, .rwl, .value, 1, 408⟩,
  ⟨⟨0x090, 0, 16, 31⟩, 1, .rwl, .value, 250, 408⟩,
  ⟨⟨0x098, 0, 0, 0⟩, 1, .rs, .value, 0, 414⟩,
  ⟨⟨0x098, 0, 1, 1⟩, 1, .rs, .value, 0, 414⟩,
  ⟨⟨0x098, 0, 2, 2⟩, 1, .rs, .value, 0, 414⟩,
  ⟨⟨0x0A0, 0, 0, 31⟩, 1, .rw, .value, 0, 408⟩,
  ⟨⟨0x0A0, 0, 32, 47⟩, 1, .rw, .value, 0, 408⟩,
  ⟨⟨0x0A0, 0, 48, 63⟩, 1, .rw, .value, 0, 408⟩,
  ⟨⟨0x0A8, 0, 0, 63⟩, 1, .ro, .hw, 0, 0⟩,
  ⟨⟨0x0C0, 8, 0, 63⟩, 4, .rwl, .value, 18446744073709551615, 408⟩,
  ⟨⟨0x100, 8, 16, 56⟩, 64, .rwl, .value, 0, 408⟩,
  ⟨⟨0x100, 8, 59, 63⟩, 64, .rwl, .value, 0, 408⟩,
  ⟨⟨0x300, 8, 52, 63⟩, 64, .ro, .value, 0, 400⟩,
  ⟨⟨0x500, 8, 0, 7⟩, 64, .ro, .hw, 0, 0⟩,
  ⟨⟨0x500, 8, 32, 63⟩, 64, .rw, .value, 0, 400⟩]

/-- Register table rows of the stw page, part 1. -/
def rows_stw_0 : List Row := [
  ⟨⟨0x080, 0, 0, 1⟩, 1, .ro, .hw, 0, 0⟩,
  ⟨⟨0x080, 0, 2, 2⟩, 1, .ro, .hw, 0, 0⟩,
  ⟨⟨0x080, 0, 3, 3⟩, 1, .ro, .hw, 0, 0⟩,
  ⟨⟨0x080, 0, 8, 15⟩, 1, .ro, .hw, 0, 0⟩,
  ⟨⟨0x080, 0, 32, 63⟩, 1, .ro, .hw, 0, 0⟩,
  ⟨⟨0x088, 0, 0, 0⟩, 1, .rs, .value, 0, 408⟩,
  ⟨⟨0x088, 0, 1, 1⟩, 1, .rs, .value, 0, 408⟩,
  ⟨⟨0x088, 0, 2, 2⟩, 1, .rs, .value, 0, 408⟩,
  ⟨⟨0x088, 0, 3, 3⟩, 1, .rs, .value, 0, 408⟩,
  ⟨⟨0x088, 0, 4, 4⟩, 1, .rs, .value, 0, 408⟩,
  ⟨⟨0x090, 0, 16, 63⟩, 1, .ro, .value, 0, 408⟩,
  ⟨⟨0x098, 0, 0, 1⟩, 1, .rw, .value, 0, 408⟩,
  ⟨⟨0x098, 0, 2, 2⟩, 1, .wo, .value, 0, 0⟩,
  ⟨⟨0x098, 0, 3, 3⟩, 1, .ro, .hw, 0, 0⟩,
  ⟨⟨0x098, 0, 8, 15⟩, 1, .ro, .value, 0, 408⟩,
  ⟨⟨0x098, 0, 32, 53⟩, 1, .rw, .value, 0, 408⟩,
  ⟨⟨0x0A0, 0, 40, 56⟩, 1, .rw, .value, 0, 408⟩,
  ⟨⟨0x0A8, 0, 0, 63⟩, 1, .rw, .value, 0, 408⟩,
  ⟨⟨0x0B0, 0, 0, 63⟩, 1, .rw, .value, 0, 408⟩,
  ⟨⟨0x0B8, 0, 0, 0⟩, 1, .ro, .hw, 0, 0⟩,
  ⟨⟨0x0B8, 0, 1, 1⟩, 1, .ro, .hw, 0, 0⟩,
  ⟨⟨0x0B8, 0, 16, 63⟩, 1, .ro, .hw, 0, 0⟩,
  ⟨⟨0x0C0, 8, 0, 63⟩, 6, .ro, .hw, 0, 0⟩,
  ⟨⟨0x0F0, 0, 0, 31⟩, 1, .rw, .value, 0, 408⟩]

/-- Register table rows of the stw page, part 2. -/
def rows_stw_1 : List Row := [
  ⟨⟨0x0F0, 0, 32, 63⟩, 1, .rw, .value, 0, 408⟩]

/-- Register table rows of the stw page. -/
def rows_stw : List Row := rows_stw_0 ++ rows_stw_1

/-- Register table rows of the cube page. -/
def rows_cube : List Row := [
  ⟨⟨0x080, 0, 0, 9⟩, 1, .rw, .value, 100, 414⟩,
  ⟨⟨0x080, 0, 10, 10⟩, 1, .rw, .value, 0, 414⟩,
  ⟨⟨0x088, 0, 0, 1⟩, 1, .ro, .value, 3, 414⟩,
  ⟨⟨0x088, 0, 2, 3⟩, 1, .ro, .hw, 0, 0⟩,
  ⟨⟨0x088, 0, 32, 63⟩, 1, .ro, .value, 0, 414⟩,
  ⟨⟨0x090, 0, 44, 63⟩, 1, .ro, .hw, 0, 0⟩,
  ⟨⟨0x098, 0, 0, 1⟩, 1, .wo, .value, 0, 0⟩,
  ⟨⟨0x0A0, 0, 0, 31⟩, 1, .rw, .value, 0, 414⟩,
  ⟨⟨0x0A0, 0, 32, 63⟩, 1, .rw, .value, 0, 414⟩,
  ⟨⟨0x0A8, 0, 0, 15⟩, 1, .rw, .value, 0, 414⟩,
  ⟨⟨0x0A8, 0, 16, 31⟩, 1, .rw, .value, 0, 414⟩,
  ⟨⟨0x0A8, 0, 32, 47⟩, 1, .rw, .value, 0, 414⟩,
  ⟨⟨0x0A8, 0, 48, 63⟩, 1, .rw, .value, 0, 414⟩,
  ⟨⟨0x0B0, 0, 0, 0⟩, 1, .rs, .value, 0, 414⟩,
  ⟨⟨0x0B0, 0, 1, 1⟩, 1, .rs, .value, 0, 414⟩]

/-- Register table rows of the node page. -/
def rows_node : List Row := [
  ⟨⟨0x080, 0, 0, 1⟩, 1, .rwl, .value, 0, 472⟩,
  ⟨⟨0x080, 0, 12, 31⟩, 1, .rwl, .value, 1000, 472⟩,
  ⟨⟨0x088, 0, 0, 1⟩, 1, .rwl, .value, 1, 472⟩,
  ⟨⟨0x088, 0, 12, 31⟩, 1, .rwl, .value, 1000, 472⟩,
  ⟨⟨0x090, 0, 0, 1⟩, 1, .rwl, .value, 1, 472⟩,
  ⟨⟨0x090, 0, 12, 31⟩, 1, .rwl, .value, 1000, 472⟩,
  ⟨⟨0x098, 0, 0, 1⟩, 1, .rwl, .value, 1, 472⟩,
  ⟨⟨0x098, 0, 12, 31⟩, 1, .rwl, .value, 100, 472⟩,
  ⟨⟨0x0A0, 0, 0, 1⟩, 1, .rwl, .value, 1, 472⟩,
  ⟨⟨0x0A0, 0, 12, 31⟩, 1, .rwl, .value, 1000, 472⟩,
  ⟨⟨0x0A8, 0, 0, 31⟩, 1, .rw, .value, 0, 472⟩,
  ⟨⟨0x0A8, 0, 32, 47⟩, 1, .rw, .value, 0, 472⟩,
  ⟨⟨0x0A8, 0, 48, 63⟩, 1, .rw, .value, 0, 472⟩,
  ⟨⟨0x0B0, 0, 0, 15⟩, 1, .rw, .value, 0, 472⟩,
  ⟨⟨0x0B0, 0, 16, 31⟩, 1, .ro, .value, 0, 472⟩,
  ⟨⟨0x0B0, 0, 32, 47⟩, 1, .ro, .value, 0, 472⟩,
  ⟨⟨0x0B8, 0, 0, 31⟩, 1, .rw, .value, 0, 472⟩,
  ⟨⟨0x0B8, 0, 32, 47⟩, 1, .ro, .value, 0, 472⟩,
  ⟨⟨0x0B8, 0, 48, 63⟩, 1, .ro, .value, 0, 472⟩,
  ⟨⟨0x0C0, 0, 0, 0⟩, 1, .rs, .value, 0, 478⟩,
  ⟨⟨0x0C0, 0, 1, 1⟩, 1, .rs, .value, 0, 478⟩,
  ⟨⟨0x0C0, 0, 2, 2⟩, 1, .rs, .value, 0, 478⟩]

/-- Register table rows of the root page, part 1. -/
def rows_root_0 : List Row := [
  ⟨⟨0x100, 0, 0, 0⟩, 1, .ro, .hw, 0, 0⟩,
  ⟨⟨0x100, 0, 1, 3⟩, 1, .ro, .hw, 0, 0⟩,
  ⟨⟨0x100, 0, 4, 11⟩, 1, .ro, .hw, 0, 0⟩,
  ⟨⟨0x100, 0, 16, 31⟩, 1, .ro, .hw, 0, 0⟩,
  ⟨⟨0x100, 0, 32, 47⟩, 1, .ro, .hw, 0, 0⟩,
  ⟨⟨0x100, 0, 48, 55⟩, 1, .ro, .hw, 0, 0⟩,
  ⟨⟨0x100, 0, 56, 63⟩, 1, .ro, .hw, 0, 0⟩,
  ⟨⟨0x108, 0, 0, 63⟩, 1, .ro, .hw, 0, 0⟩,
  ⟨⟨0x110, 0, 0, 0⟩, 1, .wo, .value, 0, 0⟩,
  ⟨⟨0x118, 0, 0, 5⟩, 1, .wo, .value, 0, 0⟩,
  ⟨⟨0x120, 0, 0, 63⟩, 1, .ro, .hw, 0, 0⟩,
  ⟨⟨0x128, 0, 58, 63⟩, 1, .rw, .value, 0, 408⟩,
  ⟨⟨0x130, 0, 0, 2⟩, 1, .ro, .hw, 0, 0⟩,
  ⟨⟨0x130, 0, 3, 5⟩, 1, .ro, .hw, 0, 0⟩,
  ⟨⟨0x130, 0, 16, 31⟩, 1, .ro, .hw, 0, 0⟩,
  ⟨⟨0x130, 0, 32, 43⟩, 1, .ro, .hw, 0, 0⟩,
  ⟨⟨0x130, 0, 44, 63⟩, 1, .ro, .hw, 0, 0⟩,
  ⟨⟨0x138, 0, 0, 0⟩, 1, .ro, .hw, 0, 0⟩,
  ⟨⟨0x138, 0, 1, 1⟩, 1, .ro, .fuse, 1, 511⟩,
  ⟨⟨0x140, 0, 0, 15⟩, 1, .rw, .value, 0, 408⟩,
  ⟨⟨0x140, 0, 16, 31⟩, 1, .rw, .value, 0, 408⟩,
  ⟨⟨0x140, 0, 32, 47⟩, 1, .rw, .value, 0, 408⟩,
  ⟨⟨0x140, 0, 48, 63⟩, 1, .rw, .value, 0, 408⟩,
  ⟨⟨0x148, 0, 0, 0⟩, 1, .rs, .value, 0, 408⟩]

/-- Register table rows of the root page, part 2. -/
def rows_root_1 : List Row := [
  ⟨⟨0x148, 0, 1, 1⟩, 1, .rs, .value, 0, 414⟩]

/-- Register table rows of the root page. -/
def rows_root : List Row := rows_root_0 ++ rows_root_1

/-- Register table rows of the tally page. -/
def rows_tally : List Row := [
  ⟨⟨0x080, 0, 0, 63⟩, 1, .ro, .hw, 0, 511⟩,
  ⟨⟨0x088, 0, 0, 63⟩, 1, .ro, .hw, 0, 511⟩,
  ⟨⟨0x090, 0, 0, 31⟩, 1, .ro, .hw, 0, 511⟩,
  ⟨⟨0x098, 0, 0, 39⟩, 1, .ro, .hw, 0, 511⟩,
  ⟨⟨0x098, 0, 40, 55⟩, 1, .ro, .hw, 0, 511⟩,
  ⟨⟨0x0A0, 0, 0, 39⟩, 1, .ro, .hw, 0, 511⟩,
  ⟨⟨0x0A8, 0, 0, 63⟩, 1, .rw, .value, 0, 511⟩,
  ⟨⟨0x0B0, 0, 0, 17⟩, 1, .rwl, .value, 196608, 511⟩,
  ⟨⟨0x0B8, 0, 0, 63⟩, 1, .rw, .value, 0, 408⟩,
  ⟨⟨0x0C0, 0, 0, 0⟩, 1, .ro, .hw, 0, 0⟩,
  ⟨⟨0x0C8, 8, 0, 63⟩, 8, .ro, .hw, 0, 0⟩,
  ⟨⟨0x108, 0, 0, 15⟩, 1, .rw, .value, 0, 408⟩,
  ⟨⟨0x108, 0, 16, 23⟩, 1, .rw, .value, 255, 408⟩,
  ⟨⟨0x108, 0, 24, 24⟩, 1, .wo, .value, 0, 0⟩,
  ⟨⟨0x108, 0, 32, 39⟩, 1, .ro, .value, 0, 408⟩,
  ⟨⟨0x110, 8, 0, 63⟩, 4, .rw, .value, 0, 408⟩,
  ⟨⟨0x130, 0, 0, 0⟩, 1, .rs, .value, 0, 414⟩,
  ⟨⟨0x130, 0, 1, 1⟩, 1, .rs, .value, 0, 414⟩,
  ⟨⟨0x130, 0, 2, 2⟩, 1, .rs, .value, 0, 414⟩,
  ⟨⟨0x138, 0, 0, 31⟩, 1, .rw, .value, 0, 408⟩,
  ⟨⟨0x138, 0, 32, 63⟩, 1, .rw, .value, 0, 408⟩]

/-- Register table rows of the pwr page, part 1. -/
def rows_pwr_0 : List Row := [
  ⟨⟨0x080, 0, 0, 1⟩, 1, .ro, .hw, 0, 0⟩,
  ⟨⟨0x080, 0, 16, 31⟩, 1, .ro, .hw, 0, 0⟩,
  ⟨⟨0x080, 0, 32, 47⟩, 1, .ro, .hw, 0, 0⟩,
  ⟨⟨0x080, 0, 48, 63⟩, 1, .ro, .hw, 0, 0⟩,
  ⟨⟨0x088, 0, 0, 15⟩, 1, .rwl, .value, 330, 414⟩,
  ⟨⟨0x088, 0, 16, 31⟩, 1, .rwl, .value, 160, 414⟩,
  ⟨⟨0x088, 0, 32, 39⟩, 1, .rwl, .value, 90, 414⟩,
  ⟨⟨0x090, 0, 0, 11⟩, 1, .ro, .hw, 0, 0⟩,
  ⟨⟨0x090, 0, 16, 31⟩, 1, .ro, .hw, 0, 0⟩,
  ⟨⟨0x098, 0, 0, 0⟩, 1, .rs, .value, 0, 414⟩,
  ⟨⟨0x098, 0, 1, 1⟩, 1, .rs, .value, 0, 414⟩,
  ⟨⟨0x098, 0, 2, 2⟩, 1, .rs, .value, 0, 414⟩,
  ⟨⟨0x098, 0, 3, 3⟩, 1, .rs, .value, 0, 414⟩,
  ⟨⟨0x0A0, 0, 0, 1⟩, 1, .rw, .value, 0, 414⟩,
  ⟨⟨0x0A0, 0, 2, 2⟩, 1, .wo, .value, 0, 0⟩,
  ⟨⟨0x0A0, 0, 3, 3⟩, 1, .ro, .hw, 0, 0⟩,
  ⟨⟨0x0A0, 0, 8, 15⟩, 1, .ro, .value, 0, 414⟩,
  ⟨⟨0x0A8, 0, 0, 1⟩, 1, .ro, .hw, 0, 0⟩,
  ⟨⟨0x0A8, 0, 2, 2⟩, 1, .rs, .value, 0, 414⟩,
  ⟨⟨0x0A8, 0, 3, 3⟩, 1, .rs, .value, 0, 414⟩,
  ⟨⟨0x0B0, 0, 0, 15⟩, 1, .ro, .hw, 0, 0⟩,
  ⟨⟨0x0B0, 0, 16, 31⟩, 1, .ro, .hw, 0, 0⟩,
  ⟨⟨0x0B0, 0, 32, 32⟩, 1, .ro, .hw, 0, 0⟩,
  ⟨⟨0x0B0, 0, 33, 33⟩, 1, .ro, .hw, 0, 0⟩]

/-- Register table rows of the pwr page, part 2. -/
def rows_pwr_1 : List Row := [
  ⟨⟨0x0B0, 0, 34, 34⟩, 1, .ro, .hw, 0, 0⟩,
  ⟨⟨0x0B8, 0, 0, 23⟩, 1, .ro, .value, 0, 414⟩,
  ⟨⟨0x0B8, 0, 24, 39⟩, 1, .ro, .value, 0, 414⟩,
  ⟨⟨0x0B8, 0, 40, 63⟩, 1, .ro, .hw, 0, 0⟩,
  ⟨⟨0x0C0, 0, 0, 0⟩, 1, .rwl, .value, 1, 414⟩,
  ⟨⟨0x0C0, 0, 8, 15⟩, 1, .rwl, .value, 24, 414⟩,
  ⟨⟨0x0C0, 0, 16, 16⟩, 1, .wo, .value, 0, 0⟩,
  ⟨⟨0x0C8, 0, 0, 0⟩, 1, .rs, .value, 0, 414⟩,
  ⟨⟨0x0C8, 0, 1, 1⟩, 1, .rs, .value, 0, 414⟩,
  ⟨⟨0x0C8, 0, 2, 2⟩, 1, .rs, .value, 0, 414⟩,
  ⟨⟨0x0D0, 0, 0, 15⟩, 1, .ro, .fuse, 12000, 511⟩,
  ⟨⟨0x0D8, 0, 0, 7⟩, 1, .ro, .value, 0, 415⟩,
  ⟨⟨0x0D8, 0, 16, 31⟩, 1, .ro, .value, 0, 415⟩,
  ⟨⟨0x0D8, 0, 32, 47⟩, 1, .ro, .value, 0, 415⟩,
  ⟨⟨0x0E0, 0, 0, 31⟩, 1, .rs, .value, 0, 414⟩,
  ⟨⟨0x0E8, 0, 0, 31⟩, 1, .rwl, .value, 4294967295, 414⟩,
  ⟨⟨0x100, 8, 2, 15⟩, 32, .rwl, .value, 0, 414⟩,
  ⟨⟨0x100, 8, 18, 31⟩, 32, .rwl, .value, 16383, 414⟩,
  ⟨⟨0x200, 8, 50, 63⟩, 32, .ro, .hw, 0, 0⟩]

/-- Register table rows of the pwr page. -/
def rows_pwr : List Row := rows_pwr_0 ++ rows_pwr_1

end Sys2Proof.Machine
end

