-- ==== Sys2Proof/Machine/Sparse.lean ====
section
/-! DEFINITION. Sparse tables: lists of key and value pairs in one canonical form (keys strictly rising, no entry equal to
what an unlisted key reads as), so that equal tables are equal data. Memory, register files, caches and tables use them. -/

namespace Sys2Proof.Machine

/-- A table keyed by a number. What an unlisted key reads as is given where the table is read. -/
abbrev Table (α : Type) := List (Nat × α)

variable {α : Type}

/-- The value at key `k`; an unlisted key reads as `d`. -/
def Table.look (d : α) : Table α → Nat → α
  | [], _ => d
  | (k', v) :: m, k => if k = k' then v else Table.look d m k

/-- The table with the entry of key `k` set to `v`, in its place among rising keys. -/
def Table.insert : Table α → Nat → α → Table α
  | [], k, v => [(k, v)]
  | (k', v') :: m, k, v =>
    if k < k' then (k, v) :: (k', v') :: m else if k = k' then (k, v) :: m else (k', v') :: Table.insert m k v

/-- The table without an entry of key `k`. -/
def Table.erase (m : Table α) (k : Nat) : Table α := m.filter fun e => e.1 != k

/-- The table with `v` at key `k`, in canonical form: a value equal to `d`, what `k` reads as unlisted, is not listed. -/
def Table.put [DecidableEq α] (d : α) (m : Table α) (k : Nat) (v : α) : Table α := if v = d then m.erase k else m.insert k v

/-- Every key of the table is above `b`. -/
def Table.above (b : Nat) : Table α → Bool
  | [] => true
  | (k, _) :: _ => decide (b < k)

/-- The canonical form, where an unlisted key `k` reads as `d k`: keys strictly rise and no entry equals `d` of its key. -/
def Table.wf [DecidableEq α] (d : Nat → α) : Table α → Bool
  | [] => true
  | (k, v) :: m => decide (v ≠ d k) && Table.above k m && Table.wf d m

/-- Is key `k` listed? -/
def Table.has (m : Table α) (k : Nat) : Bool := m.any fun e => e.1 == k

/-- The entries whose key and value satisfy `p`. -/
def Table.keep (p : Nat → α → Bool) (m : Table α) : Table α := m.filter fun e => p e.1 e.2

/-- Insert an element in a list sorted by `le`, after its equals. -/
def insertBy {β : Type} (le : β → β → Bool) (x : β) : List β → List β
  | [] => [x]
  | y :: l => if le y x then y :: insertBy le x l else x :: y :: l

/-- A list sorted by `le`; equals keep their order. -/
def sortBy {β : Type} (le : β → β → Bool) (l : List β) : List β := l.foldl (fun acc x => insertBy le x acc) []

/-- The first element that no other precedes under `lt`. -/
def bestBy {β : Type} (lt : β → β → Bool) : List β → Option β
  | [] => none
  | x :: l => some (l.foldl (fun a b => if lt b a then b else a) x)

/-- The base-2 logarithm, rounded down, of a number below 2^64; 0 for 0. -/
def ilog2 (n : Nat) : Nat := ((List.range 64).filter fun i => decide (2 ^ i ≤ n)).length - 1

end Sys2Proof.Machine
end

