-- ==== Sys2Proof/Machine/State.lean ====
section
/-! DEFINITION. The state of the module as plain data: every piece of state the spec gives it, the queue of waiting commands,
the reset state, and the reasons a step can stop. Log entries 1-8 name the model's own fields and reset values. -/

namespace Sys2Proof.Machine

/-- Reasons to stop with a fault. -/
inductive Fault where
  /-- Raised by a coherence arrival that the tables of R172 and R175 mark "cannot occur" (codes n1-n10, h1-h8). Safe: the
  spec gives the arrival no effect. -/
  | cannotOccur (code : String)
  deriving DecidableEq, Repr

/-- Reasons to refuse a command. -/
inductive Refusal where
  /-- Raised by an arm of `exec` whose command has no meaning yet. Safe. -/
  | notModelled (mnemonic : String)
  deriving DecidableEq, Repr

/-! ### Ezxis cores -/

/-- Memory types of R64 and R71; no access is made through a leaf of the reserved type. -/
inductive MemType where
  | normal | uncached | device | reserved
  deriving DecidableEq, Repr

/-- The architectural state of Ezxis that belongs to the work unit (R46): `g`, `f` and control registers (an unlisted
register holds 0), IA, SW and FPC. -/
structure Arch where
  g : Table Word
  f : Table Word
  cr : Table Word
  ia : Word
  sw : Word
  fpc : Word
  deriving DecidableEq, Repr

/-- The state a core without a work unit shows: SW with CT 1 (R50), everything else 0. -/
def Arch.reset : Arch := { g := [], f := [], cr := [], ia := 0, sw := 0x0020000000000000#64, fpc := 0 }

/-- A pending interruption: its class in the priority order of R74 (1 machine check, 4 external, 5 I/O), code and XADDR. -/
structure PendInt where
  cls : Nat
  code : Nat
  xaddr : Word
  deriving DecidableEq, Repr

/-- A store, or one piece of one: an entry of the store buffer (R126). `phys` is the module physical address; `stream` says that its virtual
address lies in the streaming window (R148). -/
structure BufStore where
  phys : Nat
  mt : MemType
  bytes : List Byte
  seam : Nat
  stream : Bool
  deriving DecidableEq, Repr

/-- An entry of the store-gather buffer (R129). -/
structure Gather where
  line : Nat
  uncached : Bool
  mask : BitVec 128
  data : BitVec 1024
  seam : Nat
  stream : Bool
  isOpen : Bool
  openedAt : Nat
  deriving DecidableEq, Repr

/-- Where a device access goes: a doubleword of a unit page, of a seam page, or of the journal window, or a page slot that
holds no unit (R25, R28, R44); or memory mapped as device (R71). -/
inductive DeviceTarget where
  | page (u : UnitId) (off : Nat)
  | seamPage (seam off : Nat)
  | journal (off : Nat)
  | unoccupied (slot off : Nat)
  | memory (phys : Nat)
  deriving DecidableEq, Repr

/-- A posted device store that its unit has not accepted (R131). -/
structure Posted where
  target : DeviceTarget
  bytes : List Byte
  seam : Nat
  deriving DecidableEq, Repr

/-- A kept translation of a seam (R68), of a 4 KiB or a 1 MiB page; `frame` is the absolute address of the page. -/
structure Translation where
  seam : Nat
  vpage : Nat
  big : Bool
  asn : Nat
  glob : Bool
  frame : Nat
  w : Bool
  x : Bool
  p : Bool
  mt : MemType
  leafAddr : Nat
  accessed : Bool
  dirty : Bool
  deriving DecidableEq, Repr

/-- ROLE of CKW_STAT (R212). -/
inductive Role where
  | active | pawn | promoting | watch | failed | fenced | unassigned
  deriving DecidableEq, Repr

/-- A load of normal cacheable memory as the trackers see it (R146, R147): instruction address, virtual and absolute address, and whether
its translation page is one of 1 MiB. -/
structure LoadRec where
  ia : Word
  virt : Nat
  abs : Nat
  big : Bool
  deriving DecidableEq, Repr

/-- The retirement group in progress (R80, R193): instructions executed since the last compared checkpoint, the address of the first of
them, whether it is closed, how often it has mismatched, whether its last instruction has been performed outside the core and waits for
stage 2 of R194, its stores, and the loads that train the trackers when it retires (R146). -/
structure Group where
  count : Nat
  first : Word
  closed : Bool
  attempts : Nat
  performed : Bool
  stores : List BufStore
  loads : List LoadRec
  deriving DecidableEq, Repr

/-- The last compared checkpoint (R193, R199). -/
structure Ckpt where
  arch : Arch
  seq : Nat
  valid : Bool
  readable : Bool
  deadlineMatch : Bool
  resp : List Word
  scratch : Table Word
  image : List Translation
  deriving DecidableEq, Repr

/-- A stride tracker (R146). -/
structure Stride where
  ia : Word
  last : Nat
  stride : Int
  conf : Nat
  deriving DecidableEq, Repr

/-- A core slot: its architectural state, checkpoint and group, its buffers, translations and trackers, and what the
checkweigher and the Foreman keep for it. -/
structure CoreSt where
  arch : Arch
  ckpt : Ckpt
  group : Group
  storeBuf : List BufStore
  gather : List Gather
  posted : List Posted
  bars : Bool
  tlb : List Translation
  ranSeams : List Nat
  role : Role
  wu : Option Nat
  suspended : Option Nat
  watchEnd : Nat
  mismatches : List Nat
  csErrors : List Nat
  l1Track : List Stride
  l2Track : List Stride
  prevSeam : Option Nat
  recent : List (Nat × Nat)
  reserved : Option (Nat × Nat)
  idleSince : Nat
  dispatchedAt : Nat
  c48 : Word
  takeoff : Option Nat
  deriving DecidableEq, Repr

/-- A retirement group with nothing in it. -/
def Group.empty : Group := { count := 0, first := 0, closed := false, attempts := 0, performed := false, stores := [], loads := [] }

/-- A checkpoint record that holds nothing. -/
def Ckpt.none : Ckpt :=
  { arch := .reset, seq := 0, valid := false, readable := true, deadlineMatch := false, resp := [],
    scratch := [], image := [] }

/-- A core slot after reset: off, unassigned (R210), holding nothing. -/
def CoreSt.reset : CoreSt :=
  { arch := .reset, ckpt := .none, group := .empty, storeBuf := [], gather := [], posted := [], bars := false, tlb := [], ranSeams := [],
    role := .unassigned, wu := .none, suspended := .none, watchEnd := 0, mismatches := [], csErrors := [],
    l1Track := [], l2Track := [], prevSeam := .none, recent := [], reserved := .none, idleSince := 0, dispatchedAt := 0,
    c48 := 0, takeoff := .none }

/-! ### Caches and coherence -/

/-- The states of R168. -/
inductive CState where
  | m | o | e | s | i
  deriving DecidableEq, Repr

/-- A way of a set: line number, state, data, the seam whose request filled it (R141), and whether it was filled through the
streaming window (R148). A way in state I holds nothing. -/
structure CLine where
  line : Nat
  st : CState
  data : LineData
  seam : Nat
  stream : Bool
  deriving DecidableEq, Repr

/-- An empty way. -/
def CLine.empty : CLine := { line := 0, st := .i, data := ⟨0, 0⟩, seam := 0, stream := false }

/-- A dirty line that a tile has sent away with WB and whose WBAck it awaits: an entry of an L2 eviction buffer (`core`) or of an L3 slice's
write-back queue, with the state in which the line left (R143, R144, R168). -/
structure WbEntry where
  tile : Nat
  core : Option Nat
  line : Nat
  st : CState
  data : LineData
  seam : Nat
  deriving DecidableEq, Repr

/-- Requests of R170 as they reach a home agent. -/
inductive ReqKind where
  | rds | rdx | rdxA | upg | mntClean | mntInv | mntCleanInv | ior | iow
  deriving DecidableEq, Repr

/-- A request to a home agent about one line (R170). -/
structure HomeReq where
  agent : Agent
  kind : ReqKind
  line : Nat
  seam : Nat
  mask : BitVec 128
  data : BitVec 1024
  hint : Option HintTarget
  atomic : Option AtomicReq
  skipLocked : Bool
  deriving DecidableEq, Repr

/-- The directory states of R168. -/
inductive DirState where
  | u | s | x | o
  deriving DecidableEq, Repr

/-- A directory entry (R178); state U is no entry. -/
structure DirEntry where
  line : Nat
  st : DirState
  present : BitVec 4
  owner : Nat
  seam : Nat
  hot : Bool
  hotAt : Nat
  deriving DecidableEq, Repr

/-- A directory way without an entry. -/
def DirEntry.empty : DirEntry := { line := 0, st := .u, present := 0, owner := 0, seam := 0, hot := false, hotAt := 0 }

/-- The transient states of a home agent (R175). -/
inductive HomeTx where
  | wr | wx | wa | ww | wh | wv
  deriving DecidableEq, Repr

/-- An open transaction of a home agent: answers outstanding, dirty data kept, whether memory has taken a WB of the line
meanwhile, whether Done is awaited, the requesters that keep a locked copy, and when it began to await an answer. -/
structure HomeTrans where
  home : Nat
  line : Nat
  tx : HomeTx
  req : HomeReq
  await : Nat
  asked : BitVec 4
  dirty : Option LineData
  tookWb : Bool
  awaitDone : Bool
  kept : BitVec 4
  recorded : Bool
  since : Nat
  deriving DecidableEq, Repr

/-- The transient states of a tile controller (R172). -/
inductive TileTx where
  | is | im | sm | om | ci | mi | ii
  deriving DecidableEq, Repr

/-- An open transaction of a tile controller: the core whose need opened it, the way of its L2 that the fill holds (R142), the atomic it is
for, when it was sent, and when a refused request is sent again (R173). -/
structure TileTrans where
  tile : Nat
  line : Nat
  tx : TileTx
  core : Nat
  seam : Nat
  way : Option Nat
  atomic : Option AtomicReq
  since : Nat
  resendAt : Option Nat
  deriving DecidableEq, Repr

/-- The messages of R170. -/
inductive MsgKind where
  | rds | rdx | rdxA | upg | mnt | ior | iow | inv | snpS | snpSC | snpX | hint | invAck | snpAck | snpD
  | hintAck | hintDecl | done | dataS | dataE | dataM | gntX | atmR | wbAck | retry | cmp | ioData | wb | evc
  deriving DecidableEq, Repr

/-- A message on the Shaft (R169): kind, sender and receiver die slots, line, data where it carries some, the skip flag of an Inv or SnpX,
the kept flag of an answer (R177) or the M of a Hint (R181), and the request that a request or a Hint carries (R170). `seam` is the seam of
the line, and `inserted` says that the stop of the sender has put the message in a slot (R187). -/
structure Msg where
  kind : MsgKind
  src : Nat
  dst : Nat
  line : Nat
  data : Option LineData
  flag : Bool
  req : Option HomeReq
  seam : Nat
  inserted : Bool
  deriving DecidableEq, Repr

/-- A core's ring request that waits at its tile for a transaction of the line to close, or for room (R171, R172). -/
structure RingWait where
  core : Nat
  line : Nat
  seam : Nat
  excl : Bool
  atomic : Option AtomicReq
  deriving DecidableEq, Repr

/-- The old value of an atomic performed at a home agent, as AtmR brought it to the core (R172, R182). -/
structure AtmVal where
  core : Nat
  line : Nat
  req : AtomicReq
  old : LineData
  deriving DecidableEq, Repr

/-- A preload in progress, with the range and the ways it was started with; or the sweep of a slice with its operation, the next set, and
the time of its start (R151, R158). -/
inductive CacheJob where
  | preload (c : CacheId) (base lines : Nat) (ways : BitVec 8)
  | flush (i : Nat) (op : MaintOp) (incl : Bool) (next since : Nat)
  deriving DecidableEq, Repr

/-! ### Units, faults and the Tally -/

/-- Power states of a unit (R34 UNIT_POWER STATE), without the overriding resetting and fenced. -/
inductive PowerState where
  | run | gated | off | retention
  deriving DecidableEq, Repr

/-- What a unit shows in its header beside stored fields: power state, fence, reset in progress and its kind (0x01 P, 0x02 M,
0x03 U, 0x04 S), whether the last request was absorbed, the last reset kind, a power transition under way with the time it
ends, the sources whose rail reads fault present (R451), a U reset held back under R206, and the RESULT of commands that the
U reset in progress ended (log entry 80). -/
structure UnitDyn where
  power : PowerState
  fenced : Bool
  resetting : Bool
  resetRoot : Bool
  absorbed : Bool
  last : Nat
  transition : Option (PowerState × Nat)
  doneAt : Nat
  live : List Nat
  heldReset : Bool
  ended : List (Field × Nat)
  deriving DecidableEq, Repr

/-- A fault report on its way to the root (R453, R454): class code of R455, peer, syndrome and time base at detection. -/
structure Report where
  src : UnitId
  index : Nat
  cls : Nat
  peer : Option UnitId
  syndrome : Word
  time : Nat
  ownFence : Bool
  deriving DecidableEq, Repr

/-- A canary slot in use (R456, R459): unit, highest class, last rung, expiry, SEQ of the opening fault record, when rung 1
was performed, and whether its rung-2 reset has begun. -/
structure Canary where
  src : UnitId
  cls : Nat
  rung : Nat
  expiry : Nat
  seq : Nat
  rungAt : Nat
  deriving DecidableEq, Repr

/-- An entry of the notice queue (R472). -/
structure Notice where
  cls : Nat
  slot : Nat
  type : Nat
  inst : Nat
  index : Nat
  seam : Nat
  seq : Nat
  deriving DecidableEq, Repr

/-- A consequential window (R462): its unit, the reports it has tagged, and when it closes once the reset or fence ended. -/
structure Window where
  src : UnitId
  count : Nat
  closeAt : Option Nat
  deriving DecidableEq, Repr

/-- A Tally record (R464), without its CRC and MARK, which its bytes determine. `time` is in units of 2^-16 s. -/
structure TallyRec where
  seq : Nat
  pcycle : Nat
  time : Nat
  srcType : Nat
  srcInst : Nat
  event : Nat
  flags : Nat
  seam : Nat
  payload : List Byte
  deriving DecidableEq, Repr

/-- A slot of the Tally's MRAM store (R464, R468). -/
inductive MramSlot where
  | blank | torn
  | record (r : TallyRec)
  deriving DecidableEq, Repr

/-! ### Work units, the Foreman and seams -/

/-- Where a live work unit stands (R229). -/
inductive Run where
  | none | ready
  | running (core : Nat)
  | waiting
  | suspended (core : Nat)
  deriving DecidableEq, Repr

/-- An entry of the live table (R229): seam, descriptor and state area addresses, priority, group, NO_HINT, where it stands,
its wait (kind, subchannel, deadline), when it was dispatched or became ready, and the die of the status that ended its wait (R235). -/
structure WorkUnit where
  seam : Nat
  desc : Nat
  area : Nat
  prio : Nat
  group : Nat
  noHint : Bool
  run : Run
  waitKind : Nat
  waitSch : Nat
  waitUntil : Nat
  since : Nat
  nearDie : Option Nat
  deriving DecidableEq, Repr

/-- No work unit. -/
def WorkUnit.none : WorkUnit :=
  { seam := 0, desc := 0, area := 0, prio := 0, group := 0, noHint := false, run := .none, waitKind := 0, waitSch := 0,
    waitUntil := 0, since := 0, nearDie := .none }

/-- A ready ring (R232, R236): its work units in the order in which they are dispatched; each holds the ring position that
the Foreman recorded for it, or none while it is held for want of room. -/
structure Ring where
  units : List (Nat × Option Nat)
  prod : Nat
  cons : Nat
  deriving DecidableEq, Repr

/-- Events that make the Foreman decide, in the order of R233. -/
inductive FmnEvent where
  | failure (core : Nat)
  | envelope
  | status (wu : Nat)
  | deadline (wu : Nat)
  | wait (core : Nat)
  | yield (core : Nat)
  | enqw (core : Nat)
  | ended
  | policy
  | tick
  deriving DecidableEq, Repr

/-- A granule of the counter table (R241). -/
structure GranCount where
  gran : Nat
  counts : List Nat
  deriving DecidableEq, Repr

/-- A migration in progress (R242, R243). -/
structure Migration where
  gran : Nat
  src : Nat
  dst : Nat
  slot : Nat
  flip : Bool
  counts : List Nat
  deriving DecidableEq, Repr

/-- A remap table entry (R283). -/
structure Remap where
  v : Bool
  flip : Bool
  gran : Nat
  slot : Nat
  deriving DecidableEq, Repr

/-- A seam command in progress, with the result it will show (R256, R257). -/
structure SeamCmd where
  op : Nat
  seam : Nat
  arg : Nat
  result : Nat
  deriving DecidableEq, Repr

/-! ### Channel subsystem -/

/-- STATE of a hot context (R314); idle is no context. -/
inductive ExState where
  | idle | start | active | redrive | journal | halting | pending
  deriving DecidableEq, Repr

/-- A hot context (R311), with what the full context keeps of the entry in progress: its index and words, the bytes it has
moved, the frames it has placed, whether its channel command has been performed, redrives, when it started on its path,
a HALT noted in JOURNAL, the code an abort will end with, whether the subchannel
has a peer entry in the other store, the second target of a secured write (subchannel, LBA), a secured
WRITE whose TARGET is still to come, the hint target (R240) and the LBA after the entry. -/
structure Exchange where
  st : ExState
  seam : Nat
  path : Nat
  tried : BitVec 8
  sch : Nat
  cpa : Nat
  cur : Nat
  lba : Nat
  hint : Option HintTarget
  seq : Word
  start : Nat
  status : Word
  index : Nat
  word0 : Word
  word1 : Word
  moved : Nat
  placed : Nat
  performed : Bool
  redrives : Nat
  entryAt : Nat
  haltNoted : Bool
  endCode : Nat
  haltAt : Nat
  paired : Bool
  tgt : Option (Nat × Nat)
  sec : Option (Word × Word)
  deriving DecidableEq, Repr

/-- No exchange. -/
def Exchange.none : Exchange :=
  { st := .idle, seam := 0, path := 0, tried := 0, sch := 0, cpa := 0, cur := 0, lba := 0, hint := .none, seq := 0, start := 0,
    status := 0, index := 0, word0 := 0, word1 := 0, moved := 0, placed := 0, performed := false, redrives := 0, entryAt := 0,
    haltNoted := false, endCode := 0, haltAt := 0, paired := false, tgt := .none, sec := .none }

/-- A peer-list entry (R313): the subchannel, the seam, the pending flag with its status, and what a completion entry of the
exchange carries (R319). `ctx` is the index of the context in the other store. -/
structure Peer where
  sch : Nat
  seam : Nat
  ctx : Nat
  pending : Bool
  status : Word
  cpa : Nat
  seq : Word
  deriving DecidableEq, Repr

/-- A notice to a hauler (R368 XNOTE): kind and context index. -/
structure HNotice where
  kind : Nat
  ctx : Nat
  deriving DecidableEq, Repr

/-! ### The journal and the drain stores -/

/-- A slot of a bank's entry table (R327). `seam` is the byte at 0x08; `used` and `marked` say whether the slot is allocated and whether
MARK is valid. `gen` is GEN of the seam at the commit, and `orphan` marks an entry whose exchange ended with 0x22 (R332); neither is part
of the header. -/
structure JEntry where
  num : Nat
  seam : Nat
  ntgt : Nat
  shift : Nat
  xmod : Bool
  len : Nat
  sch0 : Nat
  nsid0 : Nat
  lba0 : Nat
  sch1 : Nat
  nsid1 : Nat
  lba1 : Nat
  cpa : Nat
  time : Nat
  pages : List Nat
  wr0 : Bool
  wr1 : Bool
  held : Bool
  restored : Bool
  used : Bool
  marked : Bool
  gen : Nat
  orphan : Bool
  deriving DecidableEq, Repr

/-- A slot that has held nothing. -/
def JEntry.none : JEntry :=
  { num := 0, seam := 0, ntgt := 0, shift := 0, xmod := false, len := 0, sch0 := 0, nsid0 := 0, lba0 := 0, sch1 := 0,
    nsid1 := 0, lba1 := 0, cpa := 0, time := 0, pages := [], wr0 := false, wr1 := false, held := false, restored := false,
    used := false, marked := false, gen := 0, orphan := false }

/-- A commit between step 2 of R330 and its answer: the exchange (key of its context), the die whose engine runs it, the slot,
and with XMOD when the last chunk was sent and whether the peer has acknowledged. `orphan` marks one whose exchange was taken
over with 0x22 (R332). -/
structure Commit where
  ex : Nat
  slot : Nat
  sentAt : Nat
  acked : Bool
  orphan : Bool
  deriving DecidableEq, Repr

/-- A target write in progress (R333): slot, target, path index, paths tried, redrives, and when it started. -/
structure TargetWrite where
  slot : Nat
  target : Nat
  path : Nat
  tried : BitVec 8
  redrives : Nat
  since : Nat
  deriving DecidableEq, Repr

/-- The image of a drain store (R339): its header fields, whether MARK and CRC hold, and its entries with their payloads. -/
structure DrainImage where
  pcycle : Nat
  next : Nat
  whole : Bool
  entries : List (JEntry × List Byte)
  deriving DecidableEq, Repr

/-- A copy that a peer sends (R396): its group, the slot allocated, the header bytes and the chunks received. -/
structure JRecv where
  group : Nat
  slot : Nat
  header : List Byte
  chunks : Nat
  got : Table (List Byte)
  deriving DecidableEq, Repr

/-! ### Haulers -/

/-- STATE of HLR_STAT (R379). -/
inductive HState where
  | halted | running | wfe | trapped | faulted | loading | clearing | march
  deriving DecidableEq, Repr

/-- A write in flight (R355-R357): to a general register or a special register, landing after `left` more instructions. -/
structure Late where
  special : Bool
  num : Nat
  value : Half
  left : Nat
  deriving DecidableEq, Repr

/-- A DMA channel (R369): its CTL word without GO and BUSY, the addresses, length, seam tag, and whether it is busy. -/
structure Dma where
  ctl : Half
  src : Nat
  dst : Nat
  len : Nat
  seam : Nat
  busy : Bool
  deriving DecidableEq, Repr

def Dma.reset : Dma := { ctl := 0, src := 0, dst := 0, len := 0, seam := 0, busy := false }

/-- A frame or MSI message in a receive queue (R388, R391). -/
structure RxItem where
  bytes : List Byte
  msi : Option Nat
  hauler : Option Nat
  deriving DecidableEq, Repr

/-- A hauler (R346, R347, R368, R369, R391): registers, special registers by number, writes in flight, the branch whose delay
slot comes next (its target, if taken), instructions until the shadow of an LSET ends, its ports, and the mode after a pit clear. -/
structure Hauler where
  mode : HState
  h : Table Half
  sp : Table Half
  pc : Half
  late : List Late
  delay : Option (Option Half)
  lsetLeft : Nat
  dma : Table Dma
  xsel : Nat
  notices : List HNotice
  evtDma : Half
  evtMisc : Half
  maskDma : Half
  maskMisc : Half
  timerFrom : Nat
  latch : Nat
  tcmp : Nat
  gsel : Half
  taken : Option RxItem
  txopt : Half
  txmss : Half
  obaddr : Word
  obdata : Word
  obctl : Half
  after : HState
  deriving DecidableEq, Repr

/-- A hauler at reset: halted, everything 0, no group selected (R349; log entry 2). -/
def Hauler.reset : Hauler :=
  { mode := .halted, h := [], sp := [], pc := 0, late := [], delay := none, lsetLeft := 0, dma := [], xsel := 0, notices := [],
    evtDma := 0, evtMisc := 0, maskDma := 0, maskMisc := 0, timerFrom := 0, latch := 0, tcmp := 0, gsel := 0xFFFF,
    taken := none, txopt := 0, txmss := 0, obaddr := 0, obdata := 0, obctl := 0, after := .halted }

/-- A run of a march engine (R374-R378): operation, form, array kind and index, the modes that held haulers return to, when it
started, and whether a sweep skips the journal bank. -/
structure MarchRun where
  op : Nat
  form : Nat
  kind : Nat
  index : Nat
  modes : List (Nat × HState)
  started : Nat
  skip : Bool
  deriving DecidableEq, Repr

/-- An image load in progress (R372): the targets, the GENERATION, digest and code it will store, and its RESULT. -/
structure LoadRun where
  targets : Nat
  result : Nat
  gen : Nat
  digest : List Byte
  code : List Byte
  deriving DecidableEq, Repr

/-! ### Links and the coupled complex -/

/-- A personality group by its first lane (R381-R391): link state, rate and width codes, receive queue, PFC state. -/
structure Link where
  up : Bool
  degraded : Bool
  rate : Nat
  width : Nat
  downAt : Nat
  rx : List RxItem
  xoff : BitVec 8
  deriving DecidableEq, Repr

def Link.reset : Link := { up := false, degraded := false, rate := 0, width := 0, downAt := 0, rx := [], xoff := 0 }

/-- A coupling frame with a SEQ, kept until it is acknowledged (R394). -/
structure CFrame where
  type : Nat
  vc : Nat
  seq : Nat
  tag : Nat
  payload : List Byte
  deriving DecidableEq, Repr

/-- A coupling lane group (R392-R395): link state, failed lanes, sequence numbers, frames kept, credits granted by the peer, replay
times, last reception, and its peer. -/
structure Coupling where
  up : Bool
  failed : BitVec 4
  txSeq : Nat
  kept : List CFrame
  waiting : List CFrame
  rxSeq : Nat
  credits : Table Nat
  replays : List Nat
  heard : Nat
  peerLot : Nat
  peerGroup : Nat
  peerCxid : Nat
  peerLots : List Nat
  deriving DecidableEq, Repr

def Coupling.reset : Coupling :=
  { up := false, failed := 0, txSeq := 0, kept := [], waiting := [], rxSeq := 0xFFF, credits := [],
    replays := [], heard := 0, peerLot := 0, peerGroup := 0, peerCxid := 0, peerLots := [] }

/-- What the module knows of the coupled complex (R398, R399): the member lots in index order, the summaries of remote members
(sticky and live) by index, and the remote access in progress (its tag and when it began). -/
structure Complex where
  lots : List Nat
  summary : Table Nat
  access : Option (Nat × Nat)
  tag : Nat
  told : Option (Word × Word)
  deriving DecidableEq, Repr

def Complex.reset : Complex := { lots := [], summary := [], access := none, tag := 0, told := none }

/-! ### What leaves the module -/

/-- The NVMe commands of R385 that carry out channel commands. -/
inductive NvmeCmd where
  | read | write | flush
  deriving DecidableEq, Repr

/-- Something the module has sent to a steward's firmware, to a drive or peer on its lanes, or to a coupled module. -/
inductive Out where
  /-- An interruption to the firmware of a steward (R431, R432, R455, R473). -/
  | interrupt (steward : Nat)
  /-- A bus-error exception of a steward, with the address (R430). -/
  | busError (steward : Nat) (addr : Nat)
  /-- An NVMe command on a path, named by the module-wide first lane of its group: command, namespace, first LBA, blocks, seam tag
  and address of the data, or the journal page it comes from, and Force Unit Access (R306, R385). -/
  | nvme (lane : Nat) (cmd : NvmeCmd) (nsid lba blocks tag addr : Nat) (fua : Bool)
  /-- An Abort of the command of an exchange on a path (R314, R315). -/
  | abort (lane sch : Nat)
  /-- An Ethernet frame on a personality group (R310, R387). -/
  | frame (group : Nat) (bytes : List Byte)
  /-- A PFC frame: pause on or off for a class (R388). -/
  | pfc (group : Nat) (cls : Nat) (xoff : Bool)
  /-- An outbound PCI Express access (R391). -/
  | pcie (group : Nat) (write : Bool) (addr data : Nat)
  /-- A completion or completer abort for an inbound request (R384). -/
  | completion (group : Nat) (ok : Bool) (bytes : List Byte)
  /-- A coupling frame: type, SEQ, ACKSEQ, returned credits (VC and units), TAG, payload (R393-R395). -/
  | coupling (group type seq ack cvc credits tag : Nat) (payload : List Byte)
  deriving DecidableEq, Repr

/-! ### Engines, entropy and attestation -/

/-- A job taken and not done (R405-R409): the address of its descriptor, the descriptor as read, whether its operation has been
performed, and the STATUS, OUT_LEN and CHECK that it will report. -/
structure Job where
  addr : Nat
  line : List Byte
  performed : Bool
  status : Nat
  outLen : Nat
  check : Word
  saved : Bool
  deriving DecidableEq, Repr

/-- A Crusher engine, a cipher engine or the entropy source as a server of rings (R406-R411): jobs by seam, the current quantum
and its seam, the seam whose data the unit last held, and ring writes that wait for their next quantum. -/
structure Engine where
  jobs : Table (Option Job)
  quantum : Nat
  seamNow : Option Nat
  lastSeam : Nat
  ringWrites : Table Word
  deriving DecidableEq, Repr

def Engine.reset : Engine := { jobs := [], quantum := 0, seamNow := none, lastSeam := 0, ringWrites := [] }

/-- A DRBG instance (R420): the Key and V of CTR_DRBG, requests since its last seed, and whether a reseed is due. -/
structure Drbg where
  key : BitVec 256
  v : BitVec 128
  served : Nat
  due : Bool
  deriving DecidableEq, Repr

/-- STATE of ENT_STAT (R427). -/
inductive EntState where
  | starting | healthy | failed | raw
  deriving DecidableEq, Repr

/-- The entropy source (R418, R419): state, command running, conditioned blocks not yet used, the raw-mode word, the history
of its health tests (last bit and its run; window bit, bits seen and matches). -/
structure Entropy where
  state : EntState
  busy : Option Nat
  blocks : List Nat
  raw : Word
  lastBit : Bool
  runLen : Nat
  winBit : Bool
  winSeen : Nat
  winHits : Nat
  deriving DecidableEq, Repr

def Entropy.reset : Entropy :=
  { state := .starting, busy := none, blocks := [], raw := 0, lastBit := false, runLen := 0, winBit := false, winSeen := 0,
    winHits := 0 }

/-- An attestation command in progress (R424, R425): the RESULT it will show, the entry it extends the log with, or the report
it writes. -/
structure AttRun where
  addr : Nat
  result : Nat
  entry : Option (Nat × Bool × Nat × Nat × List Byte)
  report : List Byte
  deriving DecidableEq, Repr

/-! ### Microcode and core commands -/

/-- The active copy of the patch bundle (R221-R223): its bytes; none is the ROM alone. -/
abbrev ActiveCopy := Option (List Byte)

/-- A CKW_CMD in progress in a tile (R202-R214): operation, source and destination slot, when it started, its RESULT. -/
structure CkwRun where
  op : Nat
  src : Nat
  dst : Nat
  started : Nat
  result : Nat
  deriving DecidableEq, Repr

/-! ### Stewards and cube -/

/-- What a steward's firmware side holds (R429, R430, R435, R447): local SRAM (with the peer store), the last read data and
whether a bus-error exception is pending, how far its boot ROM has come, and the replication command in progress. -/
inductive StwBoot where
  | rom | running | halted
  deriving DecidableEq, Repr

/-- A replication command in progress (R437, R438): operation, RESULT, and the header or record, and its MARK, written at the end. -/
structure Repl where
  op : Nat
  result : Nat
  writes : List (Nat × List Byte)
  deriving DecidableEq, Repr

structure Steward where
  sram : Table Byte
  lastRead : Word
  busError : Bool
  boot : StwBoot
  slotB : Bool
  bootResult : Nat
  fwGen : Nat
  digest : List Byte
  peerSync : Bool
  repl : Option Repl
  deriving DecidableEq, Repr

def Steward.reset : Steward :=
  { sram := [], lastRead := 0, busError := false, boot := .rom, slotB := false, bootResult := 0, fwGen := 0, digest := [],
    peerSync := false, repl := none }

/-! ### Power, lands and the test access port -/

/-- The module's power state (R482-R484, R490). -/
inductive ModPower where
  | on | standby | holdup | off
  deriving DecidableEq, Repr

/-- The power and environment unit (R474-R490): VAVG in mV, measured input power in W, envelope and since when VAVG has stayed at
19 V or 38 V, P_CUT and P_CORE_W, since when the input has been over P_AVAIL and when a condition of R477 last held, good phases,
controllers, quadrant fuses and regulators, the clock inputs, samples by channel, the hold-up bank (in units of 4 mV) with its
charger in mA, its test and usable energy, the declaration made, the levels of MRST_N and PWRGOOD, and the module checkstop (R461). -/
structure Power where
  mode : ModPower
  vavg : Nat
  inW : Nat
  envelope : Nat
  above19 : Option Nat
  above38 : Option Nat
  pCut : Nat
  pCore : Nat
  overSince : Option Nat
  lastStress : Nat
  phases : BitVec 12
  controllers : BitVec 2
  fuses : BitVec 4
  regulators : BitVec 2
  xtalBad : Bool
  refLost : Option Nat
  samples : Table Nat
  holdV : Nat
  charging : Nat
  fullSince : Nat
  testing : Bool
  tested : Bool
  testedAt : Nat
  eMj : Nat
  enough : Bool
  cmdBusy : Bool
  declared : Nat
  offCmd : Bool
  mrstLow : Bool
  mResetting : Bool
  pwrgood : Bool
  offUntilVin : Bool
  checkstop : Bool
  deriving DecidableEq, Repr

/-- The unit on a good 48 V input, everything sound, nothing measured yet (log entry 2). -/
def Power.reset : Power :=
  { mode := .on, vavg := 48000, inW := 0, envelope := 0, above19 := some 0, above38 := some 0, pCut := 0, pCore := 682,
    overSince := none, lastStress := 0, phases := 0xFFF, controllers := 3, fuses := 0xF, regulators := 3, xtalBad := false,
    refLost := none, samples := [], holdV := 0, charging := 0, fullSince := 0, testing := false, tested := false, testedAt := 0,
    eMj := 0, enough := false, cmdBusy := false, declared := 0, offCmd := false, mrstLow := false, mResetting := false,
    pwrgood := true, offUntilVin := false, checkstop := false }

/-- The instruction that the test access port has selected (R503). -/
inductive TapIr where
  | bypass | samplePreload | extest | idcode
  deriving DecidableEq, Repr

/-- The test access port (R503): instruction, the 3,312-cell boundary register, whether its cells drive their lands, and what the
selected data register captures. -/
structure Tap where
  ir : TapIr
  boundary : BitVec 3312
  driving : Bool
  dr : BitVec 3312
  deriving DecidableEq, Repr

/-- The port after TRST_N: IDCODE (log entry 8). -/
def Tap.reset : Tap := { ir := .idcode, boundary := 0, driving := false, dr := 0x27240A5B }

/-! ### The machine -/

/-- The state of the module. `pending` is the queue of waiting commands, `now` the model's clock in ns, `free` the counter
behind the free values of Config; every other field is state the spec gives the module. -/
structure State where
  pending : List Instr
  now : Nat
  free : Nat
  /-- `now` at which the time base restarted (R88). -/
  tbStart : Nat
  /-- Every register of every unit page and seam page, keyed by `pageKey`; an unlisted one holds its reset value. -/
  regs : Table Word
  units : Table UnitDyn
  cores : Table CoreSt
  caches : Table CLine
  plru : Table Nat
  wbq : List WbEntry
  dir : Table DirEntry
  homeTrans : List HomeTrans
  homeQueue : List HomeReq
  dirReserve : List (Nat × Nat × Agent)
  tileTrans : List TileTrans
  msgs : List Msg
  /-- Ring requests that wait at their tile, in arrival order (R171, R172). -/
  ringWait : List RingWait
  /-- Dirty data that a TDown or TKill has supplied to a tile controller, by tile and line, until it answers the snoop (R171). -/
  supplied : List (Nat × Nat × LineData)
  atmVals : List AtmVal
  /-- The line data that IOData has brought each I/O agent last (R170). -/
  ioData : List (UnitId × Nat × LineData)
  /-- Seams of which a home agent has refused a request and whose checkstop follows (R262). -/
  isolated : List Nat
  cacheJobs : List CacheJob
  replays : List (Nat × Nat × Nat)
  /-- Main memory: bytes keyed by channel × 2^31 + channel-local address (R278); an unlisted byte reads 0. -/
  mem : List Host.Cell
  poison : Table Bool
  /-- Words of channel memory that read with an uncorrectable error that is no poison mark (R289). -/
  badWords : Table Bool
  remap : Table Remap
  /-- Channels that have lost their devices or failed training (R279, R290). -/
  down : Table Bool
  owners : Table Nat
  grantAt : Nat
  seamCmd : Option SeamCmd
  /-- Checkstops that hardware has raised for the seam of the command in progress: seam and cause (R257). -/
  heldStops : List (Nat × Nat)
  seamPend : Table (List PendInt)
  wus : Table WorkUnit
  nextWork : Nat
  rings : Table Ring
  waiters : Table (List Nat)
  fmnEvents : List FmnEvent
  granCounts : List GranCount
  migrations : List Migration
  missOrder : Table Nat
  missReports : List (Nat × Nat)
  traceSeq : Nat
  traceGap : Nat
  capPowered : Nat
  /-- The core of an FMN_EVICT in progress (R252). -/
  evict : Option Nat
  outbox : List Out
  reports : List Report
  reportsWaiting : List Report
  overflow : Table Nat
  notices : List Notice
  canaries : Table (Option Canary)
  laddersDue : List Canary
  windows : List Window
  tallyBuf : List TallyRec
  tallyStore : Table MramSlot
  tallySeq : Nat
  pcycle : Nat
  opBase : Nat
  opFrom : Nat
  opCommit : Nat
  lostPending : Nat
  backlogSaid : Bool
  exchanges : Table Exchange
  cqPhase : Table Bool
  peers : Table (Option Peer)
  ethQueue : Table (List (Nat × List Byte))
  jslots : Table JEntry
  jdata : Table Byte
  jcount : Nat
  jbad : Table Bool
  commits : List Commit
  targetWrites : List TargetWrite
  restored : Bool
  jcmd : Option (Nat × Nat × Nat)
  images : Table (Option DrainImage)
  draining : Table Bool
  jrecv : List JRecv
  haulers : Table Hauler
  istore : Table Byte
  pit : Table Half
  pitBad : Table Bool
  marchRuns : Table (Option MarchRun)
  loadRuns : Table (Option LoadRun)
  links : Table Link
  couplings : Table Coupling
  complex : Complex
  engines : Table Engine
  drbg : Table (Option Drbg)
  entropy : Entropy
  attLog : Table (List Byte)
  att : Option AttRun
  staging : Table Byte
  active : ActiveCopy
  patches : Table Word
  /-- The cause of a patch load that a core owes (R222), and loads in progress: cause and start. -/
  patchDue : Table Nat
  patchRuns : Table (Option (Nat × Nat))
  mcsRun : Option (Nat × Nat)
  mcsPending : List Nat
  ckwRuns : Table (Option CkwRun)
  trainRuns : Table (Option (Nat × Nat))
  timingOk : Table Bool
  stewards : Table Steward
  cubePend : BitVec 2
  leaseEnd : Nat
  leaseLen : Nat
  power : Power
  tap : Tap
  deriving DecidableEq, Repr

/-- The machine right after reset: the supply has just been accepted and P has ended, so no tile or I/O die is powered (R40),
no steward holds the cube (R431), every register field holds its Reset value (R7), and nothing is stored anywhere. The values
that the spec does not give are those of log entry 2. -/
def State.reset : State :=
  { pending := [], now := 0, free := 0, tbStart := 0, regs := [], units := [], cores := [], caches := [], plru := [], wbq := [],
    dir := [], homeTrans := [], homeQueue := [], dirReserve := [], tileTrans := [], msgs := [], ringWait := [], supplied := [], atmVals := [],
    ioData := [], isolated := [], cacheJobs := [], replays := [],
    mem := [], poison := [], badWords := [], remap := [], down := [], owners := [], grantAt := 0, seamCmd := none, heldStops := [], seamPend := [],
    wus := [], nextWork := 1, rings := [], waiters := [], fmnEvents := [], granCounts := [], migrations := [], missOrder := [], missReports := [],
    traceSeq := 0, traceGap := 0, capPowered := 40, evict := none, outbox := [], reports := [], reportsWaiting := [], overflow := [],
    notices := [], canaries := [], laddersDue := [], windows := [], tallyBuf := [], tallyStore := [], tallySeq := 0,
    pcycle := 1, opBase := 0, opFrom := 0, opCommit := 0, lostPending := 0, backlogSaid := false,
    exchanges := [], cqPhase := [], peers := [], ethQueue := [], jslots := [], jdata := [], jcount := 1, jbad := [], commits := [],
    targetWrites := [], restored := false, jcmd := none, images := [], draining := [], jrecv := [], haulers := [], istore := [],
    pit := [], pitBad := [], marchRuns := [], loadRuns := [], links := [], couplings := [], complex := Complex.reset,
    engines := [], drbg := [], entropy := Entropy.reset, attLog := [], att := none, staging := [],
    active := none, patches := [], patchDue := (List.range 48).map fun k => (k, 1), patchRuns := [], mcsRun := none, mcsPending := [],
    ckwRuns := [], trainRuns := [],
    timingOk := [], stewards := [], cubePend := 0, leaseEnd := 0, leaseLen := 0, power := Power.reset, tap := Tap.reset }

end Sys2Proof.Machine
end

