-- ==== Sys2Proof/Machine/Regs.lean ====
section
/-! DEFINITION. Reading and writing register fields of unit pages and seam pages (R5-R8), and the header state of units. -/

namespace Sys2Proof.Machine

/-- The register table rows of a unit's page from offset 0x080 (node 6, the root, has the rows of R472 besides). -/
def pageRows (u : UnitId) : List Row :=
  match u.type with
  | .module => rows_module | .complex => rows_complex | .tile => rows_tile | .core => rows_core | .lane => []
  | .l3 => rows_l3 | .mcs => rows_mcs | .ring => rows_ring | .foreman => rows_fmn | .iodie => rows_iodie
  | .memch => rows_memch | .home => rows_home | .hauler => rows_hauler | .lanegrp => rows_lanegrp
  | .cplgrp => rows_cplgrp | .jbank => rows_jbank | .crusher => rows_crusher | .cipher => rows_cipher
  | .ctxstore => rows_chs | .drain => rows_drn | .svcdie => rows_svc | .steward => rows_stw | .cube => rows_cube
  | .node => if u.inst = 6 then rows_node ++ rows_root else rows_node
  | .tally => rows_tally | .power => rows_pwr | .entropy => rows_ent | .seamctl => rows_seamctl

/-- Does row `r` hold the register at offset `off`? Then its array index. -/
def Row.indexAt (r : Row) (off : Nat) : Option Nat :=
  if r.count = 1 then (if off = r.field.off then some 0 else none)
  else if off < r.field.off then none
  else if (off - r.field.off) % r.field.stride = 0 ∧ (off - r.field.off) / r.field.stride < r.count then
    some ((off - r.field.off) / r.field.stride)
  else none

/-- The rows of the register at offset `off` of a list of rows. -/
def rowsAt (rows : List Row) (off : Nat) : List Row := rows.filter fun r => (r.indexAt off).isSome

/-- The doubleword that the rows of a register hold after a reset that keeps nothing (R7): their reset values, and the fuse values of
log entry 13. -/
def resetWordOf (rows : List Row) (off : Nat) : Word :=
  (rowsAt rows off).foldl
    (fun w r => match r.kind with
      | .hw => w
      | _ => w.setField r.field.lo r.field.hi r.reset) 0

/-- Is the unit on from reset on: the module and the service die's units (R40), and the coupled complex, which the module presents once
enumeration has made it (R398; log entry 21)? -/
def UnitId.onAtReset (u : UnitId) : Bool := u.type == .module || u.type == .complex || u.within ⟨.svcdie, 0⟩

/-- The reset value of the register at offset `off` of unit `u`. UNIT_POWER of a unit that is on at reset has REQ 0b00 (R40). -/
def resetWord (u : UnitId) (off : Nat) : Word :=
  if off = 0x048 ∧ u.onAtReset then 0
  else if off < 0x80 then resetWordOf rows_hdr off else resetWordOf (pageRows u) off

/-- The key of a register of a unit page in `State.regs`. -/
def pageKey (u : UnitId) (off : Nat) : Nat := u.key * 4096 + off

/-- The key of a register of a seam page (R44, R275). -/
def seamPageKey (n off : Nat) : Nat := (0x10000 * 65536 + n) * 4096 + off

/-- The stored doubleword at an offset of a unit page. -/
def State.word (s : State) (u : UnitId) (off : Nat) : Word := s.regs.look (resetWord u off) (pageKey u off)

/-- Store a doubleword of a unit page. -/
def State.setWord (s : State) (u : UnitId) (off : Nat) (w : Word) : State :=
  { s with regs := s.regs.put (resetWord u off) (pageKey u off) w }

/-- The value of a field of a unit page. -/
def State.rd (s : State) (u : UnitId) (f : Field) : Nat := (s.word u f.off).field f.lo f.hi

/-- Set a field of a unit page, as hardware does. -/
def State.wr (s : State) (u : UnitId) (f : Field) (v : Nat) : State :=
  s.setWord u f.off ((s.word u f.off).setField f.lo f.hi v)

/-- Is a one-bit field 1? -/
def State.flag (s : State) (u : UnitId) (f : Field) : Bool := s.rd u f == 1

/-- Bit `n` of a field, counted from its most significant bit (R4). -/
def State.bitOf (s : State) (u : UnitId) (f : Field) (n : Nat) : Bool := (s.word u f.off).bit (f.lo + n)

/-- Set bit `n` of a field, counted from its most significant bit (R4). -/
def State.setBit (s : State) (u : UnitId) (f : Field) (n : Nat) (b : Bool) : State :=
  s.setWord u f.off ((s.word u f.off).setField (f.lo + n) (f.lo + n) (if b then 1 else 0))

/-- Add to a saturating counter. -/
def State.bump (s : State) (u : UnitId) (f : Field) (n : Nat := 1) : State :=
  s.wr u f (min (s.rd u f + n) (2 ^ (f.hi + 1 - f.lo) - 1))

/-- Add to a counter of which the spec does not say that it saturates: it wraps (log entry 10). -/
def State.count (s : State) (u : UnitId) (f : Field) (n : Nat := 1) : State := s.wr u f (s.rd u f + n)

/-- The value of a field of a seam page. -/
def State.spRd (s : State) (n : Nat) (f : Field) : Nat := (s.regs.look 0 (seamPageKey n f.off)).field f.lo f.hi

/-- Set a field of a seam page. -/
def State.spWr (s : State) (n : Nat) (f : Field) (v : Nat) : State :=
  { s with regs := s.regs.put 0 (seamPageKey n f.off) ((s.regs.look 0 (seamPageKey n f.off)).setField f.lo f.hi v) }

/-! ### Named units -/

abbrev uModule : UnitId := ⟨.module, 0⟩
abbrev uForeman : UnitId := ⟨.foreman, 0⟩
abbrev uSeamCtl : UnitId := ⟨.seamctl, 0⟩
abbrev uSvcDie : UnitId := ⟨.svcdie, 0⟩
abbrev uCube : UnitId := ⟨.cube, 0⟩
abbrev uRoot : UnitId := ⟨.node, 6⟩
abbrev uTally : UnitId := ⟨.tally, 0⟩
abbrev uPower : UnitId := ⟨.power, 0⟩
abbrev uEntropy : UnitId := ⟨.entropy, 0⟩
abbrev uCore (k : Nat) : UnitId := ⟨.core, k⟩
abbrev uTile (t : Nat) : UnitId := ⟨.tile, t⟩
abbrev uL3 (i : Nat) : UnitId := ⟨.l3, i⟩
abbrev uMcs (k : Nat) : UnitId := ⟨.mcs, k⟩
abbrev uHome (c : Nat) : UnitId := ⟨.home, c⟩
abbrev uMem (c : Nat) : UnitId := ⟨.memch, c⟩
abbrev uHauler (h : Nat) : UnitId := ⟨.hauler, h⟩
abbrev uBank (d : Nat) : UnitId := ⟨.jbank, d⟩
abbrev uCtx (d : Nat) : UnitId := ⟨.ctxstore, d⟩
abbrev uDrain (d : Nat) : UnitId := ⟨.drain, d⟩
abbrev uIoDie (d : Nat) : UnitId := ⟨.iodie, d⟩
abbrev uLane (q : Nat) : UnitId := ⟨.lanegrp, q⟩
abbrev uCpl (g : Nat) : UnitId := ⟨.cplgrp, g⟩
/-- The page of the coupled complex (R20, R398). -/
abbrev uComplex : UnitId := ⟨.complex, 0⟩
abbrev uSteward (n : Nat) : UnitId := ⟨.steward, n⟩

/-! ### Unit header state -/

/-- A unit after P: service-die units and the module run, every other unit is off (R40). -/
def UnitDyn.reset (u : UnitId) : UnitDyn :=
  { power := if u.onAtReset then .run else .off, fenced := false, resetting := false,
    resetRoot := false, absorbed := false, last := 1, transition := none, doneAt := 0, live := [], heldReset := false,
    ended := [] }

/-- The header state of a unit. -/
def State.unit (s : State) (u : UnitId) : UnitDyn := s.units.look (UnitDyn.reset u) u.key

/-- Change the header state of a unit. -/
def State.setUnit (s : State) (u : UnitId) (d : UnitDyn) : State :=
  { s with units := s.units.put (UnitDyn.reset u) u.key d }

/-- Is the unit there? The coupled complex is while enumeration has made one (R398). -/
def State.present (s : State) (u : UnitId) : Bool := u.valid && (u.type != .complex || !s.complex.lots.isEmpty)

/-- UNIT_POWER STATE (R34): resetting, then fenced, then the power state. -/
def State.powerCode (s : State) (u : UnitId) : Nat :=
  let d := s.unit u
  if d.resetting then 6 else if d.fenced then 7 else
  match d.power with
  | .run => 0 | .gated => 1 | .off => 2 | .retention => 3

/-- Is the unit, with everything above it, powered, unfenced and not resetting? -/
def State.operates (s : State) (u : UnitId) : Bool :=
  (u :: u.ancestors).all fun a => s.powerCode a == 0 || s.powerCode a == 1 || a.type == .module

/-- Is the unit powered (whatever its fence)? -/
def State.powered (s : State) (u : UnitId) : Bool :=
  (u :: u.ancestors).all fun a => (s.unit a).power != .off

/-- Is the unit, with everything above it, unfenced? -/
def State.unfenced (s : State) (u : UnitId) : Bool := (u :: u.ancestors).all fun a => !(s.unit a).fenced

/-- Does the march engine of die `d` hold an array: kind 0 a pit (hauler `i` of the die), 1 the context store, 2 the journal bank, 3 the
patch memory of core `i` (R375, R376)? -/
def State.marchHolds (s : State) (d kind i : Nat) : Bool :=
  match s.marchRuns.look none d with
  | none => false
  | some r =>
    if r.op = 2 then kind == 0 || kind == 1 || (kind == 2 && !r.skip)
    else r.kind == kind && (kind == 1 || kind == 2 || r.index == i)

/-- The time base (R88); it stands where the reference was lost (R480, R481). -/
def State.timeBase (s : State) : Nat := (match s.power.refLost with | some t => t | none => s.now) - s.tbStart

/-- A core slot. -/
def State.core (s : State) (k : Nat) : CoreSt := s.cores.look CoreSt.reset k

/-- Change a core slot. -/
def State.setCore (s : State) (k : Nat) (c : CoreSt) : State := { s with cores := s.cores.put CoreSt.reset k c }

/-- Is module checkstop in force (R461), or are the fast clocks lost with the reference (R481)? -/
def State.stopped (s : State) : Bool := s.power.checkstop || s.power.refLost.isSome

/-- The level of FAULT_N: pulled low from a module checkstop until the start of the M or P that ends it (R461, R502). -/
def State.faultN (s : State) : Bool := !s.power.checkstop

/-- Apply a change for each element of a list, in order. -/
def State.each {α : Type} (l : List α) (f : α → State → State) (s : State) : State := l.foldl (fun t a => f a t) s

/-- Apply a change if a condition holds. -/
def State.whenDo (c : Bool) (f : State → State) (s : State) : State := if c then f s else s

/-! ### How a command ends -/

/-- What a command answers. -/
abbrev Answer := Host.Outcome State Fault Refusal

/-- The effect of a command on a state: everything but the queue and the clock, which no command changes (log entries 1 and 6). -/
def State.after (s : State) (f : State → State) : State := { f s with pending := s.pending, now := s.now }

/-- A command that always completes, with an effect that the module has even while it has no power (log entry 67). -/
def State.runAlways (s : State) (f : State → State) : Answer := .next (s.after f)

/-- A command that always completes. A module that has no power does nothing (R490; log entry 67). -/
def State.run (s : State) (f : State → State) : Answer := .next (if s.power.mode = .off then s else s.after f)

/-- A command that the spec may mark as one that cannot occur (R172, R175). -/
def State.runAnswer (s : State) (f : State → Answer) : Answer :=
  if s.power.mode = .off then .next s
  else match f s with
    | .next t => .next { t with pending := s.pending, now := s.now }
    | .fault e => .fault e
    | .refused r => .refused r

end Sys2Proof.Machine
end

