-- ==== Sys2Proof/Machine/Faults.lean ====
section
/-! DEFINITION. Sticky causes, fault reports to a node (R16, R29, R450-R455, R507) and events entered in the Tally (R464-R466,
R469, R473). The steps that take reports further (FAULT_REPORT, the ladder) stand in Machine/Ladder.lean. -/

namespace Sys2Proof.Machine

/-- `v` as `n` bytes, the most significant first (R4). -/
def beBytes (n v : Nat) : List Byte := (List.range n).map fun i => BitVec.ofNat 8 (v >>> (8 * (n - 1 - i)))

/-- The number that a list of bytes spells, the most significant first. -/
def beNat (l : List Byte) : Nat := l.foldl (fun a b => a * 256 + b.toNat) 0

/-- A list of bytes cut or filled with zeros to `n` bytes. -/
def padTo (n : Nat) (l : List Byte) : List Byte := (l ++ List.replicate n 0).take n

/-! ### Source indices and classes -/

/-- The RS fields of a unit's page from 0x080 upward, each element of an array on its own, in offset and bit order (R453). -/
def rsFields (u : UnitId) : List Field :=
  let rows := (pageRows u).filter fun r => r.access == .rs
  let all := rows.flatMap fun r => (List.range r.count).map fun i => r.field.ix i
  sortBy (fun a b => a.off < b.off || (a.off == b.off && a.lo ≤ b.lo)) all

/-- The source index of an RS field of a unit (R453); 0 if it is none. -/
def sourceIndex (u : UnitId) (f : Field) : Nat :=
  match (rsFields u).findIdx? fun g => g.off == f.off && g.lo == f.lo with
  | some i => i + 1
  | none => 0

/-- The RS field with a source index (R453). -/
def fieldOfIndex (u : UnitId) (i : Nat) : Option Field := if i = 0 then none else (rsFields u)[i - 1]?

/-- Is the field evidence in the sense of R507? -/
def isEvidence (u : UnitId) (f : Field) : Bool :=
  let is (g : Field) : Bool := g.off == f.off && g.lo == f.lo
  match u.type with
  | .node => is Reg.FLT_ERR.WIRE || is Reg.FLT_ERR.OVERFLOW || is Reg.FLT_ERR.LADDER
      || is Reg.FLT_MCHK.CHECKSTOP || is Reg.FLT_MCHK.NOTICE_LOST
  | .tally => is Reg.TLY_ERR.LOST || is Reg.TLY_ERR.TORN
  | .foreman => is Reg.FMN_ERR.ENV_SHORT || is Reg.FMN_ERR.QUEUE_ERR || is Reg.FMN_ERR.MIG_ABORT
  | .ctxstore => is Reg.CHS_ERR.PEER_LOST
  | .jbank => is Reg.JNL_ERR.BANK_LOST || is Reg.JNL_ERR.HELD_SET
  | .drain => is Reg.DRN_ERR.INCOMPLETE
  | .tile => is Reg.CKW_EXHAUST.EXHAUSTED
  | .core => is Reg.CKW_STAT.WATCH_FAIL || is Reg.CKW_STAT.CKPT_LOST || is Reg.CKW_STAT.SELF_FAIL
  | .home => is Reg.HOME_ERR.PARTNER_LOST
  | .cube => is Reg.CUBE_ERR.EXPIRED
  | .steward => is Reg.STW_ERR.BUS_ERR || is Reg.STW_ERR.POISON
  | .seamctl => is Reg.SEAM_ERR.SEAM_PAGE
  | _ => false

/-- The class of a source (R453, R455): what its chapter or R507 states, else uncorrected-contained. -/
def sourceClass (u : UnitId) (i : Nat) : Nat :=
  if i = 0 ∨ i = 254 then 0
  else if i = 255 then 4
  else match fieldOfIndex u i with
    | none => 2
    | some f =>
      let is (g : Field) : Bool := g.off == f.off && g.lo == f.lo
      match u.type with
      | .core => if is Reg.L1_STATUS.L1D_UNCORR || is Reg.L2_ECC.UNCORR then 1 else 2
      | .l3 => if is Reg.L3_ECC.UNCORR then 1 else 2
      | .mcs => if is Reg.MCS_ECC.PATCH_UNCORR then 0 else 2
      | .memch => if is Reg.MEM_ERR.UNCORR then 1 else if is Reg.MEM_ERR.DOWN then 3 else 2
      | .tally => if is Reg.TLY_ERR.MRAM_FAIL then 3 else 2
      | .cube => if is Reg.CUBE_ERR.LATE then 0 else 2
      | .power => if is Reg.CLK_STAT.REF_LOST then 3 else 0
      | _ => 2

/-! ### Reports on their way to the root -/

/-- Reports in the queue of a node that belong to the classes with held entries, or to the others (R454). -/
def State.nodeCount (s : State) (node : Nat) (severe : Bool) : Nat :=
  (s.reports.filter fun r => r.src.nodeInst == node && (decide (2 ≤ r.cls) == severe)).length

/-- The count field of FLT_COUNT for a class (R471). -/
def countField (cls : Nat) : Field :=
  if cls = 0 then Reg.FLT_COUNT.CORR else if cls = 1 then Reg.FLT_COUNT.DEFER else Reg.FLT_COUNT.UNCORR

/-- A rising fault pair reaches its node, which queues a report to the root, lets a severe one wait, or counts and drops a
corrected or deferred one that finds its 48 entries full (R452, R454). -/
def State.report (s : State) (r : Report) : State :=
  let node := r.src.nodeInst
  let severe := s.nodeCount node true
  let other := s.nodeCount node false
  if 2 ≤ r.cls then
    if severe + other < 64 then { s with reports := s.reports ++ [r] }
    else { s with reportsWaiting := s.reportsWaiting ++ [r] }
  else if other + (severe - 16) < 48 then { s with reports := s.reports ++ [r] }
  else
    let s := (s.bump ⟨.node, node⟩ (countField r.cls)).wr ⟨.node, node⟩ Reg.FLT_ERR.OVERFLOW 1
    { s with overflow := s.overflow.put 0 node (s.overflow.look 0 node + 1) }

/-- Raise a report of source `i` of unit `u`. -/
def State.raise (s : State) (u : UnitId) (i : Nat) (peer : Option UnitId := none) (syndrome : Word := 0)
    (ownFence : Bool := false) : State :=
  s.report { src := u, index := i, cls := sourceClass u i, peer := peer, syndrome := syndrome, time := s.timeBase,
             ownFence := ownFence }

/-- Hardware sets an RS field. Unless the field is evidence (R507), the rising cause is reported (R452). -/
def State.stick (s : State) (u : UnitId) (f : Field) (peer : Option UnitId := none) (syndrome : Word := 0)
    (ownFence : Bool := false) : State :=
  let s' := s.wr u f (2 ^ (f.hi + 1 - f.lo) - 1)
  if isEvidence u f then s' else s'.raise u (sourceIndex u f) peer syndrome ownFence

/-- A corrected event of a unit, source index 254 (R453). -/
def State.corrected (s : State) (u : UnitId) (syndrome : Word := 0) : State := s.raise u 254 none syndrome

/-- An access refused under R28 sets the cause stored in OWN of the unit whose page it names, or of the module page where no unit page is
there, and is reported with source index 0, the offset, and the requester as the peer (R29, R453). -/
def State.accessError (s : State) (u : UnitId) (off : Nat) (who : Option UnitId := none) : State :=
  let v := if s.present u then u else uModule
  (s.wr v Reg.UNIT_STICKY.OWN 1).raise v 0 who (BitVec.ofNat 64 off)

/-! ### Consequential windows (R462) -/

/-- A consequential window opens for a unit, or its open one goes on. -/
def State.openWindow (s : State) (u : UnitId) : State :=
  if s.windows.any fun w => w.src == u then
    { s with windows := s.windows.map fun (w : Window) => if w.src = u then { w with closeAt := none } else w }
  else { s with windows := s.windows ++ [{ src := u, count := 0, closeAt := none }] }

/-- The reset has completed or the fence was lifted: the window closes 10 µs later. -/
def State.endWindow (s : State) (u : UnitId) : State :=
  { s with windows := s.windows.map fun (w : Window) =>
      if w.src = u ∧ w.closeAt.isNone then { w with closeAt := some (s.now + 10000) } else w }

/-! ### The Tally -/

/-- The operating time in units of 2^-16 s (R466). -/
def State.opTime (s : State) : Nat := s.opBase + (s.now - s.opFrom) * 65536 / 1000000000

/-- Append a notice to the root's queue and interrupt the cube holder (R455, R473). -/
def State.notify (s : State) (n : Notice) : State :=
  let s := if s.notices.length < 256 then { s with notices := s.notices ++ [n] }
    else s.wr uRoot Reg.FLT_MCHK.NOTICE_LOST 1
  let h := s.rd uCube Reg.CUBE_STAT.HOLDER
  if h < 2 then { s with outbox := s.outbox ++ [.interrupt h] } else s

/-- Enter one record in the Tally's buffer; a full buffer loses it (R465). -/
def State.tallyPut (s : State) (r : TallyRec) : State :=
  if s.tallyBuf.length < 256 then { s with tallyBuf := s.tallyBuf ++ [r], tallySeq := s.tallySeq + 1 }
  else { (s.wr uTally Reg.TLY_ERR.LOST 1).bump uTally Reg.TLY_COUNT.LOST_N with lostPending := s.lostPending + 1 }

/-- The record of an event now: source, category and detail, FLAGS, seam and payload (R464, R465). -/
def State.recordOf (s : State) (src : Option UnitId) (cat det flags seam : Nat) (payload : List Byte) : TallyRec :=
  { seq := s.tallySeq, pcycle := s.pcycle, time := s.opTime,
    srcType := match src with | some u => u.type.code | none => 0,
    srcInst := match src with | some u => u.inst | none => 0,
    event := cat * 256 + det, flags := flags, seam := seam, payload := padTo 32 payload }

/-- When NEXT − READ has risen to WARN, the Tally writes a backlog record and the root places a notice (R473). -/
def State.backlog (s : State) : State :=
  let warn := s.rd uTally Reg.TLY_CFG.WARN
  let read := s.rd uTally Reg.TLY_READ.READ
  if warn ≠ 0 ∧ warn ≤ s.tallySeq - read then
    if s.backlogSaid then s
    else
      let seq := s.tallySeq
      let t := s.tallyPut (s.recordOf (some uTally) 0x0F 0x04 0xE0 0xFF
        (List.replicate 8 0 ++ beBytes 8 s.tallySeq ++ beBytes 8 read))
      { t.notify { cls := 0, slot := 0xFF, type := 0x0034, inst := 0, index := 254, seam := 0xFF, seq := seq }
        with backlogSaid := true }
  else { s with backlogSaid := false }

/-- An event enters the Tally (R465). `cls` is the class of a fault, or 7 for an event that is not a fault (R464 FLAGS). -/
def State.tallyEvent (s : State) (src : Option UnitId) (cat det : Nat) (cls : Nat := 7) (seam : Nat := 0xFF)
    (payload : List Byte := []) (conseq steward : Bool := false) : State :=
  let flags := cls * 32 + (if conseq then 16 else 0) + (if steward then 8 else 0)
  (s.tallyPut (s.recordOf src cat det flags seam payload)).backlog

/-- A payload whose byte 0 is `code` and whose contents follow from byte 8 (R469). -/
def payload8 (code : Nat) (l : List Byte) : List Byte := beBytes 1 code ++ List.replicate 7 0 ++ l

end Sys2Proof.Machine
end

