-- ==== Sys2Proof/Machine/Guard.lean ====
section
/-! DEFINITION. Access to the pages of the control window (R28-R33, R430, R433): the fence of the cube, the access checks, and what a
refused access leaves. -/

namespace Sys2Proof.Machine

/-- What the checks on an access answer. -/
inductive Verdict where
  /-- The access is performed. -/
  | pass
  /-- The fence rejects a write silently (R32, R433). -/
  | rejected
  /-- The access gets an error response (R28). -/
  | error
  deriving DecidableEq, Repr

/-- One free slot is taken for each unit in turn, the one that a number counts among those left. -/
def takeSlots : List UnitId → List Nat → List (UnitId × Nat)
  | [], _ => []
  | u :: us, free =>
    let i := Config.slotOf u.type.code u.inst % free.length
    (u, free.getD i 0) :: takeSlots us (free.eraseIdx i)

/-- The page slots of the units (R13, R26): the module page in slot 0, every other page in a slot of its own among 1 to 4,095. Which is
open (log entry 4). -/
def pageSlots : List (UnitId × Nat) :=
  (uModule, 0) :: takeSlots (uComplex :: (UnitId.allUnits.filter fun u => u != uModule)) ((List.range 4095).map (· + 1))

/-- The page slot of a unit (R13, R26). -/
def slotNumber (u : UnitId) : Nat := if u.type = .module then 0 else match pageSlots.find? fun e => e.1 == u with
  | some e => e.2
  | none => 0

/-- The unit whose page is in a slot; none for an unoccupied one (R26). -/
def State.unitInSlot (s : State) (slot : Nat) : Option UnitId :=
  match pageSlots.find? fun e => e.2 == slot && s.present e.1 with
  | some e => some e.1
  | none => none

/-- The module physical address of a doubleword of a unit page (R26). -/
def pageAddr (u : UnitId) (off : Nat) : Nat := 0xF00000000000 + slotNumber u * 4096 + off

/-- The steward that holds the cube, if one does. -/
def State.holder (s : State) : Option Nat :=
  let h := s.rd uCube Reg.CUBE_STAT.HOLDER
  if h < 2 then some h else none

/-- May the sender write this doubleword (R433, R400)? UNIT_OWNER is refused to cores and haulers, and to a steward that does not hold the
cube in its own page too (R19; log entry 102). -/
def State.fencePasses (s : State) (sender : Sender) (u : UnitId) (off : Nat) : Bool :=
  match sender with
  | .steward n => s.holder == some n.val || (u == uCube && off == 0x098) || (u == uSteward n.val && off != 0x050)
  | .core _ | .hauler _ => s.holder.isSome && s.flag uCube Reg.CUBE_CFG.SEAM0_WR && off != 0x050
  | .remote holds => holds && s.flag uModule Reg.CPL_CX.REMOTE_WR

/-- A write that the fence rejects is counted for a steward (R433). -/
def State.countRejected (s : State) (sender : Sender) : State :=
  match sender with
  | .steward n => s.bump uCube (if n.val = 0 then Reg.CUBE_REJ.REJ0 else Reg.CUBE_REJ.REJ1)
  | _ => s

/-- Where the child list of a unit may lie in its page (R34): multiples of 8 from 0x080 that leave it clear of every register. -/
def childListPlaces (u : UnitId) : List Nat :=
  ((List.range 512).map (· * 8)).filter fun o =>
    decide (0x80 ≤ o) && decide (o + 8 * u.children.length ≤ 4096)
      && (List.range u.children.length).all fun i => (rowsAt (pageRows u) (o + 8 * i)).isEmpty

/-- The offset of the child list (R34 LIST), one of these places (log entry 4). -/
def childListAt (u : UnitId) : Nat :=
  let l := childListPlaces u
  l.getD (Config.childList u.type.code % l.length) 0x80

/-- Reserved offsets of the module page that read 0 with no error response (R190). -/
def reservedQuiet (u : UnitId) (off : Nat) : Bool :=
  u.type == .module && ((decide (0x208 ≤ off) && decide (off < 0x240)) || (decide (0x5F8 ≤ off) && decide (off < 0x600)))

/-- Does the page map of the unit define this offset (R28, R38)? The header is defined throughout (R30, R34). -/
def pageDefines (u : UnitId) (off : Nat) : Bool :=
  decide (off < 0x80) || !(rowsAt (pageRows u) off).isEmpty || reservedQuiet u off
    || (!u.children.isEmpty && decide (childListAt u ≤ off) && decide (off < childListAt u + 8 * u.children.length))
    || (u.type == .complex && decide (0x100 ≤ off) && decide (off < 0x120))

/-- The unit that stands for a sender in the report of an access error (R29). A coupled module is named by the complex page. -/
def Sender.unit : Sender → UnitId
  | .steward n => uSteward n.val
  | .core k => uCore k.val
  | .hauler h => uHauler h.val
  | .remote _ => uComplex

/-- A bus error of a steward (R430): the address is captured and the firmware receives the exception. -/
def State.busError (s : State) (n addr : Nat) (poison : Bool := false) : State :=
  let s := s.wr (uSteward n) (if poison then Reg.STW_ERR.POISON else Reg.STW_ERR.BUS_ERR) 1
  let s := s.wr (uSteward n) Reg.STW_BUSADDR.ADDR addr
  let t := s.stewards.look Steward.reset n
  { s with stewards := s.stewards.put Steward.reset n { t with lastRead := 0xFFFFFFFFFFFFFFFF#64, busError := true },
           outbox := s.outbox ++ [.busError n addr] }

/-- An error response reaches the sender: a steward takes a bus error (R28, R430). -/
def State.errorTo (s : State) (sender : Sender) (addr : Nat) : State :=
  match sender with
  | .steward n => s.busError n.val addr
  | _ => s

/-- An access error at a unit page (R29), and its response. -/
def State.pageError (s : State) (sender : Sender) (u : UnitId) (off : Nat) : State :=
  (s.accessError u off (some sender.unit)).errorTo sender (pageAddr u off)

/-- The checks on an aligned doubleword write of a unit page: the fence first, then R28. -/
def State.guardWrite (s : State) (sender : Sender) (u : UnitId) (off : Nat) : State × Verdict :=
  if !s.fencePasses sender u off then (s.countRejected sender, .rejected)
  else if !s.present u ∨ 4096 ≤ off ∨ off % 8 ≠ 0 ∨ !pageDefines u off then (s.pageError sender u off, .error)
  else if 0x80 ≤ off ∧ (s.powerCode u = 2 ∨ s.powerCode u = 7 ∨ s.powerCode u = 6) then (s.pageError sender u off, .error)
  else (s, .pass)

/-- A command written in a register: performed if the write passes its checks. -/
def State.command (s : State) (sender : Sender) (u : UnitId) (off : Nat) (act : State → State) : State :=
  match s.guardWrite sender u off with
  | (s, .pass) => act s
  | (s, _) => s

/-- Does UNIT_CFGLOCK of the unit lock its RWL fields (R5)? -/
def State.locked (s : State) (u : UnitId) : Bool := s.flag u Reg.UNIT_CFGLOCK.LOCK

/-- Set an RWL field, unless the unit is locked. -/
def State.wrl (s : State) (u : UnitId) (f : Field) (v : Nat) : State := if s.locked u then s else s.wr u f v

/-- The fields of one register after a write (R5): RW fields, RWL fields unless locked, and W1C fields, whose ones clear. RO, RS and WO
fields do not change. -/
def writtenWord (rows : List Row) (off : Nat) (locked : Bool) (old v : Word) : Word :=
  (rowsAt rows off).foldl (fun w r =>
    let x := v.field r.field.lo r.field.hi
    match r.access with
    | .rw => w.setField r.field.lo r.field.hi x
    | .rwl => if locked then w else w.setField r.field.lo r.field.hi x
    | .w1c => w &&& ~~~(Word.setField 0 r.field.lo r.field.hi x)
    | _ => w) old

/-- A write of a doubleword takes effect as the access codes of its fields direct (R5). -/
def State.writeFields (s : State) (u : UnitId) (off : Nat) (v : Word) : State :=
  s.setWord u off (writtenWord (if off < 0x80 then rows_hdr else pageRows u) off (s.locked u) (s.word u off) v)

end Sys2Proof.Machine
end

