-- ==== Sys2Proof/Machine/Mem.lean ====
section
/-! DEFINITION. Main memory: homes of granules (R278-R283), mirrored pairs (R286-R288), lines with poison marks (R289), and
the canonical form of memory. -/

namespace Sys2Proof.Machine

/-- What a byte of main memory that nothing has written reads as: TRAIN fills a channel with zeros before it serves an access
(R295; log entry 3). -/
def memDefault : Byte := 0

/-- The canonical form of memory: addresses strictly rise, and no entry equals what an unlisted address reads as. -/
def Memory.wf (m : List Host.Cell) : Bool := Table.wf (fun _ => memDefault) m

/-- A byte of channel memory, by its key channel × 2^31 + channel-local address. -/
def State.byteAt (s : State) (key : Nat) : Byte := Table.look memDefault s.mem key

/-- Store a byte of channel memory. -/
def State.putByte (s : State) (key : Nat) (b : Byte) : State := { s with mem := Table.put memDefault s.mem key b }

/-! ### Bytes of a line -/

/-- Byte `i` of a line, byte 0 first (R4). -/
def lineByte (d : BitVec 1024) (i : Nat) : Byte := (d >>> (8 * (127 - i))).setWidth 8

/-- The bytes of a line. -/
def lineBytes (d : BitVec 1024) : List Byte := (List.range 128).map (lineByte d)

/-- The line that 128 bytes spell. -/
def lineOfBytes (l : List Byte) : BitVec 1024 := BitVec.ofNat 1024 (beNat (padTo 128 l))

/-- Is byte `i` selected by a byte mask? Bit 0 of the mask, its most significant, is byte 0. -/
def maskBit (m : BitVec 128) (i : Nat) : Bool := m.getLsbD (127 - i)

/-- The byte mask of `n` bytes from offset `off` of a line. -/
def maskRange (off n : Nat) : BitVec 128 :=
  BitVec.ofNat 128 ((2 ^ n - 1) <<< (128 - off - n))

/-- A byte mask spread over the bits of a line. -/
def maskBits (m : BitVec 128) : BitVec 1024 :=
  (List.range 128).foldl (fun a i => if maskBit m i then a ||| (0xFF#1024 <<< (8 * (127 - i))) else a) 0

/-- The poison marks of the words of which the mask selects all eight bytes, and of those of which it selects some (R289). -/
def maskWords (m : BitVec 128) (all : Bool) : BitVec 16 :=
  (List.range 16).foldl (fun a w =>
    let bits := (List.range 8).map fun j => maskBit m (8 * w + j)
    if (if all then bits.all id else bits.any id) then a ||| (1#16 <<< (15 - w)) else a) 0

/-- A line with the masked bytes replaced. A word written in part stays poisoned; a word written whole takes the mark that
comes with the data (R289). -/
def mergeLine (old : LineData) (m : BitVec 128) (new : BitVec 1024) (poison : BitVec 16 := 0) : LineData :=
  { data := (old.data &&& ~~~(maskBits m)) ||| (new &&& maskBits m),
    poison := (old.poison &&& ~~~(maskWords m true)) ||| (poison &&& maskWords m false) }

/-- Is any word that holds a byte of `off … off+n-1` poisoned? -/
def LineData.poisoned (l : LineData) (off n : Nat) : Bool := (l.poison &&& maskWords (maskRange off n) false) != 0

/-- A line of zeros. -/
def LineData.zero : LineData := ⟨0, 0⟩

/-! ### Homes -/

/-- Granules of 64 KiB that a channel's devices hold (R278). -/
def State.capacity (s : State) (c : Nat) : Nat :=
  let dv := s.rd (uMem c) Reg.MEM_CFG.DEVICES
  let dn := s.rd (uMem c) Reg.MEM_CFG.DENSITY
  if (dv = 1 ∨ dv = 2 ∨ dv = 4) ∧ dn < 3 then dv * 2048 * 2 ^ dn else 0

/-- Is mirroring on (R286)? All channels hold the same MIRROR; the first is read. -/
def State.mirrored (s : State) : Bool := s.flag (uMem 0) Reg.MEM_CFG.MIRROR

/-- Guest slots of a channel (R281): none with mirroring, at most 2,048. -/
def State.guests (s : State) (c : Nat) : Nat :=
  if s.mirrored then 0 else min (s.rd (uMem c) Reg.MEM_CFG.GUEST) 2048

/-- Does the channel serve accesses: trained and not down, powered and not fenced, and its home agent too (R279, R290, R295)? -/
def State.serves (s : State) (c : Nat) : Bool :=
  s.flag (uMem c) Reg.MEM_TRAIN.TRAINED && !s.down.look false c && s.powered (uMem c) && s.unfenced (uMem c)
    && s.powered (uHome c) && s.unfenced (uHome c)

/-- The default channel and local slot of a module granule (R280); with mirroring the default primary. -/
def State.defaultHome (s : State) (g : Nat) : Nat × Nat :=
  if s.mirrored then
    (if (g / 8) % 2 = 0 then g % 8 else g % 8 + 8, g / 8)
  else (g % 16, g / 16)

/-- The remap entry that names granule `g` (R283), with its channel. -/
def State.remapOf (s : State) (g : Nat) (flip : Bool) : Option (Nat × Remap) :=
  (s.remap.find? fun e => e.2.v && e.2.flip == flip && e.2.gran == g).map fun e => (e.1 / 2048, e.2)

/-- The home of a module granule: channel, local slot, and with mirroring the partner channel. -/
structure Home where
  ch : Nat
  slot : Nat
  partner : Option Nat
  deriving DecidableEq, Repr

/-- The other channel of a mirrored pair (R286). -/
def partnerOf (c : Nat) : Nat := if c < 8 then c + 8 else c - 8

/-- The home of a module granule, if it is mapped (R25, R279-R283, R288). -/
def State.homeOf (s : State) (g : Nat) : Option Home :=
  if s.mirrored then
    if 8 * s.capacity 0 ≤ g then none
    else
      let d := s.defaultHome g
      let prim := if (s.remapOf g true).isSome then partnerOf d.1 else d.1
      let other := partnerOf prim
      if s.serves prim then some ⟨prim, d.2, if s.serves other then some other else none⟩
      else if s.serves other then some ⟨other, d.2, none⟩
      else none
  else if 16 * (s.capacity 0 - s.guests 0) ≤ g then none
  else
    let d := s.defaultHome g
    if !s.serves d.1 then none
    else match s.remapOf g false with
      | some (c, e) => if s.serves c then some ⟨c, e.slot, none⟩ else none
      | none => some ⟨d.1, d.2, none⟩

/-- Does a granule lie on channel `c`, whether or not the channel serves now (R280, R283, R286)? -/
def State.placedOn (s : State) (g c : Nat) : Bool :=
  if s.mirrored then g % 8 == c % 8
  else match s.remapOf g false with
    | some e => e.1 == c
    | none => g % 16 == c

/-- The channel whose directory records a line that `home` orders: with mirroring that of the primary, which its partner holds too
and goes on with when the primary no longer serves (R23, R286). -/
def State.dirSide (s : State) (home line : Nat) : Nat :=
  if s.mirrored then
    let d := (s.defaultHome (line / 512)).1
    if (s.remapOf (line / 512) true).isSome then partnerOf d else d
  else home

/-- The home of a line, by its line number (module physical address / 128). -/
def State.homeOfLine (s : State) (line : Nat) : Option Home := s.homeOf (line / 512)

/-- The key of the first byte of a line in its channel. -/
def Home.lineKey (h : Home) (ch line : Nat) : Nat := ch * 2 ^ 31 + h.slot * 65536 + (line % 512) * 128

/-! ### Lines of memory -/

/-- A mark on some of the sixteen words of the line at a key. -/
def wordMarks (m : Table Bool) (key : Nat) : BitVec 16 :=
  (List.range 16).foldl (fun a w => if m.look false (key / 8 + w) then a ||| (1#16 <<< (15 - w)) else a) 0

/-- The line stored at a key of channel memory, with the words that it delivers poisoned (R289). -/
def State.lineAt (s : State) (key : Nat) : LineData :=
  { data := lineOfBytes ((List.range 128).map fun i => s.byteAt (key + i)),
    poison := wordMarks s.poison key ||| wordMarks s.badWords key }

/-- Store a line at a key of channel memory under a byte mask (R289): a word written in part keeps the mark of what it merges with, and
every word written has valid check bits or the poison mark. -/
def State.putLineAt (s : State) (key : Nat) (m : BitVec 128) (d : LineData) : State :=
  let merged := mergeLine (s.lineAt key) m d.data d.poison
  let s := State.each (List.range 128)
    (fun i t => if maskBit m i then t.putByte (key + i) (lineByte d.data i) else t) s
  State.each ((List.range 16).filter fun w => (maskWords m false).getLsbD (15 - w))
    (fun w t => { t with poison := t.poison.put false (key / 8 + w) (merged.poison.getLsbD (15 - w)),
                         badWords := t.badWords.put false (key / 8 + w) false }) s

/-- The memory copy of a line; none where the address is unmapped. With mirroring an uncorrectable word of the primary takes
the partner's data (R287). -/
def State.memLine (s : State) (line : Nat) : Option LineData :=
  match s.homeOfLine line with
  | none => none
  | some h => some (s.lineAt (h.lineKey h.ch line))

/-- How many of sixteen words are marked. -/
def markCount (m : BitVec 16) : Nat := ((List.range 16).filter fun i => m.getLsbD i).length

/-- Copy marked words of one line of channel memory over another's. -/
def State.copyWords (s : State) (src dst : Nat) (words : BitVec 16) : State :=
  State.each ((List.range 16).filter fun w => words.getLsbD (15 - w)) (fun w s =>
    let s := State.each (List.range 8) (fun i s => s.putByte (dst + 8 * w + i) (s.byteAt (src + 8 * w + i))) s
    { s with poison := s.poison.put false (dst / 8 + w) (s.poison.look false (src / 8 + w)),
             badWords := s.badWords.put false (dst / 8 + w) false }) s

/-- What the channel does when it reads a line (R287, R289): poison marks are counted; an uncorrectable word is counted and repaired from
the partner of a mirrored pair, or recorded and reported. `local_` is the channel-local line index. -/
def State.channelReads (s : State) (ch partner local_ : Nat) (hasPartner : Bool) : State :=
  let key := ch * 2 ^ 31 + local_ * 128
  let marks := wordMarks s.poison key
  let bad := wordMarks s.badWords key &&& ~~~marks
  let s := if marks = 0 then s else s.bump (uMem ch) Reg.MEM_ECC.POISON_RD (markCount marks)
  if bad = 0 then s
  else
    let other := partner * 2 ^ 31 + local_ * 128
    let fixed := if hasPartner then bad &&& ~~~(wordMarks s.badWords other) else 0
    let lost := bad &&& ~~~fixed
    let s := s.bump (uMem ch) Reg.MEM_ECC.UNCORR_RD (markCount bad)
    let s := if fixed = 0 then s else (s.copyWords other key fixed).corrected (uMem ch) (BitVec.ofNat 64 local_)
    if lost = 0 then s
    else
      let s := s.wr (uMem ch) Reg.MEM_ERRADDR.LINE local_
      let s := s.stick (uMem ch) Reg.MEM_ERR.UNCORR none (BitVec.ofNat 64 local_)
      s.tallyEvent (some (uMem ch)) 0x07 0x01 7 0xFF (payload8 0 (beBytes 8 local_))

/-- The channel-local line index of a line at its home. -/
def Home.local_ (h : Home) (line : Nat) : Nat := h.slot * 512 + line % 512

/-- A read of a line's memory copy by its home agent leaves its marks at the channel (R287, R289). -/
def State.memTouch (s : State) (line : Nat) : State :=
  match s.homeOfLine line with
  | none => s
  | some h => s.channelReads h.ch (partnerOf h.ch) (h.local_ line) h.partner.isSome

/-- Write a line to memory under a mask, in both channels of a mirrored pair (R287). An unmapped line is left alone. -/
def State.putMemLine (s : State) (line : Nat) (m : BitVec 128) (d : LineData) : State :=
  match s.homeOfLine line with
  | none => s
  | some h =>
    let s := s.putLineAt (h.lineKey h.ch line) m d
    match h.partner with
    | some p => s.putLineAt (h.lineKey p line) m d
    | none => s

/-- The mask that selects a whole line. -/
def maskAll : BitVec 128 := BitVec.allOnes 128

/-! ### Granule owners -/

/-- The owner byte of a module granule: 0x00 below SEAM_RSV, else what GRANT gave it, else free (0x80) (R262, R508). -/
def State.ownerOf (s : State) (g : Nat) : Nat :=
  if g < s.rd uSeamCtl Reg.SEAM_RSV.SEAM_RSV then 0 else s.owners.look 0x80 g

/-- Does a home agent perform a request of seam `n` for this line (R262)? -/
def State.ownerAllows (s : State) (n line : Nat) : Bool := n == 0 || s.ownerOf (line / 512) == n

end Sys2Proof.Machine
end

