-- ==== Sys2Proof/Machine/Caches.lean ====
section
/-! DEFINITION. The caches of a tile and the home directory: lookup, replacement, eviction and offers, fills, and messages on their way into
the Shaft (R139-R145, R168, R178, R185-R187). The protocol stands in Machine/Protocol.lean, the accesses in Machine/Runs.lean. -/

namespace Sys2Proof.Machine

/-! ### Geometry (R139, R140) -/

/-- One number for a cache. -/
def CacheId.num : CacheId → Nat
  | .l1i k => k | .l1d k => 64 + k | .l2 k => 128 + k | .l3 i => 192 + i | .l1e k => 512 + k | .l2e k => 576 + k

/-- The cache with a number of `CacheId.num`. -/
def cacheOfNum (n : Nat) : CacheId :=
  if n < 64 then .l1i n else if n < 128 then .l1d (n - 64) else if n < 192 then .l2 (n - 128) else if n < 512 then .l3 (n - 192)
  else if n < 576 then .l1e (n - 512) else .l2e (n - 576)

/-- The ways of a set; the entries of an eviction buffer (R139, R143). -/
def CacheId.ways : CacheId → Nat
  | .l1i _ | .l1d _ | .l1e _ => 8 | .l2 _ | .l3 _ | .l2e _ => 16

/-- The tile of a cache. -/
def CacheId.tile : CacheId → Nat
  | .l1i k | .l1d k | .l2 k | .l1e k | .l2e k => k / 12 | .l3 i => i / 8

/-- The set of a line (R140); `line` is the module physical address divided by 128. An eviction buffer has one set. -/
def CacheId.setOf (c : CacheId) (line : Nat) : Nat :=
  match c with
  | .l1i _ | .l1d _ => line % 128 | .l2 _ => line % 4096 | .l3 _ => line / 8 % 8192 | .l1e _ | .l2e _ => 0

/-- The L3 slice of a line within a tile (R140). -/
def sliceOf (line : Nat) : Nat := (line % 8) ^^^ (line / 65536 % 8)

/-- The L3 slice of tile `t` that orders a line (R171). -/
def sliceId (t line : Nat) : CacheId := .l3 (8 * t + sliceOf line)

/-- The L2s of a tile. -/
def tileL2s (t : Nat) : List CacheId := (List.range 12).map fun j => .l2 (12 * t + j)

/-- The eviction buffers of the L2s of a tile. -/
def tileBuffers (t : Nat) : List CacheId := (List.range 12).map fun j => .l2e (12 * t + j)

/-- The caches of tile `t` that may hold a line at tile level: its L2s, the line's slice, and the eviction buffers of the L2s (R168, R171).
-/
def tileCaches (t line : Nat) : List CacheId := tileL2s t ++ [sliceId t line] ++ tileBuffers t

/-! ### Ways -/

def wayKey (c : CacheId) (set w : Nat) : Nat := (c.num * 8192 + set) * 16 + w

def State.way (s : State) (c : CacheId) (set w : Nat) : CLine := s.caches.look CLine.empty (wayKey c set w)

def State.setWay (s : State) (c : CacheId) (set w : Nat) (l : CLine) : State :=
  { s with caches := s.caches.put CLine.empty (wayKey c set w) l }

/-- The way of a cache that holds a line. -/
def State.findWay (s : State) (c : CacheId) (line : Nat) : Option Nat :=
  (List.range c.ways).find? fun w => let l := s.way c (c.setOf line) w; l.st != .i && l.line == line

/-- The line as a cache holds it. -/
def State.peek (s : State) (c : CacheId) (line : Nat) : Option CLine :=
  (s.findWay c line).map fun w => s.way c (c.setOf line) w

/-- Change a line that a cache holds; a cache that does not hold it stays as it is. -/
def State.alter (s : State) (c : CacheId) (line : Nat) (f : CLine → CLine) : State :=
  match s.findWay c line with
  | some w => s.setWay c (c.setOf line) w (f (s.way c (c.setOf line) w))
  | none => s

/-- Remove a line from a cache. -/
def State.drop (s : State) (c : CacheId) (line : Nat) : State := s.alter c line fun _ => CLine.empty

/-- Is way `w` of an L2 or a slice locked (R150)? -/
def State.wayLocked (s : State) (c : CacheId) (w : Nat) : Bool :=
  match c with
  | .l2 k => decide (8 ≤ w) && s.bitOf (uCore k) Reg.L2_LOCK.LOCKED (w - 8)
  | .l3 i => decide (8 ≤ w) && s.bitOf (uL3 i) Reg.L3_LOCK.LOCKED (w - 8)
  | _ => false

/-- The owner byte of way `w` of a slice (R166). -/
def State.wayOwner (s : State) (i w : Nat) : Nat :=
  let reg := if w < 8 then Reg.L3_WAYOWN0.WAYOWN0 else Reg.L3_WAYOWN1.WAYOWN1
  (s.word (uL3 i) reg.off).field (8 * (w % 8)) (8 * (w % 8) + 7)

/-- The rule of R152 for way owners given as a function: a seam with ways of its own fills only those, another only shared
ones. -/
def ownerRule (owner : Nat → Nat) (ways seam w : Nat) : Bool :=
  if (List.range ways).any fun v => owner v == seam then owner w == seam else owner w == 0xFF

/-- Does a preload in progress fill way `w` (R151)? -/
def State.wayLoading (s : State) (c : CacheId) (w : Nat) : Bool :=
  s.cacheJobs.any fun j => match j with
    | .preload d _ _ ways => d == c && decide (8 ≤ w) && ways.getLsbD (7 - (w - 8))
    | .flush .. => false

/-- Is a fill of way `w` of a set in flight (R142)? -/
def State.wayHeld (s : State) (c : CacheId) (set w : Nat) : Bool :=
  s.tileTrans.any fun x => x.way == some w && c == CacheId.l2 x.core && c.setOf x.line == set

/-- The entries of an L2's eviction buffer in use (R143): the line that waits to go on, and the lines sent away. -/
def State.bufferUse (s : State) (k : Nat) : Nat :=
  ((List.range 16).filter fun w => (s.way (.l2e k) 0 w).st != .i).length + (s.wbq.filter fun e => e.core == some k).length

/-- Open transactions of a tile controller (R167). -/
def State.openCount (s : State) (t : Nat) : Nat := (s.tileTrans.filter fun x => x.tile == t).length

/-- May a line of a seam fill way `w` (R142, R151)? -/
def State.wayEligible (s : State) (c : CacheId) (seam w : Nat) : Bool :=
  !s.wayLocked c w && !s.wayLoading c w &&
    match c with
    | .l3 i => ownerRule (s.wayOwner i) 16 seam w
    | _ => true

/-! ### Pseudo-LRU (R142) -/

/-- Walk the tree from `node`, whose ways are `lo … lo+size-1`: follow the bit unless that half holds no eligible way. -/
def plruWalk (bits : Nat) (elig : Nat → Bool) : Nat → Nat → Nat → Nat → Nat
  | 0, _, lo, _ => lo
  | fuel + 1, node, lo, size =>
    let half := size / 2
    let left := (List.range half).any fun i => elig (lo + i)
    let right := (List.range half).any fun i => elig (lo + half + i)
    let goRight := if bits.testBit node then right else !left
    if goRight then plruWalk bits elig fuel (2 * node + 1) (lo + half) half
    else plruWalk bits elig fuel (2 * node) lo half

/-- Set every bit on the path to way `w` to point away from it, or toward it. -/
def plruMark (away : Bool) (w : Nat) : Nat → Nat → Nat → Nat → Nat → Nat
  | 0, _, _, _, bits => bits
  | fuel + 1, node, lo, size, bits =>
    let half := size / 2
    let inRight := decide (lo + half ≤ w)
    let b := if away then !inRight else inRight
    let bits' := if b then bits ||| 2 ^ node else bits &&& (2 ^ 16 - 1 - 2 ^ node)
    plruMark away w fuel (if inRight then 2 * node + 1 else 2 * node) (if inRight then lo + half else lo) half bits'

/-- Depth of the tree of a set with `ways` ways. -/
def plruDepth (ways : Nat) : Nat := if ways = 8 then 3 else 4

def plruKey (num set : Nat) : Nat := num * 32768 + set

/-- A hit or a fill of way `w` marks its path (R142). -/
def State.touch (s : State) (num set ways w : Nat) (away : Bool := true) : State :=
  let key := plruKey num set
  { s with plru := s.plru.put 0 key (plruMark away w (plruDepth ways) 1 0 ways (s.plru.look 0 key)) }

/-- The way that a fill takes: the lowest-numbered empty eligible one, else the tree's victim; none if no way is eligible. -/
def State.victimWay (s : State) (num set ways : Nat) (empty elig : Nat → Bool) : Option Nat :=
  match (List.range ways).find? fun w => elig w && empty w with
  | some w => some w
  | none => if (List.range ways).any elig then
      some (plruWalk (s.plru.look 0 (plruKey num set)) elig (plruDepth ways) 1 0 ways) else none

/-- Is an ownership transaction of a tile open for a line of which it holds a copy (R172)? -/
def State.upgrading (s : State) (t line : Nat) : Bool :=
  s.tileTrans.any fun x => x.tile == t && x.line == line && (x.tx == .sm || x.tx == .om)

/-- Is a state dirty? -/
def CState.dirty : CState → Bool
  | .m | .o => true | _ => false

/-- May what a way holds leave it now: its line has no open transaction (R172), the tile controller has room for the notice of its departure
(R167), and a dirty line of an L2 finds room in the eviction buffer (R143)? -/
def State.mayLeave (s : State) (c : CacheId) (l : CLine) : Bool :=
  l.st == .i || (!s.upgrading c.tile l.line &&
    match c with
    | .l2 k => decide (s.openCount (k / 12) < 255) && (!l.st.dirty || decide (s.bufferUse k < 16))
    | .l3 i => decide (s.openCount (i / 8) < 255)
    | _ => true)

/-- The victim way of a cache for a line of a seam (R142). -/
def State.cacheVictim (s : State) (c : CacheId) (line seam : Nat) : Option Nat :=
  let set := c.setOf line
  s.victimWay c.num set c.ways (fun w => (s.way c set w).st == .i)
    (fun w => s.wayEligible c seam w && !s.wayHeld c set w && s.mayLeave c (s.way c set w))

/-- A cache hit marks the path of its way. -/
def State.hit (s : State) (c : CacheId) (line : Nat) : State :=
  match s.findWay c line with
  | some w => s.touch c.num (c.setOf line) c.ways w
  | none => s

/-! ### Tile level (R168) -/

/-- The order M, O, E, S, I of R168. -/
def CState.rank : CState → Nat
  | .m => 4 | .o => 3 | .e => 2 | .s => 1 | .i => 0

/-- The highest state that a tile holds for a line in its caches. -/
def State.tileState (s : State) (t line : Nat) : CState :=
  (tileCaches t line).foldl (fun a c => match s.peek c line with
    | some l => if a.rank < l.st.rank then l.st else a
    | none => a) .i

/-- The copy of the tile with the highest state, with its cache. -/
def State.tileCopy (s : State) (t line : Nat) : Option (CacheId × CLine) :=
  bestBy (fun a b => b.2.st.rank < a.2.st.rank)
    ((tileCaches t line).filterMap fun c => (s.peek c line).map fun l => (c, l))

/-- Remove a line from the L1s of a core and from the buffer of its L1D. Their dirty data are in the L2, into which every store is written
(R129). -/
def State.dropL1 (s : State) (k line : Nat) : State := ((s.drop (.l1i k) line).drop (.l1d k) line).drop (.l1e k) line

/-- The L1D copy of a line is no longer dirty, and its buffer holds it no more. -/
def State.cleanL1 (s : State) (k line : Nat) : State := (s.alter (.l1d k) line fun l => { l with st := .s }).drop (.l1e k) line

/-- Remove a line from an L2 and, by inclusion, from the L1s of its core (R141); from a slice or a buffer alone. -/
def State.dropLevel (s : State) (c : CacheId) (line : Nat) : State :=
  match c with
  | .l2 k => (s.dropL1 k line).drop c line
  | _ => s.drop c line

/-- Count a locked line that a coherence action removes (R161). -/
def State.lockLost (s : State) (c : CacheId) (line : Nat) : State :=
  match s.findWay c line with
  | some w =>
    if s.wayLocked c w then
      match c with
      | .l2 k => (s.stick (uCore k) Reg.L2_LOCKSTAT.LOCK_LOST).bump (uCore k) Reg.L2_LOCKSTAT.LOST_LINES
      | .l3 i => s.stick (uL3 i) Reg.L3_ECC.LOCK_LOST
      | _ => s
    else s
  | none => s

/-- The dirty data of a tile's copies. -/
def State.tileDirty (s : State) (t line : Nat) : Option LineData :=
  match s.tileCopy t line with
  | some (_, l) => if l.st.dirty then some l.data else none
  | none => none

/-- A tile whose copy has gone while it asked for ownership asks as a tile without one (R172). -/
def State.upgradeLost (s : State) (t line : Nat) : State :=
  { s with tileTrans := s.tileTrans.map fun (x : TileTrans) =>
      if x.tile = t ∧ x.line = line ∧ (x.tx = .sm ∨ x.tx = .om) then { x with tx := .im } else x }

/-- A cache loses its copy to a request of another agent (R161). -/
def State.takeAway (s : State) (c : CacheId) (line : Nat) : State := (s.lockLost c line).dropLevel c line

/-- TKill: remove every copy of a tile; the dirty data it held (R171, R161). -/
def State.tileKill (s : State) (t line : Nat) : State × Option LineData :=
  ((State.each (tileCaches t line) (fun c st => st.takeAway c line) s).upgradeLost t line, s.tileDirty t line)

/-- The state of an owner's copy after TDown; with `clean` it also becomes clean (R171, R172). -/
def CState.down (clean : Bool) : CState → CState
  | .m => if clean then .s else .o
  | .o => if clean then .s else .o
  | .e => .s
  | x => x

/-- TDown: the owner keeps a copy and supplies dirty data; with `clean` it also becomes clean (R171, R172). -/
def State.tileDown (s : State) (t line : Nat) (clean : Bool) : State × Option LineData :=
  let u := State.each (tileCaches t line) (fun c st => st.alter c line fun l => { l with st := l.st.down clean }) s
  (State.each (List.range 12) (fun j st => st.cleanL1 (12 * t + j) line) u, s.tileDirty t line)

/-! ### The home directory (R174-R180) -/

/-- The channel whose home agent orders a line. -/
def State.homeAgent (s : State) (line : Nat) : Option Nat := (s.homeOfLine line).map Home.ch

/-- The directory set of a line (R178). -/
def dirSetOf (line : Nat) : Nat := (line % 32768) ^^^ (line / 32768 % 32768)

def dirKey (home set w : Nat) : Nat := (home * 32768 + set) * 16 + w

def State.dirWay (s : State) (home set w : Nat) : DirEntry := s.dir.look DirEntry.empty (dirKey home set w)

/-- The directory way that records a line. -/
def State.dirFind (s : State) (home line : Nat) : Option Nat :=
  (List.range 16).find? fun w => let e := s.dirWay (s.dirSide home line) (dirSetOf line) w; e.st != .u && e.line == line

/-- The entry of a line; U if there is none. -/
def State.dirEntry (s : State) (home line : Nat) : DirEntry :=
  match s.dirFind home line with
  | some w => s.dirWay (s.dirSide home line) (dirSetOf line) w
  | none => DirEntry.empty

/-- A directory hit marks the path of its way (R142, R179). -/
def State.dirHit (s : State) (home line : Nat) : State :=
  match s.dirFind home line with
  | some w => s.touch (256 + home) (dirSetOf line) 16 w
  | none => s

/-- Does an entry count as HOT (R180)? While HOT_WINDOW is 0 none does (R188). -/
def State.isHot (s : State) (home : Nat) (e : DirEntry) : Bool :=
  e.st != .u && e.hot && s.rd (uHome home) Reg.HOME_CFG.HOT_WINDOW != 0

/-- Is a transaction open at a home agent for the line, or does a request for it wait for a directory way (R174, R179)? -/
def State.homeBusy (s : State) (line : Nat) : Bool := s.homeTrans.any fun h => h.line == line || h.req.line == line

/-- The owner byte of directory way `w` (R188). -/
def State.dirWayOwner (s : State) (home w : Nat) : Nat :=
  let reg := if w < 8 then Reg.DIR_WAYOWN0.WAYOWN0 else Reg.DIR_WAYOWN1.WAYOWN1
  (s.word (uHome home) reg.off).field (8 * (w % 8)) (8 * (w % 8) + 7)

/-- May an entry of a seam use directory way `w` (R187)? -/
def State.dirEligible (s : State) (home seam w : Nat) : Bool :=
  if s.flag (uHome home) Reg.HOME_CFG.RESERVED then ownerRule (s.dirWayOwner home) 16 seam w else true

/-- Change the entry that records a line; state U frees it. -/
def State.setDir (s : State) (home line : Nat) (e : DirEntry) : State :=
  match s.dirFind home line with
  | some w => { s with dir := s.dir.put DirEntry.empty (dirKey (s.dirSide home line) (dirSetOf line) w)
                        (if e.st = .u then DirEntry.empty else e) }
  | none => s

/-- The tiles a vector of presence names. -/
def tilesOf (p : BitVec 4) : List Nat := (List.range 4).filter fun t => p.getLsbD t

def tileBit (t : Nat) : BitVec 4 := BitVec.ofNat 4 (2 ^ t)

/-- The tiles that an entry records as holding the line: sharers and owner. -/
def DirEntry.holders (e : DirEntry) : List Nat :=
  match e.st with
  | .u => []
  | .s => tilesOf e.present
  | .x => [e.owner]
  | .o => tilesOf (e.present ||| tileBit e.owner)

/-- Remove a line from a list of tiles; the dirty data one of them held. -/
def State.killTiles (s : State) (tiles : List Nat) (line : Nat) : State × Option LineData :=
  tiles.foldl (fun (a : State × Option LineData) t =>
    let r := a.1.tileKill t line
    (r.1, match r.2 with | some d => some d | none => a.2)) (s, none)

/-- The entry of a line whose owner becomes tile `t`; HOT is set when the owner changes from one tile to another (R180). -/
def State.ownedEntry (s : State) (home line seam t : Nat) : DirEntry :=
  let e := s.dirEntry home line
  let moved := (e.st = .x ∨ e.st = .o) ∧ e.owner ≠ t
  { line := line, st := .x, present := 0, owner := t, seam := seam,
    hot := if moved then s.rd (uHome home) Reg.HOME_CFG.HOT_WINDOW != 0 else (e.st != .u && e.hot),
    hotAt := if moved then s.now else e.hotAt }

/-! ### Messages into the Shaft (R169, R185, R187) -/

/-- The stops of the Shaft in ring order, by die slot: T0, T1, IO0, T2, T3, IO1, the service die (R11, R190). -/
def ringStop (die : Nat) : Nat := [0, 1, 3, 4, 2, 5, 6].getD die 6

/-- The direction in which a message leaves its stop: the shorter way round (R185), or the other while a segment of that way is down
(R186). -/
def State.direction (s : State) (src dst : Nat) : Nat :=
  let a := ringStop src
  let n := (ringStop dst + 7 - a) % 7
  let down (f : Field) (stop : Nat) : Bool := s.flag uModule (f.ix stop)
  let way := if n ≤ 3 then 0 else 1
  let broken := if way = 0 then (List.range n).any fun i => down Reg.SHF_STOP_STAT.UP_DOWN ((a + i) % 7)
    else (List.range (7 - n)).any fun i => down Reg.SHF_STOP_STAT.DN_DOWN ((a + 7 - i) % 7)
  if broken then 1 - way else way

/-- Does a stop have a slot for a message about a line of a seam (R187)? -/
def State.mayInsert (s : State) (src dst seam : Nat) : Bool :=
  if !s.flag uModule Reg.SHF_MODE.RESERVED then true
  else
    let want := if seam = 0 then 0xFF else seam
    let d := s.direction src dst
    (List.range 8).any fun j =>
      let w := s.word uModule (0x240 + 0x80 * ringStop src + 0x40 * d + 8 * j)
      (List.range 8).any fun i => w.field (8 * i) (8 * i + 7) == want

/-- The seam of a line (R141, R178): that of its directory entry, of the transaction open for it, or else of its granule. -/
def State.lineSeam (s : State) (line : Nat) : Nat :=
  let e := match s.homeAgent line with
    | some home => s.dirEntry home line
    | none => DirEntry.empty
  if e.st != .u then e.seam
  else match s.homeTrans.find? fun h => h.line == line with
    | some h => h.req.seam
    | none => match s.tileTrans.find? fun x => x.line == line with
      | some x => x.seam
      | none => let n := s.ownerOf (line / 512)
                if n < 64 then n else 0

/-- A message is sent: it enters a slot of its stop, or waits there while the stop has none for it (R187). -/
def State.send (s : State) (kind : MsgKind) (src dst line : Nat) (data : Option LineData := none) (flag : Bool := false)
    (req : Option HomeReq := none) : State :=
  let n := s.lineSeam line
  { s with msgs := s.msgs ++ [{ kind := kind, src := src, dst := dst, line := line, data := data, flag := flag, req := req, seam := n,
                                inserted := s.mayInsert src dst n }] }

/-- The Shaft stop of the home agent of channel `home`. -/
def homeStop (home : Nat) : Nat := 4 + home / 8

/-- Send a message to the home of its line. -/
def State.toHome (s : State) (kind : MsgKind) (t line : Nat) (data : Option LineData := none) (flag : Bool := false)
    (req : Option HomeReq := none) : State :=
  match s.homeAgent line with
  | some home => s.send kind t (homeStop home) line data flag req
  | none => s

/-- A transaction of a tile controller opens: PEAK follows OPEN (R189). -/
def State.addTileTx (s : State) (x : TileTrans) : State :=
  let ring : UnitId := ⟨.ring, x.tile⟩
  let s := s.wr ring Reg.SHF_TCC_STAT.PEAK (max (s.openCount x.tile + 1) (s.rd ring Reg.SHF_TCC_STAT.PEAK))
  { s with tileTrans := s.tileTrans ++ [x] }

/-! ### Lines leaving caches (R141-R144) -/

/-- The tile's last copy of a line has left: WB with dirty data, or Evc (R172, the Ev of the table). -/
def State.leaveTile (s : State) (t : Nat) (core : Option Nat) (l : CLine) : State :=
  let x (tx : TileTx) : TileTrans :=
    { tile := t, line := l.line, tx := tx, core := core.getD 0, seam := l.seam, way := none, atomic := none, since := s.now, resendAt := none }
  if l.st.dirty then
    let s : State := { s with wbq := s.wbq ++ [{ tile := t, core := core, line := l.line, st := l.st, data := l.data, seam := l.seam }] }
    (s.addTileTx (x .mi)).toHome .wb t l.line (some l.data)
  else (s.addTileTx (x .ci)).toHome .evc t l.line

/-- A line has gone from one cache of a tile and is not kept by the slice: if another cache of the tile holds it, a dirty
state passes to that copy; else the tile sends WB or Evc. -/
def State.departs (s : State) (t : Nat) (core : Option Nat) (l : CLine) : State :=
  match s.tileCopy t l.line with
  | some (c, _) => if l.st.dirty then s.alter c l.line fun x => { x with st := .o, data := l.data } else s
  | none => s.leaveTile t core l

/-- Occupancy of a slice's write-back queue (R144): dirty lines that it has sent away. -/
def State.wbqLength (s : State) (i : Nat) : Nat :=
  (s.wbq.filter fun e => e.core.isNone && sliceId e.tile e.line == .l3 i).length

/-- WBQ_LIMIT of a slice (R166): 0 is treated as 32. -/
def State.wbqLimit (s : State) (i : Nat) : Nat :=
  let v := s.rd (uL3 i) Reg.L3_DECLINE_CFG.WBQ_LIMIT
  if v = 0 then 32 else v

/-- Install a line in a way of a cache, marking its path. -/
def State.installAt (s : State) (c : CacheId) (w : Nat) (l : CLine) : State :=
  (s.setWay c (c.setOf l.line) w l).touch c.num (c.setOf l.line) c.ways w (!l.stream)

/-- Put a line in a slice's victim way; the victim leaves the slice. -/
def State.installL3 (s : State) (i w : Nat) (l : CLine) : State :=
  let c := CacheId.l3 i
  let v := s.way c (c.setOf l.line) w
  let s := s.installAt c w l
  if v.st = .i then s else s.departs (i / 8) none v

/-- A clean line leaving an L2 is offered to its slice (R144): absorbed, declined or accepted. -/
def State.offerL3 (s : State) (t core : Nat) (l : CLine) : State :=
  let c := sliceId t l.line
  let i := 8 * t + sliceOf l.line
  if (s.findWay c l.line).isSome then
    (s.hit c l.line).count (uL3 i) Reg.L3_OFFER.ACCEPTED
  else match s.cacheVictim c l.line l.seam with
    | none => (s.count (uL3 i) Reg.L3_OFFER.DECLINED).departs t (some core) l
    | some w =>
      let v := s.way c (c.setOf l.line) w
      if v.st.dirty && s.wbqLimit i ≤ s.wbqLength i then
        (s.count (uL3 i) Reg.L3_OFFER.DECLINED).departs t (some core) l
      else (s.count (uL3 i) Reg.L3_OFFER.ACCEPTED).installL3 i w { l with stream := false }

/-- A dirty line leaving an L2 enters its slice, or bypasses it where no way is eligible (R144). -/
def State.dirtyToL3 (s : State) (t core : Nat) (l : CLine) : State :=
  let c := sliceId t l.line
  let i := 8 * t + sliceOf l.line
  if (s.findWay c l.line).isSome then
    s.alter c l.line fun x => { x with st := if x.st.rank < l.st.rank then l.st else x.st, data := l.data }
  else match s.cacheVictim c l.line l.seam with
    | none => s.departs t (some core) l
    | some w => s.installL3 i w { l with stream := false }

/-- The line that waits in an L2's eviction buffer goes on to the L3 (R143; log entry 107). -/
def State.bufferOn (s : State) (k : Nat) : State :=
  State.each (List.range 16) (fun w s =>
    let l := s.way (.l2e k) 0 w
    if l.st = .i then s else (s.setWay (.l2e k) 0 w CLine.empty).dirtyToL3 (k / 12) k l) s

/-- A line has been displaced from the L2 of core `k` (R141, R143, R144, R148): a dirty one enters the eviction buffer, and the one that
waited there goes on. -/
def State.leavesL2 (s : State) (k : Nat) (l : CLine) : State :=
  let s := s.dropL1 k l.line
  if l.st = .i then s
  else if l.st.dirty then (s.bufferOn k).setWay (.l2e k) 0 0 l
  else if l.stream then s.departs (k / 12) (some k) l
  else s.offerL3 (k / 12) k l

/-- A fill of the L2 while a work unit runs counts for its footprint and lowers the counts of the others (R235). -/
def footFill (w : Option Nat) (l : List (Nat × Nat)) : List (Nat × Nat) :=
  match w with
  | none => l
  | some n => l.map fun e => if e.1 = n then (e.1, e.2 + 1) else (e.1, e.2 - 1)

/-- Put a line in way `w` of the L2 of core `k`, whose line leaves it. -/
def State.putL2 (s : State) (k w : Nat) (l : CLine) : State :=
  let v := s.way (.l2 k) ((CacheId.l2 k).setOf l.line) w
  let s := s.installAt (.l2 k) w l
  if v.line = l.line ∧ v.st ≠ .i then s else s.leavesL2 k v

/-- A fill of the L2 of core `k` counts for the work unit there. -/
def State.noteFill (s : State) (k : Nat) : State :=
  let cs := s.core k
  s.setCore k { cs with recent := footFill cs.wu cs.recent }

/-- Fill a line in the L2 of core `k`, in the way `held` for it or in its victim way (R142). With no eligible way the line goes to the core
alone. -/
def State.fillL2 (s : State) (k line : Nat) (st : CState) (d : LineData) (seam : Nat) (stream : Bool) (held : Option Nat := none) : State :=
  let l : CLine := { line := line, st := st, data := d, seam := seam, stream := stream }
  let s := s.noteFill k
  match s.findWay (.l2 k) line, held with
  | some w, _ => s.putL2 k w l
  | none, some w => s.putL2 k w l
  | none, none => match s.cacheVictim (.l2 k) line seam with
    | none => s
    | some w => s.putL2 k w l

/-- A dirty line leaves an L1D: it enters the eviction buffer, whose earlier entries merge into the L2, which holds their data (R129,
R143). -/
def State.leavesL1 (s : State) (k : Nat) (l : CLine) : State :=
  if l.st.dirty then (State.each (List.range 8) (fun w s => s.setWay (.l1e k) 0 w CLine.empty) s).setWay (.l1e k) 0 0 l else s

/-- Fill an L1 of core `k` with a line that its L2 holds (R141). -/
def State.fillL1 (s : State) (k : Nat) (ifetch : Bool) (line : Nat) (d : LineData) (seam : Nat) (stream : Bool) : State :=
  let c : CacheId := if ifetch then .l1i k else .l1d k
  let l : CLine := { line := line, st := .s, data := d, seam := seam, stream := stream }
  if (s.findWay (.l2 k) line).isNone then s
  else match s.findWay c line with
    | some w => s.installAt c w l
    | none => match s.cacheVictim c line seam with
      | none => s
      | some w => (s.installAt c w l).leavesL1 k (s.way c (c.setOf line) w)

/-- Write bytes of a line that the core's L2 holds in M, and of its L1D copy, which is dirty then; the L1I copy goes (R91, R129). -/
def State.writeOwned (s : State) (k line : Nat) (m : BitVec 128) (new : BitVec 1024) : State :=
  let f (x : CLine) : CLine := { x with st := .m, data := mergeLine x.data m new 0 }
  (((s.alter (.l2 k) line f).alter (.l1d k) line f).drop (.l1e k) line).drop (.l1i k) line

/-- Count a ring request met inside the tile, or passed to the tile controller (R189). -/
def State.ringCount (s : State) (t : Nat) (metInside : Bool) : State :=
  s.count ⟨.ring, t⟩ (if metInside then Reg.SHF_RING.LOCAL else Reg.SHF_RING.FORWARDED)

/-- A miss that tile `t` sends to a home agent, in the tile's own order: every 2^SAMPLE-th is reported to the Foreman (R241). -/
def State.l3Miss (s : State) (t line : Nat) : State :=
  let n := s.missOrder.look 0 t + 1
  { s with
    missOrder := s.missOrder.put 0 t n,
    missReports := if n % 2 ^ s.rd uForeman Reg.FMN_MIG.SAMPLE = 0 then s.missReports ++ [(t, line / 512)] else s.missReports }

/-- Does a cache of the tile supply a TRd: the owner, or else the line's slice (R171)? -/
def State.supplies (s : State) (t line : Nat) : Bool :=
  decide (2 ≤ (s.tileState t line).rank) || (s.findWay (sliceId t line) line).isSome

/-- Install a hinted line in a target (R145): the L2 of a core, else the L3 of its tile; none where both decline. -/
def State.hintInstall (s : State) (target : HintTarget) (line seam : Nat) (st : CState) (d : LineData) : State × Option Nat :=
  let l : CLine := { line := line, st := st, data := d, seam := seam, stream := false }
  let toL3 (s : State) (t : Nat) : State × Option Nat :=
    let i := 8 * t + sliceOf line
    match s.cacheVictim (.l3 i) line seam with
    | some w =>
      let v := s.way (.l3 i) ((CacheId.l3 i).setOf line) w
      if v.st.dirty && s.wbqLimit i ≤ s.wbqLength i then (s.count (uL3 i) Reg.L3_OFFER.DECLINED, none)
      else (s.installL3 i w l, some t)
    | none => (s.count (uL3 i) Reg.L3_OFFER.DECLINED, none)
  match target with
  | .l3 t => toL3 s t
  | .l2 k =>
    let full := decide (16 ≤ s.bufferUse k)
    match s.cacheVictim (.l2 k) line seam with
    | some w =>
      if full then toL3 (s.count (uCore k) Reg.L2_HINT.DECLINED) (k / 12)
      else
        ((s.putL2 k w l).count (uCore k) Reg.L2_HINT.ACCEPTED, some (k / 12))
    | none => toL3 (s.count (uCore k) Reg.L2_HINT.DECLINED) (k / 12)

/-! ### Copies across the module -/

/-- The caches of the module that hold a line in a locked way. -/
def State.lockedHolders (s : State) (line : Nat) : List CacheId :=
  ((List.range 4).flatMap fun t => tileCaches t line).filter fun c =>
    match s.findWay c line with
    | some w => s.wayLocked c w
    | none => false

/-- The copy of a line with the highest state in the module. -/
def State.bestCopy (s : State) (line : Nat) : Option CLine :=
  (bestBy (fun a b => b.2.st.rank < a.2.st.rank)
    ((List.range 4).filterMap fun t => s.tileCopy t line)).map Prod.snd

end Sys2Proof.Machine
end

