-- ==== Sys2Proof/Machine/Protocol.lean ====
section
/-! DEFINITION. The coherence protocol: the ring of a tile and its controller (R171-R173), the home agents (R174-R183), and the delivery of
messages in the order of R169. The commands by which single messages arrive stand in Machine/Coherence.lean; an access that finds a
transaction open lets its messages arrive first (`State.awaitLine`). -/

namespace Sys2Proof.Machine

/-- An arrival that the tables of R172 and R175 mark "cannot occur". -/
def cannot (code : String) : Answer := .fault (.cannotOccur code)

/-! ### Messages (R169, R170) -/

/-- The classes of R169. -/
inductive MsgClass where
  | request | snoop | response | writeBack
  deriving DecidableEq, Repr

/-- The class of a message (R170). -/
def MsgKind.cls : MsgKind → MsgClass
  | .rds | .rdx | .rdxA | .upg | .mnt | .ior | .iow => .request
  | .inv | .snpS | .snpSC | .snpX | .hint => .snoop
  | .invAck | .snpAck | .snpD | .hintAck | .hintDecl | .done | .dataS | .dataE | .dataM | .gntX | .atmR | .wbAck | .retry | .cmp
  | .ioData => .response
  | .wb | .evc => .writeBack

/-- The Shaft stop of an agent. -/
def Agent.stop : Agent → Nat
  | .tile t => t
  | .io u => u.dieSlot

/-- Is this message of a kind, between two stops, about a line? -/
def Msg.isOf (m : Msg) (kind : MsgKind) (src dst line : Nat) : Bool :=
  m.kind == kind && m.src == src && m.dst == dst && m.line == line

/-- Do two messages keep the order in which they were sent (R169)? -/
def Msg.sameWay (m n : Msg) : Bool := m.kind.cls == n.kind.cls && m.src == n.src && m.dst == n.dst && m.line == n.line

/-- The oldest message of a kind between two stops about a line leaves the Shaft. -/
def State.arrive (s : State) (kind : MsgKind) (src dst line : Nat) : State × Option Msg :=
  match s.msgs.findIdx? fun m => m.isOf kind src dst line with
  | some i => ({ s with msgs := s.msgs.eraseIdx i }, s.msgs[i]?)
  | none => (s, none)

/-- The data of a message that arrives, or what the command gives. -/
def msgData (m : Option Msg) (d : LineData) : LineData := (m.bind Msg.data).getD d

/-- The flag of a message that arrives, or what the command gives. -/
def msgFlag (m : Option Msg) (b : Bool) : Bool := (m.map Msg.flag).getD b

/-- The request of a message that arrives, or what the command gives. -/
def msgReq (m : Option Msg) (r : HomeReq) : HomeReq := (m.bind Msg.req).getD r

/-! ### Atomics (R122, R182) -/

/-- Bytes placed at an offset of an otherwise empty line. -/
def lineAtOffset (off : Nat) (l : List Byte) : BitVec 1024 := lineOfBytes (List.replicate off 0 ++ l)

/-- The value of `size` bytes at an offset of a line. -/
def LineData.value (d : LineData) (off size : Nat) : Nat := beNat ((List.range size).map fun i => lineByte d.data (off + i))

/-- The line with an atomic performed on it: CSWP writes if the old value equals the compare value, SWP always writes, LADD adds
(R122). -/
def AtomicReq.perform (a : AtomicReq) (d : LineData) : LineData :=
  let old := d.value a.off a.size
  let new := match a.op with
    | .cswp => if old = a.cmp.toNat % 2 ^ (8 * a.size) then a.val.toNat else old
    | .swp => a.val.toNat
    | .ladd => old + a.val.toNat
  mergeLine d (maskRange a.off a.size) (lineAtOffset a.off (beBytes a.size new)) d.poison

/-! ### The ring and the tile controller (R171-R173) -/

/-- The open transaction of a tile for a line. -/
def State.tileTx (s : State) (t line : Nat) : Option TileTrans := s.tileTrans.find? fun x => x.tile == t && x.line == line

def State.setTileTx (s : State) (n : TileTrans) : State :=
  { s with tileTrans := s.tileTrans.map fun (x : TileTrans) => if x.tile = n.tile ∧ x.line = n.line then n else x }

def State.closeTileTx (s : State) (t line : Nat) : State :=
  { s with tileTrans := s.tileTrans.filter fun x => !(x.tile == t && x.line == line) }

/-- The request message of a transient state. A tile that has lost its copy since it sent Upg, and is refused, asks again with RdX, the
request of IM (R173; log entry 108). -/
def TileTrans.msgKind (x : TileTrans) : MsgKind :=
  match x.tx with
  | .is => .rds
  | .im => if x.atomic.isSome then .rdxA else .rdx
  | .sm | .om => .upg
  | .ci => .evc
  | .mi | .ii => .wb

/-- A request of a tile. -/
def tileRequest (t : Nat) (kind : ReqKind) (line seam : Nat) : HomeReq :=
  { agent := .tile t, kind := kind, line := line, seam := seam, mask := 0, data := 0, hint := none, atomic := none, skipLocked := false }

/-- The request of an open transaction. -/
def TileTrans.request (x : TileTrans) : HomeReq :=
  let kind : ReqKind := match x.msgKind with | .rdx => .rdx | .rdxA => .rdxA | .upg => .upg | _ => .rds
  { tileRequest x.tile kind x.line x.seam with atomic := if kind = .rdxA then x.atomic else none }

/-- A transaction sends its request. -/
def State.request (s : State) (x : TileTrans) : State := s.toHome x.msgKind x.tile x.line none false (some x.request)

/-- A ring request waits, behind those that have waited longer (R171). -/
def State.waitRing (s : State) (r : RingWait) : State :=
  if s.ringWait.contains r then s else { s with ringWait := s.ringWait ++ [r] }

/-- The way that a fill of the L2 of core `k` holds, emptied of its line (R142); none where none is eligible. -/
def State.holdWay (s : State) (k line seam : Nat) : Option (State × Nat) :=
  (s.cacheVictim (.l2 k) line seam).map fun w =>
    let v := s.way (.l2 k) ((CacheId.l2 k).setOf line) w
    ((s.setWay (.l2 k) ((CacheId.l2 k).setOf line) w CLine.empty).leavesL2 k v, w)

/-- A ring request opens a transaction of its tile controller, which keeps up to 256 (R167), and sends its request. Without room, or
without a way for the fill, it waits. -/
def State.openTileTx (s : State) (r : RingWait) (tx : TileTx) : State :=
  let t := r.core / 12
  let x (w : Option Nat) : TileTrans :=
    { tile := t, line := r.line, tx := tx, core := r.core, seam := r.seam, way := w, atomic := if tx = .im then r.atomic else none,
      since := s.now, resendAt := none }
  if 256 ≤ s.openCount t then s.waitRing r
  else if (s.findWay (.l2 r.core) r.line).isSome then (s.addTileTx (x none)).request (x none)
  else match s.holdWay r.core r.line r.seam with
    | none => s.waitRing r
    | some (s, w) => (s.addTileTx (x (some w))).request (x (some w))

/-- Does the L2 of a core hold a line, or a way that it could take? -/
def State.hasWay (s : State) (k line seam : Nat) : Bool :=
  (s.findWay (.l2 k) line).isSome || (s.cacheVictim (.l2 k) line seam).isSome

/-- TRd of a line that the tile holds: the core's L2 takes a shared copy. -/
def State.ringRead (s : State) (k line seam : Nat) (l : CLine) : State :=
  let t := k / 12
  let s := ((s.ringCount t (s.supplies t line)).tileDown t line false).1
  if (s.findWay (.l2 k) line).isSome then s.hit (.l2 k) line else s.fillL2 k line .s l.data seam false

/-- TRd (R171, R172): a core's read is supplied by a cache of its tile, waits for an open transaction, or opens one with RdS. A line on its
way out with WB serves a load of the core from its entry. -/
def State.trd (s : State) (r : RingWait) : State :=
  let t := r.core / 12
  let free (s : State) : State :=
    if (s.findWay (.l2e r.core) r.line).isSome then s.ringCount t true
    else match s.tileCopy t r.line with
      | some (_, l) => if s.hasWay r.core r.line r.seam then s.ringRead r.core r.line r.seam l else s.waitRing r
      | none => ((s.ringCount t false).l3Miss t r.line).openTileTx r .is
  match s.tileTx t r.line with
  | some x => match x.tx with
    | .sm | .om => free s
    | .mi => s.ringCount t true
    | _ => s.waitRing r
  | none => free s

/-- The core's L2 takes the line of its tile in M, and every other copy of the tile goes (R161, R171). -/
def State.tileOwn (s : State) (k line seam : Nat) (d : LineData) (stream : Bool := false) (held : Option Nat := none) : State :=
  let s := State.each ((tileCaches (k / 12) line).filter fun c => c != .l2 k) (fun c x => x.takeAway c line) s
  if (s.findWay (.l2 k) line).isSome then
    (s.hit (.l2 k) line).alter (.l2 k) line fun l => { l with st := .m, data := d }
  else s.fillL2 k line .m d seam stream held

/-- TRdX (R171, R172): a core's ownership request is met inside a tile that holds E or M; else the tile controller asks the home for
ownership, or waits for an open transaction. -/
def State.trdx (s : State) (r : RingWait) : State :=
  let t := r.core / 12
  if (s.tileTx t r.line).isSome then s.waitRing r
  else match s.tileState t r.line, s.tileCopy t r.line with
    | .m, some (_, l) | .e, some (_, l) =>
      if s.hasWay r.core r.line r.seam then (s.ringCount t true).tileOwn r.core r.line r.seam l.data else s.waitRing r
    | .s, _ => (s.ringCount t false).openTileTx r .sm
    | .o, _ => (s.ringCount t false).openTileTx r .om
    | _, _ => ((s.ringCount t false).l3Miss t r.line).openTileTx r .im

/-- A transaction of a tile has closed: the ring requests that wait there are taken again, in arrival order; those that must wait still keep
their places. -/
def State.wakeRing (s : State) (t : Nat) : State :=
  State.each (s.ringWait.filter fun r => r.core / 12 == t) (fun r s => if r.excl then s.trdx r else s.trd r)
    { s with ringWait := s.ringWait.filter fun r => r.core / 12 != t }

/-- The tile controller keeps the dirty data that its caches have supplied, for the answer to the snoop (R171). -/
def State.supply (s : State) (t line : Nat) (d : Option LineData) : State :=
  match d with
  | some d => { s with supplied := (s.supplied.filter fun x => !(x.1 == t && x.2.1 == line)) ++ [(t, line, d)] }
  | none => s

/-- The data of an entry of the eviction buffers or write-back queues of a tile whose line has been sent away. -/
def State.leaving (s : State) (t line : Nat) : Option LineData :=
  (s.wbq.find? fun e => e.tile == t && e.line == line).map WbEntry.data

/-- TDown (R171): the tile's action on SnpS, or on SnpS.C with `clean`; a line on its way out supplies its data. -/
def State.tdown (s : State) (t line : Nat) (clean : Bool) : State :=
  let r := s.tileDown t line clean
  r.1.supply t line (match r.2 with | some d => some d | none => s.leaving t line)

/-- TKill (R171): the tile's action on Inv or SnpX; a line on its way out supplies its data. -/
def State.tkill (s : State) (t line : Nat) : State :=
  let r := s.tileKill t line
  r.1.supply t line (match r.2 with | some d => some d | none => s.leaving t line)

/-- A tile's answer to a snoop goes to the home: SnpD, where its caches had supplied data before and the answer carries none (R171). -/
def State.reply (s : State) (kind : MsgKind) (t line : Nat) (data : Option LineData := none) (kept : Bool := false) : State :=
  let u : State := { s with supplied := s.supplied.filter fun x => !(x.1 == t && x.2.1 == line) }
  match data, s.supplied.find? fun x => x.1 == t && x.2.1 == line with
  | none, some (_, _, d) => u.toHome .snpD t line (some d) kept
  | _, _ => u.toHome kind t line data kept

/-- The tile answers a snoop, which completes the arrival. -/
def State.answer (s : State) (kind : MsgKind) (t line : Nat) (data : Option LineData := none) (kept : Bool := false) : Answer :=
  .next (s.reply kind t line data kept)

/-- Every copy of a tile goes on an Inv or SnpX; with the skip flag locked copies stay, cleaned (R160, R177). The dirty data, and
whether a copy was kept. -/
def State.killOrKeep (s : State) (t line : Nat) (skip : Bool) : State × Option LineData × Bool :=
  let locked := if skip then s.lockedHolders line |>.filter fun c => c.tile == t else []
  if locked.isEmpty then
    let r := s.tileKill t line
    (r.1, r.2, false)
  else
    let dirty := s.tileDirty t line
    let s := State.each ((tileCaches t line).filter fun c => !locked.contains c) (fun c y => y.dropLevel c line) s
    let s := State.each locked (fun c x => x.alter c line fun l => { l with st := .s }) s
    let s := State.each locked (fun c x => match c with
      | .l2 k => (x.cleanL1 k line).bump (uCore k) Reg.L2_MAINT_SKIP.COUNT
      | .l3 i => x.count (uL3 i) Reg.L3_MAINT_SKIP.COUNT
      | _ => x) s
    (s, dirty, true)

/-- A tile whose copy was kept, clean, asks for ownership from S. -/
def State.keptUpgrade (s : State) (t line : Nat) (kept : Bool) : State :=
  match s.tileTx t line with
  | some x => if kept then s.setTileTx { x with tx := .sm } else s
  | none => s

/-- Inv at a tile (R172): it removes its shared copy and answers InvAck. -/
def State.atInv (s : State) (t line : Nat) (skip : Bool) : Answer :=
  let kill : Answer :=
    let r := s.killOrKeep t line skip
    (r.1.keptUpgrade t line r.2.2).answer .invAck t line none r.2.2
  match s.tileTx t line with
  | some x => match x.tx with
    | .om | .mi => cannot "n7"
    | .sm => kill
    | _ => s.answer .invAck t line
  | none => match s.tileState t line with
    | .i => s.answer .invAck t line
    | .s => kill
    | _ => cannot "n7"

/-- SnpS at a tile (R172): the owner keeps a copy and supplies dirty data; on SnpS.C (`clean`) it also becomes clean. -/
def State.atSnpS (s : State) (t line : Nat) (clean : Bool) : Answer :=
  match s.tileTx t line with
  | some x => match x.tx with
    | .sm => cannot "n8"
    | .om =>
      let r := s.tileDown t line clean
      (if clean then r.1.setTileTx { x with tx := .sm } else r.1).answer .snpD t line r.2
    | .mi => s.answer .snpD t line (s.leaving t line)
    | _ => s.answer .snpAck t line
  | none =>
    let r := s.tileDown t line clean
    match s.tileState t line with
    | .s => if s.supplied.any fun x => x.1 == t && x.2.1 == line then s.answer .snpD t line else cannot "n8"
    | .i => s.answer .snpAck t line
    | .e => r.1.answer .snpAck t line
    | _ => r.1.answer .snpD t line r.2

/-- SnpX at a tile (R172): the owner gives up its copy and supplies dirty data. -/
def State.atSnpX (s : State) (t line : Nat) (skip : Bool) : Answer :=
  let r := s.killOrKeep t line skip
  match s.tileTx t line with
  | some x => match x.tx with
    | .sm => cannot "n8"
    | .om => (r.1.keptUpgrade t line r.2.2).answer .snpD t line r.2.1 r.2.2
    | .mi => (s.setTileTx { x with tx := .ii }).answer .snpD t line (s.leaving t line)
    | _ => s.answer .snpAck t line
  | none => match s.tileState t line with
    | .s => cannot "n8"
    | .i => s.answer .snpAck t line
    | _ => match r.2.1 with
      | some d => r.1.answer .snpD t line (some d) r.2.2
      | none => r.1.answer .snpAck t line none r.2.2

/-- The tile of a hint target (R145). -/
def HintTarget.tile : HintTarget → Nat
  | .l2 k => k / 12
  | .l3 t => t

/-- Hint at a tile (R145, R172): the target installs the line in E, or in M where memory does not hold it, or declines it. -/
def State.atHint (s : State) (target : HintTarget) (line seam : Nat) (m : Bool) (d : LineData) : Answer :=
  let t := target.tile
  match s.tileTx t line with
  | some x => match x.tx with
    | .sm | .om | .mi => cannot "n9"
    | _ => s.answer .hintDecl t line
  | none => if s.tileState t line ≠ .i then cannot "n9" else
    match s.hintInstall target line seam (if m then .m else .e) d with
    | (s, some _) => s.answer .hintAck t line
    | (s, none) => s.answer .hintDecl t line

/-- Line data at a tile in a state S, E or M (R172): they fill the L2 of the core whose need opened the transaction. -/
def State.atData (s : State) (st : CState) (t line : Nat) (d : LineData) : Answer :=
  let fill (x : TileTrans) : Answer :=
    .next ((((s.closeTileTx t line).fillL2 x.core line st d x.seam false x.way).toHome .done t line).wakeRing t)
  match s.tileTx t line with
  | none => cannot "n3"
  | some x => match x.tx with
    | .is => if st = .m then cannot "n4" else fill x
    | .im => if st = .s then cannot "n4" else fill x
    | .sm | .om => cannot "n5"
    | _ => cannot "n3"

/-- GntX at a tile (R172): an upgrade is granted and the core holds the line in M. -/
def State.atGntX (s : State) (t line : Nat) : Answer :=
  match s.tileTx t line with
  | none => cannot "n3"
  | some x => match x.tx with
    | .is => cannot "n4"
    | .im => cannot "n6"
    | .sm | .om =>
      let u := s.closeTileTx t line
      let u := match s.tileCopy t line with
        | some (_, l) => u.tileOwn x.core line x.seam l.data false x.way
        | none => u
      .next ((u.toHome .done t line).wakeRing t)
    | _ => cannot "n3"

/-- AtmR at a tile (R172): the old value of an atomic performed at the home agent goes to its core, and the line stays in I. -/
def State.atAtmR (s : State) (t line : Nat) (old : LineData) : Answer :=
  match s.tileTx t line with
  | none => cannot "n3"
  | some x => match x.tx, x.atomic with
    | .im, some a =>
      let u : State := { s.closeTileTx t line with atmVals := s.atmVals ++ [{ core := x.core, line := line, req := a, old := old }] }
      .next (u.wakeRing t)
    | .im, none | .is, _ | .sm, _ | .om, _ => cannot "n4"
    | _, _ => cannot "n3"

/-- WBAck at a tile (R172): the home has taken a WB or Evc, and the line is in I. -/
def State.atWbAck (s : State) (t line : Nat) : Answer :=
  match s.tileTx t line with
  | none => cannot "n10"
  | some x => match x.tx with
    | .ci | .mi | .ii =>
      let u : State := { s.closeTileTx t line with wbq := s.wbq.filter fun e => !(e.tile == t && e.line == line) }
      .next (u.wakeRing t)
    | _ => cannot "n10"

/-- Retry at a tile (R172, R173): a request was refused; it is sent again 64 Shaft cycles (32 ns) later. -/
def State.atRetry (s : State) (t line : Nat) : Answer :=
  match s.tileTx t line with
  | none => cannot "n3"
  | some x => match x.tx with
    | .is | .im | .sm | .om =>
      .next ((s.setTileTx { x with resendAt := some (s.now + 32) }).bump ⟨.ring, t⟩ Reg.SHF_TCC_STAT.RETRIED)
    | _ => cannot "n3"

/-- A refused request is sent again (R173). -/
def State.resend (s : State) (x : TileTrans) : State :=
  (s.setTileTx { x with resendAt := none }).request { x with resendAt := none }

/-! ### Transactions of a home agent (R174, R175) -/

def State.homeTx (s : State) (line : Nat) : Option HomeTrans := s.homeTrans.find? fun h => h.line == line

def State.setHomeTx (s : State) (h : HomeTrans) : State :=
  { s with homeTrans := s.homeTrans.map fun (x : HomeTrans) => if x.line = h.line then h else x }

def State.closeHomeTx (s : State) (line : Nat) : State :=
  { s with homeTrans := s.homeTrans.filter fun h => h.line != line }

/-- Open a transaction and send its snoops; `sole` is `recorded` of the transaction, and `flag` goes with the snoops. -/
def State.openHomeTx (s : State) (home line : Nat) (tx : HomeTx) (req : HomeReq) (snoops : List (Nat × MsgKind))
    (sole awaitDone : Bool := false) (dirty : Option LineData := none) (flag : Bool := req.skipLocked) : State :=
  let s := State.each snoops (fun x s => s.send x.2 (homeStop home) x.1 line dirty flag (some req)) s
  { s with homeTrans := s.homeTrans ++
      [{ home := home, line := line, tx := tx, req := req, await := snoops.length,
         asked := snoops.foldl (fun a x => a ||| tileBit x.1) 0, dirty := dirty, tookWb := false, awaitDone := awaitDone,
         kept := 0, recorded := sole, since := s.now }] }

/-- An entry of a transient line that records no tile. -/
def DirEntry.holding (line seam : Nat) : DirEntry := { DirEntry.empty with line := line, st := .s, seam := seam }

/-- The entry leaves the directory if it records no tile. -/
def State.tidyDir (s : State) (home line : Nat) : State :=
  let e := s.dirEntry home line
  if e.st = .s ∧ e.present = 0 then s.setDir home line DirEntry.empty else s

/-- Inv to every sharer and SnpX to an owner, but not to the tiles `except` (R175). -/
def DirEntry.invAll (e : DirEntry) (except : BitVec 4) : List (Nat × MsgKind) :=
  let sharers := (tilesOf (e.present &&& ~~~except)).map fun t => (t, MsgKind.inv)
  match e.st with
  | .u => []
  | .s => sharers
  | .x => [(e.owner, .snpX)]
  | .o => (e.owner, .snpX) :: sharers.filter fun x => x.1 != e.owner

/-- Does the entry record tile `t`? -/
def DirEntry.records (e : DirEntry) (t : Nat) : Bool := e.holders.contains t

/-- What a request that needs a directory entry finds (R179). -/
inductive Alloc where
  | way (w : Nat)
  | evict (w : Nat)
  | refuse
  deriving DecidableEq, Repr

/-- The choice of R179 for a request of an agent, with the reservations of refused requesters. -/
def State.allocPlan (s : State) (home line seam : Nat) (agent : Agent) : Alloc :=
  let set := dirSetOf line
  if s.dirReserve.any fun r => r.1 == home && r.2.1 == set && r.2.2 != agent then .refuse
  else
    let stable (w : Nat) : Bool :=
      s.dirEligible home seam w && !(let e := s.dirWay (s.dirSide home line) set w; e.st != .u && s.homeBusy e.line)
    match s.victimWay (256 + home) set 16 (fun w => (s.dirWay (s.dirSide home line) set w).st == .u) stable with
    | none => .refuse
    | some w => if (s.dirWay (s.dirSide home line) set w).st = .u then .way w else .evict w

/-- The request takes way `w` for its line; its reservation ends. -/
def State.takeWay (s : State) (home w : Nat) (r : HomeReq) : State :=
  let set := dirSetOf r.line
  let s := { s with
    dir := s.dir.put DirEntry.empty (dirKey (s.dirSide home r.line) set w) (DirEntry.holding r.line r.seam),
    dirReserve := s.dirReserve.filter fun x => !(x.1 == home && x.2.1 == set && x.2.2 == r.agent) }
  s.touch (256 + home) set 16 w

/-- A request is refused for want of a way (R179): the first requester refused in a set holds the reservation. -/
def State.reserveWay (s : State) (home : Nat) (r : HomeReq) : State :=
  let set := dirSetOf r.line
  let s := s.count (uHome home) Reg.DIR_EVICT.REFUSED
  if s.dirReserve.any fun x => x.1 == home && x.2.1 == set then s
  else { s with dirReserve := s.dirReserve ++ [(home, set, r.agent)] }

/-- Retry for want of a way (R179). -/
def State.refuseEntry (s : State) (home : Nat) (r : HomeReq) : State :=
  (s.reserveWay home r).send .retry (homeStop home) r.agent.stop r.line

/-- Memory's copy of a line, for a home agent's answer. -/
def State.memData (s : State) (line : Nat) : LineData := (s.memLine line).getD LineData.zero

/-- The current line of a transaction: dirty data that memory has not taken, else memory (R176, R181). -/
def State.txLine (s : State) (h : HomeTrans) : LineData :=
  match h.dirty with
  | some d => if h.tookWb then s.memData h.line else d
  | none => s.memData h.line

/-- Cmp to the agent of a request. -/
def State.sendCmp (s : State) (home : Nat) (r : HomeReq) : State :=
  s.send .cmp (homeStop home) r.agent.stop r.line none false (some r)

/-- IOData to the agent of a request. -/
def State.sendIoData (s : State) (home : Nat) (r : HomeReq) (d : LineData) : State :=
  s.send .ioData (homeStop home) r.agent.stop r.line (some d) false (some r)

/-- The Hint of an IOW is sent, with the merged line (R181): in E where memory has been written, in M where HINT_DEFER kept it unwritten. -/
def State.sendHint (s : State) (home : Nat) (r : HomeReq) (merged : LineData) : State :=
  match r.hint with
  | none => s
  | some tgt =>
    let defer := s.flag (uHome home) Reg.HOME_CFG.HINT_DEFER
    let s := if defer then s else s.putMemLine r.line maskAll merged
    s.openHomeTx home r.line .wh r [(tgt.tile, .hint)] false false (some merged) defer

/-- An IOW whose invalidations are done, or that found U: merge, and write memory or send the Hint (R181). -/
def State.iowOn (s : State) (home : Nat) (r : HomeReq) (base : LineData) : State :=
  let merged := mergeLine base r.mask r.data 0
  if r.hint.isSome then s.sendHint home r merged
  else ((s.putMemLine r.line maskAll merged).tidyDir home r.line).sendCmp home r

/-- All answers of a transaction other than WR, WH and WV have arrived (R176). -/
def State.proceed (s : State) (h : HomeTrans) : State :=
  let r := h.req
  let home := h.home
  match h.tx with
  | .wx =>
    let s := s.setHomeTx { h with awaitDone := true, since := s.now }
    let s := if r.kind = .rdxA then s.count (uHome home) Reg.HOME_ATOM.GRANTED else s
    if r.kind = .upg ∧ h.recorded then s.send .gntX (homeStop home) r.agent.stop h.line
    else match h.dirty, h.tookWb with
      | some d, false => s.send .dataM (homeStop home) r.agent.stop h.line (some d)
      | _, _ => (s.memTouch h.line).send .dataE (homeStop home) r.agent.stop h.line (some (s.memData h.line))
  | .wa =>
    let old := s.txLine h
    let new := match r.atomic with | some a => a.perform old | none => old
    let s := ((s.closeHomeTx h.line).putMemLine h.line maskAll new).setDir home h.line DirEntry.empty
    (s.count (uHome home) Reg.HOME_ATOM.AT_HOME).send .atmR (homeStop home) r.agent.stop h.line (some old) false (some r)
  | .ww =>
    let s := s.closeHomeTx h.line
    if r.kind = .iow then
      (s.setDir home h.line (DirEntry.holding h.line r.seam)).iowOn home r (s.txLine h)
    else
      let writes := r.kind != .mntInv || h.kept != 0
      let s := match h.dirty with
        | some d => if writes && !h.tookWb then s.putMemLine h.line maskAll d else s
        | none => s
      let e := s.dirEntry home h.line
      let s := if r.kind = .mntClean then
          (match e.st with
          | .x | .o => s.setDir home h.line { e with st := .s, present := e.present ||| tileBit e.owner }
          | _ => s)
        else s.setDir home h.line { e with st := .s, present := h.kept }
      (s.tidyDir home h.line).sendCmp home r
  | _ => s

/-- Proceed at once where a transaction sent nothing to wait for. -/
def State.proceedIfReady (s : State) (line : Nat) : State :=
  match s.homeTx line with
  | some h => if h.await = 0 ∧ !h.awaitDone then s.proceed h else s
  | none => s

/-- A read or ownership request to a line in U with a way of its own: DataE, and Done is awaited (R175). -/
def State.takeU (s : State) (home : Nat) (r : HomeReq) : State :=
  if r.kind = .iow then s.sendHint home r (mergeLine (s.memData r.line) r.mask r.data 0)
  else
    let s := if r.kind = .rdxA then s.count (uHome home) Reg.HOME_ATOM.GRANTED else s
    let s := (s.memTouch r.line).openHomeTx home r.line (if r.kind = .rds then .wr else .wx) r [] true true
    s.send .dataE (homeStop home) r.agent.stop r.line (some (s.memData r.line))

/-- A request that needs an entry for a line in U (R179, R181). -/
def State.allocTake (s : State) (home : Nat) (r : HomeReq) : State :=
  match s.allocPlan home r.line r.seam r.agent with
  | .way w => (s.takeWay home w r).takeU home r
  | .refuse =>
    if r.kind = .iow then
      (s.count (uHome home) Reg.HOME_HINT.DECLINED).iowOn home { r with hint := none } (s.memData r.line)
    else s.refuseEntry home r
  | .evict w =>
    let v := s.dirWay (s.dirSide home r.line) (dirSetOf r.line) w
    s.openHomeTx home v.line .wv r (v.invAll 0) false false none false

/-- A home agent takes a request for a line without an open transaction (R175). -/
def State.homeTake (s0 : State) (home : Nat) (r : HomeReq) : State :=
  let s := s0.dirHit home r.line
  let e := s.dirEntry home r.line
  let t := r.agent.stop
  let own := [(e.owner, MsgKind.snpS)]
  let isOwner := e.owner == t
  match r.kind, e.st with
  | .rds, .u => s.allocTake home r
  | .rds, .s => ((s.memTouch r.line).openHomeTx home r.line .wr r [] false true).send .dataS (homeStop home) t r.line
      (some (s.memData r.line))
  | .rds, _ => s.openHomeTx home r.line .wr r own
  | .ior, .u | .ior, .s => (s.memTouch r.line).sendIoData home r (s.memData r.line)
  | .ior, _ => s.openHomeTx home r.line .wr r own
  | .iow, .u => if r.hint.isSome then s.allocTake home r else s.iowOn home r (s.memData r.line)
  | .iow, _ => (s.openHomeTx home r.line .ww r (e.invAll 0)).proceedIfReady r.line
  | .mntClean, .u | .mntClean, .s | .mntInv, .u | .mntCleanInv, .u => s.sendCmp home r
  | .mntClean, _ => s.openHomeTx home r.line .ww r [(e.owner, .snpSC)]
  | .mntInv, _ | .mntCleanInv, _ => (s.openHomeTx home r.line .ww r (e.invAll 0)).proceedIfReady r.line
  | .rdx, .u | .rdxA, .u | .upg, .u => s.allocTake home r
  | .rdxA, _ => (s.openHomeTx home r.line (if s.isHot home e then .wa else .wx) r (e.invAll 0)).proceedIfReady r.line
  | .upg, .x | .rdx, _ => (s.openHomeTx home r.line .wx r (e.invAll 0)).proceedIfReady r.line
  | .upg, _ =>
    let rec_ := e.records t
    let snoops := if e.st = .o ∧ isOwner then
        (tilesOf (e.present &&& ~~~(tileBit t))).map fun x => (x, MsgKind.inv)
      else e.invAll (if rec_ then tileBit t else 0)
    (s.openHomeTx home r.line .wx r snoops rec_).proceedIfReady r.line

/-- The queue entries that requests of a seam may use, and how many are used (R174, R187). -/
def State.queueRoom (s : State) (home seam : Nat) : Bool :=
  let q := s.homeQueue.filter fun r => s.homeAgent r.line == some home
  if s.flag (uHome home) Reg.HOME_CFG.RESERVED then
    let owner (g : Nat) : Nat :=
      let reg := if g < 8 then Reg.HOME_QOWN0.QOWN0 else Reg.HOME_QOWN1.QOWN1
      (s.word (uHome home) reg.off).field (8 * (g % 8)) (8 * (g % 8) + 7)
    let owns (n : Nat) : Bool := (List.range 16).any fun g => owner g == n
    let mine := if owns seam then seam else 0xFF
    let room := ((List.range 16).filter fun g => owner g == mine).length * 8
    let used := (q.filter fun r => if owns seam then r.seam == seam else !owns r.seam).length
    decide (used < room)
  else decide (q.length < 128)

/-- A request whose seam does not own its granule is refused (R262): its checkstop follows, and its tile no longer waits. -/
def State.refuseOwner (s : State) (r : HomeReq) : State :=
  let s : State := { s with isolated := s.isolated ++ [r.seam] }
  match r.agent with
  | .tile t =>
    let u : State := { s with tileTrans := s.tileTrans.filter fun x => !(x.tile == t && x.line == r.line
      && (x.tx == .is || x.tx == .im || x.tx == .sm || x.tx == .om)) }
    u.wakeRing t
  | .io _ => s

/-- A request reaches the home agent of its line: the owner check of R262, then the queue or the directory (R174, R175). A line
without a home has no agent to take it. -/
def State.homeArrive (s : State) (r : HomeReq) : State :=
  match s.homeAgent r.line with
  | none => s
  | some home =>
    if !s.ownerAllows r.seam r.line then s.refuseOwner r
    else if s.homeBusy r.line then
      if s.queueRoom home r.seam then
        let s := { s with homeQueue := s.homeQueue ++ [r] }
        let n := (s.homeQueue.filter fun x => s.homeAgent x.line == some home).length
        s.wr (uHome home) Reg.HOME_QSTAT.PEAK (max n (s.rd (uHome home) Reg.HOME_QSTAT.PEAK))
      else (s.bump (uHome home) Reg.HOME_QSTAT.FULL_RETRY).send .retry (homeStop home) r.agent.stop r.line
    else s.homeTake home r

/-- Requests queued for a line are taken in arrival order until one opens a transaction (R174). -/
def drainQueue (home line : Nat) : Nat → State → State
  | 0, s => s
  | n + 1, s =>
    if s.homeBusy line then s
    else match s.homeQueue.findIdx? fun r => r.line == line with
      | none => s
      | some i => match s.homeQueue[i]? with
        | none => s
        | some r => drainQueue home line n ({ s with homeQueue := s.homeQueue.eraseIdx i }.homeTake home r)

/-- A transaction of the line has closed: its queue goes on. -/
def State.wakeQueue (s : State) (home line : Nat) : State := drainQueue home line s.homeQueue.length s

/-- A directory eviction has its answers (R176): dirty data to memory, the entry is freed, the request that waited for the way is
taken, and those queued for the victim line are re-presented. EVICTIONS wraps (log entry 10). -/
def State.endEviction (s : State) (h : HomeTrans) : State :=
  let s := match h.dirty, h.tookWb with
    | some d, false => s.putMemLine h.line maskAll d
    | _, _ => s
  let s := ((s.closeHomeTx h.line).setDir h.home h.line DirEntry.empty).count (uHome h.home) Reg.DIR_EVICT.EVICTIONS
  ((s.homeTake h.home h.req).wakeQueue h.home h.req.line).wakeQueue h.home h.line

/-- Go on after an answer: the last one makes the transaction proceed. -/
def State.afterAnswer (s : State) (h : HomeTrans) : State :=
  let s := s.setHomeTx h
  if h.await ≠ 0 then s
  else if h.tx = .wv then s.endEviction h
  else (s.proceed h).wakeQueue h.home h.line

/-- An answer of tile `t` is counted, with dirty data that it carries and its kept flag (R175, R177). -/
def HomeTrans.counted (h : HomeTrans) (t : Nat) (d : Option LineData) (kept : Bool) : HomeTrans :=
  { h with await := h.await - 1, asked := h.asked &&& ~~~(tileBit t),
           dirty := match d with | some x => some x | none => h.dirty,
           kept := if kept then h.kept ||| tileBit t else h.kept }

/-- A WR transaction receives the owner's answer (R175): data go to the requester, and the directory takes its next state. -/
def State.readAnswer (s : State) (h : HomeTrans) (t : Nat) (d : Option LineData) : State :=
  let r := h.req
  let e := s.dirEntry h.home h.line
  let still := decide (e.st = .x ∨ e.st = .o) && e.owner == t
  let e' : DirEntry := match still, d with
    | true, some _ => { e with st := .o }
    | true, none => { e with st := .s, present := e.present ||| tileBit t }
    | false, _ => e
  let data := match d with | some x => x | none => s.memData h.line
  let s := (if d.isSome then s else s.memTouch h.line).setDir h.home h.line e'
  if r.kind = .ior then
    (((s.closeHomeTx h.line).tidyDir h.home h.line).sendIoData h.home r data).wakeQueue h.home h.line
  else (s.setHomeTx { h.counted t none false with awaitDone := true, since := s.now }).send .dataS (homeStop h.home) r.agent.stop h.line
    (some data)

/-! ### Answers that reach a home agent -/

/-- InvAck at the home (R175, R177). -/
def State.atInvAck (s : State) (t line : Nat) (kept : Bool) : Answer :=
  match s.homeTx line with
  | none => cannot "h1"
  | some h => match h.tx with
    | .wr => cannot "h2"
    | .wh => cannot "h3"
    | _ => .next (s.afterAnswer (h.counted t none kept))

/-- SnpAck at the home (R175). -/
def State.atSnpAck (s : State) (t line : Nat) (kept : Bool) : Answer :=
  match s.homeTx line with
  | none => cannot "h1"
  | some h => match h.tx with
    | .wh => cannot "h3"
    | .wr => .next (s.readAnswer h t none)
    | _ => .next (s.afterAnswer (h.counted t none kept))

/-- SnpD at the home (R175): poisoned data set POISON_WB (R188). -/
def State.atSnpD (s : State) (t line : Nat) (d : LineData) (kept : Bool) : Answer :=
  match s.homeTx line with
  | none => cannot "h1"
  | some h =>
    let s := if d.poison != 0 then s.stick (uHome h.home) Reg.HOME_ERR.POISON_WB else s
    match h.tx with
    | .wh => cannot "h3"
    | .wr => .next (s.readAnswer h t (some d))
    | _ => .next (s.afterAnswer (h.counted t (some d) kept))

/-- HintAck at the home (R175): the target becomes the owner, unless its copy has left meanwhile; Cmp is sent. -/
def State.atHintAck (s : State) (t line : Nat) : Answer :=
  match s.homeTx line with
  | none => cannot "h4"
  | some h => if h.tx ≠ .wh then cannot "h4" else
    let s := s.closeHomeTx h.line
    let s := if h.tookWb then s.setDir h.home h.line DirEntry.empty
      else s.setDir h.home h.line { DirEntry.holding h.line h.req.seam with st := .x, owner := t }
    .next (((s.count (uHome h.home) Reg.HOME_HINT.INSTALLED).sendCmp h.home h.req).wakeQueue h.home h.line)

/-- HintDecl at the home (R175): the line stays in memory, which is written now if HINT_DEFER had kept it unwritten; Cmp is sent. -/
def State.atHintDecl (s : State) (line : Nat) : Answer :=
  match s.homeTx line with
  | none => cannot "h4"
  | some h => if h.tx ≠ .wh then cannot "h4" else
    let s := match h.dirty with
      | some d => if h.tookWb then s else s.putMemLine h.line maskAll d
      | none => s
    let s := (s.closeHomeTx h.line).setDir h.home h.line DirEntry.empty
    .next (((s.count (uHome h.home) Reg.HOME_HINT.DECLINED).sendCmp h.home h.req).wakeQueue h.home h.line)

/-- Done at the home (R175): a read or ownership transaction closes, and the requester is recorded. -/
def State.atDone (s : State) (t line : Nat) : Answer :=
  match s.homeTx line with
  | none => cannot "h5"
  | some h => if h.tx ≠ .wr ∧ h.tx ≠ .wx then cannot "h5" else
    let s := s.closeHomeTx h.line
    let e := s.dirEntry h.home h.line
    let s := if h.tx = .wx ∨ h.recorded then s.setDir h.home h.line (s.ownedEntry h.home h.line h.req.seam t)
      else s.setDir h.home h.line { e with present := e.present ||| tileBit t }
    .next (s.wakeQueue h.home h.line)

/-- WB from tile `t` (R175): the owner's data go to memory; another tile's are stale. -/
def State.wbArrive (s : State) (home t line : Nat) (d : LineData) : State :=
  let e := s.dirEntry home line
  let write (s : State) : State :=
    let s := s.putMemLine line maskAll d
    if d.poison != 0 then s.stick (uHome home) Reg.HOME_ERR.POISON_WB else s
  match s.homeTx line with
  | none =>
    if (e.st = .x ∨ e.st = .o) ∧ e.owner = t then
      (write s).setDir home line { e with st := if e.present = 0 ∨ e.st = .x then .u else .s }
    else s.bump (uHome home) Reg.HOME_WB.STALE
  | some h =>
    if h.tx = .wh then
      if h.asked = tileBit t then (write s).setHomeTx { h with tookWb := true } else s.bump (uHome home) Reg.HOME_WB.STALE
    else if (e.st = .x ∨ e.st = .o) ∧ e.owner = t then
      ((write s).setHomeTx { h with tookWb := true }).setDir home line
        { e with st := .s, present := if e.st = .x then 0 else e.present }
    else s.bump (uHome home) Reg.HOME_WB.STALE

/-- WB at the home of its line, which acknowledges it. -/
def State.atWb (s : State) (t line : Nat) (d : LineData) : State :=
  match s.homeAgent line with
  | none => s
  | some home => (s.wbArrive home t line d).send .wbAck (homeStop home) t line

/-- Evc at the home (R175): the notice that a tile's last clean copy left, acknowledged. From the owner of a line in O it cannot occur
(h8). -/
def State.atEvc (s : State) (t line : Nat) : Answer :=
  match s.homeAgent line with
  | none => .next s
  | some home =>
    let e := s.dirEntry home line
    let ack (s : State) : Answer := .next (s.send .wbAck (homeStop home) t line)
    let cleared : DirEntry := { e with present := e.present &&& ~~~(tileBit t) }
    match s.homeTx line with
    | none => match e.st with
      | .u => ack s
      | .s => ack ((s.setDir home line cleared).tidyDir home line)
      | .x => ack (if e.owner = t then s.setDir home line DirEntry.empty else s)
      | .o => if e.owner = t then cannot "h8" else ack (s.setDir home line cleared)
    | some h =>
      if h.tx = .wh then ack (if h.asked = tileBit t then s.setHomeTx { h with tookWb := true } else s)
      else if (e.st = .x ∨ e.st = .o) ∧ e.owner = t then
        ack (s.setDir home line { cleared with st := .s, present := if e.st = .x then 0 else cleared.present })
      else if e.st = .s ∨ e.st = .o then ack (s.setDir home line cleared)
      else ack s

/-! ### I/O agents and timeouts -/

/-- The line data of an IOR reach its agent (R170). -/
def State.atIoData (s : State) (u : UnitId) (line : Nat) (d : LineData) : State :=
  { s with ioData := (s.ioData.filter fun x => x.1 != u) ++ [(u, line, d)] }

/-- A home transaction that has awaited an answer for 20 µs is closed (R183): the line is poisoned in memory where dirty data was awaited;
dirty data that had arrived go to memory (log entry 37); the entry is freed, and the unanswering tile is reported. -/
def State.homeTimeout (s : State) (h : HomeTrans) : State :=
  let home := h.home
  let e := s.dirEntry home h.line
  let ownerOwes := decide (e.st = .x ∨ e.st = .o) && (h.asked &&& tileBit e.owner) != 0 && h.tx != .wh
  let s := if ownerOwes then s.putMemLine h.line maskAll ⟨(s.memData h.line).data, 0xFFFF⟩
    else match h.dirty, h.tookWb with
      | some d, false => s.putMemLine h.line maskAll d
      | _, _ => s
  let s := (s.closeHomeTx h.line).setDir home h.line DirEntry.empty
  let peer := match tilesOf h.asked with
    | t :: _ => some (uTile t)
    | [] => match h.req.agent with | .tile t => some (uTile t) | .io u => some u
  let s := (s.stick (uHome home) Reg.HOME_ERR.TIMEOUT peer (BitVec.ofNat 64 h.line)).bump (uHome home) Reg.HOME_ERR.TIMEOUTS
  let s := if h.tx = .wv then (s.homeTake home h.req).wakeQueue home h.req.line else s
  s.wakeQueue home h.line

/-! ### Delivery (R169) -/

/-- What a message does where it arrives; it has left the Shaft. -/
def State.deliver (s : State) (m : Msg) : Answer :=
  let d := m.data.getD LineData.zero
  match m.kind with
  | .rds | .rdx | .rdxA | .upg | .mnt | .ior | .iow => .next (match m.req with | some r => s.homeArrive r | none => s)
  | .inv => s.atInv m.dst m.line m.flag
  | .snpS => s.atSnpS m.dst m.line false
  | .snpSC => s.atSnpS m.dst m.line true
  | .snpX => s.atSnpX m.dst m.line m.flag
  | .hint => match m.req with
    | some r => match r.hint with
      | some tgt => s.atHint tgt m.line r.seam m.flag d
      | none => .next s
    | none => .next s
  | .invAck => s.atInvAck m.src m.line m.flag
  | .snpAck => s.atSnpAck m.src m.line m.flag
  | .snpD => s.atSnpD m.src m.line d m.flag
  | .hintAck => s.atHintAck m.src m.line
  | .hintDecl => s.atHintDecl m.line
  | .done => s.atDone m.src m.line
  | .dataS => s.atData .s m.dst m.line d
  | .dataE => s.atData .e m.dst m.line d
  | .dataM => s.atData .m m.dst m.line d
  | .gntX => s.atGntX m.dst m.line
  | .atmR => s.atAtmR m.dst m.line d
  | .wbAck => s.atWbAck m.dst m.line
  | .retry => s.atRetry m.dst m.line
  | .cmp => .next s
  | .ioData => .next (match m.req with
    | some r => match r.agent with | .io u => s.atIoData u m.line d | .tile _ => s
    | none => s)
  | .wb => .next (s.atWb m.src m.line d)
  | .evc => s.atEvc m.src m.line

/-- May a message arrive now: it is the oldest of its class on its way about its line (R169), and its stop has a slot for it (R187)? -/
def State.arrives (s : State) (m : Msg) : Bool :=
  (s.msgs.find? fun n => n.sameWay m) == some m && (m.inserted || s.mayInsert m.src m.dst m.seam)

/-- The first of some messages that can arrive does so. -/
def deliverFirst (s : State) : List Msg → Option State
  | [] => none
  | m :: ms =>
    match State.deliver { s with msgs := s.msgs.erase m } m with
    | .next t => some t
    | _ => deliverFirst s ms

/-- Does a message belong to what a line waits for: it is about the line, or about one whose directory way the line waits for? -/
def State.concerns (s : State) (line : Nat) (m : Msg) : Bool :=
  m.line == line || s.homeTrans.any fun h => h.line == m.line && h.req.line == line

/-- The messages that concern a line arrive, the oldest first, and refused requests are sent again, until nothing moves. -/
def finishLine (line : Nat) : Nat → State → State
  | 0, s => s
  | n + 1, s =>
    match deliverFirst s (s.msgs.filter fun m => s.concerns line m && s.arrives m) with
    | some t => finishLine line n t
    | none => match s.tileTrans.find? fun x => x.line == line && x.resendAt.isSome with
      | some x => finishLine line n (s.resend x)
      | none => s

/-- Is no transaction of a home agent or a tile controller open for a line? -/
def State.quiet (s : State) (line : Nat) : Bool := !s.homeBusy line && !(s.tileTrans.any fun t => t.line == line)

/-- The home transaction that a line waits for. -/
def State.blocker (s : State) (line : Nat) : Option HomeTrans := s.homeTrans.find? fun h => h.line == line || h.req.line == line

/-- An access waits for the transactions of its line: their messages arrive; one whose answer never comes is closed by R183, where that
falls within the time `limit` in ns (log entry 12). -/
def awaitRun (line : Nat) (limit : Option Nat) : Nat → State → State
  | 0, s => s
  | n + 1, s =>
    let s := finishLine line 1024 s
    match s.blocker line with
    | none => s
    | some h =>
      if limit.any fun l => decide (s.now + l < h.since + 20000) then s else awaitRun line limit n (s.homeTimeout h)

/-- The state in which an access to a line goes on: at once where the line is quiet. -/
def State.awaitLine (s : State) (line : Nat) (limit : Option Nat := none) : State :=
  if s.quiet line then s else awaitRun line limit 200 s

/-- Messages sent before one of a kind, in the same class and about the same line, arrive before it (R169). -/
def arriveBefore (kind : MsgKind) (src dst line : Nat) : Nat → State → State
  | 0, s => s
  | n + 1, s =>
    match s.msgs.find? fun m => m.kind.cls == kind.cls && m.src == src && m.dst == dst && m.line == line with
    | none => s
    | some m =>
      if m.kind = kind then s
      else match State.deliver { s with msgs := s.msgs.erase m } m with
        | .next t => arriveBefore kind src dst line n t
        | _ => s

end Sys2Proof.Machine
end

