-- ==== Sys2Proof/Machine/Runs.lean ====
section
/-! DEFINITION. Accesses of cores and I/O agents run to their end: the net effect of the coherence transactions that they start, once those
already open for the line have gone on (R139-R182). -/

namespace Sys2Proof.Machine

/-! ### The directory for an access -/

/-- Every transaction of the lines that share a directory set with a line goes on. -/
def State.awaitSet (s : State) (home line : Nat) : State :=
  let set := dirSetOf line
  State.each (List.range 16) (fun w s =>
    let e := s.dirWay (s.dirSide home line) set w
    if e.st = .u then s else s.awaitLine e.line) s

/-- Evict a directory entry: its copies are recalled, dirty data go to memory, the entry is freed (R175, R179). -/
def State.dirEvict (s : State) (home side w set : Nat) : State :=
  let line := (s.dirWay side set w).line
  let s := s.awaitLine line
  let r := s.killTiles (s.dirEntry home line).holders line
  let s := match r.2 with
    | some d => r.1.putMemLine line maskAll d
    | none => r.1
  { s with dir := s.dir.put DirEntry.empty (dirKey side set w) DirEntry.empty }.count (uHome home) Reg.DIR_EVICT.EVICTIONS

/-- An entry for a line in U (R179): a free eligible way, or a victim that is evicted first. A request refused because every eligible way
is transient is counted, holds the reservation, and is taken again when the transactions of the set have gone on; none where that frees no
way. -/
def State.dirAlloc (s : State) (home : Nat) (r : HomeReq) : Option State :=
  let plan (s : State) : Option State :=
    match s.allocPlan home r.line r.seam r.agent with
    | .way w => some (s.takeWay home w r)
    | .evict w => some ((s.dirEvict home (s.dirSide home r.line) w (dirSetOf r.line)).takeWay home w r)
    | .refuse => none
  match plan s with
  | some t => some t
  | none =>
    let s := s.reserveWay home r
    let s := match r.agent with
      | .tile t => s.bump ⟨.ring, t⟩ Reg.SHF_TCC_STAT.RETRIED
      | .io _ => s
    plan (s.awaitSet home r.line)

/-- The directory records an entry for a line, in a way that it has or takes. -/
def State.dirRecord (s : State) (home line seam : Nat) (e : DirEntry) : State :=
  match s.dirFind home line with
  | some _ => s.setDir home line e
  | none => match s.dirAlloc home (tileRequest e.owner .rds line seam) with
    | some s => s.setDir home line e
    | none => s

/-! ### Transactions run to their end -/

/-- How an access ends: performed with the line's data, waiting for an open transaction, refused by the owner check of R262,
or on an unmapped line (R25). -/
inductive Access1 where
  | ok (s : State) (d : LineData)
  | wait
  | refused
  | unmapped
  deriving DecidableEq, Repr

/-- A home agent whose directory has no owner for a line reads it from its channel. -/
def State.homeTouch (s : State) (line : Nat) : State :=
  match s.homeAgent line with
  | some home =>
    let st := (s.dirEntry home line).st
    if st = .u ∨ st = .s then s.memTouch line else s
  | none => s

/-- RdS run to its end (R172, R175): the data a tile receives and the state it receives them in; none where no directory way is to be had.
-/
def State.homeRead (s0 : State) (home line seam t : Nat) (mem : LineData) : Option (State × LineData × CState) :=
  let s := s0.dirHit home line
  let e := s.dirEntry home line
  match e.st with
  | .u => (s.dirAlloc home (tileRequest t .rds line seam)).map fun s =>
      (s.setDir home line { line := line, st := .x, present := 0, owner := t, seam := seam, hot := false, hotAt := 0 }, mem, .e)
  | .s => some (s.setDir home line { e with present := e.present ||| tileBit t }, mem, .s)
  | _ =>
    let r := s.tileDown e.owner line false
    match r.2 with
    | some d => some (r.1.setDir home line { e with st := .o, present := e.present ||| tileBit t }, d, .s)
    | none => some (r.1.setDir home line { e with st := .s, present := e.present ||| tileBit t ||| tileBit e.owner }, mem, .s)

/-- RdX or Upg run to its end: every other copy goes, and the tile becomes the owner. -/
def State.homeOwn (s0 : State) (home line seam t : Nat) (mem : LineData) : Option (State × LineData) :=
  let s := s0.dirHit home line
  let e := s.dirEntry home line
  let r := s.killTiles (e.holders.filter fun u => u != t) line
  let d := match s.tileDirty t line, r.2 with
    | some d, _ => d
    | none, some d => d
    | none, none => mem
  let own := s.ownedEntry home line seam t
  let u := if e.st = .u then r.1.dirAlloc home (tileRequest t .rdx line seam) else some r.1
  u.map fun u => (u.setDir home line own, d)

/-! ### Cores -/

/-- A line comes into a core's L2, which does not hold it, for reading (R143, R171, R172). -/
def State.fetchL2 (s0 : State) (k line seam : Nat) (stream : Bool) : Access1 :=
  let t := k / 12
  let s := s0.awaitLine line
  if !s.quiet line ∨ (s.cacheVictim (.l2 k) line seam).isNone then .wait
  else match s.tileCopy t line with
    | some (_, l) =>
      let s := ((s.ringCount t (s.supplies t line)).tileDown t line false).1
      .ok (s.fillL2 k line .s l.data seam stream) l.data
    | none =>
      if !s.ownerAllows seam line then .refused
      else
        let s := s.homeTouch line
        match s.homeAgent line, s.memLine line with
        | some home, some mem =>
          match ((s.ringCount t false).l3Miss t line).homeRead home line seam t mem with
          | some r => .ok (r.1.fillL2 k line r.2.2 r.2.1 seam stream) r.2.1
          | none => .wait
        | _, _ => .unmapped

/-- A line on its way out of a core's L2, or of its tile with WB sent, serves the core's loads from its entry (R143, R172). -/
def State.bufferedLine (s : State) (k line : Nat) : Option LineData :=
  match s.peek (.l2e k) line with
  | some l => some l.data
  | none => if (s.tileTx (k / 12) line).any fun x => x.tx == .mi then s.leaving (k / 12) line else none

/-- A core's read of a line of normal cacheable memory (R139, R143, R171, R172). -/
def State.getShared (s : State) (k line seam : Nat) (ifetch stream : Bool) : Access1 :=
  let l1 : CacheId := if ifetch then .l1i k else .l1d k
  match s.peek l1 line, s.peek (.l2 k) line, s.bufferedLine k line with
  | some l, _, _ => .ok (s.hit l1 line) l.data
  | none, some l, _ => .ok ((s.hit (.l2 k) line).fillL1 k ifetch line l.data l.seam stream) l.data
  | none, none, some d => .ok s d
  | none, none, none => match s.fetchL2 k line seam stream with
    | .ok s d => .ok (s.fillL1 k ifetch line d seam stream) d
    | e => e

/-- A core takes ownership of a line that its L2 does not hold in M or E: other copies of the tile go, and where the tile
lacks ownership its home grants it. A line that waits in the core's eviction buffer returns to the L2 (R143). -/
def State.takeOwn (s0 : State) (k line seam : Nat) (stream : Bool) : Access1 :=
  let t := k / 12
  let s := s0.awaitLine line
  let st := s.tileState t line
  if !s.quiet line ∨ !s.hasWay k line seam then .wait
  else if st = .m ∨ st = .e then
    match s.tileCopy t line with
    | some (_, l) => .ok ((s.ringCount t true).tileOwn k line seam l.data stream) l.data
    | none => .wait
  else if !s.ownerAllows seam line then .refused
  else
    let s := s.homeTouch line
    match s.homeAgent line, s.memLine line with
    | some home, some mem =>
      let s := if st = .i then s.l3Miss t line else s
      match (s.ringCount t false).homeOwn home line seam t mem with
      | some r => .ok (r.1.tileOwn k line seam r.2 stream) r.2
      | none => .wait
    | _, _ => .unmapped

/-- A core takes ownership of a line: its L2 holds it in M, every other copy is gone (R171, R172). -/
def State.getOwned (s : State) (k line seam : Nat) (stream : Bool) : Access1 :=
  match s.peek (.l2 k) line with
  | some l =>
    if l.st = .m ∨ l.st = .e then
      .ok ((s.hit (.l2 k) line).alter (.l2 k) line fun x => { x with st := .m }) l.data
    else s.takeOwn k line seam stream
  | none => s.takeOwn k line seam stream

/-- A line that no cache of a tile holds comes into its L3, for a prefetch; it is not issued where no way may take it (R146, R147). -/
def State.fetchL3 (s0 : State) (t line seam : Nat) (stream : Bool) : State :=
  let s := s0.awaitLine line
  let slice := 8 * t + sliceOf line
  if !s.quiet line || (s.tileCopy t line).isSome || !s.ownerAllows seam line then s0
  else match s.cacheVictim (.l3 slice) line seam with
    | none => s0
    | some w =>
      let s := s.homeTouch line
      match s.homeAgent line, s.memLine line with
      | some home, some mem =>
        match ((s.ringCount t false).l3Miss t line).homeRead home line seam t mem with
        | some r => r.1.installL3 slice w { line := line, st := r.2.2, data := r.2.1, seam := seam, stream := stream }
        | none => s0
      | _, _ => s0

/-! ### I/O agents -/

/-- An I/O agent's read of a line (R170, R175). -/
def State.ioRead (s0 : State) (line seam : Nat) : Access1 :=
  let s := s0.awaitLine line
  if s.homeBusy line then .wait
  else if !s.ownerAllows seam line then .refused
  else
    let s := s.homeTouch line
    match s.homeAgent line, s.memLine line with
    | some home, some mem =>
      let s := s.dirHit home line
      let e := s.dirEntry home line
      if e.st = .x ∨ e.st = .o then
        let r := s.tileDown e.owner line false
        match r.2 with
        | some d => .ok (r.1.setDir home line { e with st := .o }) d
        | none => .ok (r.1.setDir home line { e with st := .s, present := e.present ||| tileBit e.owner }) mem
      else .ok s mem
    | _, _ => .unmapped

/-- An I/O agent's masked write of a line, with or without a hint target (R175, R181). -/
def State.ioWrite (s0 : State) (line seam : Nat) (m : BitVec 128) (new : LineData) (hint : Option HintTarget) : Access1 :=
  let s := s0.awaitLine line
  if s.homeBusy line then .wait
  else if !s.ownerAllows seam line then .refused
  else match s.homeAgent line, s.memLine line with
    | some home, some mem =>
      let s := s.dirHit home line
      let e := s.dirEntry home line
      let r := s.killTiles e.holders line
      let base := match r.2 with | some d => d | none => mem
      let merged := mergeLine base m new.data new.poison
      let s := r.1
      match hint with
      | none => .ok ((s.setDir home line DirEntry.empty).putMemLine line maskAll merged) merged
      | some tgt =>
        let defer := s.flag (uHome home) Reg.HOME_CFG.HINT_DEFER
        let way : Option State := if e.st = .u then
            (match s.allocPlan home line seam (.io uModule) with
            | .refuse => none
            | _ => s.dirAlloc home { tileRequest 0 .iow line seam with agent := .io uModule })
          else some s
        let declined (s : State) : Access1 :=
          .ok (((s.setDir home line DirEntry.empty).putMemLine line maskAll merged).count (uHome home) Reg.HOME_HINT.DECLINED) merged
        match way with
        | none => declined s
        | some s =>
          let s := if defer then s else s.putMemLine line maskAll merged
          match s.hintInstall tgt line seam (if defer then .m else .e) merged with
          | (s, some t) =>
            .ok ((s.setDir home line { line := line, st := .x, present := 0, owner := t, seam := seam, hot := false, hotAt := 0 }).count
              (uHome home) Reg.HOME_HINT.INSTALLED) merged
          | (s, none) => declined s
    | _, _ => .unmapped

/-! ### Maintenance of a line (R155, R160, R177) -/

/-- The dirty data of the module's copies, and whether they wait in an eviction buffer, from where they reach memory in every case (R155).
-/
def State.dirtyCopy (s : State) (line : Nat) : Option (LineData × Bool) :=
  match bestBy (fun a b => b.2.st.rank < a.2.st.rank) ((List.range 4).filterMap fun t => s.tileCopy t line) with
  | some (c, l) => if l.st.dirty then some (l.data, match c with | .l2e _ => true | _ => false) else none
  | none => none

/-- One line of a maintenance operation, module-wide. With `skip`, locked copies of an invalidating operation stay, cleaned, and the count
of skipped copies is answered (R160). Where INVR meets dirty data beside a locked copy, they go to memory, as R177 has a locked copy that
was dirty cleaned: the copy that stays is current (log entry 109). -/
def State.maintain (s0 : State) (line : Nat) (op : MaintOp) (skip : Bool) : State × Nat :=
  let s := s0.awaitLine line
  match s.homeAgent line with
  | none => (s, 0)
  | some home =>
    let s := s.dirHit home line
    let e := s.dirEntry home line
    let locked := if skip && op != .clean then s.lockedHolders line else []
    let s := match s.dirtyCopy line with
      | some (d, buffered) => if op != .inval || buffered || !locked.isEmpty then s.putMemLine line maskAll d else s
      | none => s
    if op = .clean then
      match e.st with
      | .x | .o =>
        ((s.tileDown e.owner line true).1.setDir home line { e with st := .s, present := e.present ||| tileBit e.owner }, 0)
      | _ => (s, 0)
    else
      let s := State.each e.holders (fun t x =>
        (State.each ((tileCaches t line).filter fun c => !locked.contains c) (fun c y => y.dropLevel c line) x).upgradeLost t line) s
      let s := State.each locked (fun c x => x.alter c line fun l => { l with st := .s }) s
      let s := State.each locked (fun c x => match c with
        | .l2 k => (x.cleanL1 k line).bump (uCore k) Reg.L2_MAINT_SKIP.COUNT
        | .l3 i => x.count (uL3 i) Reg.L3_MAINT_SKIP.COUNT
        | _ => x) s
      let keep := locked.foldl (fun a c => a ||| tileBit c.tile) 0
      if keep = 0 then (s.setDir home line DirEntry.empty, 0)
      else (s.setDir home line { e with st := .s, present := keep }, locked.length)

end Sys2Proof.Machine
end

