-- ==== Sys2Proof/Machine/Agents.lean ====
section
/-! DEFINITION. Accesses of a seam's memory by hardware agents: the granule map (R258, R259), reads and writes of byte ranges
by haulers, engines and the Foreman, and a core's buffered stores on their way to memory (R126-R131, R138). -/

namespace Sys2Proof.Machine

/-! ### Current data of a line -/

/-- The data that a line holds now, wherever its newest copy is, as a reader finds them once what is in flight for the line has arrived;
none where the line is unmapped. -/
def State.snapshot (s0 : State) (line : Nat) : Option LineData :=
  let s := s0.awaitLine line
  match s.bestCopy line with
  | some l => if l.st.dirty then some l.data else s.memLine line
  | none => s.memLine line

/-! ### The granule map -/

/-- How an absolute address of a seam maps to memory (R70, R258, R259). -/
inductive Mapped where
  | ok (phys : Nat)
  | outside
  | uncorrectable
  deriving DecidableEq, Repr

/-- The map entry of a seam granule as it stands in memory: the word, and whether it is poisoned or cannot be read. -/
def State.mapEntry (s : State) (n g : Nat) : Option Nat :=
  let addr := s.rd uSeamCtl (Reg.SEAM_MAP.MAP_BASE.ix n) * 2 ^ 21 + 4 * g
  match s.snapshot (addr / 128) with
  | none => none
  | some d => if d.poisoned (addr % 128) 4 then none
      else some (beNat ((List.range 4).map fun i => lineByte d.data (addr % 128 + i)))

/-- The module physical address of a seam absolute address. Seam 0 uses module physical addresses directly (R255). -/
def State.mapAbs (s : State) (n addr : Nat) : Mapped :=
  if n = 0 then .ok addr
  else
    let g := addr / 65536
    if s.rd uSeamCtl (Reg.SEAM_GRAN.LIMIT.ix n) ≤ g then .outside
    else match s.mapEntry n g with
      | none => .uncorrectable
      | some e => if e < 2 ^ 31 then .outside else .ok (e % 2 ^ 19 * 65536 + addr % 65536)

/-! ### Byte ranges -/

/-- How an agent's access of a range ends. -/
inductive AgentEnd where
  | done
  | poisoned
  | outside
  | mapUncorrectable
  | refused
  | unmapped
  deriving DecidableEq, Repr

/-- The pieces of a byte range, each within one line: address and length. `fuel` bounds their number. -/
def linePieces : Nat → Nat → Nat → List (Nat × Nat)
  | 0, _, _ => []
  | fuel + 1, addr, n =>
    if n = 0 then []
    else
      let k := min n (128 - addr % 128)
      (addr, k) :: linePieces fuel (addr + k) (n - k)

/-- The pieces of `n` bytes from `addr`. -/
def piecesOf (addr n : Nat) : List (Nat × Nat) := linePieces (n / 128 + 2) addr n

/-- An I/O agent's read of one line, which waits for what is open for the line (log entry 12). -/
def State.agentLine (s : State) (seam line : Nat) : State × Option LineData × AgentEnd :=
  match s.ioRead line seam with
  | .ok s d => (s, some d, .done)
  | .wait => (s, none, .unmapped)
  | .refused => (s, none, .refused)
  | .unmapped => (s, none, .unmapped)

/-- Read `n` bytes of a seam's memory at an absolute address, for a hauler, an engine or the Foreman. -/
def State.agentRead (s : State) (seam addr n : Nat) : State × List Byte × AgentEnd :=
  (piecesOf addr n).foldl (fun (a : State × List Byte × AgentEnd) p =>
    let (s, bytes, st) := a
    if st != .done && st != .poisoned then a
    else match s.mapAbs seam p.1 with
      | .outside => (s, bytes, .outside)
      | .uncorrectable => (s, bytes, .mapUncorrectable)
      | .ok phys =>
        match s.agentLine seam (phys / 128) with
        | (s, some d, _) =>
          (s, bytes ++ (List.range p.2).map (fun i => lineByte d.data (phys % 128 + i)),
            if d.poisoned (phys % 128) p.2 then .poisoned else st)
        | (s, none, e) => (s, bytes, e)) (s, [], .done)

/-- Write one piece within a line for an I/O agent. -/
def State.agentPut (s : State) (seam phys : Nat) (bytes : List Byte) (hint : Option HintTarget) : State × AgentEnd :=
  let m := maskRange (phys % 128) bytes.length
  let d : LineData := ⟨lineAtOffset (phys % 128) bytes, 0⟩
  match s.ioWrite (phys / 128) seam m d hint with
  | .ok s _ => (s, .done)
  | .refused => (s, .refused)
  | .wait | .unmapped => (s, .unmapped)

/-- Write bytes to a seam's memory at an absolute address, line by line; `hint` names the target of the line with a number. -/
def State.agentWrite (s : State) (seam addr : Nat) (bytes : List Byte)
    (hint : Nat → Option HintTarget := fun _ => none) : State × AgentEnd :=
  let r := (piecesOf addr bytes.length).foldl (fun (a : State × Nat × AgentEnd × Nat) p =>
    let (s, at_, st, i) := a
    if st != .done then a
    else match s.mapAbs seam p.1 with
      | .outside => (s, at_, .outside, i)
      | .uncorrectable => (s, at_, .mapUncorrectable, i)
      | .ok phys =>
        let q := s.agentPut seam phys ((bytes.drop at_).take p.2) (hint i)
        (q.1, at_ + p.2, q.2, i + 1)) (s, 0, .done, 0)
  (r.1, r.2.2.1)

/-- Read bytes of seam-0 memory at a module physical address. -/
def State.physRead (s : State) (addr n : Nat) : State × List Byte × AgentEnd := s.agentRead 0 addr n

/-- Write bytes of seam-0 memory at a module physical address. -/
def State.physWrite (s : State) (addr : Nat) (bytes : List Byte) : State × AgentEnd := s.agentWrite 0 addr bytes

/-! ### Buffered stores of a core -/

/-- A store that could not be performed: its core, its seam, and the checkstop cause (R138, R183, R262). -/
abbrev Loss := Nat × Nat × Nat

/-- A store merges into the youngest gather entry if that is open and holds its line; else it opens an entry and closes the
older ones (R129). -/
def gatherStore (now : Nat) (l : List Gather) (b : BufStore) : List Gather :=
  let m := maskRange (b.phys % 128) b.bytes.length
  let d := lineAtOffset (b.phys % 128) b.bytes
  let un := b.mt == .uncached
  let fresh : Gather :=
    { line := b.phys / 128, uncached := un, mask := m, data := d, seam := b.seam, stream := b.stream, isOpen := true, openedAt := now }
  match l.getLast? with
  | some g =>
    if g.isOpen ∧ g.line = b.phys / 128 ∧ g.uncached = un then
      l.dropLast ++ [{ g with mask := g.mask ||| m, data := (g.data &&& ~~~(maskBits m)) ||| d }]
    else l.map (fun x => { x with isOpen := false }) ++ [fresh]
  | none => [fresh]

/-- Perform one gather entry: in the L2 with the line in M, or at the memory channel (R129). It waits for what is open for its line, within
`limit` where there is one; none where the wait does not end so. -/
def State.performGather (s0 : State) (k : Nat) (g : Gather) (limit : Option Nat := none) : Option (State × List Loss) :=
  if g.uncached then
    if !s0.ownerAllows g.seam g.line then some (s0, [(k, g.seam, 3)])
    else match s0.homeAgent g.line with
      | none => some (s0, [(k, g.seam, 1)])
      | some _ => some (s0.putMemLine g.line g.mask ⟨g.data, 0⟩, [])
  else
    let s := s0.awaitLine g.line limit
    if !s.quiet g.line then none
    else match s.getOwned k g.line g.seam g.stream with
      | .ok s _ => some (s.writeOwned k g.line g.mask g.data, [])
      | .wait => none
      | .refused => some (s, [(k, g.seam, 3)])
      | .unmapped => some (s, [(k, g.seam, 1)])

/-- Perform gather entries in order, as far as they can be: what is left, and the losses. -/
def performAll (k : Nat) (limit : Option Nat) : List Gather → State × List Loss → State × List Loss × List Gather
  | [], a => (a.1, a.2, [])
  | g :: rest, a =>
    match a.1.performGather k g limit with
    | some r => performAll k limit rest (r.1, a.2 ++ r.2)
    | none => (a.1, a.2, g :: rest)

/-- Drain the store buffer and the gather buffer of a core: every entry is performed, in order (R128). What is not performed within `limit`
stays in the gather buffer; without a limit, a store whose line no transaction ever yields is lost as R183 loses it. -/
def State.drain (s : State) (k : Nat) (limit : Option Nat := none) : State × List Loss :=
  let c := s.core k
  let gs := c.storeBuf.foldl (gatherStore s.now) c.gather
  let r := performAll k limit gs (s.setCore k { c with storeBuf := [], gather := [] }, [])
  if limit.isSome then (r.1.setCore k { r.1.core k with gather := r.2.2 }, r.2.1)
  else (r.1, r.2.1 ++ r.2.2.map fun g => (k, g.seam, 1))

end Sys2Proof.Machine
end

