-- ==== Sys2Proof/Machine/Trackers.lean ====
section
/-! DEFINITION. Stride trackers and prefetches (R146-R148). -/

namespace Sys2Proof.Machine

/-- Train a table of trackers on a load: a repeated stride of up to ±32 KiB gains confidence, another one starts again. A new instruction
takes the place of the tracker that has trained least recently (log entry 53). The tracker after training comes first. -/
def trainTable (size : Nat) (r : LoadRec) (l : List Stride) : Stride × List Stride :=
  let rest := l.filter fun x => x.ia != r.ia
  let x : Stride := match l.find? fun x => x.ia == r.ia with
    | some x =>
      let d : Int := (r.virt : Int) - (x.last : Int)
      if d.natAbs ≤ 32768 ∧ d = x.stride ∧ d ≠ 0 then { x with last := r.virt, conf := min (x.conf + 1) 3 }
      else { x with last := r.virt, stride := if d.natAbs ≤ 32768 then d else 0, conf := if d.natAbs ≤ 32768 ∧ d ≠ 0 then 1 else 0 }
    | none => { ia := r.ia, last := r.virt, stride := 0, conf := 0 }
  (x, (rest.drop (rest.length + 1 - size)) ++ [x])

/-- CONFIRM; 0 is treated as 1 (R165). -/
def State.confirm (s : State) (k : Nat) : Nat := max 1 (s.rd (uCore k) Reg.L2_PF_CFG.CONFIRM)

/-- The virtual addresses that a tracker prefetches, `n` lines ahead: in steps of the stride, of a whole line at least, within the load's
translation page (R146, R147). -/
def aheadOf (x : Stride) (r : LoadRec) (n : Nat) : List Nat :=
  let page := if r.big then 1048576 else 4096
  let step : Int := if 128 ≤ x.stride.natAbs then x.stride else if x.stride < 0 then -128 else 128
  (List.range n).filterMap fun (i : Nat) =>
    let v : Int := (r.virt : Int) + step * ((i : Int) + 1)
    if v < 0 ∨ v.toNat / page ≠ r.virt / page then none else some v.toNat

/-- Does a virtual address lie in the streaming window of c25 (R148)? -/
def inWindow (c25 : Word) (v : Nat) : Bool :=
  let size := c25.field 44 51
  let base := c25.field 0 43 * 2 ^ 20
  size != 0 && decide (base ≤ v) && decide (v < base + size * 2 ^ 20)

/-- The tile has no free entry in its miss resources, and a prefetch is dropped (R146, R167). -/
def State.missFull (s : State) (t : Nat) : Bool := decide (256 ≤ s.openCount t)

/-- The line of a prefetch: the physical line of the virtual address `v` on the page of the load. -/
def State.prefetchLine (s : State) (seam : Nat) (r : LoadRec) (v : Nat) : Option Nat :=
  match s.mapAbs seam (r.abs + v - r.virt) with
  | .ok phys => some (phys / 128)
  | _ => none

/-- One load of a retired group trains the core's trackers, and those that are confident prefetch. -/
def State.trainOne (s : State) (k seam : Nat) (r : LoadRec) : State :=
  let c := s.core k
  let c25 := c.arch.cr.look 0 25
  let one := trainTable 16 r c.l1Track
  let two := trainTable 32 r c.l2Track
  let s := s.setCore k { c with l1Track := one.2, l2Track := two.2 }
  let off (n : Nat) : Bool := (c.arch.cr.look 0 24).bit n
  let keep (s : State) : Access1 → State
    | .ok s _ => s
    | _ => s
  let s :=
    if s.flag (uCore k) Reg.L1_CFG.L1D_PF_EN ∧ !off 0 ∧ s.confirm k ≤ one.1.conf then
      State.each (aheadOf one.1 r 1) (fun v s => match s.prefetchLine seam r v with
        | some line => if s.missFull (k / 12) then s else keep s (s.getShared k line seam false (inWindow c25 v))
        | none => s) s
    else s
  if s.flag (uCore k) Reg.L2_PF_CFG.PF_EN ∧ !off 1 ∧ s.confirm k ≤ two.1.conf then
    let n := s.rd (uCore k) Reg.L2_PF_CFG.DEGREE + 1
    let far := if s.flag (uCore k) Reg.L2_PF_CFG.FAR_L3 then n / 2 else 0
    State.each (aheadOf two.1 r n).zipIdx (fun e s => match s.prefetchLine seam r e.1 with
      | some line =>
        if s.missFull (k / 12) then s
        else if n - far ≤ e.2 then s.fetchL3 (k / 12) line seam (inWindow c25 e.1)
        else if (s.peek (.l2 k) line).isSome then s
        else keep s (s.fetchL2 k line seam (inWindow c25 e.1))
      | none => s) s
  else s

/-- The loads of a group that retires train the trackers, in their order (R146, R195). -/
def State.trainGroup (s : State) (k seam : Nat) : State :=
  State.each (s.core k).group.loads (fun r s => s.trainOne k seam r) s

end Sys2Proof.Machine
end

