-- ==== Sys2Proof/Machine/Work.lean ====
section
/-! DEFINITION. Work units: the state area and checkpoint image (R46, R199, R228), the live table and ready rings (R229-R232,
R236), waits (R238), saving, restoring, taking off and ending work units, pending interruptions (R74, R78, R240), and the
Foreman's placement trace (R248, R249). -/

namespace Sys2Proof.Machine

/-- The next free value, and the state with the counter advanced (log entry 7). -/
def State.freeValue (s : State) : State × Word := ({ s with free := s.free + 1 }, Config.freeWord s.free)

/-! ### The checkpoint image (R199) -/

/-- The control registers of a work unit that R87 names. -/
def crNamed (n : Nat) : Bool :=
  n == 0 || n == 1 || n == 8 || (10 ≤ n && n ≤ 16) || (24 ≤ n && n ≤ 31)

/-- The bits of a control register that LCTL writes (R87), and those that must be 0 (R148). -/
def crMask (n : Nat) : Word :=
  match n with
  | 0 | 12 | 13 => 0
  | 1 => 0xFFF0FFFFFFFFF800#64
  | 8 => 0xFFFFFFFFFFFFF000#64
  | _ => BitVec.allOnes 64
def crMustZero (n : Nat) : Word :=
  if n = 24 then 0x3FFFFFFFFFFFFFFF#64 else if n = 25 then 0xFFF#64 else if 26 ≤ n then BitVec.allOnes 64 else 0

/-- A control register as a state area gives it: reserved bits and bits that must be 0 stay 0 (R6, R87, R148). -/
def crOfImage (n : Nat) (w : Word) : Word := w &&& ~~~(crMustZero n) &&& (if n = 1 ∨ n = 8 then crMask n else BitVec.allOnes 64)

/-- c0 of a work unit: its seam and number (R87). -/
def workId (seam num : Nat) : Word := BitVec.ofNat 64 (seam % 256 * 2 ^ 56 + num % 2 ^ 56)

/-- A doubleword's bytes. -/
def wordBytes (w : Word) : List Byte := beBytes 8 w.toNat

/-- Offsets 0x000-0x3FF of the checkpoint record; `open_` are the images of the pending interruptions and of the response buffer, whose
layouts the spec does not give (log entry 15). -/
def archImage (a : Arch) (c0 : Word) (open_ : List Word) : List Byte :=
  let rng := List.range
  let ws := (rng 32).map (a.g.look 0) ++ (rng 32).map (a.f.look 0) ++ [a.ia, a.sw, a.fpc, 0]
    ++ (rng 48).map (fun n => if n = 0 then c0 else if crNamed n then a.cr.look 0 n else 0)
    ++ (open_ ++ List.replicate 12 0).take 12
  ws.flatMap wordBytes

/-- Doubleword `i` of a list of bytes. -/
def wordOf (l : List Byte) (i : Nat) : Word := BitVec.ofNat 64 (beNat ((l.drop (8 * i)).take 8))

/-- The bits of FPC that are not reserved (R99). -/
def fpcMask : Word := 0xF8F8EE0000000000#64

/-- The architectural state that an image holds; reserved bits of FPC and of control registers stay 0 (R6). -/
def archOfImage (l : List Byte) : Arch :=
  let tab (base n : Nat) (f : Nat → Word → Word) : Table Word :=
    (List.range n).foldl (fun t i => t.put 0 i (f i (wordOf l (base + i)))) []
  { g := tab 0 32 fun _ w => w, f := tab 32 32 fun _ w => w, ia := wordOf l 64, sw := wordOf l 65,
    fpc := wordOf l 66 &&& fpcMask, cr := tab 68 48 fun n w => if crNamed n && n != 0 then crOfImage n w else 0 }

/-- Does a value pass the checks of R52 for SW: STATE problem or supervisor, CT 1, reserved bits 0? -/
def swValid (w : Word) : Bool :=
  decide (w.field 0 1 < 2) && w.bit 10 && !w.bit 7 && w.field 11 63 == 0

/-! ### Work units -/

def State.work (s : State) (num : Nat) : WorkUnit := s.wus.look WorkUnit.none num

def State.setWork (s : State) (num : Nat) (w : WorkUnit) : State := { s with wus := s.wus.put WorkUnit.none num w }

/-- The group retires as compared: the loads of it train the trackers (R146), its stores enter the store buffer, and the checkpoint takes
the state after it. -/
def State.retire (s : State) (k : Nat) : State :=
  let seam := match (s.core k).wu with
    | some num => (s.work num).seam
    | none => 0
  if (s.core k).group.count = 0 then s
  else
    let s := s.trainGroup k seam
    let c := s.core k
    s.setCore k
      { c with
        ckpt := { c.ckpt with arch := c.arch, seq := c.ckpt.seq + 1, valid := true, image := c.tlb.take 127 },
        storeBuf := c.storeBuf ++ c.group.stores,
        group := Group.empty }

/-- The payload of a Tally record about a mismatch or a failure: CKW_LAST_IA, KIND and ATTEMPT (R469). -/
def State.mismatchPayload (s : State) (k : Nat) : List Byte :=
  payload8 0 (beBytes 8 (s.rd (uCore k) Reg.CKW_LAST_IA.IA) ++ beBytes 2 (s.rd (uCore k) Reg.CKW_LAST_KIND.KIND)
    ++ beBytes 1 (s.rd (uCore k) Reg.CKW_LAST_KIND.ATTEMPT))

/-- A compared group retires; one that compares equal after a retry is a corrected fault (R198). -/
def State.compared (s : State) (k : Nat) : State :=
  let g := (s.core k).group
  let s := s.retire k
  if g.count = 0 ∨ g.attempts = 0 then s
  else
    let s := (s.bump (uCore k) Reg.CKW_RETRY.RETRIES).corrected (uCore k) (BitVec.ofNat 64 (s.rd (uCore k) Reg.CKW_LAST_IA.IA))
    s.tallyEvent (some (uCore k)) 0x05 0x01 7 0xFF (s.mismatchPayload k)

/-- Has the store buffer of a core room for the stores of its group (R126)? -/
def State.groupRoom (s : State) (k : Nat) : Bool := decide ((s.core k).storeBuf.length + (s.core k).group.stores.length ≤ 64)

/-- The checkpoint array takes the architectural state that a core shows, while its group goes on (R194). -/
def State.formCkpt (s : State) (k : Nat) : State :=
  let c := s.core k
  s.setCore k { c with ckpt := { c.ckpt with arch := c.arch, valid := true, image := c.tlb.take 127 } }

/-- The live work unit of a seam with a descriptor address (R229). -/
def State.workAt (s : State) (seam desc : Nat) : Option Nat :=
  (s.wus.find? fun e => e.2.run != .none && e.2.seam == seam && e.2.desc == desc).map Prod.fst

/-- Live work units of a seam. -/
def State.liveOf (s : State) (seam : Nat) : Nat := (s.wus.filter fun e => e.2.run != .none && e.2.seam == seam).length

/-- Live work units in all. -/
def State.live (s : State) : Nat := (s.wus.filter fun e => e.2.run != .none).length

/-- Cores that hold work units of a seam. -/
def State.runningOf (s : State) (seam : Nat) : Nat :=
  (s.wus.filter fun e => (match e.2.run with | .running _ => true | _ => false) && e.2.seam == seam).length

/-- An event for the Foreman (R233). -/
def State.fmnEvent (s : State) (e : FmnEvent) : State := { s with fmnEvents := s.fmnEvents ++ [e] }

/-- Write bytes of a work unit's descriptor. -/
def State.descWrite (s : State) (seam desc off : Nat) (bytes : List Byte) : State :=
  (s.agentWrite seam (desc + off) bytes).1

/-- Does CONTROL of the descriptor read END (R231)? -/
def State.endAsked (s : State) (seam desc : Nat) : State × Bool :=
  let r := s.agentRead seam (desc + 0x010) 8
  (r.1, beNat r.2.1 % 2 == 1)

/-! ### The placement trace (R248, R249) -/

/-- The power state of a core in two bits, as UNIT_POWER STATE shows run, gated, off, else retention (R249 kind 0x11). -/
def State.snapshotBits (s : State) : List Byte :=
  (List.range 12).map fun i => BitVec.ofNat 8 ((List.range 4).foldl (fun a j =>
    a * 4 + (match (s.unit (uCore (4 * i + j))).power with
      | .run => 0 | .gated => 1 | .off => 2 | .retention => 3)) 0)

/-- Bytes of one trace record. -/
def State.traceBytes (s : State) (kind seam prio core groupTile nearDie : Nat) (wid : Word) (data : List Byte) : List Byte :=
  beBytes 8 s.traceSeq ++ beBytes 8 s.timeBase ++ beBytes 1 kind ++ beBytes 1 seam ++ beBytes 1 prio ++ beBytes 1 core
    ++ beBytes 1 s.capPowered ++ beBytes 1 groupTile ++ beBytes 1 nearDie ++ [0] ++ wordBytes wid ++ padTo 32 data

/-- Put one record in the ring and advance HEAD. -/
def State.tracePut (s : State) (bytes : List Byte) : State :=
  let head := s.rd uForeman Reg.FMN_TRACE_PTR.HEAD
  let size := s.rd uForeman Reg.FMN_TRACE_CTL.SIZE
  let base := s.rd uForeman Reg.FMN_TRACE_BASE.TRACE_BASE * 4096
  let s := (s.physWrite (base + head % 2 ^ size * 64) bytes).1
  { s.wr uForeman Reg.FMN_TRACE_PTR.HEAD (head + 1) with traceSeq := s.traceSeq + 1 }

/-- Is the trace ring full? -/
def State.traceFull (s : State) : Bool :=
  let head := s.rd uForeman Reg.FMN_TRACE_PTR.HEAD
  let tail := s.rd uForeman Reg.FMN_TRACE_PTR.TAIL
  decide (2 ^ s.rd uForeman Reg.FMN_TRACE_CTL.SIZE ≤ (head + 2 ^ 32 - tail) % 2 ^ 32)

/-- One record, or a loss where the ring is full and OVERWRITE is 0 (R248). -/
def State.traceOne (s : State) (kind seam prio core groupTile nearDie : Nat) (wid : Word) (data : List Byte) : State :=
  if s.traceFull then
    if s.flag uForeman Reg.FMN_TRACE_CTL.OVERWRITE then
      let s := s.wr uForeman Reg.FMN_TRACE_PTR.TAIL (s.rd uForeman Reg.FMN_TRACE_PTR.TAIL + 1)
      s.tracePut (s.traceBytes kind seam prio core groupTile nearDie wid data)
    else { s.bump uForeman Reg.FMN_TRACE_STAT.LOST with traceGap := s.traceGap + 1 }
  else s.tracePut (s.traceBytes kind seam prio core groupTile nearDie wid data)

/-- A trace record where the trace is enabled and the seam, or the kind, is traced (R248): a GAP record and a snapshot come
first after a loss, and a snapshot every 1,024 records. -/
def State.trace (s : State) (kind seam : Nat) (prio core groupTile nearDie : Nat := 0xFF) (wid : Word := 0)
    (data : List Byte := []) : State :=
  let always := (8 ≤ kind && kind ≤ 0xE) || (0x10 ≤ kind && kind ≤ 0x12)
  if !s.flag uForeman Reg.FMN_TRACE_CTL.EN then s
  else if !(always || (seam < 64 && s.flag uForeman (Reg.FMN_SEAM_ALLOT.TRACE.ix seam))) then s
  else
    let room (s : State) : Bool := !s.traceFull || s.flag uForeman Reg.FMN_TRACE_CTL.OVERWRITE
    let s := if s.traceGap ≠ 0 ∧ room s then
        let s := { s.traceOne 0x12 0xFF 0xFF 0xFF 0xFF 0xFF 0 (beBytes 4 s.traceGap) with traceGap := 0 }
        s.traceOne 0x11 0xFF 0xFF 0xFF 0xFF 0xFF 0 s.snapshotBits
      else s
    let s := if s.traceSeq % 1024 = 0 ∧ room s then
        s.traceOne 0x11 0xFF 0xFF 0xFF 0xFF 0xFF 0 s.snapshotBits else s
    s.traceOne kind seam prio core groupTile nearDie wid data

/-- A trace record about a work unit. -/
def State.traceWork (s : State) (kind num : Nat) (core : Nat := 0xFF) (data : List Byte := []) : State :=
  let w := s.work num
  s.trace kind w.seam w.prio core 0xFF (match w.nearDie with | some d => d | none => 0xFF) (workId w.seam num) data

/-! ### Ready rings (R232, R236) -/

def ringKey (seam prio : Nat) : Nat := seam * 8 + prio

def Ring.empty : Ring := { units := [], prod := 0, cons := 0 }

def State.ring (s : State) (seam prio : Nat) : Ring := s.rings.look Ring.empty (ringKey seam prio)

def State.setRing (s : State) (seam prio : Nat) (r : Ring) : State :=
  { s with rings := s.rings.put Ring.empty (ringKey seam prio) r }

/-- K of a ready ring; 0 where the ring is disabled (R275). -/
def State.ringK (s : State) (seam prio : Nat) : Nat :=
  let k := s.spRd seam (Reg.SP_READY.K.ix prio)
  if 6 ≤ k ∧ k ≤ 16 then k else 0

/-- Seam absolute address of a ring entry; bits of the base below the ring's size are ignored (R275). -/
def State.ringAddr (s : State) (seam prio pos : Nat) : Nat :=
  let k := s.ringK seam prio
  let base := s.spRd seam (Reg.SP_READY.BASE.ix prio) * 512
  base / (8 * 2 ^ k) * (8 * 2 ^ k) + pos % 2 ^ k * 8

/-- Does the ring, with the work units held for it, have room (R230, R236): fewer than 2^K, and its tail position free? -/
def State.ringRoom (s : State) (seam prio : Nat) : Bool :=
  let k := s.ringK seam prio
  let r := s.ring seam prio
  k != 0 && decide (r.units.length < 2 ^ k) && !(r.units.any fun e => e.2 == some (r.prod % 2 ^ k))

/-- The eight bytes of a ring entry: the low 24 bits of the number, then the descriptor address (R232). -/
def ringEntry (num desc : Nat) : List Byte := beBytes 8 (num % 2 ^ 24 * 2 ^ 40 + desc % 2 ^ 40)

/-- Write the entry of a work unit at a position of its ring. -/
def State.writeEntry (s : State) (seam prio num pos : Nat) : State :=
  (s.agentWrite seam (s.ringAddr seam prio pos) (ringEntry num (s.work num).desc)).1

/-- Write the entries of work units from a position on. -/
def State.writeEntries (s : State) (seam prio : Nat) (l : List (Nat × Nat)) : State :=
  State.each l (fun e s => s.writeEntry seam prio e.1 e.2) s

/-- Write the entries of held work units once their ring is enabled and has room (R236): those at its head before the first entry, the
nearest to it first, then those at its tail. In a ring without entries they follow one another from its tail on. -/
def State.placeHeld (s : State) (seam prio : Nat) : State :=
  let k := s.ringK seam prio
  if k = 0 then s
  else
    let r := s.ring seam prio
    let n := 2 ^ k
    let placed := r.units.filter fun e => e.2.isSome
    let lead := r.units.takeWhile fun e => e.2.isNone
    if placed.isEmpty then
      let l := (lead.take n).zipIdx.map fun e => (e.1.1, (r.prod + e.2) % n)
      (s.writeEntries seam prio l).setRing seam prio
        { units := l.map (fun e => (e.1, some e.2)) ++ lead.drop n, prod := (r.prod + l.length) % n, cons := r.prod % n }
    else
      let free := n - placed.length
      let m := min lead.length free
      let heads := (lead.drop (lead.length - m)).zipIdx.map fun e => (e.1.1, (r.cons + n - m + e.2) % n)
      let tail := (r.units.drop lead.length).filter fun e => e.2.isNone
      let j := min tail.length (free - m)
      let tails := (tail.take j).zipIdx.map fun e => (e.1.1, (r.prod + e.2) % n)
      (s.writeEntries seam prio (heads ++ tails)).setRing seam prio
        { units := lead.take (lead.length - m) ++ heads.map (fun e => (e.1, some e.2)) ++ placed ++ tails.map (fun e => (e.1, some e.2))
            ++ tail.drop j,
          prod := (r.prod + j) % n, cons := (r.cons + n - m) % n }

/-- Place a work unit at the tail or the head of its ring, after the entries of the held ones, or keep it as ready where the ring has no
room (R236). -/
def State.enqueue (s : State) (num : Nat) (atHead : Bool) : State :=
  let w := s.work num
  let s := (s.setWork num { w with run := .ready, since := s.now }).placeHeld w.seam w.prio
  let r := s.ring w.seam w.prio
  if s.ringRoom w.seam w.prio then
    let n := 2 ^ s.ringK w.seam w.prio
    if atHead then
      let pos := (r.cons + n - 1) % n
      (s.writeEntry w.seam w.prio num pos).setRing w.seam w.prio { r with units := (num, some pos) :: r.units, cons := pos }
    else
      let pos := r.prod % n
      (s.writeEntry w.seam w.prio num pos).setRing w.seam w.prio { r with units := r.units ++ [(num, some pos)], prod := (pos + 1) % n }
  else s.setRing w.seam w.prio
    { r with units := if atHead then (num, none) :: r.units else r.units ++ [(num, none)] }

/-- Remove a work unit from its ring, which then begins at its first entry. -/
def State.unqueue (s : State) (num : Nat) : State :=
  let w := s.work num
  let r := s.ring w.seam w.prio
  let l := r.units.filter fun e => e.1 != num
  s.setRing w.seam w.prio { r with units := l, cons := (l.findSome? Prod.snd).getD r.prod }

/-! ### Pending interruptions (R74, R78, R240, R458) -/

/-- An interruption pends for a seam: I/O, external 0x1002, or an asynchronous machine check. -/
def State.pendSeam (s : State) (seam : Nat) (p : PendInt) : State :=
  { s with seamPend := s.seamPend.put [] seam (s.seamPend.look [] seam ++ [p]) }

/-- The SW bit that enables a class (R50, R74). -/
def maskBitOf (cls : Nat) : Nat := if cls = 1 then 4 else if cls = 4 then 5 else 6

/-- The core that takes an interruption of a seam: running it with the mask enabled, with the highest-numbered priority, the
lowest instance among equals (R240). -/
def State.chosenCore (s : State) (seam cls : Nat) : Option Nat :=
  let run := s.wus.filterMap fun e => match e.2.run with
    | .running k => if e.2.seam = seam ∧ (s.core k).arch.sw.bit (maskBitOf cls) then some (k, e.2.prio) else none
    | _ => none
  (bestBy (fun a b => decide (b.2 < a.2) || (a.2 == b.2 && decide (a.1 < b.1))) run).map Prod.fst

/-- The waiter chains (R238) without a work unit. -/
def dropWaiter (num : Nat) (l : Table (List Nat)) : Table (List Nat) :=
  (l.map fun (e : Nat × List Nat) => (e.1, e.2.filter (· != num))).filter fun e => !e.2.isEmpty

/-! ### Ends, saves and restores -/

/-- The notice of R230 that an end gives the seam. -/
def endNotice (status desc : Nat) : Option PendInt :=
  match status with
  | 0x11 | 0x14 | 0x15 | 0x16 | 0x17 => some { cls := 4, code := 0x1002, xaddr := BitVec.ofNat 64 desc }
  | 0x12 => some { cls := 1, code := 0x0201, xaddr := BitVec.ofNat 64 desc }
  | 0x13 => some { cls := 1, code := 0x0202, xaddr := BitVec.ofNat 64 desc }
  | _ => none

/-- Core `k` no longer holds its work unit: it shows the state of R50 and is clock-gated at once unless pinned to run (R41,
R244). -/
def State.freeCore (s : State) (k : Nat) : State :=
  let c := s.core k
  let s := s.setCore k
    { c with arch := Arch.reset, group := Group.empty, bars := false, wu := none, takeoff := none, idleSince := s.now }
  let s : State := { s with atmVals := s.atmVals.filter fun v => v.core != k }
  let d := s.unit (uCore k)
  if d.power = .run ∧ !s.flag (uCore k) Reg.UNIT_POWER.PIN then
    (s.setUnit (uCore k) { d with power := .gated }).wr (uCore k) Reg.UNIT_POWER.REQ 1
  else s

/-- A reservation for a work unit lapses (R239). -/
def State.lapse (s : State) (num : Nat) : State :=
  State.each (List.range 48) (fun k s =>
    if (s.core k).reserved.map Prod.fst = some num then s.setCore k { s.core k with reserved := none } else s) s

/-- A work unit ends with a STATUS (R230): it leaves the live table, rings and chains, no core stays reserved for it, its descriptor is
written unless its seam is being reset, and its seam receives the notice. -/
def State.endWork (s : State) (num status : Nat) (writeDesc : Bool := true) : State :=
  let w := s.work num
  if w.run = .none then s
  else
    let s := s.traceWork 0x07 num 0xFF (beBytes 1 status)
    let s := (s.unqueue num).lapse num
    let s := match w.run with
      | .running k => s.freeCore k
      | .suspended k => s.setCore k { s.core k with suspended := none }
      | _ => s
    let s := { s with waiters := dropWaiter num s.waiters }
    let s := s.setWork num WorkUnit.none
    let s := if writeDesc then
        (s.descWrite w.seam w.desc 0x0C8 (beBytes 1 status)).descWrite w.seam w.desc 0x0D0 (beBytes 8 s.timeBase)
      else s
    let s := match endNotice status w.desc with
      | some p => if writeDesc then s.pendSeam w.seam p else s
      | none => s
    s.fmnEvent .ended

/-- Write the architectural state of core `k`'s work unit to its state area (R46). -/
def State.saveArea (s : State) (k num : Nat) : State :=
  let w := s.work num
  let c := s.core k
  let words := (List.range 12).map fun i => Config.freeWord (s.free + i)
  let s := { s with free := s.free + 12 }
  (s.agentWrite w.seam w.area (archImage c.arch (workId w.seam num) words)).1

/-- Drain, save and give up the work unit of core `k`; END in CONTROL ends it (R128, R136, R231). Answers whether it lives
on, and the losses of the drain. -/
def State.saveOff (s : State) (k num : Nat) : State × Bool × List Loss :=
  let r := (s.compared k).drain k
  let w := s.work num
  let s := r.1.saveArea k num
  let s := s.freeCore k
  let e := s.endAsked w.seam w.desc
  if e.2 then (e.1.endWork num 0x10, false, r.2) else (e.1, true, r.2)

/-- The counters of a take-off (R253, R254), its trace record and its place in the ring: the tail for reason 3, else the head
(R236, R249). -/
def State.takeOff (s : State) (k reason : Nat) : State × List Loss :=
  match (s.core k).wu with
  | none => (s, [])
  | some num =>
    let w := s.work num
    let s := s.traceWork 0x06 num k (beBytes 1 reason)
    let s := s.bump uForeman Reg.FMN_COUNT.TAKEOFFS
    let s := if reason ≤ 3 then s.count uForeman (Reg.FMN_SEAM_COUNT.PREEMPTED.ix w.seam) else s
    let r := s.saveOff k num
    if r.2.1 then ((r.1.enqueue num (reason != 3)).fmnEvent .ended, r.2.2) else (r.1, r.2.2)

/-- A wait ends: the work unit becomes ready with CC in its saved SW (R86, R238). -/
def State.endWait (s : State) (num cc : Nat) (die : Option Nat) : State :=
  let w := s.work num
  match w.run with
  | .waiting =>
    let r := s.agentRead w.seam (w.area + 0x208) 8
    let sw := Word.setField (BitVec.ofNat 64 (beNat r.2.1)) 8 9 cc
    let s := (r.1.agentWrite w.seam (w.area + 0x208) (wordBytes sw)).1
    let s := { s with waiters := dropWaiter num s.waiters }
    let s := s.setWork num { w with waitKind := 0, nearDie := die }
    let s := s.traceWork 0x04 num 0xFF (beBytes 1 cc)
    (s.enqueue num false).fmnEvent (if cc = 1 then .deadline num else .status num)
  | _ => s

/-- Keep the fill counts of the last four work units of a core, the newest last (R235). -/
def footDispatch (num : Nat) (l : List (Nat × Nat)) : List (Nat × Nat) :=
  let rest := l.filter fun e => e.1 != num
  let old := match l.find? fun e => e.1 == num with | some e => e.2 | none => 0
  (rest ++ [(num, old)]).drop (rest.length - 3)

/-- The Foreman dispatches a work unit on a core (R46, R149, R229-R231): CONTROL is read, the state area is loaded and
checked, trackers clear when the seam changes. -/
def State.dispatch (s : State) (k num : Nat) : State :=
  let w := s.work num
  let e := s.endAsked w.seam w.desc
  let s := e.1
  if e.2 then s.endWork num 0x10
  else
    let r := s.agentRead w.seam w.area 1024
    let a := archOfImage r.2.1
    let s := r.1
    if r.2.2 != .done ∨ !swValid a.sw then s.endWork num 0x17
    else
      let c := s.core k
      let keep := c.prevSeam = some w.seam
      let s := s.setCore k
        { c with
          arch := a, group := Group.empty, wu := some num, reserved := none, prevSeam := some w.seam,
          ckpt := { Ckpt.none with arch := a, valid := true },
          l1Track := if keep then c.l1Track else [], l2Track := if keep then c.l2Track else [],
          recent := footDispatch num c.recent, dispatchedAt := s.now,
          ranSeams := if c.ranSeams.contains w.seam then c.ranSeams else w.seam :: c.ranSeams }
      let d := s.unit (uCore k)
      let s := s.setUnit (uCore k) { d with power := .run, transition := none }
      let s := s.wr (uCore k) Reg.UNIT_POWER.REQ 0
      let s := s.setWork num { w with run := .running k, since := s.now, nearDie := none }
      s.bump uForeman Reg.FMN_COUNT.DISPATCHES

end Sys2Proof.Machine
end

