-- ==== Sys2Proof/Machine/Exchange.lean ====
section
/-! DEFINITION. Subchannels, paths, exchange contexts, final status and completion entries (R299-R320): the operations that the
instructions ISSUE, TEST, HALT and WAIT, the channel commands, seam resets and unit losses share. -/

namespace Sys2Proof.Machine

/-! ### Links and haulers, as paths see them -/

def State.link (s : State) (lane : Nat) : Link := s.links.look Link.reset lane

def State.setLink (s : State) (lane : Nat) (l : Link) : State := { s with links := s.links.put Link.reset lane l }

def State.hauler (s : State) (h : Nat) : Hauler := s.haulers.look Hauler.reset h

def State.setHauler (s : State) (h : Nat) (x : Hauler) : State := { s with haulers := s.haulers.put Hauler.reset h x }

/-- The quad of a lane, as a channel lane group unit (R381). -/
def laneUnit (lane : Nat) : UnitId := uLane (lane / 4)

/-- The width code of the group that starts at a lane of a quad, by LAYOUT (R401); none where no group starts there. -/
def State.widthAt (s : State) (lane : Nat) : Option Nat :=
  match s.rd (laneUnit lane) Reg.LNK_CFG.LAYOUT with
  | 1 => some 0
  | 2 => if lane % 2 = 0 then some 1 else none
  | 3 => if lane % 4 = 0 then some 2 else none
  | 4 => if lane % 8 = 0 then some 3 else none
  | 5 => if lane % 16 = 0 then some 4 else none
  | _ => none

/-- Is the group whose first lane is `lane` an Ethernet group (R401 PERS)? -/
def State.isEth (s : State) (lane : Nat) : Bool := s.bitOf (laneUnit lane) Reg.LNK_CFG.PERS (lane % 4)

/-- Does the hauler drive paths (R302)? -/
def State.haulerDrives (s : State) (h : Nat) : Bool :=
  s.operates (uHauler h) && (match (s.hauler h).mode with | .running | .wfe | .trapped => true | _ => false)

/-! ### Subchannel records -/

/-- The bytes of a subchannel record (R299, R300); none where it cannot be read without error. -/
def State.schRecord (s : State) (d sch : Nat) : Option (List Byte) :=
  let addr := s.rd (uCtx d) Reg.CHS_SCH_BASE.BASE * 2 ^ 24 + 64 * sch
  match s.snapshot (addr / 128) with
  | none => none
  | some l => if l.poisoned (addr % 128) 64 then none else some ((List.range 64).map fun i => lineByte l.data (addr % 128 + i))

/-- A number of `n` bytes at an offset of a record. -/
def recNum (r : List Byte) (off n : Nat) : Nat := beNat ((r.drop off).take n)

def recKind (r : List Byte) : Nat := recNum r 0 1
def recValid (r : List Byte) : Bool := decide (128 ≤ recNum r 1 1)
def recSeam (r : List Byte) : Nat := recNum r 2 1
def recShift (r : List Byte) : Nat := recNum r 3 1
def recNsid (r : List Byte) : Nat := recNum r 4 4

/-- Path entry `i` (R301): the word, its lane and hauler. -/
def recPath (r : List Byte) (i : Nat) : Nat := recNum r (8 + 2 * i) 2
def pathLane (p : Nat) : Nat := p / 256 % 128
def pathHauler (p : Nat) : Nat := p % 64

/-- Is V of the path entry 1? -/
def pathV (p : Nat) : Bool := decide (32768 ≤ p)

/-- Does a path entry keep the other rules of R301: reserved bits 0, the first lane of a group, and the hauler on the die of the lane? -/
def State.pathSound (s : State) (p : Nat) : Bool :=
  p / 64 % 4 == 0 && (s.widthAt (pathLane p)).isSome && pathHauler p / 32 == pathLane p / 64

/-- Is a path entry usable (R302)? -/
def State.pathUsable (s : State) (kind p : Nat) : Bool :=
  pathV p && s.pathSound p && (if kind = 1 then !s.isEth (pathLane p) else kind == 2 && s.isEth (pathLane p))
    && (s.link (pathLane p)).up && s.haulerDrives (pathHauler p)

/-- The path indices of a record that are usable. -/
def State.usablePaths (s : State) (r : List Byte) : List Nat :=
  (List.range 8).filter fun i => s.pathUsable (recKind r) (recPath r i)

/-! ### Contexts -/

/-- Is the context store of die `d` available (R303)? -/
def State.storeAvail (s : State) (d : Nat) : Bool := s.operates (uCtx d) && !s.marchHolds d 1 0

def State.exch (s : State) (key : Nat) : Exchange := s.exchanges.look Exchange.none key

def State.setExch (s : State) (key : Nat) (e : Exchange) : State :=
  { s with exchanges := s.exchanges.put Exchange.none key e }

/-- The key of context `i` of store `d`, and the store of a key. -/
def exKey (d i : Nat) : Nat := d * 131072 + i
def exDie (key : Nat) : Nat := key / 131072

/-- The context of a subchannel, if one is held. -/
def State.exOf (s : State) (sch : Nat) : Option Nat := (s.exchanges.find? fun e => e.2.sch == sch).map Prod.fst

def peerKey (d sch : Nat) : Nat := d * 262144 + sch

/-- Put an entry in the peer list of store `d` (R313). -/
def State.setPeer (s : State) (d sch : Nat) (p : Peer) : State :=
  { s with peers := s.peers.put none (peerKey d sch) (some p) }

/-- A pending status in a peer list for a subchannel (R313). -/
def State.peerPending (s : State) (sch : Nat) : Option (Nat × Peer) :=
  (List.range 2).findSome? fun d => match s.peers.look none (peerKey d sch) with
    | some p => if p.pending then some (d, p) else none
    | none => none

/-- Contexts held in a store, and by a seam (R312). -/
def State.heldIn (s : State) (d : Nat) : Nat := (s.exchanges.filter fun e => exDie e.1 == d).length
def State.heldBy (s : State) (seam : Nat) : Nat := (s.exchanges.filter fun e => e.2.seam == seam).length

/-- The lowest context index of a store that is free. -/
def State.freeCtx (s : State) (d : Nat) : Option Nat :=
  (List.range (s.heldIn d + 1)).find? fun i => decide (i < 131072) && !s.exchanges.has (exKey d i)

/-- The record of an exchange's subchannel; an unreadable one has no path. -/
def State.recOf (s : State) (sch d : Nat) : List Byte :=
  match s.schRecord d sch with | some r => r | none => []

/-- The path entry that an exchange uses now. -/
def State.pathOf (s : State) (key : Nat) : Nat :=
  let e := s.exch key
  recPath (s.recOf e.sch (exDie key)) e.path

/-- Open exchanges on a personality group (R303). -/
def State.openOn (s : State) (lane : Nat) : Nat :=
  (s.exchanges.filter fun e => e.2.st != .pending && pathLane (s.pathOf e.1) == lane).length

/-- The initial path: usable, with the fewest open exchanges on its group, the lowest index among equals (R303). -/
def State.initialPath (s : State) (r : List Byte) : Option Nat :=
  bestBy (fun a b =>
    let x := s.openOn (pathLane (recPath r a))
    let y := s.openOn (pathLane (recPath r b))
    decide (x < y) || (x == y && decide (a < b))) (s.usablePaths r)

/-- Is the subchannel in the seam's SEAM_SCH range? -/
def State.schInRange (s : State) (seam sch : Nat) : Bool :=
  let first := s.rd uSeamCtl (Reg.SEAM_SCH.FIRST.ix seam)
  decide (first ≤ sch) && decide (sch < first + s.rd uSeamCtl (Reg.SEAM_SCH.COUNT.ix seam))

/-- A notice to a hauler (R368): its event bit 2 is set. -/
def State.noteHauler (s : State) (h kind ctx : Nat) : State :=
  let x := s.hauler h
  s.setHauler h { x with notices := x.notices ++ [⟨kind, ctx⟩], evtMisc := x.evtMisc ||| 0x2000 }

/-! ### Status and completion entries -/

/-- The status doubleword (R317). -/
def statusWord (code dev sct path : Nat) (nocqe : Bool) (redrives index residual : Nat) : Word :=
  let w := Word.setField (0 : Word) 0 7 code
  let w := Word.setField w 8 15 dev
  let w := Word.setField w 16 18 sct
  let w := Word.setField w 20 22 path
  let w := Word.setField w 23 23 (if nocqe then 1 else 0)
  let w := Word.setField w 24 27 redrives
  let w := Word.setField w 32 39 index
  Word.setField w 40 63 residual

/-- K of a seam's completion queue; 0 where the queue is disabled (R275). -/
def State.cqK (s : State) (seam : Nat) : Nat :=
  let k := s.spRd seam Reg.SP_CQ_BASE.K
  if 6 ≤ k ∧ k ≤ 20 then k else 0

/-- Does the completion queue of a seam take an entry (R320)? -/
def State.cqRoom (s : State) (seam : Nat) : Bool :=
  let k := s.cqK seam
  k != 0 && (s.spRd seam Reg.SP_CQ_TAIL.TAIL + 1) % 2 ^ k != s.spRd seam Reg.SP_CQ_HEAD.HEAD % 2 ^ k

/-- Place a completion entry at TAIL as one line write (R319); the queue has room. -/
def State.cqPut (s : State) (seam : Nat) (status : Word) (kind sch : Nat) (seq cpa : Word) (hint : Option HintTarget) : State :=
  let k := s.cqK seam
  let tail := s.spRd seam Reg.SP_CQ_TAIL.TAIL
  let base := s.spRd seam Reg.SP_CQ_BASE.BASE * 512
  let addr := base / (32 * 2 ^ k) * (32 * 2 ^ k) + tail % 2 ^ k * 32
  let phase := if s.cqPhase.look false seam then 0 else 1
  let bytes := wordBytes status ++ beBytes 4 (kind * 2 ^ 24 + sch % 2 ^ 18) ++ beBytes 4 (phase * 2 ^ 31) ++ wordBytes seq
    ++ wordBytes cpa
  let s := (s.agentWrite seam addr bytes fun _ => hint).1
  let next := (tail + 1) % 2 ^ k
  let s := s.spWr seam Reg.SP_CQ_TAIL.TAIL next
  if next = 0 then { s with cqPhase := s.cqPhase.put false seam (!s.cqPhase.look false seam) } else s

/-- L2_LINES, of which larger values are treated as 8, and L3_LINES (R253). -/
def State.hintLines (s : State) : Nat × Nat := (min 8 (s.rd uForeman Reg.FMN_HINT.L2_LINES), s.rd uForeman Reg.FMN_HINT.L3_LINES)

/-- The target of data line `i` of a final transfer under a hint target (R240): with a core, its L2 and then the L3 of its tile;
with a tile, its L3. -/
def State.hintAt (s : State) (hint : Option HintTarget) (i : Nat) : Option HintTarget :=
  let (l2, l3) := s.hintLines
  match hint with
  | none => none
  | some (.l2 k) => if i < l2 then some (.l2 k) else if i < l2 + l3 then some (.l3 (k / 12)) else none
  | some (.l3 t) => if i < l3 then some (.l3 t) else none

/-- The hint target of the completion-entry line: the reserved core's L2 (R240). -/
def hintCq (hint : Option HintTarget) : Option HintTarget :=
  match hint with | some (.l2 k) => some (.l2 k) | _ => none

/-- Final status reaches a subchannel: every waiter resumes with CC 0, and without one an I/O interruption pends for the seam
(R78, R238, R240). -/
def State.wake (s : State) (seam sch : Nat) (die : Option Nat) : State :=
  match s.waiters.look [] sch with
  | [] => s.pendSeam seam { cls := 5, code := sch, xaddr := 0 }
  | l => l.foldl (fun t num => t.endWait num 0 die) s

/-- The COUNT of the current entry. -/
def Exchange.count (e : Exchange) : Nat := e.word0.field 40 63

/-- The RESIDUAL of an exchange that ends (R317): the bytes of its entry's COUNT not transferred. How far the drive has come with a WRITE
that does not end normally is a free value (log entry 116). -/
def State.residual (s : State) (e : Exchange) (code : Nat) : State × Nat :=
  if e.word0.field 0 7 = 1 ∧ e.performed = true ∧ e.st ≠ .journal ∧ code ≠ 0x01 ∧ code ≠ 0x11 then
    let f := s.freeValue
    (f.1, f.2.toNat % (e.count + 1))
  else (s, e.count - e.moved)

/-- Place final status (R134, R314, R319-R321): the completion entry, then the status in the context, then the waiters; a failure
code is counted and recorded. The completing hauler is on the die of the path that the exchange uses (R235). -/
def State.finish (s : State) (key code dev : Nat) (sct : Nat := 0) : State :=
  let e := s.exch key
  let d := exDie key
  let room := s.cqRoom e.seam
  let q := s.residual e code
  let s := q.1
  let st := statusWord code dev sct e.path (!room) e.redrives e.index q.2
  let s := if room then s.cqPut e.seam st 1 e.sch e.seq (BitVec.ofNat 64 e.cpa) (hintCq e.hint)
    else s.count (uCtx d) Reg.CHS_COUNT2.CQ_DROPPED
  let s := s.setExch key { e with st := .pending, status := st }
  let s := if 0x20 ≤ code then
      ((s.count (uCtx d) Reg.CHS_COUNT3.FAILED).tallyEvent (some (uCtx d)) 0x08 0x01 7 e.seam
        (payload8 code (wordBytes st ++ beBytes 4 e.sch)))
    else s
  s.wake e.seam e.sch (some (pathLane (s.pathOf key) / 64))

/-- A KIND 0x02 entry for a journal entry (R319, R320, R332): counted in CQ_DROPPED where it is not placed. -/
def State.placeRetired (s : State) (d seam sch cpa code num : Nat) : State :=
  if s.cqRoom seam then
    s.cqPut seam (statusWord code 0 0 0 false 0 0 0) 2 sch (BitVec.ofNat 64 num) (BitVec.ofNat 64 cpa) none
  else s.count (uCtx d) Reg.CHS_COUNT2.CQ_DROPPED

/-! ### ISSUE, TEST and HALT -/

/-- Path entries with V 1 that break R301, counted at each ISSUE (R302). -/
def State.badPaths (s : State) (r : List Byte) : Nat :=
  ((List.range 8).filter fun i => pathV (recPath r i) && !s.pathSound (recPath r i)).length

/-- The next exchange sequence of a record (R310), which is incremented for an Ethernet subchannel. -/
def State.takeSeq (s : State) (d sch : Nat) (r : List Byte) : State × Word :=
  let seq := BitVec.ofNat 64 (recNum r 0x30 8)
  if recKind r = 2 then
    let addr := s.rd (uCtx d) Reg.CHS_SCH_BASE.BASE * 2 ^ 24 + 64 * sch + 0x30
    ((s.physWrite addr (wordBytes (seq + 1))).1, seq)
  else (s, 0)

/-- The store that answers for a subchannel: an available one, with ISSUE enabled if one is. -/
def State.chsDie (s : State) : Option Nat :=
  match (List.range 2).filter s.storeAvail with
  | [] => none
  | d :: _ => some d

/-- The record of a subchannel of the seam, where it is operational apart from its paths (R303). -/
def State.schOf (s : State) (seam sch : Nat) : State × Option (List Byte) :=
  match s.chsDie with
  | none => (s, none)
  | some d =>
    if !s.schInRange seam sch then (s, none)
    else match s.schRecord d sch with
      | none => (s.stick (uCtx d) Reg.CHS_ERR.SCH_UNCORR, none)
      | some r => if recValid r && recSeam r == seam then (s, some r) else (s, none)

/-- The exchange that ISSUE opens in store `d` (R303, R311). -/
def newExchange (seam sch path cpa now : Nat) (hint : Option HintTarget) (seq : Word) (paired : Bool) : Exchange :=
  { Exchange.none with
    st := .start, seam := seam, path := path, sch := sch, cpa := cpa, cur := cpa, hint := hint, seq := seq, start := now,
    entryAt := now, paired := paired }

/-- ISSUE (R81, R303): the outcome in CC. -/
def State.issue (s : State) (seam sch cpa : Nat) (hint : Option HintTarget) : State × Nat :=
  let q := s.schOf seam sch
  match s.chsDie, q.2 with
  | some d0, some r =>
    let s := q.1
    if !s.flag (uCtx d0) Reg.CHS_CFG.EN then (s, 3)
    else
      let s := s.count (uCtx d0) Reg.CHS_COUNT3.BAD_PATH (s.badPaths r)
      if (s.usablePaths r).isEmpty then (s, 3)
      else if (s.peerPending sch).isSome then (s, 1)
      else match s.exOf sch with
        | some key => (s, if (s.exch key).st = .pending then 1 else 2)
        | none =>
          match s.initialPath r with
          | none => (s, 3)
          | some path =>
            let near := pathLane (recPath r path) / 64
            let store := [near, 1 - near].find? fun d => s.storeAvail d && (s.freeCtx d).isSome
            if s.rd uSeamCtl (Reg.SEAM_QUOTA.CTX.ix seam) ≤ s.heldBy seam then (s, 2)
            else match store with
              | none => (s, 2)
              | some d =>
                let i := match s.freeCtx d with | some i => i | none => 0
                let paired := s.storeAvail (1 - d)
                let t := s.takeSeq d0 sch r
                let s := t.1.setExch (exKey d i) (newExchange seam sch path cpa t.1.timeBase hint t.2 paired)
                let s := s.setPeer (if paired then 1 - d else d) sch
                  { sch := sch, seam := seam, ctx := exKey d i, pending := false, status := 0, cpa := cpa, seq := t.2 }
                let s := s.bump (uCtx d) Reg.CHS_COUNT.ACCEPTED
                let s := s.wr (uCtx d) Reg.CHS_STAT.PEAK (max (s.rd (uCtx d) Reg.CHS_STAT.PEAK) (s.heldIn d))
                (s.noteHauler (pathHauler (recPath r path)) 1 i, 0)
  | _, _ => (q.1, 3)

/-- Free the context and the peer entries of a subchannel. -/
def State.freeExch (s : State) (sch : Nat) : State :=
  let s := match s.exOf sch with
    | some key => s.setExch key Exchange.none
    | none => s
  { s with peers := (s.peers.put none (peerKey 0 sch) none).put none (peerKey 1 sch) none }

/-- Is the subchannel one of the seam's, with a usable path (R81)? -/
def State.operational (s : State) (seam sch : Nat) : State × Bool :=
  let q := s.schOf seam sch
  (q.1, match q.2 with | some r => !(q.1.usablePaths r).isEmpty | none => false)

/-- TEST (R82, R313): CC, and the status it takes. -/
def State.testSch (s : State) (seam sch : Nat) : State × Nat × Word :=
  if !s.schInRange seam sch then (s, 3, 0)
  else match s.peerPending sch with
    | some (_, p) => (s.freeExch sch, 0, p.status)
    | none => match s.exOf sch with
      | some key => if (s.exch key).st = .pending then (s.freeExch sch, 0, (s.exch key).status) else (s, 1, 0)
      | none =>
        let o := s.operational seam sch
        (o.1, if o.2 then 2 else 3, 0)

/-- Waits on a subchannel that has become not operational, with no exchange left on it, end with CC 3 (R86; log entry 64). -/
def State.endDeadWaits (s : State) : State :=
  State.each s.waiters (fun e s =>
    match e.2 with
    | [] => s
    | num :: _ =>
      let o := s.operational (s.work num).seam e.1
      if (s.peerPending e.1).isSome ∨ (s.exOf e.1).isSome ∨ o.2 = true then s
      else e.2.foldl (fun t n => t.endWait n 3 none) o.1) s

/-- Abort the command of an exchange at the device (R314, R315). -/
def State.abortOut (s : State) (key : Nat) : State :=
  let e := s.exch key
  let p := s.pathOf key
  if e.performed ∧ !s.isEth (pathLane p) then { s with outbox := s.outbox ++ [.abort (pathLane p) e.sch] } else s

/-- HALT (R83, R314): CC. -/
def State.haltSch (s : State) (seam sch : Nat) : State × Nat :=
  if !s.schInRange seam sch then (s, 3)
  else if (s.peerPending sch).isSome then (s, 1)
  else match s.exOf sch with
    | none =>
      let o := s.operational seam sch
      (o.1, if o.2 then 2 else 3)
    | some key =>
      let e := s.exch key
      match e.st with
      | .pending => (s, 1)
      | .idle => (s, 2)
      | .start | .redrive => (s.finish key 0x04 0, 0)
      | .active =>
        let s := s.abortOut key
        let s := s.setExch key { e with st := .halting, endCode := 0x04, haltAt := s.now }
        (s.noteHauler (pathHauler (s.pathOf key)) 2 (key % 131072), 0)
      | .journal => (s.setExch key { e with haltNoted := true }, 0)
      | .halting => (s, 0)

/-- Checkstop or S reset of a seam meets its open exchanges (R314): those not in JOURNAL end with 0x23. -/
def State.endExchanges (s : State) (seam dev : Nat) : State :=
  State.each ((s.exchanges.filter fun e => e.2.seam == seam).map Prod.fst) (fun key s =>
    match (s.exch key).st with
    | .start | .redrive => s.finish key 0x23 dev
    | .active | .halting => (s.abortOut key).finish key 0x23 dev
    | _ => s) s

/-! ### Path failure (R315) -/

/-- The first usable path not tried, in index order after the failed one (R315). -/
def State.nextPath (s : State) (r : List Byte) (tried : BitVec 8) (after : Nat) : Option Nat :=
  ((List.range 8).map fun i => (after + 1 + i) % 8).find? fun i =>
    !tried.getLsbD (7 - i) && s.pathUsable (recKind r) (recPath r i)

/-- The current path of an ACTIVE exchange fails, or times out: the entry is redriven on another path from its start, or the
exchange ends (R314, R315). -/
def State.pathFail (s : State) (key : Nat) (timeout : Bool) : State :=
  let e := s.exch key
  let d := exDie key
  match e.st with
  | .halting => s.finish key e.endCode 0
  | .active =>
    let s := s.abortOut key
    let s := if timeout then s.count (uCtx d) Reg.CHS_COUNT2.TIMEOUTS else s
    let tried := e.tried ||| (0x80#8 >>> e.path)
    let e := { e with tried := tried, st := .redrive }
    let s := s.setExch key e
    let r := s.recOf e.sch d
    let go := if e.redrives < s.rd (uCtx d) Reg.CHS_CFG.REDRIVE_MAX then s.nextPath r tried e.path else none
    match go with
    | none => s.finish key (if timeout then 0x21 else 0x20) 0
    | some p =>
      let s := s.bump (uCtx d) Reg.CHS_COUNT.REDRIVES
      let s := s.setExch key
        { e with st := .active, path := p, redrives := e.redrives + 1, performed := false, moved := 0, placed := 0, entryAt := s.now }
      s.noteHauler (pathHauler (recPath r p)) 1 (key % 131072)
  | _ => s

/-- Fail every exchange whose current path satisfies `p` (R302, R315). -/
def State.failPaths (s : State) (p : Nat → Bool) : State :=
  State.each ((s.exchanges.filter fun e => (e.2.st == .active || e.2.st == .halting) && p (s.pathOf e.1)).map Prod.fst)
    (fun key s => s.pathFail key false) s

/-! ### Takeover by the peer store (R313) -/

/-- The peer entry of an exchange takes it over: it becomes pending with `code`, a completion entry is placed, a secured program of which
the journal has no entry yet is told so (R332), a command that a hauler of the store's own die performs for it is ended (R368 XNOTE kind
3), the context is gone, and the waiters resume. -/
def State.takeover (s : State) (key code : Nat) : State :=
  let e := s.exch key
  let d := exDie key
  let other := if e.paired then 1 - d else d
  match s.peers.look none (peerKey other e.sch) with
  | none => s.setExch key Exchange.none
  | some p =>
      let room := s.cqRoom e.seam
      let q := s.residual e code
      let s := q.1
      let st := statusWord code 0 0 e.path (!room) e.redrives e.index q.2
      let s := if room then s.cqPut e.seam st 1 e.sch p.seq (BitVec.ofNat 64 p.cpa) none
        else s.count (uCtx other) Reg.CHS_COUNT2.CQ_DROPPED
      let s := s.setPeer other e.sch { p with pending := true, status := st }
      let slots := (s.commits.filter fun c => c.ex == key).map Commit.slot
      let s : State := { s with
        commits := s.commits.map fun (c : Commit) => if c.ex = key then { c with orphan := true } else c
        jslots := s.jslots.map fun (j : Nat × JEntry) => if slots.contains (j.1 % 16384) then (j.1, { j.2 with orphan := true }) else j }
      let s := if e.st = .journal ∧ slots.isEmpty ∧ code = 0x22 then s.placeRetired other e.seam e.sch e.cpa 0x03 0 else s
      let h := pathHauler (s.pathOf key)
      let s := if e.st = .active ∧ h / 32 = other then (s.abortOut key).noteHauler h 3 (key % 131072) else s
      let s := s.setExch key Exchange.none
      let s := (s.count (uCtx other) Reg.CHS_COUNT3.FAILED).tallyEvent (some (uCtx other)) 0x08 0x02 7 e.seam
        (payload8 code (wordBytes st ++ beBytes 4 e.sch))
      s.wake e.seam e.sch none

/-- The context store of die `d` is lost, reset or fenced (R303, R313, R321): paired exchanges are taken over by the other store,
unpaired ones end with no final status, and the exchanges of the other store lose their peer entries. -/
def State.storeLost (s : State) (d : Nat) : State :=
  let mine := (s.exchanges.filter fun e => exDie e.1 == d).map Prod.fst
  let taken := mine.any fun key => (s.exch key).paired && s.storeAvail (1 - d)
  let s := State.each mine (fun key s =>
    if (s.exch key).paired ∧ s.storeAvail (1 - d) then s.takeover key 0x22 else s.setExch key Exchange.none) s
  let s := if taken then s.wr (uCtx (1 - d)) Reg.CHS_ERR.PEER_LOST 1 else s
  let s := { s with peers := s.peers.filter fun (e : Nat × Option Peer) => e.1 / 262144 != d }
  State.each ((s.exchanges.filter fun e => exDie e.1 == 1 - d).map Prod.fst) (fun key s =>
    let e := s.exch key
    (s.setExch key { e with paired := false }).setPeer (1 - d) e.sch
      { sch := e.sch, seam := e.seam, ctx := key, pending := false, status := 0, cpa := e.cpa, seq := e.seq }) s

end Sys2Proof.Machine
end

