-- ==== Sys2Proof/Machine/Coupling.lean ====
section
/-! DEFINITION. The link layer of the coupling lanes and the enumeration of the coupled complex (R392-R398), as far as the journal
and the frames share it. -/

namespace Sys2Proof.Machine

def State.cpl (s : State) (g : Nat) : Coupling := s.couplings.look Coupling.reset g

def State.setCpl (s : State) (g : Nat) (c : Coupling) : State := { s with couplings := s.couplings.put Coupling.reset g c }

/-- Good lanes of a coupling lane group. -/
def Coupling.good (c : Coupling) : Nat := ((List.range 4).filter fun i => !c.failed.getLsbD i).length

/-- Does the group run on the pair that holds the good lanes (R392): with one failed lane, or two failed in one pair? -/
def Coupling.halfRate (c : Coupling) : Bool := c.up && decide (c.good < 4)

/-- The VC of a frame type (R395). -/
def frameVc (type : Nat) : Nat :=
  if type = 0x20 ∨ type = 0x21 ∨ type = 0x22 then 3
  else if type = 0x30 ∨ type = 0x31 ∨ type = 0x34 ∨ type = 0x35 then 1
  else if type = 0x32 ∨ type = 0x33 then 2 else 0

/-- A payload in units of 32 bytes (R393). -/
def payloadUnits (l : List Byte) : Nat := (l.length + 31) / 32
def padUnits (l : List Byte) : List Byte := padTo (32 * payloadUnits l) l

/-- Send the frames that wait, while the peer's credits and the 256 frames outstanding allow (R394). `fuel` bounds them. -/
def State.cplFlush (s : State) (g : Nat) : Nat → State
  | 0 => s
  | fuel + 1 =>
    let c := s.cpl g
    match c.waiting with
    | [] => s
    | f :: rest =>
      let need := payloadUnits f.payload + 1
      if !c.up ∨ 256 ≤ c.kept.length ∨ c.credits.look 0 f.vc < need then s
      else
        let f := { f with seq := c.txSeq }
        let s := s.setCpl g
          { c with waiting := rest, kept := c.kept ++ [f], txSeq := (c.txSeq + 1) % 4096,
                   credits := c.credits.put 0 f.vc (c.credits.look 0 f.vc - need) }
        let s := { s with outbox := s.outbox ++ [Out.coupling g f.type f.seq c.rxSeq 0 0 f.tag f.payload] }
        s.cplFlush g fuel

/-- Send a frame with a SEQ on a group (R394). -/
def State.cplSend (s : State) (g type tag : Nat) (payload : List Byte) : State :=
  let c := s.cpl g
  let f : CFrame := { type := type, vc := frameVc type, seq := 0, tag := tag % 65536, payload := padUnits payload }
  (s.setCpl g { c with waiting := c.waiting ++ [f] }).cplFlush g (c.waiting.length + 1)

/-- Send a frame without a SEQ (R393): IDLE, NAK or INIT. -/
def State.cplPlain (s : State) (g type cvc credits : Nat) (payload : List Byte) : State :=
  { s with outbox := s.outbox ++ [Out.coupling g type 0 (s.cpl g).rxSeq cvc credits 0 (padUnits payload)] }

/-- A group is declared down (R394, R402). -/
def State.cplDown (s : State) (g : Nat) : State :=
  let c := s.cpl g
  if c.up then
    let s := s.setCpl g { c with up := false, kept := [], waiting := [], credits := [], replays := [], peerLots := [] }
    (s.bump (uCpl g) Reg.CPL_COUNT.DOWNS).stick (uCpl g) Reg.CPL_ERR.DOWN
  else s

/-- A frame that breaks the credit rules, or of a reserved TYPE, takes the group down (R394, R395). -/
def State.creditError (s : State) (g : Nat) : State := (s.stick (uCpl g) Reg.CPL_ERR.CREDIT_ERR).cplDown g

/-- The frames that an ACKSEQ does not acknowledge. -/
def unacked (kept : List CFrame) (ack : Nat) : List CFrame :=
  match kept.findIdx? fun f => f.seq == ack with
  | some i => kept.drop (i + 1)
  | none => kept

/-- Acknowledgement and credits of a received frame (R393, R394). -/
def State.cplAck (s : State) (g : Nat) (h : FrameHead) : State :=
  let c := s.cpl g
  let vc := h.cvc.toNat
  let s := s.setCpl g
    { c with kept := unacked c.kept h.ack.toNat, heard := s.now,
             credits := c.credits.put 0 vc (c.credits.look 0 vc + h.credits.toNat) }
  s.cplFlush g (c.waiting.length + 1)

/-- A replay is requested or needed: frames after ACKSEQ are sent again; 16 replays within 1 ms take the group down (R394). -/
def State.cplReplay (s : State) (g : Nat) (ack : Nat) : State :=
  let c := s.cpl g
  let kept := unacked c.kept ack
  let times := (s.now :: c.replays).filter fun t => decide (s.now < t + 1000000)
  let s := (s.setCpl g { c with kept := kept, replays := times, heard := s.now }).bump (uCpl g) Reg.CPL_COUNT.REPLAYS
  let s := { s with outbox := s.outbox ++ kept.map fun f => Out.coupling g f.type f.seq c.rxSeq 0 0 f.tag f.payload }
  if 16 ≤ times.length then s.cplDown g else s

/-- Reception of a frame with a SEQ: in order it is acknowledged, with its credits returned, and may be acted on; out of order it is
discarded and a NAK is sent (R394). -/
def State.cplTake (s : State) (g : Nat) (h : FrameHead) (vc units : Nat) : State × Bool :=
  let c := s.cpl g
  if !c.up then (s, false)
  else if h.seq.toNat = (c.rxSeq + 1) % 4096 then
    let s := (s.setCpl g { c with rxSeq := h.seq.toNat }).cplAck g h
    (s.cplPlain g 0x00 vc (units + 1) [], true)
  else ((s.setCpl g { c with heard := s.now }).cplPlain g 0x01 0 0 [], false)

/-! ### Members -/

/-- The module's own lot (R15). -/
def ownLot : Nat := (Config.lot 0xFF).toNat

/-- The module's own member index, if it is a member. -/
def State.ownIndex (s : State) : Option Nat := s.complex.lots.findIdx? fun l => l == ownLot

/-- The up groups that reach the member with index `m`, lowest first. -/
def State.groupsTo (s : State) (m : Nat) : List Nat :=
  match s.complex.lots[m]? with
  | none => []
  | some l => (List.range 4).filter fun g => (s.cpl g).up && (s.cpl g).peerLot == l && l != 0

/-- The group by which an engine of die `d` reaches a member, preferring one on its own die (R396). -/
def State.groupTo (s : State) (m d : Nat) : Option Nat :=
  let gs := s.groupsTo m
  match gs.find? fun g => g / 2 == d with
  | some g => some g
  | none => gs.head?

/-- The member index of the module at the other end of a group. -/
def State.memberAt (s : State) (g : Nat) : Option Nat :=
  s.complex.lots.findIdx? fun l => l == (s.cpl g).peerLot && l != 0

/-- A lot as the five bytes of its 40 bits. -/
def lotBytes (l : Nat) : List Byte := beBytes 5 l

/-- The lots that the module reaches directly. -/
def State.reached (s : State) : List Nat :=
  ((List.range 4).filter fun g => (s.cpl g).up && (s.cpl g).peerLot != 0).map fun g => (s.cpl g).peerLot

/-- HELLO on a group (R395): lot, CXID, group instance and the lots reached. Their order in the payload is log entry 16. -/
def State.sendHello (s : State) (g : Nat) : State :=
  s.cplSend g 0x10 0 (lotBytes ownLot ++ beBytes 2 (s.rd uModule Reg.CPL_CX.CXID) ++ beBytes 1 g ++ s.reached.flatMap lotBytes)

/-- Enumeration starts (R398): RESULT reads in progress and HELLO goes out on every up group. -/
def State.startEnum (s : State) : State :=
  if s.flag uModule Reg.CPL_CX.EN ∧ s.rd uModule Reg.CPL_CX.CXID ≠ 0 then
    let s := s.wr uModule Reg.CPL_ENUM.RESULT 2
    let s := { s with complex := { Complex.reset with access := s.complex.access, tag := s.complex.tag } }
    State.each (List.range 4) (fun g s => if (s.cpl g).up then s.sendHello g else s) s
  else s

/-- Groups whose peer belongs to the same complex (R398). -/
def State.joined (s : State) : List Nat :=
  (List.range 4).filter fun g => (s.cpl g).up && (s.cpl g).peerLot != 0
    && (s.cpl g).peerCxid == s.rd uModule Reg.CPL_CX.CXID

end Sys2Proof.Machine
end

