-- ==== Sys2Proof/Machine/Checkstop.lean ====
section
/-! DEFINITION. The checkstop of a seam (R265), which stores lost, failed owner checks, uncorrectable map entries, lost channels and
dies, and SEAM_CMD raise; and losses of stores (R138). -/

namespace Sys2Proof.Machine

/-- A work unit is taken off its core for a checkstop or a reset of its seam and stays ready, dispatched nowhere (R265). R249 gives
this take-off no reason code: the byte is a free value. -/
def State.pullOff (s : State) (num : Nat) : State :=
  match (s.work num).run with
  | .running k =>
    let f := s.freeValue
    let s := f.1.traceWork 0x06 num k [f.2.setWidth 8]
    let s := s.bump uForeman Reg.FMN_COUNT.TAKEOFFS
    let r := s.saveOff k num
    if r.2.1 then r.1.enqueue num true else r.1
  | _ => s

/-- The work units of a seam that run on cores. -/
def State.runningUnits (s : State) (seam : Nat) : List Nat :=
  (s.wus.filter fun e => (match e.2.run with | .running _ => true | _ => false) && e.2.seam == seam).map Prod.fst

/-- Checkstop a seam with a cause now (R265): a built seam becomes checkstopped with the first cause, its work units leave their cores,
and its open exchanges end with 0x23. -/
def State.checkstopNow (s : State) (seam cause : Nat) : State :=
  if seam = 0 ∨ 64 ≤ seam ∨ s.rd uSeamCtl (Reg.SEAM_STATE.STATE.ix seam) ≠ 1 then s
  else
    let s := (s.wr uSeamCtl (Reg.SEAM_STATE.STATE.ix seam) 2).wr uSeamCtl (Reg.SEAM_STATE.CAUSE.ix seam) cause
    let s := s.tallyEvent (some uSeamCtl) 0x04 0x10 7 seam (payload8 cause (beBytes 1 cause))
    let s := State.each (s.runningUnits seam) (fun num s => s.pullOff num) s
    s.endExchanges seam 0x01

/-- Hardware raises a checkstop of a seam (R265): it takes effect now, or after the seam's command in progress (R257). -/
def State.checkstopSeam (s : State) (seam cause : Nat) : State :=
  if s.seamCmd.any (fun c => c.seam == seam) then
    if s.heldStops.any (fun h => h.1 == seam) then s else { s with heldStops := s.heldStops ++ [(seam, cause)] }
  else s.checkstopNow seam cause

/-- The checkstops that waited for a command take effect (R257). -/
def State.heldStopsNow (s : State) : State :=
  State.each s.heldStops (fun h s => s.checkstopNow h.1 h.2) { s with heldStops := [] }

/-- An owner check of R262 failed for a request of a seam: ISOLATION, ISO_REJ and the checkstop. -/
def State.isolationFault (s : State) (seam : Nat) : State :=
  ((s.stick uSeamCtl Reg.SEAM_ERR.ISOLATION).count uSeamCtl (Reg.SEAM_COUNT.ISO_REJ.ix seam)).checkstopSeam seam 3

/-- A map read of a seam was uncorrectable (R259). -/
def State.mapFault (s : State) (seam : Nat) : State := (s.stick uSeamCtl Reg.SEAM_ERR.MAP_UNCORR).checkstopSeam seam 6

/-- What an I/O access that could not be performed causes (R259, R262): a checkstop of its seam. -/
def State.agentFault (s : State) (seam : Nat) (e : AgentEnd) : State :=
  match e with
  | .refused => s.isolationFault seam
  | .mapUncorrectable => s.mapFault seam
  | _ => s

/-- The WORKID of the work unit that a core holds or held last. -/
def State.workOf (s : State) (k : Nat) : Word :=
  match (s.core k).wu, (s.core k).suspended with
  | some num, _ | none, some num => workId (s.work num).seam num
  | none, none => 0

/-- A store of a seam is lost in core `k` (R138): STORE_LOSS is set and recorded, and the seam is checkstopped. -/
def State.lostStore (s : State) (k seam : Nat) : State :=
  let wid := s.workOf k
  ((s.stick (uCore k) Reg.CKW_STAT.STORE_LOSS).tallyEvent (some (uCore k)) 0x05 0x05 7 seam
    (payload8 0 (wordBytes wid))).checkstopSeam seam 1

/-- Stores that could not be performed checkstop the seams that owned them (R138, R183, R262). -/
def State.losses (s : State) (l : List Loss) : State :=
  State.each l.eraseDups (fun x s => if x.2.2 = 3 then s.isolationFault x.2.1 else s.lostStore x.1 x.2.1) s

/-- Home agents have refused requests of seams while messages arrived: the checkstops follow (R262). -/
def State.isolations (s : State) : State :=
  State.each s.isolated.eraseDups (fun n s => s.isolationFault n) { s with isolated := [] }

/-- Drain a core's buffers, with the checkstops that lost stores cause. -/
def State.drainAll (s : State) (k : Nat) : State :=
  let r := s.drain k
  (r.1.losses r.2).isolations

/-- A core's buffered stores are discarded (R138): STORE_LOSS is set and recorded, and the owning seams are checkstopped. -/
def State.discardStores (s : State) (k : Nat) : State :=
  let c := s.core k
  let seams := (c.storeBuf.map BufStore.seam ++ c.gather.map Gather.seam).eraseDups
  State.each seams (fun n s => s.lostStore k n) (s.setCore k { c with storeBuf := [], gather := [] })

/-- Drain a core's buffers within 2 µs; the stores that remain are discarded (R138). -/
def State.drainOrDiscard (s : State) (k : Nat) : State :=
  let r := s.drain k (some 2000)
  ((r.1.losses r.2).isolations).discardStores k

end Sys2Proof.Machine
end

