-- ==== Sys2Proof/Machine/Sha.lean ====
section
/-! DEFINITION. The digests that the module computes (R416, R418, R423, R443): SHA-256, SHA-384 and SHA-512 of FIPS 180-4 (SHA-512 for
Ed25519 of RFC 8032), SHA3-256 and SHA3-384 of FIPS 202, and HMAC-SHA-2 for the nonce of RFC 6979. -/

namespace Sys2Proof.Machine

/-- The round constants of SHA-256. -/
def sha256K : List Nat :=
  [0x428A2F98, 0x71374491, 0xB5C0FBCF, 0xE9B5DBA5, 0x3956C25B, 0x59F111F1, 0x923F82A4, 0xAB1C5ED5,
   0xD807AA98, 0x12835B01, 0x243185BE, 0x550C7DC3, 0x72BE5D74, 0x80DEB1FE, 0x9BDC06A7, 0xC19BF174]
  ++ [0xE49B69C1, 0xEFBE4786, 0x0FC19DC6, 0x240CA1CC, 0x2DE92C6F, 0x4A7484AA, 0x5CB0A9DC, 0x76F988DA,
   0x983E5152, 0xA831C66D, 0xB00327C8, 0xBF597FC7, 0xC6E00BF3, 0xD5A79147, 0x06CA6351, 0x14292967]
  ++ [0x27B70A85, 0x2E1B2138, 0x4D2C6DFC, 0x53380D13, 0x650A7354, 0x766A0ABB, 0x81C2C92E, 0x92722C85,
   0xA2BFE8A1, 0xA81A664B, 0xC24B8B70, 0xC76C51A3, 0xD192E819, 0xD6990624, 0xF40E3585, 0x106AA070]
  ++ [0x19A4C116, 0x1E376C08, 0x2748774C, 0x34B0BCB5, 0x391C0CB3, 0x4ED8AA4A, 0x5B9CCA4F, 0x682E6FF3,
   0x748F82EE, 0x78A5636F, 0x84C87814, 0x8CC70208, 0x90BEFFFA, 0xA4506CEB, 0xBEF9A3F7, 0xC67178F2]

/-- The round constants of SHA-384 and SHA-512. -/
def sha512K : List Nat :=
  [0x428A2F98D728AE22, 0x7137449123EF65CD, 0xB5C0FBCFEC4D3B2F, 0xE9B5DBA58189DBBC,
   0x3956C25BF348B538, 0x59F111F1B605D019, 0x923F82A4AF194F9B, 0xAB1C5ED5DA6D8118,
   0xD807AA98A3030242, 0x12835B0145706FBE, 0x243185BE4EE4B28C, 0x550C7DC3D5FFB4E2,
   0x72BE5D74F27B896F, 0x80DEB1FE3B1696B1, 0x9BDC06A725C71235, 0xC19BF174CF692694]
  ++ [0xE49B69C19EF14AD2, 0xEFBE4786384F25E3, 0x0FC19DC68B8CD5B5, 0x240CA1CC77AC9C65,
   0x2DE92C6F592B0275, 0x4A7484AA6EA6E483, 0x5CB0A9DCBD41FBD4, 0x76F988DA831153B5,
   0x983E5152EE66DFAB, 0xA831C66D2DB43210, 0xB00327C898FB213F, 0xBF597FC7BEEF0EE4,
   0xC6E00BF33DA88FC2, 0xD5A79147930AA725, 0x06CA6351E003826F, 0x142929670A0E6E70]
  ++ [0x27B70A8546D22FFC, 0x2E1B21385C26C926, 0x4D2C6DFC5AC42AED, 0x53380D139D95B3DF,
   0x650A73548BAF63DE, 0x766A0ABB3C77B2A8, 0x81C2C92E47EDAEE6, 0x92722C851482353B,
   0xA2BFE8A14CF10364, 0xA81A664BBC423001, 0xC24B8B70D0F89791, 0xC76C51A30654BE30,
   0xD192E819D6EF5218, 0xD69906245565A910, 0xF40E35855771202A, 0x106AA07032BBD1B8]
  ++ [0x19A4C116B8D2D0C8, 0x1E376C085141AB53, 0x2748774CDF8EEB99, 0x34B0BCB5E19B48A8,
   0x391C0CB3C5C95A63, 0x4ED8AA4AE3418ACB, 0x5B9CCA4F7763E373, 0x682E6FF3D6B2B8A3,
   0x748F82EE5DEFB2FC, 0x78A5636F43172F60, 0x84C87814A1F0AB72, 0x8CC702081A6439EC,
   0x90BEFFFA23631E28, 0xA4506CEBDE82BDE9, 0xBEF9A3F7B2C67915, 0xC67178F2E372532B]
  ++ [0xCA273ECEEA26619C, 0xD186B8C721C0C207, 0xEADA7DD6CDE0EB1E, 0xF57D4F7FEE6ED178,
   0x06F067AA72176FBA, 0x0A637DC5A2C898A6, 0x113F9804BEF90DAE, 0x1B710B35131C471B,
   0x28DB77F523047D84, 0x32CAAB7B40C72493, 0x3C9EBE0A15C9BEBC, 0x431D67C49C100D4C,
   0x4CC5D4BECB3E42B6, 0x597F299CFC657E2A, 0x5FCB6FAB3AD6FAEC, 0x6C44198C4A475817]

/-- The initial values of SHA-256. -/
def sha256H : List Nat :=
  [0x6A09E667, 0xBB67AE85, 0x3C6EF372, 0xA54FF53A, 0x510E527F, 0x9B05688C, 0x1F83D9AB, 0x5BE0CD19]

/-- The initial values of SHA-384. -/
def sha384H : List Nat :=
  [0xCBBB9D5DC1059ED8, 0x629A292A367CD507, 0x9159015A3070DD17, 0x152FECD8F70E5939,
   0x67332667FFC00B31, 0x8EB44A8768581511, 0xDB0C2E0D64F98FA7, 0x47B5481DBEFA4FA4]

/-- The initial values of SHA-512. -/
def sha512H : List Nat :=
  [0x6A09E667F3BCC908, 0xBB67AE8584CAA73B, 0x3C6EF372FE94F82B, 0xA54FF53A5F1D36F1,
   0x510E527FADE682D1, 0x9B05688C2B3E6C1F, 0x1F83D9ABFB41BD6B, 0x5BE0CD19137E2179]

/-- A word of `w` bits rotated right by `n`. -/
def rotr {w : Nat} (x : BitVec w) (n : Nat) : BitVec w := x.rotateRight n

/-- How the two widths of SHA-2 differ: word size, rotations of the four functions, constants. -/
structure Sha2 (w : Nat) where
  big0 : Nat × Nat × Nat
  big1 : Nat × Nat × Nat
  small0 : Nat × Nat × Nat
  small1 : Nat × Nat × Nat
  k : List Nat
  deriving DecidableEq, Repr

def sha256Params : Sha2 32 := ⟨(2, 13, 22), (6, 11, 25), (7, 18, 3), (17, 19, 10), sha256K⟩
def sha512Params : Sha2 64 := ⟨(28, 34, 39), (14, 18, 41), (1, 8, 7), (19, 61, 6), sha512K⟩

/-- The functions Sigma (three rotations) and sigma (two rotations and a shift) of SHA-2. -/
def shaBig {w : Nat} (r : Nat × Nat × Nat) (x : BitVec w) : BitVec w := rotr x r.1 ^^^ rotr x r.2.1 ^^^ rotr x r.2.2
def shaSmall {w : Nat} (r : Nat × Nat × Nat) (x : BitVec w) : BitVec w := rotr x r.1 ^^^ rotr x r.2.1 ^^^ (x >>> r.2.2)

/-- The message schedule: `n` more words, from the last sixteen kept newest first. -/
def shaSchedule {w : Nat} (p : Sha2 w) : Nat → List (BitVec w) → List (BitVec w)
  | 0, l => l
  | n + 1, l =>
    let at_ (i : Nat) : BitVec w := l.getD i 0
    shaSchedule p n ((shaSmall p.small1 (at_ 1) + at_ 6 + shaSmall p.small0 (at_ 14) + at_ 15) :: l)

/-- One round of SHA-2 on the eight working variables. -/
def shaRound {w : Nat} (p : Sha2 w) (v : List (BitVec w)) (kw : BitVec w × BitVec w) : List (BitVec w) :=
  match v with
  | [a, b, c, d, e, f, g, h] =>
    let t1 := h + shaBig p.big1 e + ((e &&& f) ^^^ (~~~e &&& g)) + kw.1 + kw.2
    let t2 := shaBig p.big0 a + ((a &&& b) ^^^ (a &&& c) ^^^ (b &&& c))
    [t1 + t2, a, b, c, d + t1, e, f, g]
  | v => v

/-- One block of SHA-2, of sixteen words. -/
def shaBlock {w : Nat} (p : Sha2 w) (h : List (BitVec w)) (block : List (BitVec w)) : List (BitVec w) :=
  let ks := p.k.map (BitVec.ofNat w)
  let ws := (shaSchedule p (ks.length - 16) block.reverse).reverse
  List.zipWith (· + ·) h ((List.zip ks ws).foldl (shaRound p) h)

/-- A number as `n` bytes, the most significant first. -/
def natBytes (n v : Nat) : List Byte := (List.range n).map fun i => BitVec.ofNat 8 (v >>> (8 * (n - 1 - i)))

/-- The number that bytes spell, the most significant first. -/
def bytesNat (l : List Byte) : Nat := l.foldl (fun a b => a * 256 + b.toNat) 0

/-- A list cut in pieces of `n`. `fuel` bounds their number. -/
def chunks {α : Type} (n : Nat) : Nat → List α → List (List α)
  | 0, _ => []
  | fuel + 1, l => if l.isEmpty then [] else l.take n :: chunks n fuel (l.drop n)

/-- The padded message of SHA-2 with blocks of `b` bytes and a length field of `c` bytes. -/
def shaPad (b c : Nat) (l : List Byte) : List Byte :=
  let z := (b - (l.length + 1 + c) % b) % b
  l ++ 0x80#8 :: (List.replicate z 0#8 ++ natBytes c (8 * l.length))

/-- SHA-2 with words of `w` bits. -/
def sha2 {w : Nat} (p : Sha2 w) (h0 : List Nat) (l : List Byte) : List Byte :=
  let b := w * 2
  let m := shaPad b (w / 4) l
  let blocks := chunks b (m.length / b) m
  let h := blocks.foldl (fun h blk =>
    shaBlock p h ((chunks (w / 8) 16 blk).map fun x => BitVec.ofNat w (bytesNat x))) (h0.map (BitVec.ofNat w))
  h.flatMap fun x => natBytes (w / 8) x.toNat

def sha256 (l : List Byte) : List Byte := sha2 sha256Params sha256H l
def sha384 (l : List Byte) : List Byte := (sha2 sha512Params sha384H l).take 48
def sha512 (l : List Byte) : List Byte := sha2 sha512Params sha512H l

/-! ### SHA-3 -/

/-- The shift register from which FIPS 202 makes the round constants, after `t` steps. -/
def keccakLfsr : Nat → Nat
  | 0 => 1
  | t + 1 =>
    let r := 2 * keccakLfsr t
    if 256 ≤ r then r ^^^ 0x171 else r

/-- The round constant of round `i`: bit 2^j - 1 is the output of the shift register at step j + 7i (FIPS 202). -/
def keccakConstant (i : Nat) : BitVec 64 :=
  BitVec.ofNat 64 (((List.range 7).map fun j => keccakLfsr (j + 7 * i) % 2 * 2 ^ (2 ^ j - 1)).sum)

/-- The lane, as x and y, that the walk of step rho meets at `t`, from (1, 0) on. -/
def keccakWalk : Nat → Nat × Nat
  | 0 => (1, 0)
  | t + 1 => ((keccakWalk t).2, (2 * (keccakWalk t).1 + 3 * (keccakWalk t).2) % 5)

/-- The rotation of a lane in step rho: the triangular number of its place on the walk (FIPS 202). -/
def keccakTurn (x y : Nat) : Nat :=
  match (List.range 24).find? fun t => keccakWalk t == (x, y) with
  | some t => (t + 1) * (t + 2) / 2 % 64
  | none => 0

/-- The rotations of step rho, plane by plane. -/
def keccakTurns : List (List Nat) := (List.range 5).map fun y => (List.range 5).map fun x => keccakTurn x y

/-- The state of Keccak: five planes y of five lanes x. -/
abbrev Planes := List (List (BitVec 64))

/-- A list of five turned so that element `n` comes first. -/
def turned {α : Type} (n : Nat) (l : List α) : List α := l.drop n ++ l.take n

/-- Step theta: the parities of the columns on both sides go into every lane. -/
def keccakTheta (p : Planes) : Planes :=
  let parity := p.foldl (List.zipWith (· ^^^ ·)) (List.replicate 5 0)
  let mix := List.zipWith (· ^^^ ·) (turned 4 parity) ((turned 1 parity).map (·.rotateLeft 1))
  p.map (List.zipWith (· ^^^ ·) mix)

/-- Steps rho and pi: lanes turn and change places. -/
def keccakRhoPi (p : Planes) : Planes :=
  let r := List.zipWith (List.zipWith fun v n => BitVec.rotateLeft v n) p keccakTurns
  (List.range 5).map fun y => (List.range 5).map fun x => (r.getD x []).getD ((x + 3 * y) % 5) 0

/-- Step chi, in one plane. -/
def keccakChi (plane : List (BitVec 64)) : List (BitVec 64) :=
  List.zipWith (· ^^^ ·) plane (List.zipWith (fun u v => ~~~u &&& v) (turned 1 plane) (turned 2 plane))

/-- A round of Keccak-f[1600]; step iota puts the round constant into the first lane. -/
def keccakRound (p : Planes) (rc : BitVec 64) : Planes :=
  match (keccakRhoPi (keccakTheta p)).map keccakChi with
  | (v :: plane) :: rest => ((v ^^^ rc) :: plane) :: rest
  | q => q

def keccakF (p : Planes) : Planes := ((List.range 24).map keccakConstant).foldl keccakRound p

/-- SHA-3 with a digest of `n` bytes. -/
def sha3 (n : Nat) (l : List Byte) : List Byte :=
  let rate := 200 - 2 * n
  let q := rate - l.length % rate
  let m := if q = 1 then l ++ [0x86#8] else l ++ 0x06#8 :: (List.replicate (q - 2) 0#8 ++ [0x80#8])
  let absorb (p : Planes) (block : List Byte) : Planes :=
    let lanes := (chunks 8 25 (block ++ List.replicate (200 - rate) 0)).map fun x => BitVec.ofNat 64 (bytesNat x.reverse)
    keccakF (List.zipWith (List.zipWith (· ^^^ ·)) p (chunks 5 5 lanes))
  let st := (chunks rate (m.length / rate) m).foldl absorb (List.replicate 5 (List.replicate 5 0))
  (st.flatten.flatMap fun x => (natBytes 8 x.toNat).reverse).take n

/-! ### HMAC -/

/-- HMAC of FIPS 198-1 with a hash of block size `b`. -/
def hmac (hash : List Byte → List Byte) (b : Nat) (key m : List Byte) : List Byte :=
  let k := if b < key.length then hash key else key
  let k := k ++ List.replicate (b - k.length) 0#8
  hash (k.map (· ^^^ 0x5C#8) ++ hash (k.map (· ^^^ 0x36#8) ++ m))

end Sys2Proof.Machine
end

