-- ==== Sys2Proof/Machine/Measure.lean ====
section
/-! DEFINITION. Extension of the measurement log (R423, R424). -/

namespace Sys2Proof.Machine

/-- CHAIN (R423), 48 bytes. -/
def State.chain (s : State) : List Byte := (List.range 6).flatMap fun i => natBytes 8 (s.rd uSvcDie (Reg.ATT_CHAIN.CHAIN.ix i))

/-- Bytes 0x00-0x4F of a log entry (R423). -/
def State.logFront (s : State) (kind subject gen : Nat) (declared : Bool) (digest : List Byte) : List Byte :=
  natBytes 8 (s.rd uSvcDie Reg.ATT_LOG_STAT.COUNT) ++ natBytes 1 kind ++ natBytes 1 (if declared then 128 else 0)
    ++ natBytes 2 subject ++ natBytes 4 s.pcycle ++ natBytes 8 s.opTime ++ natBytes 8 gen ++ padTo 48 digest

/-- Extend the log: CHAIN and COUNT always change; after 2,048 entries no entry is stored and OVERFLOW is set (R423). -/
def State.extendLog (s : State) (kind subject gen : Nat) (declared : Bool) (digest : List Byte) : State :=
  let front := s.logFront kind subject gen declared digest
  let chain := sha384 (s.chain ++ front)
  let n := s.rd uSvcDie Reg.ATT_LOG_STAT.COUNT
  let s := State.each (List.range 6) (fun i s =>
    s.wr uSvcDie (Reg.ATT_CHAIN.CHAIN.ix i) (bytesNat ((chain.drop (8 * i)).take 8))) s
  let s := s.wr uSvcDie Reg.ATT_LOG_STAT.COUNT (n + 1)
  if n < 2048 then { s with attLog := s.attLog.put [] n (front ++ chain) }
  else s.wr uSvcDie Reg.ATT_LOG_STAT.OVERFLOW 1

end Sys2Proof.Machine
end

