-- ==== Sys2Proof/Machine/Patches.lean ====
section
/-! DEFINITION. Patch memories of the cores and their loads from the active copy (R217, R218, R222), and the failure of a core (R197,
R201). -/

namespace Sys2Proof.Machine

/-! ### Bundles (R220) -/

/-- A number of `n` bytes at an offset of a bundle. -/
def bunNum (b : List Byte) (off n : Nat) : Nat := bytesNat ((b.drop off).take n)

/-- GENERATION, WORDS and MATCHES of a bundle. -/
def bunGen (b : List Byte) : Nat := bunNum b 0x014 4
def bunWords (b : List Byte) : Nat := bunNum b 0x018 2
def bunMatches (b : List Byte) : Nat := bunNum b 0x01A 2

/-- The whole bundle's digest (R220). -/
def bunDigest (b : List Byte) : List Byte := sha384 b

/-! ### Patch memories (R222, R225) -/

/-- The key of patch word `i` of core `k`. -/
def patchKey (k i : Nat) : Nat := k * 4096 + i

/-- The patch memory and the match registers of a core hold nothing: the core runs ROM only. -/
def State.patchClear (s : State) (k : Nat) : State :=
  let s := { s with patches := s.patches.filter fun e => e.1 / 4096 != k }
  let s := (s.wr (uMcs k) Reg.MCS_STAT.VALID 0).wr (uMcs k) Reg.MCS_STAT.WORDS 0
  let s := (s.wr (uMcs k) Reg.MCS_STAT.MATCHES 0).wr (uMcs k) Reg.MCS_STAT.GEN 0
  State.each (List.range 32) (fun i s => s.setWord (uMcs k) (0x100 + 8 * i) 0) s

/-- The bits of a match register that are not reserved: EN, ROM_ADDR and PATCH_ADDR (R225). -/
def matchMask : Word := 0x8001FFFF00000FFF#64

/-- A core loads its patch memory and match registers from the active copy, whole (R222): the cause, and the time in µs. The Tally
records the core, the generation and the cause (R224). -/
def State.patchLoad (s : State) (k cause us : Nat) : State :=
  let s := s.patchClear k
  let s := match s.active with
    | none => s
    | some b =>
      let s := State.each (List.range (bunWords b)) (fun i s =>
        { s with patches := s.patches.put 0 (patchKey k i) (BitVec.ofNat 64 (bunNum b (0x140 + 4 * i) 4)) }) s
      let s := State.each (List.range 32) (fun i s =>
        s.setWord (uMcs k) (0x100 + 8 * i) (BitVec.ofNat 64 (bunNum b (0x040 + 8 * i) 8) &&& matchMask)) s
      let s := (s.wr (uMcs k) Reg.MCS_STAT.VALID 1).wr (uMcs k) Reg.MCS_STAT.WORDS (bunWords b)
      (s.wr (uMcs k) Reg.MCS_STAT.MATCHES (bunMatches b)).wr (uMcs k) Reg.MCS_STAT.GEN (bunGen b)
  let gen := match s.active with | some b => bunGen b | none => 0
  let digest := match s.active with | some b => (bunDigest b).take 16 | none => List.replicate 16 0
  let s := (s.bump (uMcs k) Reg.MCS_LOADS.LOADS).wr (uMcs k) Reg.MCS_LOADS.CAUSE cause
  let s := { s.wr (uMcs k) Reg.MCS_LOADS.LAST_US us with patchDue := s.patchDue.put 0 k 0 }
  s.tallyEvent (some (uMcs k)) 0x06 0x02 7 0xFF (payload8 0 (beBytes 4 gen ++ beBytes 1 cause ++ digest))

/-- Does a core of the rollout of ACTIVATE come next in its tile: no unpinned core before it is pending (R222)? A pinned one comes when it
holds no work unit. -/
def State.loadTurn (s : State) (k : Nat) : Bool :=
  let pinned (j : Nat) : Bool := s.flag (uCore j) Reg.UNIT_POWER.PIN
  s.mcsPending.contains k && (pinned k || !(s.mcsPending.any fun j => j / 12 == k / 12 && decide (j < k) && !pinned j))

/-- Does a core owe or run a patch load, so that it executes nothing and receives no work unit (R222)? A core of a rollout goes on with its
work unit until its own load. -/
def State.loadDue (s : State) (k : Nat) : Bool :=
  s.patchDue.look 0 k != 0 || (s.patchRuns.look none k).isSome || ((s.core k).wu.isNone && s.loadTurn k)

/-- ACTIVATE ends when no core is pending (R222, R227). One that still waits for loads in progress has RESULT 0 in `mcsRun` (R221). -/
def State.activateCheck (s : State) : State :=
  match s.mcsRun with
  | some (2, 0x10) => if s.mcsPending.isEmpty then { s with mcsRun := none }.wr uSvcDie Reg.MCS_LDR_CTL.RESULT 0x10 else s
  | _ => s

/-- A core leaves the rollout of ACTIVATE; one that goes off is marked STALE (R222). -/
def State.leaveRollout (s : State) (k : Nat) (stale : Bool) : State :=
  let due := stale && s.mcsPending.contains k
  let s := { s with mcsPending := s.mcsPending.filter (· != k), patchRuns := s.patchRuns.put none k none }
  let s := s.wr (uMcs k) Reg.MCS_STAT.LOADING 0
  (if due then { s with patchDue := s.patchDue.put 0 k 0x07 } else s).activateCheck

/-! ### The failure of a core (R201) -/

/-- The pawns of a tile. -/
def State.pawns (s : State) (t : Nat) : List Nat := ((List.range 12).map fun j => 12 * t + j).filter fun k => (s.core k).role == .pawn

/-- A core is declared failed (R201): its lanes stop and it reads fenced, its work unit is suspended at the last compared checkpoint,
its buffers drain, and it raises FAILED. `causes` are the evidence bits that go with it. -/
def State.coreFail (s : State) (k : Nat) (causes : List Field) : State :=
  let c := s.core k
  let t := k / 12
  let watch := c.role == .watch
  let s := State.each (if watch then Reg.CKW_STAT.WATCH_FAIL :: causes else causes) (fun f s => s.wr (uCore k) f 1) s
  let s := if watch then s.bump (uTile t) Reg.CKW_COUNT.WATCH_FAILS else s
  let s := s.setCore k { c with
    role := .failed, arch := Arch.reset, group := Group.empty, wu := none, suspended := c.wu, takeoff := none }
  let s := match c.wu with
    | some num => s.setWork num { s.work num with run := .suspended k }
    | none => s
  let s := (s.setUnit (uCore k) { s.unit (uCore k) with fenced := true }).openWindow (uCore k)
  let s := s.wr (uTile t) Reg.CKW_SLOTS.FENCED ((s.rd (uTile t) Reg.CKW_SLOTS.FENCED) ||| 2 ^ (11 - k % 12))
  let s := if (s.pawns t).isEmpty then s.wr (uTile t) Reg.CKW_EXHAUST.EXHAUSTED 1 else s
  let s := s.drainOrDiscard k
  let s := s.leaveRollout k false
  let s := s.stick (uCore k) Reg.CKW_STAT.FAILED none (BitVec.ofNat 64 (s.rd (uCore k) Reg.CKW_LAST_IA.IA)) true
  let s := s.tallyEvent (some (uCore k)) 0x05 0x02 7 0xFF (s.mismatchPayload k)
  s.fmnEvent (.failure k)

/-- An uncorrectable patch word or match register (R218): the core restores its last compared checkpoint and reloads its patch memory; a
second one within 1 s declares it failed. -/
def State.patchUncorr (s : State) (k : Nat) : State :=
  let c := s.core k
  let recent := c.csErrors.filter fun at_ => decide (s.now < at_ + 1000000000)
  let s := s.setCore k { c with csErrors := recent ++ [s.now] }
  let s := s.tallyEvent (some (uMcs k)) 0x06 0x03 7 0xFF (payload8 0 (beBytes 4 (s.rd (uMcs k) Reg.MCS_STAT.GEN)))
  if !recent.isEmpty then s.coreFail k []
  else
    let c := s.core k
    let s := if c.wu.isSome then s.setCore k { c with arch := c.ckpt.arch, group := Group.empty } else s
    s.patchLoad k 0x06 0

/-- An uncorrectable ROM word or invalid microword (R218): the core has failed. -/
def State.romUncorr (s : State) (k : Nat) : State :=
  let s := s.tallyEvent (some (uMcs k)) 0x06 0x03 7 0xFF (payload8 0 (beBytes 4 (s.rd (uMcs k) Reg.MCS_STAT.GEN)))
  s.coreFail k []

/-! ### The control store (R215-R218) -/

/-- Bits `a` to `b` of a microword (R4). -/
def micField (w : BitVec 32) (a b : Nat) : Nat := w.toNat / 2 ^ (31 - b) % 2 ^ (b + 1 - a)

/-- Is a microword of a class in use, with its fields marked zero 0 (R216)? -/
def microSound (w : BitVec 32) : Bool :=
  match micField w 0 3 with
  | 0 | 3 => micField w 26 31 == 0
  | 1 => micField w 30 31 == 0
  | 2 => true
  | 4 | 5 | 6 | 7 => micField w 28 31 == 0
  | 8 => micField w 17 31 == 0
  | _ => false

/-- PATCH_ADDR of the first match register that is enabled for a ROM microaddress (R217). -/
def State.microMatch (s : State) (k ua : Nat) : Option Nat :=
  (((List.range 32).map fun i => s.word (uMcs k) (0x100 + 8 * i)).find? fun w => w.bit 0 && w.field 15 31 == ua).map fun w => w.field 52 63

/-- A word of the patch memory of a core. -/
def State.patchWord (s : State) (k i : Nat) : BitVec 32 := (s.patches.look 0 (patchKey k i)).setWidth 32

/-- The microword stored where a fetch goes (R215, R217): the ROM word or the patch word that takes its place, or a word of the patch
memory, which is never matched; none at a reserved microaddress. -/
def State.microWord (s : State) (k ua : Nat) : Option (BitVec 32) :=
  if ua < 0x20000 then
    match s.microMatch k ua with
    | some i => some (s.patchWord k i)
    | none => some (Config.romWord ua)
  else if ua < 0x21000 then some (s.patchWord k (ua - 0x20000))
  else none

/-- fetch(ua) of R217: the microword delivered; none for one that is handled as uncorrectable (R216). -/
def State.microFetch (s : State) (k ua : Nat) : Option (BitVec 32) := (s.microWord k ua).filter microSound

/-- The core runs microcode: for a decimal instruction, an instruction that acts outside the core, a table walk or the restore of a retry. A
fetch that a match register redirects counts in HITS; a microword handled as uncorrectable makes the core fail (R216-R218). Which
microaddresses are fetched is a free value; a core without a bundle runs the ROM alone, which is sound (log entry 114). -/
def State.microcode (s : State) (k : Nat) : State :=
  if !s.flag (uMcs k) Reg.MCS_STAT.VALID then s
  else
    let path := (Config.microPath s.free).map (· % 2 ^ 18)
    let good := path.takeWhile fun ua => (s.microFetch k ua).isSome
    let hits := (good.filter fun ua => decide (ua < 0x20000) && (s.microMatch k ua).isSome).length
    let t := ({ s with free := s.free + 1 } : State).bump (uMcs k) Reg.MCS_HITS.HITS hits
    if good.length = path.length then t else (t.stick (uMcs k) Reg.MCS_ECC.ROM_UNCORR).romUncorr k

end Sys2Proof.Machine
end

