-- ==== Sys2Proof/Machine/Translate.lean ====
section
/-! DEFINITION. Ezxis addresses: the translation walk and its checks (R63-R70), kept translations (R68), and what an absolute
address names (R25, R44, R70, R71). -/

namespace Sys2Proof.Machine

/-- Why an instruction does not complete: a program exception with its code and XADDR (R73); a synchronous machine check with
its code, ICODE bits 32:47 and XADDR (R457, R458); a checkstop of its seam with a CAUSE (R259, R262); a wait for an open
transaction of the line (log entry 11); or the loss of its work unit by a checkstop on the way. -/
inductive Exc where
  | program (code : Nat) (xaddr : Word)
  | machineCheck (code icode : Nat) (xaddr : Word)
  | checkstop (cause : Nat)
  | wait
  | gone
  deriving DecidableEq, Repr

/-- Order in which one of two reasons is reported: the lower program code first (R73). -/
def Exc.rank : Exc → Nat
  | .program c _ => c
  | .machineCheck .. => 100
  | .checkstop _ => 101
  | .wait => 102
  | .gone => 103

/-- Kinds of access for the checks of R66, R155: load, store, instruction fetch, a maintenance operation that needs only a
valid leaf, and one that needs W. -/
inductive Acc where
  | load | store | fetch | maint | maintWrite
  deriving DecidableEq, Repr

def Acc.writes : Acc → Bool
  | .store | .maintWrite => true | _ => false

/-- Do accesses of this kind set A and D (R67, R155)? -/
def Acc.marks : Acc → Bool
  | .load | .store | .fetch => true | _ => false

/-- The seam of a core's work unit; 0 for a core without one. -/
def State.seamOf (s : State) (k : Nat) : Nat :=
  match (s.core k).wu with
  | some n => (s.work n).seam
  | none => 0

/-- A translation table entry at an absolute address of the core's seam, as its memory holds it (R130). -/
def State.walkRead (s : State) (seam addr : Nat) (level : Nat) (va : Word) : Except Exc Word :=
  match s.mapAbs seam addr with
  | .outside => .error (.program 7 va)
  | .uncorrectable => .error (.checkstop 6)
  | .ok phys =>
    if !s.ownerAllows seam (phys / 128) then .error (.checkstop 3)
    else match s.snapshot (phys / 128) with
      | none => .error (.program 4 va)
      | some d =>
        if d.poisoned (phys % 128) 8 then .error (.machineCheck 0x0103 level va)
        else .ok (BitVec.ofNat 64 (beNat ((List.range 8).map fun i => lineByte d.data (phys % 128 + i))))

/-- Bits 16:52 of an entry as an address (R64). -/
def entryAddr (e : Word) : Nat := (e &&& 0x0000FFFFFFFFF800#64).toNat

/-- The checks of R65 for an entry at a level, before it is known to be a leaf. -/
def entryBad (program : Bool) (level : Nat) (e : Word) : Bool :=
  !e.bit 53 || e.field 0 15 != 0 || e.bit 63 || (decide (level ≤ 2) && e.bit 54)
    || (program && e.field 16 23 != 0)

/-- The walk of R63 from a level on. -/
def State.walk (s : State) (seam : Nat) (va : Word) : Nat → Nat → Nat → Except Exc Translation
  | 0, _, _ => .error (.program 6 va)
  | fuel + 1, level, base =>
    let addr := base + va.field (20 + 8 * (level - 1)) (27 + 8 * (level - 1)) * 8
    match s.walkRead seam addr level va with
    | .error x => .error x
    | .ok e =>
      if entryBad (seam != 0) level e then .error (.program 6 va)
      else
        let leaf := level = 4 ∨ (level = 3 ∧ e.bit 54)
        if ¬leaf then s.walk seam va fuel (level + 1) (entryAddr e)
        else
          let big := decide (level = 3)
          if (big && e.field 44 52 != 0) || (!big && e.bit 52) then .error (.program 6 va)
          else .ok
            { vpage := if big then va.toNat / 2 ^ 20 else va.toNat / 2 ^ 12, big := big,
              seam := seam, asn := 0, glob := e.bit 62, frame := entryAddr e,
              w := e.bit 55, x := e.bit 56, p := e.bit 57,
              mt := if e.field 58 59 = 0 then .normal else if e.field 58 59 = 1 then .uncached
                else if e.field 58 59 = 2 then .device else .reserved,
              leafAddr := addr, accessed := e.bit 60, dirty := e.bit 61 }

/-- Does a kept translation serve an address of a seam in an address space (R68; the seam by R267)? -/
def Translation.covers (t : Translation) (seam asn : Nat) (va : Word) : Bool :=
  t.seam == seam && (t.glob || t.asn == asn) && (if t.big then t.vpage == va.toNat / 2 ^ 20 else t.vpage == va.toNat / 2 ^ 12)

/-- The checks of R66 for an access through a leaf. -/
def Translation.permits (t : Translation) (acc : Acc) (problem : Bool) : Bool :=
  (!acc.writes || t.w) && (acc != .fetch || (t.x && (t.mt == .normal || t.mt == .uncached))) && (!problem || t.p)

/-- The absolute address through a leaf. -/
def Translation.absolute (t : Translation) (va : Word) : Nat :=
  if t.big then t.frame + va.toNat % 2 ^ 20 else t.frame + va.toNat % 2 ^ 12

/-- The atomic update of a leaf byte in the core's L2, which holds the line in M (R123, R130, R182). -/
def State.updateLeaf (s : State) (k seam phys : Nat) (bits : Byte) : State :=
  match s.getOwned k (phys / 128) seam false with
  | .ok s d =>
    let i := phys % 128
    s.writeOwned k (phys / 128) (maskRange i 1) (lineAtOffset i [lineByte d.data i ||| bits])
  | _ => s

/-- Set A, and D for a write, in the leaf in memory and in the kept translation (R67): an atomic operation, which drains the store buffer
first (R123, R130). -/
def State.markLeaf (s : State) (k seam : Nat) (t : Translation) (acc : Acc) : State :=
  let needA := acc.marks && !t.accessed
  let needD := acc == .store && !t.dirty
  if !needA && !needD then s
  else
    let s := s.drainAll k
    match (s.core k).wu.isSome, s.mapAbs seam t.leafAddr with
    | true, .ok phys =>
      let s := s.updateLeaf k seam (phys + 7) ((if needA then 8 else 0) ||| (if needD then 4 else 0))
      let c := s.core k
      s.setCore k { c with tlb := c.tlb.map fun (x : Translation) =>
        if x.leafAddr = t.leafAddr ∧ x.vpage = t.vpage ∧ x.seam = t.seam then
          { x with accessed := x.accessed || needA, dirty := x.dirty || needD } else x }
    | _, _ => s

/-- The leaf that translates a virtual address of core `k` (R63-R69), and whether the walk found it now; none while TR is 0. -/
def State.leafOf (s : State) (k : Nat) (va : Word) : Except Exc (Option (Translation × Bool)) :=
  let c := s.core k
  let seam := s.seamOf k
  if !c.arch.sw.bit 2 then
    if seam ≠ 0 ∧ va.field 0 23 ≠ 0 then .error (.program 7 va) else .ok none
  else if va.field 0 19 ≠ (if va.bit 20 then 2 ^ 20 - 1 else 0) then .error (.program 6 va)
  else
    let c1 := c.arch.cr.look 0 1
    let asn := c1.field 0 11
    match c.tlb.find? fun t => t.covers seam asn va with
    | some t => .ok (some (t, false))
    | none => match s.walk seam va 4 1 (entryAddr c1) with
      | .ok t => .ok (some ({ t with asn := asn }, true))
      | .error x => .error x

/-- Does an access of core `k` need a table walk: translation is on and no kept translation serves it (R63, R68)? -/
def State.mustWalk (s : State) (k : Nat) (va : Word) : Bool :=
  let c := s.core k
  c.arch.sw.bit 2 && (c.tlb.find? fun t => t.covers (s.seamOf k) ((c.arch.cr.look 0 1).field 0 11) va).isNone

/-- A table walk, which the core runs from microcode, comes after a BARS whose wait has not ended (R130): the buffers drain first. -/
def State.walkReady (s : State) (k : Nat) (va : Word) : State :=
  if s.mustWalk k va then (if (s.core k).bars then s.drainAll k else s).microcode k else s

/-- Translate a virtual address of core `k` (R63-R69): the absolute address, the memory type and the leaf, which the caller marks (R67). A
leaf that refuses the access raises the lower code, also where its memory type is reserved (R66, R71, R73). -/
def State.translate (s0 : State) (k : Nat) (va : Word) (acc : Acc) : State × Except Exc (Nat × MemType × Option Translation) :=
  let s := s0.walkReady k va
  if (s.core k).wu.isNone ∧ (s0.core k).wu.isSome then (s, .error .gone)
  else match s.leafOf k va with
  | .error x => (s, .error x)
  | .ok none => (s, .ok (va.toNat, .normal, none))
  | .ok (some (t, new)) =>
    if !t.permits acc ((s.core k).arch.sw.field 0 1 == 0) then (s, .error (.program 5 va))
    else if t.mt = .reserved then (s, .error (.program 6 va))
    else (if new then s.setCore k { s.core k with tlb := t :: (s.core k).tlb } else s, .ok (t.absolute va, t.mt, some t))

/-! ### What an absolute address names -/

/-- What a core's access reaches: memory (module physical address and type), or a device doubleword. -/
inductive Place where
  | memory (phys : Nat) (mt : MemType)
  | device (t : DeviceTarget)
  deriving DecidableEq, Repr

/-- What an absolute address of a seam names (R25, R44, R69-R71). -/
def State.placeOf (s : State) (seam addr : Nat) (mt : MemType) (va : Word) (problem fetch : Bool) : Except Exc Place :=
  if seam ≠ 0 then
    if 0xFFFFFFF000 ≤ addr ∧ addr < 0x10000000000 then
      if problem ∨ fetch then .error (.program 5 va) else .ok (.device (.seamPage seam (addr % 4096)))
    else match s.mapAbs seam addr with
      | .ok p => .ok (.memory p mt)
      | .outside => .error (.program 7 va)
      | .uncorrectable => .error (.checkstop 6)
  else if addr < 0x800000000 then
    if (s.homeOf (addr / 65536)).isSome then .ok (.memory addr mt) else .error (.program 4 va)
  else if 0x080000000000 ≤ addr ∧ addr < 0x080004000000 then
    if fetch then .error (.program 5 va) else .ok (.device (.journal (addr - 0x080000000000)))
  else if 0xF00000000000 ≤ addr ∧ addr < 0xF00001000000 then
    if fetch then .error (.program 5 va)
    else
      let slot := (addr - 0xF00000000000) / 4096
      match s.unitInSlot slot with
      | some u => .ok (.device (.page u (addr % 4096)))
      | none => .ok (.device (.unoccupied slot (addr % 4096)))
  else .error (.program 4 va)

/-- Is an absolute address of a seam one of the windows or the seam page, whose accesses are device accesses (R25, R44, R71)? -/
def windowAddr (seam addr : Nat) : Bool :=
  if seam ≠ 0 then decide (0xFFFFFFF000 ≤ addr) && decide (addr < 0x10000000000)
  else (decide (0x080000000000 ≤ addr) && decide (addr < 0x080004000000))
    || (decide (0xF00000000000 ≤ addr) && decide (addr < 0xF00001000000))

/-- Has what an access names one of the memory types that `bad` selects, whatever else refuses the access? -/
def State.namesType (s : State) (k : Nat) (va : Word) (bad : MemType → Bool) : Bool :=
  match s.leafOf k va with
  | .ok (some (t, _)) => bad (if windowAddr (s.seamOf k) (t.absolute va) then .device else t.mt)
  | .ok none => bad (if windowAddr (s.seamOf k) va.toNat then .device else .normal)
  | .error _ => false

/-- The exception of an access to memory of a type that its instruction does not allow, beside another one that the access raises: a
specification exception has the lower code (R71, R73). -/
def State.lowerCode (s : State) (k : Nat) (va : Word) (bad : MemType → Bool) (x : Exc) : Exc :=
  match x with
  | .program c _ => if 3 < c ∧ s.namesType k va bad = true then .program 3 0 else x
  | x => x

/-- An access that has been translated: what it reaches, its absolute address, and the leaf that it uses. -/
structure Reached where
  place : Place
  abs : Nat
  leaf : Option Translation
  deriving DecidableEq, Repr

/-- Translate an access and find what it reaches. -/
def State.reach (s : State) (k : Nat) (va : Word) (acc : Acc) : State × Except Exc Reached :=
  match s.translate k va acc with
  | (s, .error x) => (s, .error x)
  | (s, .ok (addr, mt, leaf)) =>
    match s.placeOf (s.seamOf k) addr mt va ((s.core k).arch.sw.field 0 1 == 0) (acc == .fetch) with
    | .error x => (s, .error x)
    | .ok p => (s, .ok { place := p, abs := addr, leaf := leaf })

/-- The leaf of an access that has passed its checks is marked (R67). -/
def State.markReached (s : State) (k : Nat) (r : Reached) (acc : Acc) : State :=
  match r.leaf with
  | some t => s.markLeaf k (s.seamOf k) t acc
  | none => s

end Sys2Proof.Machine
end

