-- ==== Sys2Proof/Machine/Operands.lean ====
section
/-! DEFINITION. Operands of Ezxis instructions: registers (R46-R48), the address forms (R55, R62), branch targets (R55), and the
operands of integer instructions in their 64-bit and W forms (R92). -/

namespace Sys2Proof.Machine

/-! ### Registers -/

/-- g(r). -/
def Arch.gr (a : Arch) (r : BitVec 5) : Word := a.g.look 0 r.toNat

/-- f(r). -/
def Arch.fr (a : Arch) (r : BitVec 5) : Word := a.f.look 0 r.toNat

/-- g(r) := w. -/
def Arch.setG (a : Arch) (r : BitVec 5) (w : Word) : Arch := { a with g := a.g.put 0 r.toNat w }

/-- f(r) := w. -/
def Arch.setF (a : Arch) (r : BitVec 5) (w : Word) : Arch := { a with f := a.f.put 0 r.toNat w }

/-- c(n). -/
def Arch.c (a : Arch) (n : Nat) : Word := a.cr.look 0 n

/-- c(n) := w. -/
def Arch.setC (a : Arch) (n : Nat) (w : Word) : Arch := { a with cr := a.cr.put 0 n w }

/-- The second register of an even/odd pair (R48, R59). -/
def pairOf (r : BitVec 5) : BitVec 5 := r + 1

/-- Does a register number name an even/odd pair? -/
def isEven (r : BitVec 5) : Bool := !r.getLsbD 0

/-- The architectural state of a core's work unit. -/
def State.arch (s : State) (k : Nat) : Arch := (s.core k).arch

/-- Change the architectural state of a core's work unit. -/
def State.setArch (s : State) (k : Nat) (a : Arch) : State := s.setCore k { s.core k with arch := a }

/-- Is the work unit in problem state (R50)? -/
def Arch.problem (a : Arch) : Bool := a.sw.field 0 1 == 0

/-! ### Addresses (R55, R62) -/

/-- The length in bytes of an instruction with an address form. -/
def AddrForm.length : AddrForm → Nat
  | .d4 .. => 4
  | .x6 .. => 6

/-- The operand address; none for an x field that SC 0b00 requires to be 0. -/
def Arch.address (a : Arch) : AddrForm → Option Word
  | .d4 b d => some (a.gr b + d.signExtend 64)
  | .x6 x b sc d =>
    if sc = 0 then (if x = 0 then some (a.gr b + d.signExtend 64) else none)
    else
      let shift : Nat := if sc = 1 then 0 else if sc = 2 then 3 else 4
      some (a.gr b + (a.gr x <<< shift) + d.signExtend 64)

/-- The target of a branch: twice the sign-extended halfword offset from the branch. -/
def branchTarget {n : Nat} (ia : Word) (off : BitVec n) : Word := ia + (off.signExtend 64 <<< 1)

/-- Does a condition mask take the branch: is its bit `CC`, counted from the most significant, 1 (R55, R60)? -/
def maskTakes (mask : BitVec 4) (cc : Nat) : Bool := mask.getLsbD (3 - cc)

/-! ### Integer operands (R92) -/

/-- The word width of a form. -/
def widthOf (w : Bool) : Nat := if w then 32 else 64

/-- A source as an unsigned number. -/
def srcU (w : Bool) (x : Word) : Nat := if w then x.toNat % 2 ^ 32 else x.toNat

/-- A source as a signed number. -/
def srcS (w : Bool) (x : Word) : Int := if w then (x.setWidth 32).toInt else x.toInt

/-- A result of a form: wrapped, and in a W form extended with copies of bit 32. -/
def resultOf (w : Bool) (v : Int) : Word := if w then (BitVec.ofInt 32 v).signExtend 64 else BitVec.ofInt 64 v

/-- Does a signed number fit the word width? -/
def fitsS (w : Bool) (v : Int) : Bool := srcS w (resultOf w v) == v

end Sys2Proof.Machine
end

