-- ==== Sys2Proof/Machine/Flags.lean ====
section
/-! DEFINITION. The condition code (R50, R93-R97) and the floating-point control register: enables, flags and rounding modes (R99-R101,
R108, R109). -/

namespace Sys2Proof.Machine

/-! ### The condition code -/

/-- CC of SW. -/
def Arch.cc (a : Arch) : Nat := a.sw.field 8 9

/-- CC := n. -/
def Arch.setCc (a : Arch) (n : Nat) : Arch := { a with sw := a.sw.setField 8 9 n }

/-- 0 zero, 1 negative, 2 positive. -/
def ccSign (v : Int) : Nat := if v = 0 then 0 else if v < 0 then 1 else 2

/-- CC of ADD, SUB, NEG and MUL: by the sign of the result as delivered, or 3 where the exact value does not fit the width (R93, R95). -/
def ccArith (w : Bool) (v : Int) : Nat := if fitsS w v then ccSign v else 3

/-- CC of ADDL: 1 for a non-zero result, and 2 more with a carry (R93). -/
def ccAddL (w : Bool) (sum : Nat) : Nat :=
  (if sum % 2 ^ widthOf w = 0 then 0 else 1) + (if 2 ^ widthOf w ≤ sum then 2 else 0)

/-- CC of SUBL: 0 zero, 1 with borrow, 2 without (R93). -/
def ccSubL (x y : Nat) : Nat := if x = y then 0 else if x < y then 1 else 2

/-- CC of a compare: 0 equal, 1 low, 2 high (R93). -/
def ccCompare (x y : Int) : Nat := if x = y then 0 else if x < y then 1 else 2

/-- CC of a bitwise operation: 0 zero, 1 non-zero (R93). -/
def ccLogic (x : Word) : Nat := if x = 0 then 0 else 1

/-! ### FPC (R99, R100) -/

/-- Raised IEEE exceptions, with the cause values of R108: V 0x80, Z 0x40, O 0x20, U 0x10, X 0x08. -/
abbrev Raised := BitVec 8

def raiseV : Raised := 0x80#8
def raiseZ : Raised := 0x40#8
def raiseO : Raised := 0x20#8
def raiseU : Raised := 0x10#8
def raiseX : Raised := 0x08#8

/-- The enable bits of FPC, in the places of the cause values. -/
def Arch.enables (a : Arch) : Raised := BitVec.ofNat 8 (a.fpc.field 0 7)

/-- The cause of the trap that raised exceptions take: the highest-priority one that is enabled (R108). -/
def trapCause (a : Arch) (r : Raised) : Option Nat :=
  [0x80, 0x40, 0x20, 0x10, 0x08].find? fun (c : Nat) => (r &&& a.enables &&& BitVec.ofNat 8 c) != 0

/-- Every raised exception sets its flag (R109). -/
def Arch.setFlags (a : Arch) (r : Raised) : Arch :=
  { a with fpc := a.fpc ||| BitVec.ofNat 64 (r.toNat * 2 ^ 48) }

/-- Rounding modes (R100). -/
inductive RMode where
  | rne | rtz | rtp | rtn | rna
  deriving DecidableEq, Repr

/-- The rounding mode of a code below 5. -/
def RMode.ofCode (code : Nat) : RMode :=
  match code with
  | 0 => .rne | 1 => .rtz | 2 => .rtp | 3 => .rtn | _ => .rna

/-- BRM (decimal false) or DRM of FPC. -/
def Arch.roundCode (a : Arch) (decimal : Bool) : Nat := if decimal then a.fpc.field 20 22 else a.fpc.field 16 18

/-- The rounding mode of an operation. Under a reserved code, which only a state area can bring into FPC, it is a free value (log entry
57). -/
def State.roundMode (s : State) (k : Nat) (decimal : Bool) : State × RMode :=
  let code := (s.arch k).roundCode decimal
  if code ≤ 4 then (s, RMode.ofCode code)
  else
    let v := s.freeValue
    (v.1, RMode.ofCode (v.2.toNat % 5))

/-- Does a value pass the checks of LFPC (R101)? -/
def fpcValid (w : Word) : Bool := (w &&& ~~~fpcMask) == 0 && decide (w.field 16 18 ≤ 4) && decide (w.field 20 22 ≤ 4)

end Sys2Proof.Machine
end

