-- ==== Sys2Proof/Machine/PowerStates.lean ====
section
/-! DEFINITION. What resets and power states do to register fields (R7, R8), to caches (R164), and the power states of cores and tiles
(R18, R41, R244, R482). -/

namespace Sys2Proof.Machine

/-! ### Register fields (R7, R8) -/

/-- The codes of R8 as `Row.kept` numbers them. -/
def codeP : Nat := 1
def codeM : Nat := 2
def codeU : Nat := 4
def codeS : Nat := 8
def codeG : Nat := 16
def codeO : Nat := 32
def codeT : Nat := 64
def codeY : Nat := 128
def codeH : Nat := 256

/-- The unit that a number of `UnitId.key` names. -/
def unitOfKey (k : Nat) : Option UnitId := (UnitType.ofCode (k / 65536)).map fun t => ⟨t, k % 65536⟩

/-- The rows that describe a register of a unit. -/
def rowsOf (u : UnitId) (off : Nat) : List Row := rowsAt (if off < 0x80 then rows_hdr else pageRows u) off

/-- A register after an event that keeps only the fields that list its code (R8). UNIT_POWER REQ returns to the value that the unit has
at the end of P (R40). -/
def keptWord (u : UnitId) (off code : Nat) (w : Word) : Word :=
  (rowsOf u off).foldl (fun w r =>
    if r.kind = .value ∧ r.kept / code % 2 = 0 then
      w.setField r.field.lo r.field.hi ((resetWord u off).field r.field.lo r.field.hi)
    else w) w

/-- Every field of the registers that `p` selects, by unit and offset, returns to its Reset value unless it lists the code (R8). -/
def State.keepRegs (s : State) (p : UnitId → Nat → Bool) (code : Nat) : State :=
  { s with
    regs := s.regs.filterMap fun (e : Nat × Word) =>
      match unitOfKey (e.1 / 4096) with
      | none => some e
      | some u =>
        if p u (e.1 % 4096) then
          let w := keptWord u (e.1 % 4096) code e.2
          if w = resetWord u (e.1 % 4096) then none else some (e.1, w)
        else some e }

/-- Every field of the units that `p` selects returns to its Reset value unless it lists the code (R8). -/
def State.keepFields (s : State) (p : UnitId → Bool) (code : Nat) : State := s.keepRegs (fun u _ => p u) code

/-! ### Cache contents (R164) -/

/-- The lines that a cache holds. -/
def State.linesOf (s : State) (c : CacheId) : List CLine :=
  s.caches.filterMap fun e => if e.1 / 131072 = c.num ∧ e.2.st ≠ .i then some e.2 else none

/-- One line leaves a cache that is being emptied: dirty data are written back, and a line without a home is lost, which checkstops its
seam (R164). -/
def State.flushLine (s : State) (c : CacheId) (l : CLine) : State :=
  let s := s.dropLevel c l.line
  if l.st.dirty ∧ (s.homeAgent l.line).isNone then
    match c with
    | .l2 k | .l2e k => s.lostStore k l.seam
    | .l3 i => (s.stick (uL3 i) Reg.L3_ECC.UNCORR).checkstopSeam l.seam 1
    | _ => s
  else match c with
    | .l2 k | .l2e k => (if l.st.dirty then s.dirtyToL3 (k / 12) k l else s.departs (k / 12) (some k) l).awaitLine l.line
    | .l3 i => (s.departs (i / 8) none l).awaitLine l.line
    | _ => s

/-- Write back the lines of a cache that is being emptied; what is open for a line comes first. -/
def State.flushCache (s : State) (c : CacheId) : State :=
  State.each ((s.linesOf c).map CLine.line) (fun line s =>
    let s := s.awaitLine line
    match s.peek c line with
    | some l => s.flushLine c l
    | none => s) s

/-- Write back the dirty lines of a core's L2 and of its eviction buffer, L1s included, and lose them all. -/
def State.flushCore (s : State) (k : Nat) : State :=
  let s := (s.flushCache (.l2 k)).flushCache (.l2e k)
  State.each (s.linesOf (.l1i k)) (fun l s => s.drop (.l1i k) l.line) s

/-- Write back the dirty lines of an L3 slice and lose them all. -/
def State.flushSlice (s : State) (i : Nat) : State := s.flushCache (.l3 i)

/-- Every line of a cache is lost without a write-back (P, Y, H and the loss of a die). -/
def State.loseCaches (s : State) (p : CacheId → Bool) : State :=
  { s with caches := s.caches.filter fun e => !p (cacheOfNum (e.1 / 131072)) }

/-- Stride trackers and fill counts of a core clear (R164). -/
def CoreSt.clearTrackers (c : CoreSt) : CoreSt := { c with l1Track := [], l2Track := [], recent := [] }

/-! ### Power states of cores and tiles -/

/-- The types of unit that have a power state of their own (R482); the other units below one follow it (log entry 21). -/
def ownPower (t : UnitType) : Bool :=
  t == .tile || t == .core || t == .l3 || t == .hauler || t == .lanegrp || t == .cplgrp || t == .crusher || t == .cipher
    || t == .iodie || t == .memch || t == .jbank || t == .ctxstore || t == .drain || t == .home || t == .steward || t == .entropy

/-- The units that follow the power of `u`: itself and those below it without a state of their own. -/
def powerGroup (u : UnitId) : List UnitId :=
  u.subtree.filter fun v => v == u || (!ownPower v.type && (v.ancestors.find? fun a => ownPower a.type) == some u)

/-- Set the power state of one unit and REQ with it. -/
def State.setPower (s : State) (u : UnitId) (p : PowerState) : State :=
  let s := s.setUnit u { s.unit u with power := p, transition := none }
  s.wr u Reg.UNIT_POWER.REQ (match p with | .run => 0 | .gated => 1 | .off => 2 | .retention => 3)

/-- The contents of a core's slot that do not outlive off (R164, R492). The checkpoint record of a failed core does (R200). -/
def State.coreOffContents (s : State) (k : Nat) : State :=
  let s := (s.drainAll k).flushCore k
  let c := s.core k
  let keep := c.suspended.isSome || s.flag (uCore k) Reg.CKW_STAT.FAILED
  s.setCore k { c.clearTrackers with
    arch := Arch.reset, ckpt := if keep then c.ckpt else Ckpt.none, group := Group.empty, tlb := [], ranSeams := [],
    prevSeam := none, c48 := 0, idleSince := s.now }

/-- The trace record of a power change of a core or a tile (R248, R249). -/
def State.tracePower (s : State) (kind inst : Nat) : State := s.trace kind 0xFF 0xFF 0xFF 0xFF 0xFF 0 (beBytes 1 inst)

/-- A core without a work unit is powered off (R164, R244). -/
def State.coreOff (s : State) (k : Nat) : State :=
  let on := (s.unit (uCore k)).power != .off
  let s := (s.coreOffContents k).leaveRollout k true
  let s := State.each (powerGroup (uCore k)) (fun u s => s.setPower u .off) s
  if on then s.tracePower 0x08 k else s

/-- A core wakes from off: its fields that off does not keep take their Reset values (R8), and it makes the patch load that it
owes (R222). -/
def State.coreOn (s : State) (k : Nat) (p : PowerState) : State :=
  let us := powerGroup (uCore k)
  let s := s.keepFields (fun u => us.contains u) codeO
  let s := State.each us (fun u s => s.setPower u .run) s
  let due := s.patchDue.look 0 k
  let s := if due = 0 then s else s.patchLoad k due 0
  let s := s.setCore k { s.core k with idleSince := s.now }
  (if p = .gated then s.setPower (uCore k) .gated else s).tracePower 0x09 k

/-- A tile enters retention: the dirty lines of its slices are written back and stay as clean lines; one without a home is lost, which
checkstops its seam (R164). -/
def State.tileRetain (s : State) (t : Nat) : State :=
  let s := State.each (List.range 8) (fun j s => State.each (s.linesOf (.l3 (8 * t + j))) (fun l s =>
    if !l.st.dirty then s
    else if (s.homeAgent l.line).isSome then (s.maintain l.line .clean false).1
    else s.flushLine (.l3 (8 * t + j)) l) s) s
  (s.setPower (uTile t) .retention).tracePower 0x0A t

/-- A tile leaves retention. -/
def State.tileWake (s : State) (t : Nat) : State :=
  let us := (uTile t).subtree
  let s := s.keepFields (fun u => us.contains u) codeT
  (s.setPower (uTile t) .run).tracePower 0x0B t

end Sys2Proof.Machine
end

