-- ==== Sys2Proof/Machine/CacheCommands.lean ====
section
/-! DEFINITION. Commands of the cache pages: preload and locking (R150-R153), the sweep of an L3 slice (R158); and the store buffers of a
core moving on their own (R126, R129). -/

namespace Sys2Proof.Machine

/-! ### Preload (R151) -/

/-- The cache that a core page or a slice page controls. -/
def lockCache (u : UnitId) : Option CacheId :=
  match u.type with
  | .core => some (.l2 u.inst)
  | .l3 => some (.l3 u.inst)
  | _ => none

/-- A line leaves one cache of a tile, clean; the tile sends the notice of R144 if it was its last copy. A tile that loses its dirty
copy so no longer owns the line: memory is current (R175). -/
def State.removeAt (s : State) (c : CacheId) (l : CLine) : State :=
  let s := match l.st, s.homeAgent l.line with
    | CState.o, some home =>
      let e := s.dirEntry home l.line
      if e.st = DirState.o then s.setDir home l.line { e with st := .s, present := e.present ||| tileBit e.owner } else s
    | _, _ => s
  (((s.dropLevel c l.line).departs c.tile (match c with | .l2 k => some k | _ => none) { l with st := .s }).awaitLine l.line)

/-- A dirty line is written to memory and stays, clean (R155). -/
def State.cleanAt (s : State) (c : CacheId) (l : CLine) : State :=
  if !l.st.dirty then s
  else
    let s := s.putMemLine l.line maskAll l.data
    let st : CState := if l.st = .m then .e else .s
    let s := match l.st, s.homeAgent l.line with
      | CState.o, some home =>
        let e := s.dirEntry home l.line
        if e.st = DirState.o then s.setDir home l.line { e with st := .s, present := e.present ||| tileBit e.owner } else s
      | _, _ => s
    let s := s.alter c l.line fun x => { x with st := st }
    match c with
    | .l2 k => s.cleanL1 k l.line
    | _ => s

/-- A line is cleaned and then removed from one cache. -/
def State.cleanRemoveAt (s : State) (c : CacheId) (l : CLine) : State :=
  (s.cleanAt c l).removeAt c { l with st := if l.st = .m then .e else if l.st = .o then .s else l.st }

/-- The lines that a cache holds in the ways a mask selects (bit `i` is way 8 + `i`). -/
def State.linesInWays (s : State) (c : CacheId) (ways : BitVec 8) : List CLine :=
  s.caches.filterMap fun e =>
    if e.1 / 131072 = c.num ∧ 8 ≤ e.1 % 16 ∧ ways.getLsbD (7 - (e.1 % 16 - 8)) ∧ e.2.st ≠ .i then some e.2 else none

/-- Is this job a preload of a cache, or the sweep of a slice? -/
def CacheJob.preloads (c : CacheId) : CacheJob → Bool
  | .preload d _ _ _ => d == c
  | .flush .. => false

def CacheJob.sweeps (i : Nat) : CacheJob → Bool
  | .flush j _ _ _ _ => j == i
  | .preload .. => false

/-- Is a preload of a cache in progress? -/
def State.preloading (s : State) (c : CacheId) : Bool := s.cacheJobs.any (CacheJob.preloads c)

/-- Is the sweep of a slice in progress? -/
def State.sweeping (s : State) (i : Nat) : Bool := s.cacheJobs.any (CacheJob.sweeps i)

/-- A write of a preload control with START 1 (R151): WAYS and LINES take their values (R5); START is ignored while BUSY; with WAYS 0 or
LINES 0 the preload is done at once; else the masked ways are cleaned and invalidated, and the range is the one that BASE and LINES give
now. -/
def State.startPreload (s : State) (u : UnitId) (c : CacheId) (base : Field) (ctl : Field × Field × Field × Field) (missed : Field)
    (ways : BitVec 8) (lines : Nat) : State :=
  let s := (s.wr u ctl.1 ways.toNat).wr u ctl.2.1 lines
  if s.preloading c then s
  else
    let s := (s.wr u ctl.2.2.1 0).wr u missed 0
    if ways = 0 ∨ lines = 0 then s.wr u ctl.2.2.1 1
    else
      let s := State.each (s.linesInWays c ways) (fun l s => s.cleanRemoveAt c l) s
      { s with cacheJobs := s.cacheJobs ++ [.preload c (s.rd u base) lines ways] }

/-- The fields of L2_PRELOAD_CTL and L3_PRELOAD_CTL: WAYS, LINES, DONE, START. -/
def l2Ctl : Field × Field × Field × Field :=
  (Reg.L2_PRELOAD_CTL.WAYS, Reg.L2_PRELOAD_CTL.LINES, Reg.L2_PRELOAD_CTL.DONE, Reg.L2_PRELOAD_CTL.START)
def l3Ctl : Field × Field × Field × Field :=
  (Reg.L3_PRELOAD_CTL.WAYS, Reg.L3_PRELOAD_CTL.LINES, Reg.L3_PRELOAD_CTL.DONE, Reg.L3_PRELOAD_CTL.START)

/-- L2_PRELOAD (R151, R165): a write of L2_PRELOAD_CTL with START 1. -/
def onL2Preload (sender : Sender) (k : Fin 48) (ways : BitVec 8) (lines : BitVec 24) (s : State) : State :=
  s.command sender (uCore k) 0x518 fun s =>
    s.startPreload (uCore k) (.l2 k) Reg.L2_PRELOAD_BASE.BASE l2Ctl Reg.L2_PRELOAD_MISSED.PRELOAD_MISSED ways lines.toNat

/-- L3_PRELOAD (R151, R166): a write of L3_PRELOAD_CTL of one slice with START 1. -/
def onL3Preload (sender : Sender) (i : Fin 32) (ways : BitVec 8) (lines : BitVec 24) (s : State) : State :=
  s.command sender (uL3 i) 0x0A0 fun s =>
    s.startPreload (uL3 i) (.l3 i) Reg.L3_PRELOAD_BASE.BASE l3Ctl Reg.L3_PRELOAD_MISSED.PRELOAD_MISSED ways lines.toNat

/-- A normal cacheable read of a line for a tile, by the cache that preloads it: the data, and E or S; none where no channel holds the
line. Seam 0 is the requester (log entry 38). -/
def State.fetchLine (s0 : State) (t line : Nat) : State × Option (LineData × CState) :=
  let s := s0.awaitLine line
  match s.tileCopy t line with
  | some (_, l) => (((s.ringCount t (s.supplies t line)).tileDown t line false).1, some (l.data, .s))
  | none =>
    let s := s.homeTouch line
    match s.homeAgent line, s.memLine line with
    | some home, some mem =>
      match ((s.ringCount t false).l3Miss t line).homeRead home line 0 t mem with
      | some r => (r.1, some r.2)
      | none => (s, none)
    | _, _ => (s, none)

/-- The lowest masked way of a line's set that nothing fills yet. -/
def State.preloadWay (s : State) (c : CacheId) (ways : BitVec 8) (line : Nat) : Option Nat :=
  (List.range 8).find? (fun i => ways.getLsbD (7 - i) && (s.way c (c.setOf line) (8 + i)).st == .i) |>.map (8 + ·)

/-- Load one line of a preload; answers false if it was not loaded (R151). -/
def State.preloadLine (s : State) (c : CacheId) (ways : BitVec 8) (line : Nat) : State × Bool :=
  match s.findWay c line, s.preloadWay c ways line with
  | some w, free =>
    if 8 ≤ w ∧ ways.getLsbD (7 - (w - 8)) then (s, true)
    else match free with
      | none => (s, false)
      | some v =>
        let l := s.way c (c.setOf line) w
        ((s.setWay c (c.setOf line) w CLine.empty).installAt c v { l with stream := false }, true)
  | none, none => (s, false)
  | none, some v =>
    match s.fetchLine c.tile line with
    | (s, some d) => (s.installAt c v { line := line, st := d.2, data := d.1, seam := 0, stream := false }, true)
    | (s, none) => (s, false)

/-- The lines that a preload of a cache is to load: those of the range that the slice holds (R140, R151). -/
def preloadLines (c : CacheId) (base lines : Nat) : List Nat :=
  match c with
  | .l3 i => ((List.range (min lines 524288)).map (base + ·)).filter fun l => sliceOf l == i % 8
  | _ => (List.range (min lines 32768)).map (base + ·)

/-- PRELOAD_DONE (R151): the range has been loaded into the masked ways, which are now locked. -/
def onPreloadDone (u : UnitId) (s : State) : State :=
  match lockCache u with
  | none => s
  | some c => match s.cacheJobs.find? (CacheJob.preloads c) with
    | some (.preload _ base n ways) =>
      let isL2 := u.type == .core
      let ctl := if isL2 then l2Ctl else l3Ctl
      let r := (preloadLines c base n).foldl (fun (a : State × Nat) l =>
        let q := a.1.preloadLine c ways l
        (q.1, if q.2 then a.2 else a.2 + 1)) (s, 0)
      let lock := if isL2 then Reg.L2_LOCK.LOCKED else Reg.L3_LOCK.LOCKED
      let s := { r.1 with cacheJobs := r.1.cacheJobs.filter fun (j : CacheJob) => !j.preloads c }
      let s := s.wr u (if isL2 then Reg.L2_PRELOAD_MISSED.PRELOAD_MISSED else Reg.L3_PRELOAD_MISSED.PRELOAD_MISSED) r.2
      (s.wr u lock ((BitVec.ofNat 8 (s.rd u lock)) ||| ways).toNat).wr u ctl.2.2.1 1
    | _ => s

/-- LOCK_RELEASE (R150): a write of 1s to LOCKED unlocks ways; their lines stay valid as ordinary lines. -/
def onLockRelease (sender : Sender) (u : UnitId) (ways : BitVec 8) (s : State) : State :=
  match lockCache u with
  | none => s
  | some _ =>
    let lock := if u.type = .core then Reg.L2_LOCK.LOCKED else Reg.L3_LOCK.LOCKED
    s.command sender u lock.off fun s => s.wr u lock ((BitVec.ofNat 8 (s.rd u lock)) &&& ~~~ways).toNat

/-! ### The sweep of a slice (R158) -/

/-- One line of a sweep. A locked line is skipped and counted unless INCL_LOCKED is 1; clean and invalidate cleans it (R160). -/
def State.sweepLine (s : State) (i : Nat) (op : MaintOp) (incl : Bool) (l : CLine) : State :=
  let c := CacheId.l3 i
  let locked := match s.findWay c l.line with | some w => s.wayLocked c w | none => false
  if locked && !incl then
    (if op = .cleanInval then s.cleanAt c l else s).count (uL3 i) Reg.L3_MAINT_SKIP.COUNT
  else match op with
    | .clean => s.cleanAt c l
    | .inval => s.removeAt c l
    | .cleanInval => s.cleanRemoveAt c l

/-- The sweep of a slice goes on to set `pos`, in ascending order (R158): what is open for a line comes first. -/
def State.sweepTo (s : State) (i pos : Nat) : State :=
  match s.cacheJobs.find? (CacheJob.sweeps i) with
  | some (.flush _ op incl next since) =>
    let c := CacheId.l3 i
    let lines := ((s.linesOf c).map CLine.line).filter fun l => decide (next ≤ c.setOf l) && decide (c.setOf l < pos)
    let s := State.each lines (fun l s =>
      let s := s.awaitLine l
      match s.peek c l with
      | some l => s.sweepLine i op incl l
      | none => s) s
    { s with cacheJobs := s.cacheJobs.map fun (j : CacheJob) => if j.sweeps i then .flush i op incl (max next pos) since else j }
  | _ => s

/-- The sets that a sweep has passed at a time: all 8,192 in 60 µs (log entry 38). -/
def sweepPos (now since : Nat) : Nat := min 8192 (8192 * (now - since) / 60000)

/-- The sweeps in progress keep up with the time. -/
def State.sweepTick (s : State) : State :=
  State.each s.cacheJobs (fun j s => match j with
    | .flush i _ _ _ since => s.sweepTo i (sweepPos s.now since)
    | .preload .. => s) s

/-- A write of L3_FLUSH with START 1 and an operation (R158): OP and INCL_LOCKED take their values (R5); START is ignored while BUSY; data
in the slice's write-back queue reach memory, and the sweep begins. -/
def State.startFlush (s : State) (i : Nat) (op : MaintOp) (incl : Bool) : State :=
  let u := uL3 i
  let code := match op with | .clean => 1 | .inval => 2 | .cleanInval => 3
  let s := (s.wr u Reg.L3_FLUSH.OP code).wr u Reg.L3_FLUSH.INCL_LOCKED (if incl then 1 else 0)
  if s.sweeping i then s
  else
    let queued := (s.wbq.filter fun e => e.core.isNone && sliceId e.tile e.line == .l3 i).map WbEntry.line
    let s := State.each queued (fun l s => s.awaitLine l) (s.wr u Reg.L3_FLUSH.DONE 0)
    { s with cacheJobs := s.cacheJobs ++ [.flush i op incl 0 s.now] }

/-- L3_FLUSH_CLEAN (R158): L3_FLUSH with OP 0b01. -/
def onL3FlushClean (sender : Sender) (i : Fin 32) (incl : Bool) (s : State) : State :=
  s.command sender (uL3 i) 0x0D0 fun s => s.startFlush i .clean incl

/-- L3_FLUSH_INVALIDATE (R158): L3_FLUSH with OP 0b10. -/
def onL3FlushInvalidate (sender : Sender) (i : Fin 32) (incl : Bool) (s : State) : State :=
  s.command sender (uL3 i) 0x0D0 fun s => s.startFlush i .inval incl

/-- L3_FLUSH_CLEAN_INVALIDATE (R158): L3_FLUSH with OP 0b11. -/
def onL3FlushCleanInvalidate (sender : Sender) (i : Fin 32) (incl : Bool) (s : State) : State :=
  s.command sender (uL3 i) 0x0D0 fun s => s.startFlush i .cleanInval incl

/-- L3_FLUSH_DONE (R158): the sweep has passed every set, and DONE reads 1. -/
def onL3FlushDone (i : Fin 32) (s0 : State) : State :=
  if s0.sweeping i then
    let s := s0.sweepTo i 8192
    { s with cacheJobs := s.cacheJobs.filter fun (j : CacheJob) => !j.sweeps i }.wr (uL3 i) Reg.L3_FLUSH.DONE 1
  else s0

/-! ### The buffers of a core (R126, R129) -/

/-- Closed gather entries are written in the order in which they opened, until one has to wait. -/
def writeGathered (k : Nat) : Nat → State → State
  | 0, s => s
  | n + 1, s =>
    match (s.core k).gather with
    | g :: rest =>
      if g.isOpen then s
      else match s.performGather k g with
        | none => s
        | some (t, l) => writeGathered k n (((t.setCore k { t.core k with gather := rest }).losses l).isolations)
    | [] => s

/-- STORE_BUFFER_ENTRY_LEAVE (R126, R129): the oldest buffered store leaves for the gather buffer, whose closed entries are written
as far as they can be. A full gather buffer holds it back. -/
def onStoreBufferEntryLeave (k : Fin 48) (s : State) : State :=
  let c := s.core k
  match c.storeBuf with
  | [] => s
  | b :: rest =>
    let g := gatherStore s.now c.gather b
    if 16 < g.length then writeGathered k 16 s
    else writeGathered k 16 (s.setCore k { c with storeBuf := rest, gather := g })

/-- GATHER_ENTRY_TIMEOUT (R129): the open gather entry closes 64 core cycles after it opened, at 5.2 GHz, and is written. -/
def onGatherEntryTimeout (k : Fin 48) (s : State) : State :=
  let c := s.core k
  let due (g : Gather) : Bool := g.isOpen && decide (64 * 10 ≤ 52 * (s.now - g.openedAt))
  if c.gather.any due then
    writeGathered k 16 (s.setCore k { c with gather := c.gather.map fun g => if due g then { g with isOpen := false } else g })
  else s

/-! ### The commands as the queue gives them -/

def execGatherEntryTimeout (k : Fin 48) (s : State) : Answer := s.run (onGatherEntryTimeout k)
def execL2Preload (sender : Sender) (k : Fin 48) (ways : BitVec 8) (lines : BitVec 24) (s : State) : Answer :=
  s.run (onL2Preload sender k ways lines)
def execL3Preload (sender : Sender) (n : Fin 32) (ways : BitVec 8) (lines : BitVec 24) (s : State) : Answer :=
  s.run (onL3Preload sender n ways lines)
def execPreloadDone (u : UnitId) (s : State) : Answer := s.run (onPreloadDone u)
def execLockRelease (sender : Sender) (u : UnitId) (ways : BitVec 8) (s : State) : Answer := s.run (onLockRelease sender u ways)
def execL3FlushClean (sender : Sender) (n : Fin 32) (incl : Bool) (s : State) : Answer := s.run (onL3FlushClean sender n incl)
def execL3FlushInvalidate (sender : Sender) (n : Fin 32) (incl : Bool) (s : State) : Answer := s.run (onL3FlushInvalidate sender n incl)
def execL3FlushCleanInvalidate (sender : Sender) (n : Fin 32) (incl : Bool) (s : State) : Answer := s.run (onL3FlushCleanInvalidate sender n incl)
def execL3FlushDone (n : Fin 32) (s : State) : Answer := s.run (onL3FlushDone n)
def execStoreBufferEntryLeave (k : Fin 48) (s : State) : Answer := s.run (onStoreBufferEntryLeave k)

end Sys2Proof.Machine
end

