-- ==== Sys2Proof/Machine/Ether.lean ====
section
/-! DEFINITION. Ethernet frames as hardware reads them, and the priority flow control of receive buffers (R387, R388). -/

namespace Sys2Proof.Machine

/-- Ethernet fields of a frame: whether tagged, the tag, EtherType and the offset of the network header (IEEE 802.1Q; PRESUMED). -/
def ethTag (f : List Byte) : Bool × Nat × Nat × Nat :=
  if recNum f 12 2 = 0x8100 then (true, recNum f 14 2, recNum f 16 2, 18) else (false, 0, recNum f 12 2, 14)

/-- As `ethTag`, with the priority of the tag. -/
def ethHead (f : List Byte) : Bool × Nat × Nat × Nat :=
  let (tag, t, et, off) := ethTag f
  (tag, t / 8192, et, off)

/-- The bytes of priority `p` in the receive buffer of a group (R388): frames that wait for a hauler or for their RECEIVE. -/
def State.buffered (s : State) (lane p : Nat) : Nat :=
  let of (l : List (List Byte)) : Nat := l.foldl (fun a f => if (ethHead f).2.1 = p then a + f.length else a) 0
  of ((((s.link lane).rx).filter fun x => x.msi.isNone).map RxItem.bytes)
    + of ((s.ethQueue.flatMap fun e => e.2).filterMap fun f => if f.1 = lane then some f.2 else none)

/-- All bytes in the receive buffer of a group. -/
def State.bufferedAll (s : State) (lane : Nat) : Nat := (List.range 8).foldl (fun a p => a + s.buffered lane p) 0

/-- Priority flow control of a group (R388): XOFF above the threshold, XON below half of it. -/
def State.pfcCheck (s : State) (lane : Nat) : State :=
  State.each (List.range 8) (fun p s =>
    let kib := s.rd (laneUnit lane) (Reg.LNK_PFC.XOFF_KIB.ix (lane % 4))
    let l := s.link lane
    let n := s.buffered lane p
    if !s.bitOf (laneUnit lane) (Reg.LNK_PFC.PFC_EN.ix (lane % 4)) p then s
    else if kib * 1024 < n ∧ !l.xoff.getLsbD p then
      { s.setLink lane { l with xoff := l.xoff ||| (1#8 <<< p) } with outbox := s.outbox ++ [Out.pfc lane p true] }
    else if n < kib * 512 ∧ l.xoff.getLsbD p then
      { s.setLink lane { l with xoff := l.xoff &&& ~~~(1#8 <<< p) } with outbox := s.outbox ++ [Out.pfc lane p false] }
    else s) s

end Sys2Proof.Machine
end

