-- ==== Sys2Proof/Machine/Crc.lean ====
section
/-! DEFINITION. Check values that several chapters name: CRC-32 with the IEEE 802.3 polynomial, and Adler-32 of RFC 1950. -/

namespace Sys2Proof.Machine

/-- One bit of the CRC-32 of IEEE 802.3, in its reflected form. -/
def crcBit (c : BitVec 32) : BitVec 32 := if c.getLsbD 0 then (c >>> 1) ^^^ 0xEDB88320#32 else c >>> 1

/-- One byte of the CRC-32. -/
def crcByte (c : BitVec 32) (b : Byte) : BitVec 32 :=
  let x := c ^^^ b.setWidth 32
  crcBit (crcBit (crcBit (crcBit (crcBit (crcBit (crcBit (crcBit x)))))))

/-- The CRC-32 of a list of bytes. -/
def crc32 (l : List Byte) : BitVec 32 := ~~~(l.foldl crcByte 0xFFFFFFFF#32)

/-- The Adler-32 of a list of bytes (RFC 1950). -/
def adler32 (l : List Byte) : Nat :=
  let r := l.foldl (fun (a : Nat × Nat) b =>
    let x := (a.1 + b.toNat) % 65521
    (x, (a.2 + x) % 65521)) (1, 0)
  r.2 * 65536 + r.1

end Sys2Proof.Machine
end

