-- ==== Sys2Proof/Machine/Journal.lean ====
section
/-! DEFINITION. The secured journal and the drain stores (R325-R345), and the commands about them. -/

namespace Sys2Proof.Machine

/-! ### Banks, slots and pages -/

/-- Is bank `d` available (R335)? A march refuses it to its users (R375). -/
def State.bankAvail (s : State) (d : Nat) : Bool := s.operates (uBank d) && !s.jbad.look false d && !s.marchHolds d 2 0

def jKey (d i : Nat) : Nat := d * 16384 + i

def State.jslot (s : State) (d i : Nat) : JEntry := s.jslots.look JEntry.none (jKey d i)

def State.setJslot (s : State) (d i : Nat) (e : JEntry) : State := { s with jslots := s.jslots.put JEntry.none (jKey d i) e }

/-- The slot as the journal sees it: from bank 0, or from bank 1 while bank 0 is unavailable (R328). -/
def State.jentry (s : State) (i : Nat) : JEntry := s.jslot (if s.bankAvail 0 then 0 else 1) i

/-- Write a slot in every available bank. -/
def State.putEntry (s : State) (i : Nat) (e : JEntry) : State :=
  State.each (List.range 2) (fun d s => if s.bankAvail d then s.setJslot d i e else s) s

/-- The slots in use, in either bank. -/
def State.usedSlots (s : State) : List Nat := ((s.jslots.filter fun e => e.2.used).map fun e => e.1 % 16384).eraseDups

/-- The pages in use, in either bank. -/
def State.usedPages (s : State) : List Nat := ((s.jslots.filter fun e => e.2.used).flatMap fun e => e.2.pages).eraseDups

/-- The `n` lowest numbers below `bound` that are not in `used`. -/
def lowestFree (used : List Nat) (bound n : Nat) : List Nat :=
  ((List.range (used.length + n)).filter fun i => decide (i < bound) && !used.contains i).take n

/-- Pages that a record of `len` bytes uses (R325). -/
def pagesOf (len : Nat) : Nat := (len + 4095) / 4096

/-- KiB charged to a seam (R337): entries and commits that are not restored. -/
def State.charge (s : State) (seam : Nat) : Nat :=
  (s.usedSlots.filter fun i => (s.jentry i).seam == seam && !(s.jentry i).restored).foldl
    (fun a i => a + (s.jentry i).pages.length * 4) 0

/-- The next entry number (R326). -/
def State.jnext (s : State) : Nat := s.pcycle % 2 ^ 32 * 2 ^ 32 + s.jcount % 2 ^ 32

/-- Is the slot a live entry: valid in an available bank? -/
def JEntry.live (e : JEntry) : Bool := e.used && e.marked

/-- Is it a peer copy (R396)? -/
def JEntry.isCopy (e : JEntry) : Bool := decide (0x40 ≤ e.seam)

/-- Live slots. -/
def State.liveSlots (s : State) : List Nat := s.usedSlots.filter fun i => (s.jentry i).live

/-- The slot of a live entry with a number. -/
def State.slotOfEntry (s : State) (num : Nat) (copy : Bool) : Option Nat :=
  s.liveSlots.find? fun i => (s.jentry i).num == num && (s.jentry i).isCopy == copy

/-! ### Payload and header bytes -/

/-- Store a payload in the pages of an entry, in bank `d` (R325). -/
def State.putPayload (s : State) (d : Nat) (pages : List Nat) (bytes : List Byte) : State :=
  State.each (List.range bytes.length) (fun i s =>
    { s with jdata := s.jdata.put 0 (d * 2 ^ 26 + (pages.getD (i / 4096) 0) * 4096 + i % 4096) (bytes.getD i 0) }) s

/-- The payload of an entry in bank `d`. -/
def State.payload (s : State) (d : Nat) (e : JEntry) : List Byte :=
  (List.range e.len).map fun i => s.jdata.look 0 (d * 2 ^ 26 + (e.pages.getD (i / 4096) 0) * 4096 + i % 4096)

/-- A byte of the journal window (R328). -/
def State.journalByte (s : State) (off : Nat) : Byte := s.jdata.look 0 ((if s.bankAvail 0 then 0 else 1) * 2 ^ 26 + off)

/-- Bytes 0x00-0x61 of an entry header (R327). -/
def JEntry.front (e : JEntry) : List Byte :=
  beBytes 8 e.num ++ beBytes 1 e.seam ++ beBytes 1 e.ntgt ++ beBytes 1 e.shift ++ beBytes 1 (if e.xmod then 128 else 0)
    ++ beBytes 4 e.len ++ beBytes 4 e.sch0 ++ beBytes 4 e.nsid0 ++ beBytes 8 e.lba0 ++ beBytes 4 e.sch1 ++ beBytes 4 e.nsid1
    ++ beBytes 8 e.lba1 ++ beBytes 8 e.cpa ++ beBytes 8 e.time
    ++ (List.range 17).flatMap fun i => beBytes 2 (e.pages.getD i 0xFFFF)

/-- PROG (R327). -/
def JEntry.prog (e : JEntry) : Nat :=
  (if e.wr0 then 128 else 0) + (if e.wr1 then 64 else 0) + (if e.held then 32 else 0) + (if e.restored then 16 else 0)

/-- The 128 bytes of an entry header (R327). -/
def JEntry.bytes (e : JEntry) (payload : List Byte) : List Byte :=
  e.front ++ beBytes 1 e.prog ++ List.replicate 9 0 ++ beBytes 4 (crc32 (e.front ++ payload)).toNat ++ List.replicate 8 0
    ++ beBytes 8 (if e.marked then 2 ^ 64 - 1 - e.num else 0)

/-- The entry that a header spells, as a peer receives it (R396): its MARK is not yet valid. -/
def entryOfBytes (l : List Byte) : JEntry :=
  { num := recNum l 0 8, seam := recNum l 8 1, ntgt := recNum l 9 1, shift := recNum l 0xA 1, xmod := decide (128 ≤ recNum l 0xB 1),
    len := recNum l 0xC 4, sch0 := recNum l 0x10 4, nsid0 := recNum l 0x14 4, lba0 := recNum l 0x18 8, sch1 := recNum l 0x20 4,
    nsid1 := recNum l 0x24 4, lba1 := recNum l 0x28 8, cpa := recNum l 0x30 8, time := recNum l 0x38 8, pages := [], wr0 := false,
    wr1 := false, held := false, restored := false, used := true, marked := false, gen := 0, orphan := false }

/-! ### Freeing, holding and retiring -/

/-- An entry is freed: MARK is cleared, slot, pages and charge are given back (R333). -/
def State.freeSlot (s : State) (i : Nat) : State :=
  let s := State.each (List.range 2) (fun d s =>
    if s.bankAvail d then s.setJslot d i { s.jslot d i with used := false, marked := false } else s) s
  { s with targetWrites := s.targetWrites.filter fun w => w.slot != i }

/-- The bank whose page counts and whose unit names journal events: bank 0, or bank 1 while bank 0 is unavailable. -/
def State.jbank (s : State) : UnitId := uBank (if s.bankAvail 0 then 0 else 1)

/-- A target cannot be written: the entry becomes held (R334, R335). -/
def State.holdEntry (s : State) (i : Nat) : State :=
  let e := s.jentry i
  if e.held then s
  else
    let s := s.putEntry i { e with held := true }
    let s := s.wr s.jbank Reg.JNL_ERR.HELD_SET 1
    s.tallyEvent (some s.jbank) 0x09 0x01 7 e.seam (payload8 0 (beBytes 8 e.num))

/-- Tell the peer to free its copy (R336, R397). -/
def State.sendRetire (s : State) (e : JEntry) : State :=
  if e.xmod then match s.groupTo (s.rd uModule Reg.CPL_CX.MIRROR_PEER) 0 with
    | some g => s.cplSend g 0x34 0 (beBytes 8 e.num)
    | none => s
  else s

/-- Does the seam of an entry still stand as it was (R332, R334)? -/
def State.seamStands (s : State) (seam : Nat) : Bool :=
  let st := s.rd uSeamCtl (Reg.SEAM_STATE.STATE.ix seam)
  st == 1 || st == 2

/-- The KIND 0x02 entry of a journal entry of bank `d`'s choosing. That of an exchange that ended with 0x22 is counted in CQ_DROPPED where
its seam has been reset or destroyed meanwhile (R332). -/
def State.placeFate (s : State) (d : Nat) (e : JEntry) (code num : Nat) : State :=
  if e.orphan && (!s.seamStands e.seam || s.rd uSeamCtl (Reg.SEAM_STATE.GEN.ix e.seam) != e.gen) then
    s.count (uCtx d) Reg.CHS_COUNT2.CQ_DROPPED
  else s.placeRetired d e.seam e.sch0 e.cpa code num

/-- An entry retires once every target is written (R333). -/
def State.retireEntry (s : State) (i : Nat) : State :=
  let e := s.jentry i
  let s := s.sendRetire e
  let b := s.jbank
  let s := (s.freeSlot i).count b Reg.JNL_COUNT2.RETIRED
  if e.restored then s.tallyEvent (some b) 0x09 0x05 7 e.seam (payload8 0 (beBytes 8 e.num))
  else if e.seam = 0 then s
  else s.placeFate b.inst e 0x01 e.num

/-! ### Target writes -/

/-- Target `second` of an entry: subchannel, NSID and LBA. -/
def JEntry.tgt (e : JEntry) (second : Bool) : Nat × Nat × Nat :=
  if second then (e.sch1, e.nsid1, e.lba1) else (e.sch0, e.nsid0, e.lba0)

/-- Submit the NVMe write of a target on a path of its record (R333, R385). -/
def State.submitTarget (s : State) (i : Nat) (second : Bool) (r : List Byte) (path : Nat) (tried : BitVec 8) (redrives : Nat) :
    State :=
  let e := s.jentry i
  let t := e.tgt second
  { s with
    targetWrites := s.targetWrites ++ [{ slot := i, target := if second then 1 else 0, path := path, tried := tried,
                                          redrives := redrives, since := s.now }],
    outbox := s.outbox ++ [Out.nvme (pathLane (recPath r path)) .write t.2.1 t.2.2 (e.len / 2 ^ e.shift) 0
      (0x080000000000 + e.pages.getD 0 0 * 4096) true] }

/-- Start one target write (R333), after the check of R334: an entry whose target cannot be written becomes held. -/
def State.startTarget (s : State) (i : Nat) (second : Bool) : State :=
  let e := s.jentry i
  let t := e.tgt second
  match s.schRecord (if s.storeAvail 0 then 0 else 1) t.1 with
  | none => s.holdEntry i
  | some r =>
    if recKind r ≠ 1 ∨ recNsid r ≠ t.2.1 then s.holdEntry i
    else match s.initialPath r with
      | none => s.holdEntry i
      | some p => s.submitTarget i second r p 0 0

/-- Start every target write of an entry. -/
def State.startTargets (s : State) (i : Nat) : State :=
  let s := s.startTarget i false
  if (s.jentry i).ntgt = 2 then s.startTarget i true else s

/-- A target write in progress, and its record. -/
def State.targetOf (s : State) (i : Nat) (second : Bool) : Option TargetWrite :=
  s.targetWrites.find? fun w => w.slot == i && w.target == (if second then 1 else 0)

def State.dropTarget (s : State) (i : Nat) (second : Bool) : State :=
  { s with targetWrites := s.targetWrites.filter fun w => !(w.slot == i && w.target == (if second then 1 else 0)) }

/-- The path of a target write fails: it is redriven under R315, or its entry is held (R333, R334). -/
def State.targetFail (s : State) (i : Nat) (second : Bool) : State :=
  match s.targetOf i second with
  | none => s
  | some w =>
    let s := s.dropTarget i second
    let d := if s.storeAvail 0 then 0 else 1
    let r := s.recOf ((s.jentry i).tgt second).1 d
    let lane := pathLane (recPath r w.path)
    let s := { s with outbox := s.outbox ++ [Out.abort lane ((s.jentry i).tgt second).1] }
    let tried := w.tried ||| (0x80#8 >>> w.path)
    match (if w.redrives < s.rd (uCtx (lane / 64)) Reg.CHS_CFG.REDRIVE_MAX then s.nextPath r tried w.path else none) with
    | some p => (s.bump (uCtx (lane / 64)) Reg.CHS_COUNT.REDRIVES).submitTarget i second r p tried (w.redrives + 1)
    | none => s.holdEntry i

/-- The lane of a target write. -/
def State.targetLane (s : State) (w : TargetWrite) : Nat :=
  pathLane (recPath (s.recOf ((s.jentry w.slot).tgt (w.target == 1)).1 (if s.storeAvail 0 then 0 else 1)) w.path)

/-- Fail every target write whose path entry satisfies `p`. -/
def State.failTargets (s : State) (p : Nat → Bool) : State :=
  let hit := s.targetWrites.filter fun w =>
    p (recPath (s.recOf ((s.jentry w.slot).tgt (w.target == 1)).1 (if s.storeAvail 0 then 0 else 1)) w.path)
  State.each hit (fun w s => s.targetFail w.slot (w.target == 1)) s

/-- Everything that uses a path which satisfies `p` fails there (R302, R315, R365, R383). -/
def State.failUsers (s : State) (p : Nat → Bool) : State := (s.failPaths p).failTargets p

/-! ### The commit (R329-R332) -/

/-- The commit of an exchange, if one is in progress. -/
def State.commitOf (s : State) (key : Nat) : Option Commit := s.commits.find? fun c => c.ex == key

def State.dropCommit (s : State) (key : Nat) : State := { s with commits := s.commits.filter fun c => c.ex != key }

/-- An exchange leaves JOURNAL with a code, or, for one taken over with 0x22, a KIND 0x02 entry says that nothing was kept (R332). -/
def State.answerCommit (s : State) (key : Nat) (orphan : Bool) (e : JEntry) (code dev : Nat) : State :=
  if orphan then
    if code = 0x02 then s else s.placeFate s.jbank.inst { e with orphan := true } 0x03 0
  else s.finish key code dev

/-- The engine refuses or frees a commit: code 0x03 with a DEV (R329), counted in REFUSED. -/
def State.refuseCommit (s : State) (key dev : Nat) : State :=
  let s := s.bump (uBank (exDie key)) Reg.JNL_COUNT.REFUSED
  match s.commitOf key with
  | some c =>
    let e := s.jentry c.slot
    ((s.freeSlot c.slot).dropCommit key).answerCommit key c.orphan e 0x03 dev
  | none => s.finish key 0x03 dev

/-- Has input failure been declared, or PWR_CMD OFF begun its sequence (R329)? -/
def State.powerFailing (s : State) : Bool := s.power.declared != 0 || s.power.offCmd

/-- The conditions 0x01-0x05 and 0x07 of R329: the DEV of the first that fails, for a record of `len` bytes. -/
def State.commitCheck (s : State) (d seam len : Nat) : Option Nat :=
  if !s.flag (uBank d) Reg.JNL_CFG.EN then some 1
  else if !s.power.enough then some 2
  else if !(s.bankAvail 0 && s.bankAvail 1) then some 3
  else if s.rd uSeamCtl (Reg.SEAM_QUOTA.JNL_KIB.ix seam) < s.charge seam + pagesOf len * 4 then some 4
  else if (lowestFree s.usedSlots 16384 1).isEmpty ∨ (lowestFree s.usedPages 16384 (pagesOf len)).length < pagesOf len then some 5
  else if s.powerFailing then some 7
  else none

/-- The header of the entry of an exchange (R327). -/
def State.newEntry (s : State) (key : Nat) : JEntry :=
  let x := s.exch key
  let d := exDie key
  let r0 := s.recOf x.sch d
  let len := x.count
  { JEntry.none with
    num := s.jnext, seam := x.seam, ntgt := if x.tgt.isSome then 2 else 1, shift := recShift r0,
    xmod := s.flag (uBank d) Reg.JNL_CFG.XMOD, len := len, sch0 := x.sch, nsid0 := recNsid r0, lba0 := x.lba,
    sch1 := match x.tgt with | some t => t.1 | none => 0,
    nsid1 := match x.tgt with | some t => recNsid (s.recOf t.1 d) | none => 0,
    lba1 := match x.tgt with | some t => t.2 | none => 0,
    cpa := x.cpa, time := s.timeBase, gen := s.rd uSeamCtl (Reg.SEAM_STATE.GEN.ix x.seam),
    pages := lowestFree s.usedPages 16384 (pagesOf len), used := true }

/-- Send the header and the payload of an entry to the peer (R396). -/
def State.sendCopy (s : State) (d : Nat) (e : JEntry) (payload : List Byte) : State :=
  match s.groupTo (s.rd uModule Reg.CPL_CX.MIRROR_PEER) d with
  | none => s
  | some g =>
    let n := (payload.length + 255) / 256
    let s := s.cplSend g 0x30 n (e.bytes payload)
    State.each (List.range n) (fun i s => s.cplSend g 0x31 i ((payload.drop (256 * i)).take 256)) s

/-- JOURNAL_COMMIT (R329, R330 steps 2 and 3): the checks, the slot and pages, and the copy into both banks. -/
def onJournalCommit (die : Fin 2) (ctx : Fin 131072) (s : State) : State :=
  let key := exKey die.val ctx.val
  let x := s.exch key
  if x.st ≠ .journal ∨ (s.commitOf key).isSome then s
  else match s.commitCheck die.val x.seam x.count with
    | some dev =>
      let s := if dev = 2 then s.stick uPower Reg.HLD_ERR.LOW_ENERGY else s
      s.refuseCommit key dev
    | none =>
      let i := (lowestFree s.usedSlots 16384 1).getD 0 0
      let e := s.newEntry key
      let s : State := { s.putEntry i e with
        jcount := s.jcount + 1,
        commits := s.commits ++ [{ ex := key, slot := i, sentAt := s.now, acked := !e.xmod, orphan := false }] }
      let r := s.agentRead x.seam x.word1.toNat e.len
      if r.2.2 != .done then (r.1.agentFault x.seam r.2.2).refuseCommit key 8
      else
        let s := State.each (List.range 2) (fun d s => s.putPayload d e.pages r.2.1) r.1
        if e.xmod then s.sendCopy die.val e r.2.1 else s

/-- COMMIT_POINT (R330 step 4, R332): both marks are confirmed and secured status is placed, unless the commit has been overtaken;
then the target writes start (R333). -/
def onCommitPoint (die : Fin 2) (ctx : Fin 131072) (s : State) : State :=
  let key := exKey die.val ctx.val
  match s.commitOf key with
  | none => s
  | some c =>
    let e := s.jentry c.slot
    if !c.orphan ∧ (s.exch key).haltNoted then
      ((s.freeSlot c.slot).dropCommit key).finish key 0x04 0
    else if s.powerFailing then s.refuseCommit key 7
    else if !(s.bankAvail 0 && s.bankAvail 1) then s.refuseCommit key 3
    else if !c.acked then s
    else
      let s := (s.putEntry c.slot { e with marked := true }).dropCommit key
      let s := s.bump (uBank die.val) Reg.JNL_COUNT.COMMITTED
      let s := if c.orphan then s else s.setExch key { s.exch key with moved := e.len }
      let s := s.answerCommit key c.orphan e 0x02 0
      s.startTargets c.slot

/-- PEER_ACK_TIMEOUT (R336): no acknowledgement within PEER_US. -/
def onPeerAckTimeout (die : Fin 2) (ctx : Fin 131072) (s : State) : State :=
  let key := exKey die.val ctx.val
  match s.commitOf key with
  | none => s
  | some c =>
    let us := s.rd (uBank die.val) Reg.JNL_CFG.PEER_US
    let us := if us = 0 then 4 else us
    if c.acked ∨ s.now < c.sentAt + us * 1000 then s else s.refuseCommit key 6

/-- TARGET_WRITE_DONE (R333, R334): a target write completes at its drive. -/
def onTargetWriteDone (slot : Fin 16384) (second : Bool) (result : NvmeEnd) (s : State) : State :=
  match s.targetOf slot.val second with
  | none => s
  | some _ =>
    match result with
    | .error sct _ => if sct = 3 then s.targetFail slot.val second else (s.dropTarget slot.val second).holdEntry slot.val
    | .success =>
      let s := s.dropTarget slot.val second
      let e := s.jentry slot.val
      let e := if second then { e with wr1 := true } else { e with wr0 := true }
      let s := s.putEntry slot.val e
      if e.wr0 && (e.wr1 || e.ntgt == 1) then s.retireEntry slot.val else s

/-! ### Journal commands (R334, R341, R342, R344) -/

/-- Does either drain store hold a valid image (R340)? -/
def State.imageOf (s : State) (d : Nat) : Option DrainImage :=
  if s.powered (uDrain d) then s.images.look none d else none

def State.validImage (s : State) (d : Nat) : Option DrainImage :=
  match s.imageOf d with
  | some m => if m.whole then some m else none
  | none => none

/-- Put one restored entry into the banks, in a free slot (R341). -/
def State.restoreOne (s : State) (x : JEntry × List Byte) : State :=
  let i := (lowestFree s.usedSlots 16384 1).getD 0 0
  let pages := lowestFree s.usedPages 16384 x.1.pages.length
  let e := { x.1 with pages := pages, restored := true, held := !x.1.isCopy, used := true, marked := true }
  let s := s.putEntry i e
  State.each (List.range 2) (fun d s => if s.bankAvail d then s.putPayload d pages x.2 else s) s

/-- Erase a drain image after RESTORE and count it (R341, R345). -/
def State.eraseImage (s : State) (d : Nat) : State :=
  { s.count (uDrain d) Reg.DRN_COUNT.RESTORES with images := s.images.put none d none }

/-- RESTORE (R341): the entries of the valid images return to the banks as held; the RESULT. -/
def State.doRestore (s : State) (b : UnitId) : State × Nat :=
  let has (m : DrainImage) (n : Nat) : Bool := m.entries.any fun x => x.1.num == n
  match s.validImage 0, s.validImage 1 with
  | some a, some c =>
    let both := a.entries.filter fun x => has c x.1.num
    let single := (a.entries.length - both.length) + (c.entries.filter fun x => !has a x.1.num).length
    let s := State.each both (fun x s => s.restoreOne x) s
    let s := s.count b Reg.JNL_COUNT2.ONE_SIDED single
    ((s.eraseImage 0).eraseImage 1, 1)
  | some a, none => ((State.each a.entries (fun x s => s.restoreOne x) s).eraseImage 0, 1)
  | none, some c => ((State.each c.entries (fun x s => s.restoreOne x) s).eraseImage 1, 1)
  | none, none => (s, 6)

/-- Must RESTORE wait for energy (R488)? -/
def State.restoreWaits (s : State) : Bool :=
  !s.power.enough && ((s.validImage 0).isSome || (s.validImage 1).isSome)

/-- A journal command starts: bank page, OP and the RESULT it will show, 0 while RESTORE has still to run. -/
def State.startJnl (s : State) (b op result : Nat) : State := { s with jcmd := some (op, result, b) }

/-- RESTORE starts. -/
def State.jnlRestore (s : State) (b : Nat) : State :=
  if s.jcmd.isSome then s
  else if s.restoreWaits then s.startJnl b 1 0
  else
    let r := s.doRestore (uBank b)
    r.1.startJnl b 1 r.2

/-- Rewrite every target of a held entry (R342). -/
def State.redriveEntry (s : State) (i : Nat) : State :=
  let e := s.jentry i
  let s := s.putEntry i { e with held := false, wr0 := false, wr1 := false }
  let s := s.tallyEvent (some s.jbank) 0x09 0x02 7 e.seam (payload8 0 (beBytes 8 e.num))
  s.startTargets i

/-- REDRIVE starts (R342): ARG 0 takes every held entry, another ARG that entry. -/
def State.jnlRedrive (s : State) (b : Nat) : State :=
  if s.jcmd.isSome then s
  else
    let arg := s.rd (uBank b) Reg.JNL_ARG.ARG
    if arg = 0 then
      (State.each (s.liveSlots.filter fun i => (s.jentry i).held) (fun i s => s.redriveEntry i) s).startJnl b 2 1
    else match s.slotOfEntry arg false with
      | none => s.startJnl b 2 4
      | some i => if (s.jentry i).held then (s.redriveEntry i).startJnl b 2 1 else s.startJnl b 2 3

/-- DISCARD starts (R334): a held entry is freed. -/
def State.jnlDiscard (s : State) (b : Nat) : State :=
  if s.jcmd.isSome then s
  else match s.slotOfEntry (s.rd (uBank b) Reg.JNL_ARG.ARG) false with
    | none => s.startJnl b 3 4
    | some i =>
      let e := s.jentry i
      if !e.held then s.startJnl b 3 3
      else
        let s := ((s.sendRetire e).freeSlot i).count (uBank b) Reg.JNL_COUNT2.DISCARDED
        let s := s.tallyEvent (some (uBank b)) 0x09 0x03 7 e.seam (payload8 0 (beBytes 8 e.num))
        let s := if (s.seamStands e.seam || e.orphan) && !e.restored then s.placeFate b e 0x20 e.num else s
        s.startJnl b 3 1

/-- A write of START in JNL_CMD: a reserved OP ends at once with RESULT 0x02. -/
def State.jnlStart (s : State) (b : Nat) : State :=
  match s.rd (uBank b) Reg.JNL_CMD.OP with
  | 1 => s.jnlRestore b
  | 2 => s.jnlRedrive b
  | 3 => s.jnlDiscard b
  | _ => if s.jcmd.isSome then s else s.wr (uBank b) Reg.JNL_CMD.RESULT 2

/-- RESTORE written in JNL_CMD of a bank. -/
def onRestore (sender : Sender) (bank : Fin 2) (s : State) : State :=
  s.command sender (uBank bank.val) Reg.JNL_CMD.START.off fun s => (s.wr (uBank bank.val) Reg.JNL_CMD.OP 1).jnlRestore bank.val

/-- REDRIVE written in JNL_CMD of a bank. -/
def onRedrive (sender : Sender) (bank : Fin 2) (s : State) : State :=
  s.command sender (uBank bank.val) Reg.JNL_CMD.START.off fun s => (s.wr (uBank bank.val) Reg.JNL_CMD.OP 2).jnlRedrive bank.val

/-- DISCARD written in JNL_CMD of a bank. -/
def onDiscard (sender : Sender) (bank : Fin 2) (s : State) : State :=
  s.command sender (uBank bank.val) Reg.JNL_CMD.START.off fun s => (s.wr (uBank bank.val) Reg.JNL_CMD.OP 3).jnlDiscard bank.val

/-- JNL_CMD_DONE (R344): the command ends and RESULT shows how; REDRIVE ends once no target write runs. -/
def onJnlCmdDone (s : State) : State :=
  match s.jcmd with
  | none => s
  | some (op, result, b) =>
    let fin (s : State) (r : Nat) : State :=
      let s := { s.wr (uBank b) Reg.JNL_CMD.RESULT r with jcmd := none }
      if op = 1 then
        let s := { s with restored := s.restored || r == 1 || r == 5 || r == 6 }
        s.tallyEvent (some (uBank b)) 0x09 0x04 7 0xFF
          (payload8 r (beBytes 8 0 ++ beBytes 2 (s.rd (uBank b) Reg.JNL_COUNT2.ONE_SIDED)))
      else s
    if op = 1 ∧ result = 0 then
      if s.restoreWaits then s
      else
        let r := s.doRestore (uBank b)
        fin r.1 r.2
    else if op = 2 ∧ result = 1 then
      if !s.targetWrites.isEmpty then s
      else fin s (if s.liveSlots.any fun i => (s.jentry i).held then 5 else 1)
    else fin s result

/-! ### The drain (R338-R340) -/

/-- Bank `d` starts its drain: commits are refused, target writes stop, and the image header is written with MARK 0 (R338). -/
def State.startDrain (s : State) (d : Nat) : State :=
  if !s.bankAvail d ∨ !s.powered (uDrain d) then s
  else
    let s := s.count (uDrain d) Reg.DRN_COUNT.DRAINS
    { s with draining := s.draining.put false d true,
             images := s.images.put none d (some { pcycle := s.pcycle, next := s.jnext % 2 ^ 32, whole := false, entries := [] }) }

/-- Both drains start; every commit not yet marked ends with DEV 0x07 and target writes are abandoned (R332, R338). -/
def State.drainJournal (s : State) : State :=
  let s := State.each (s.commits.map Commit.ex) (fun key s => s.refuseCommit key 7) s
  let s := { s with targetWrites := [] }
  (s.startDrain 0).startDrain 1

/-- The bytes that an image holds after its header (R339). -/
def DrainImage.size (m : DrainImage) : Nat := m.entries.foldl (fun a x => a + 128 + x.1.pages.length * 4096) 0

/-- The time of a drain in microseconds: 0.5 ms and its bytes at 1.04 GB/s (R338). -/
def drainUs (bytes : Nat) : Nat := 500 + bytes / 1040

/-- DRAIN_DONE (R338): the drain of a bank writes its entries and the image MARK, and ends. With both ended, the Tally records the
drain (R469, R490). -/
def onDrainDone (die : Fin 2) (s : State) : State :=
  let d := die.val
  if !s.draining.look false d then s
  else
    let live := (s.jslots.filter fun e => e.1 / 16384 == d && e.2.live).map Prod.snd
    let m : DrainImage :=
      { pcycle := s.pcycle, next := s.jcount % 2 ^ 32, whole := true,
        entries := live.map fun e => (e, s.payload d e) }
    let s := { s with draining := s.draining.put false d false, images := s.images.put none d (some m) }
    let s := s.wr (uDrain d) Reg.DRN_LAST.LAST_US (drainUs m.size)
    if s.draining.look false (1 - d) then s
    else
      let n (i : Nat) : List Byte := match s.images.look none i with
        | some m => beBytes 4 m.entries.length ++ beBytes 8 m.size
        | none => beBytes 4 0 ++ beBytes 8 0
      s.tallyEvent (some uSvcDie) 0x00 0x04 7 0xFF (payload8 0 (n 0 ++ n 1))

/-! ### The commands as the queue gives them -/

def execJournalCommit (die : Fin 2) (ctx : Fin 131072) (s : State) : Answer := s.run (onJournalCommit die ctx)
def execCommitPoint (die : Fin 2) (ctx : Fin 131072) (s : State) : Answer := s.run (onCommitPoint die ctx)
def execTargetWriteDone (slot : Fin 16384) (second : Bool) (result : NvmeEnd) (s : State) : Answer := s.run (onTargetWriteDone slot second result)
def execRestore (sender : Sender) (bank : Fin 2) (s : State) : Answer := s.run (onRestore sender bank)
def execRedrive (sender : Sender) (bank : Fin 2) (s : State) : Answer := s.run (onRedrive sender bank)
def execDiscard (sender : Sender) (bank : Fin 2) (s : State) : Answer := s.run (onDiscard sender bank)
def execJnlCmdDone (s : State) : Answer := s.run onJnlCmdDone
def execPeerAckTimeout (die : Fin 2) (ctx : Fin 131072) (s : State) : Answer := s.run (onPeerAckTimeout die ctx)
def execDrainDone (die : Fin 2) (s : State) : Answer := s.run (onDrainDone die)

end Sys2Proof.Machine
end

