-- ==== Sys2Proof/Machine/Channel.lean ====
section
/-! DEFINITION. Channel command entries and the steps of an exchange (R304-R316): fetch, the channel commands, the end of an entry,
path failures, timeouts, aborts, takeover and repair. -/

namespace Sys2Proof.Machine

/-- CMD, flags and fields of a channel command entry (R304). -/
def entryCmd (w : Word) : Nat := w.field 0 7
def entryLink (w : Word) : Bool := w.bit 8
def entrySecured (w : Word) : Bool := w.bit 9
def entryMirror (w : Word) : Bool := w.bit 10
def entryDiscard (w : Word) : Bool := w.bit 11
def entryShortOk (w : Word) : Bool := w.bit 12
def entryModifier (w : Word) : Nat := w.field 16 31
def entryCount (w : Word) : Nat := w.field 40 63

/-- Does every byte of a range of seam addresses lie in the seam's allotment (R258)? -/
def State.inAllotment (s : State) (seam addr n : Nat) : Bool :=
  seam == 0 || (decide (addr + n ≤ s.rd uSeamCtl (Reg.SEAM_GRAN.LIMIT.ix seam) * 65536))

/-- Is CMD valid for the KIND of the subchannel (R306)? -/
def cmdFor (kind cmd : Nat) : Bool :=
  cmd == 8 || (kind == 1 && [1, 2, 3, 7, 9].contains cmd) || (kind == 2 && [0x11, 0x12].contains cmd)

/-- Are the flags valid for CMD, and the reserved bits 0 (R304, R305)? -/
def flagsFor (w : Word) : Bool :=
  let cmd := entryCmd w
  w.field 13 15 == 0 && w.field 32 39 == 0 && (!entrySecured w || cmd == 1) && entryMirror w == (cmd == 9)
    && (!entryDiscard w || cmd == 2 || cmd == 0x12)

/-- Is COUNT valid for CMD (R306)? -/
def countFor (w : Word) (shift : Nat) : Bool :=
  let n := entryCount w
  match entryCmd w with
  | 1 | 2 => decide (1 ≤ n) && n % 2 ^ shift == 0
  | 3 | 7 | 8 => n == 0
  | 0x11 => decide (60 ≤ n) && decide (n ≤ 9600)
  | 0x12 => decide (1536 ≤ n)
  | _ => true

/-- Does CMD use ADDRESS as a data address? -/
def usesAddress (w : Word) : Bool :=
  match entryCmd w with
  | 1 | 0x11 => true
  | 2 | 0x12 => !entryDiscard w
  | _ => false

/-- Is the subchannel that TARGET names valid (R307, R327)? -/
def State.targetOk (s : State) (d : Nat) (x : Exchange) (w : Word) : Bool :=
  let sch := entryCount w
  decide (sch < 262144) && sch != x.sch && s.schInRange x.seam sch && (match s.schRecord d sch with
    | none => false
    | some r => recValid r && recKind r == 1 && recSeam r == x.seam && recShift r == recShift (s.recOf x.sch d))

/-- The DEV of R308 for which an entry is refused, in the order of its table. -/
def State.entryBad (s : State) (d : Nat) (x : Exchange) (w0 w1 : Word) : Option Nat :=
  let r := s.recOf x.sch d
  if !cmdFor (recKind r) (entryCmd w0) then some 1
  else if !flagsFor w0 then some 2
  else if !countFor w0 (recShift r) then some 3
  else if usesAddress w0 ∧ (w1.field 0 23 ≠ 0 ∨ w1.toNat % 8 ≠ 0 ∨ !s.inAllotment x.seam w1.toNat (entryCount w0)) then some 4
  else if entrySecured w0 ∧ (65536 < entryCount w0 ∨ !(x.index == 0 || (x.index == 1 && entryCmd x.word0 == 7))) then some 6
  else if x.sec.isSome ∧ (entryCmd w0 ≠ 9 ∨ entryLink w0) then some 6
  else if entryCmd w0 = 9 ∧ x.sec.isNone then some 6
  else if entryCmd w0 = 9 ∧ !s.targetOk d x w0 then some 7
  else none

/-- ENTRY_FETCH (R304, R308, R314): the entry at CUR is fetched and checked, and the exchange becomes active, hands its record to the
journal, or ends with code 0x10. -/
def onEntryFetch (die : Fin 2) (ctx : Fin 131072) (s : State) : State :=
  let d := die.val
  let key := exKey d ctx.val
  let x := s.exch key
  if x.st ≠ .start then s
  else if 256 ≤ x.index then s.finish key 0x10 5
  else if !s.inAllotment x.seam x.cur 16 then s.finish key 0x10 8
  else
    let r := s.agentRead x.seam x.cur 16
    if r.2.2 != .done then r.1.agentFault x.seam r.2.2
    else
      let s := r.1
      let w0 := wordOf r.2.1 0
      let w1 := wordOf r.2.1 1
      match s.entryBad d x w0 w1 with
      | some dev => (s.setExch key { x with word0 := w0, word1 := w1, moved := 0 }).finish key 0x10 dev
      | none =>
        if entrySecured w0 then
          if entryLink w0 then
            s.setExch key { x with sec := some (w0, w1), index := x.index + 1, cur := x.cur + 16, moved := 0 }
          else s.setExch key { x with st := .journal, word0 := w0, word1 := w1, moved := 0, tgt := none }
        else s.setExch key
          { x with st := .active, word0 := w0, word1 := w1, moved := 0, placed := 0, performed := false, entryAt := s.now }

/-- The exchange, where it is active with CMD `cmd` not yet performed. -/
def State.doing (s : State) (key cmd : Nat) : Option Exchange :=
  let x := s.exch key
  if x.st = .active ∧ entryCmd x.word0 = cmd ∧ !x.performed then some x else none

/-- Submit the NVMe command of an entry on the exchange's path (R306, R385). -/
def State.submitNvme (s : State) (key : Nat) (x : Exchange) (cmd : NvmeCmd) : State :=
  let r := s.recOf x.sch (exDie key)
  { s with outbox := s.outbox ++ [Out.nvme (pathLane (recPath r x.path)) cmd (recNsid r) x.lba
      (entryCount x.word0 / 2 ^ recShift r) x.seam x.word1.toNat false] }

/-- WRITE (R306): the drive is told to write the blocks at ADDRESS at the current LBA. -/
def onWrite (die : Fin 2) (ctx : Fin 131072) (s : State) : State :=
  let key := exKey die.val ctx.val
  match s.doing key 1 with
  | none => s
  | some x => (s.submitNvme key x .write).setExch key { x with performed := true, moved := entryCount x.word0 }

/-- READ (R305, R306): the drive reads the blocks, and the bytes that it delivers are stored at ADDRESS, or dropped with DISCARD. -/
def onRead (die : Fin 2) (ctx : Fin 131072) (data : List Byte) (s : State) : State :=
  let key := exKey die.val ctx.val
  match s.doing key 2 with
  | none => s
  | some x =>
    let s := s.submitNvme key x .read
    let data := data.take (entryCount x.word0)
    let s := s.setExch key { x with performed := true, moved := data.length }
    if entryDiscard x.word0 then s
    else
      let hint (i : Nat) : Option HintTarget := if entryLink x.word0 then none else s.hintAt x.hint i
      let r := s.agentWrite x.seam x.word1.toNat data hint
      r.1.agentFault x.seam r.2

/-- FLUSH (R306). -/
def onFlush (die : Fin 2) (ctx : Fin 131072) (s : State) : State :=
  let key := exKey die.val ctx.val
  match s.doing key 3 with
  | none => s
  | some x => (s.submitNvme key x .flush).setExch key { x with performed := true }

/-- LOCATE (R306): the current LBA becomes ADDRESS. -/
def onLocate (die : Fin 2) (ctx : Fin 131072) (s : State) : State :=
  let key := exKey die.val ctx.val
  match s.doing key 7 with
  | none => s
  | some x => s.setExch key { x with performed := true, lba := x.word1.toNat }

/-- NOP (R306). -/
def onNop (die : Fin 2) (ctx : Fin 131072) (s : State) : State :=
  let key := exKey die.val ctx.val
  match s.doing key 8 with
  | none => s
  | some x => s.setExch key { x with performed := true }

/-- TARGET (R307): the second target of the secured write is named, and the record is handed to the journal. -/
def onTarget (die : Fin 2) (ctx : Fin 131072) (s : State) : State :=
  let key := exKey die.val ctx.val
  match s.doing key 9 with
  | none => s
  | some x => match x.sec with
    | none => s
    | some (w0, w1) =>
      s.setExch key { x with st := .journal, tgt := some (entryCount x.word0, x.word1.toNat), word0 := w0, word1 := w1,
                             sec := none, performed := true }

/-- Bytes with others laid over them from an offset, as far as they reach. -/
def overlay (l : List Byte) (off : Nat) (v : List Byte) : List Byte :=
  (List.range l.length).map fun i => if off ≤ i ∧ i < off + v.length then v.getD (i - off) 0 else l.getD i 0

/-- A frame with its frame check sequence, which goes out least significant byte first (R306, R387). -/
def withFcs (l : List Byte) : List Byte := l ++ (beBytes 4 (crc32 l).toNat).reverse

/-- SEND (R306, R310): one frame goes out, with the exchange sequence at byte MODIFIER. -/
def onSend (die : Fin 2) (ctx : Fin 131072) (s : State) : State :=
  let key := exKey die.val ctx.val
  match s.doing key 0x11 with
  | none => s
  | some x =>
    let r := s.agentRead x.seam x.word1.toNat (entryCount x.word0)
    if r.2.2 != .done then r.1.agentFault x.seam r.2.2
    else
      let m := entryModifier x.word0
      let bytes := if m = 0xFFFF then r.2.1 else overlay r.2.1 m (wordBytes x.seq)
      let lane := pathLane (r.1.pathOf key)
      let s := r.1.setExch key { x with performed := true, moved := entryCount x.word0 }
      { s with outbox := s.outbox ++ [Out.frame lane (withFcs bytes)] }

/-- The bytes of a received frame in the buffer (R309): descriptor, frame, padding to 8 bytes. -/
def placedFrame (lane : Nat) (f : List Byte) : List Byte :=
  beBytes 2 f.length ++ beBytes 1 lane ++ List.replicate 5 0 ++ padTo ((f.length + 7) / 8 * 8) f

/-- Frames that a RECEIVE takes (R309). -/
def wantedFrames (w : Word) : Nat := if entryModifier w = 0 then 1 else entryModifier w

/-- RECEIVE (R305, R309): matching frames that have arrived are placed in the buffer, in order, as far as they fit. -/
def onReceive (die : Fin 2) (ctx : Fin 131072) (s : State) : State :=
  let key := exKey die.val ctx.val
  match s.doing key 0x12 with
  | none => s
  | some x =>
    let q := s.ethQueue.look [] x.sch
    let step (a : State × Nat × Nat × Nat × Bool) (f : Nat × List Byte) : State × Nat × Nat × Nat × Bool :=
      let (s, moved, placed, taken, stop) := a
      let bytes := placedFrame f.1 f.2
      if stop ∨ wantedFrames x.word0 ≤ placed then (s, moved, placed, taken, true)
      else if entryDiscard x.word0 then (s, moved + f.2.length, placed + 1, taken + 1, false)
      else if entryCount x.word0 < moved + bytes.length then (s, moved, placed, taken, true)
      else
        let first := (x.word1.toNat + moved) / 128 - x.word1.toNat / 128
        let hint (i : Nat) : Option HintTarget := if entryLink x.word0 then none else s.hintAt x.hint (first + i)
        let r := s.agentWrite x.seam (x.word1.toNat + moved) bytes hint
        (r.1.agentFault x.seam r.2, moved + bytes.length, placed + 1, taken + 1, false)
    let r := q.foldl step (s, x.moved, x.placed, 0, false)
    let s : State := { r.1 with ethQueue := r.1.ethQueue.put [] x.sch (q.drop r.2.2.2.1) }
    let s := State.each (((q.take r.2.2.2.1).map Prod.fst).eraseDups) (fun lane s => s.pfcCheck lane) s
    let moved := r.2.1
    let placed := r.2.2.1
    let full := decide (wantedFrames x.word0 ≤ placed) || (match (q.drop r.2.2.2.1).head? with
      | some f => !entryDiscard x.word0 && decide (entryCount x.word0 < moved + (placedFrame f.1 f.2).length)
      | none => false)
    if (s.exch key).st = .active then
      s.setExch key { x with moved := moved, placed := placed, performed := full, lba := entryCount x.word0 - moved }
    else s

/-- An entry ends without error (R305, R314). -/
def State.entryDone (s : State) (key : Nat) (x : Exchange) : State :=
  let blocks := x.moved / 2 ^ recShift (s.recOf x.sch (exDie key))
  let x := if entryCmd x.word0 = 1 ∨ entryCmd x.word0 = 2 then { x with lba := x.lba + blocks } else x
  let s := s.setExch key x
  let short := decide (x.moved < entryCount x.word0) && !entryShortOk x.word0
  if x.st = .halting then
    if entryLink x.word0 then s else s.finish key (if short then 0x11 else 0x01) 0
  else if short then s.finish key 0x11 0
  else if entryLink x.word0 then
    s.setExch key { x with st := .start, index := x.index + 1, cur := x.cur + 16, performed := false }
  else s.finish key 0x01 0

/-- ENTRY_END (R314, R315): the channel command has ended on its path, as the drive reports. -/
def onEntryEnd (die : Fin 2) (ctx : Fin 131072) (result : NvmeEnd) (s : State) : State :=
  let key := exKey die.val ctx.val
  let x := s.exch key
  if !x.performed ∨ (x.st ≠ .active ∧ x.st ≠ .halting) then s
  else match result with
    | .success => s.entryDone key x
    | .error sct code =>
      if x.st = .halting then s.finish key x.endCode 0
      else if sct = 3 then s.pathFail key false
      else s.finish key 0x12 code.toNat sct.toNat

/-- PATH_FAILURE (R315): the current path of an exchange or of a target write fails. -/
def onPathFailure (user : PathUser) (s : State) : State :=
  match user with
  | .exchange d i => s.pathFail (exKey d.val i.val) false
  | .target i second => s.targetFail i.val second

/-- TIMEOUT_MS of the die that drives a path, in ns (R315, R324). -/
def State.entryLimit (s : State) (d : Nat) : Nat :=
  let ms := s.rd (uCtx d) Reg.CHS_CFG.TIMEOUT_MS
  (if ms = 0 then 1000 else ms) * 1000000

/-- ENTRY_TIMEOUT (R315): an entry, or a target write, has not ended within TIMEOUT_MS of starting on its path. -/
def onEntryTimeout (user : PathUser) (s : State) : State :=
  match user with
  | .exchange d i =>
    let key := exKey d.val i.val
    let x := s.exch key
    if x.st = .active ∧ x.entryAt + s.entryLimit d.val ≤ s.now then s.pathFail key true else s
  | .target i second => match s.targetOf i.val second with
    | some w =>
      if w.since + s.entryLimit (s.targetLane w / 64) ≤ s.now then
        (s.count (uCtx (s.targetLane w / 64)) Reg.CHS_COUNT2.TIMEOUTS).targetFail i.val second
      else s
    | none => s

/-- HALTING_TIMEOUT (R314): 1 ms after the HALT the exchange ends. -/
def onHaltingTimeout (die : Fin 2) (ctx : Fin 131072) (s : State) : State :=
  let key := exKey die.val ctx.val
  let x := s.exch key
  if x.st = .halting ∧ x.haltAt + 1000000 ≤ s.now then s.finish key x.endCode 0 else s

/-- ABORT_CONFIRMED (R314). -/
def onAbortConfirmed (die : Fin 2) (ctx : Fin 131072) (s : State) : State :=
  let key := exKey die.val ctx.val
  let x := s.exch key
  if x.st = .halting then s.finish key x.endCode 0 else s

/-- LATE_DISCARD (R315): a late transfer or completion from a failed path is discarded and counted. -/
def onLateDiscard (die : Fin 2) (s : State) : State := s.count (uCtx die.val) Reg.CHS_COUNT3.LATE_DISCARD

/-- ORPHANING (R313): the peer list takes over an exchange whose hot context is uncorrectable, or whose store is lost. -/
def onOrphaning (die : Fin 2) (ctx : Fin 131072) (s : State) : State :=
  let key := exKey die.val ctx.val
  if (s.exch key).st = .idle then s
  else if s.storeAvail die.val then (s.stick (uCtx die.val) Reg.CHS_ERR.CTX_UNCORR).takeover key 0x26
  else (s.wr (uCtx (1 - die.val)) Reg.CHS_ERR.PEER_LOST 1).takeover key 0x22

/-- UNPAIRED_REPAIR (R313): with both stores available, the unpaired exchanges of a store are entered in the other's peer list. -/
def onUnpairedRepair (die : Fin 2) (s : State) : State :=
  let d := die.val
  if !(s.storeAvail 0 && s.storeAvail 1) then s
  else State.each ((s.exchanges.filter fun e => exDie e.1 == d && !e.2.paired).map Prod.fst) (fun key s =>
    let x := s.exch key
    match s.peers.look none (peerKey d x.sch) with
    | none => s
    | some p =>
      let s := { s with peers := s.peers.put none (peerKey d x.sch) none }
      (s.setPeer (1 - d) x.sch p).setExch key { x with paired := true }) s

/-! ### The commands as the queue gives them -/

def execEntryFetch (die : Fin 2) (ctx : Fin 131072) (s : State) : Answer := s.run (onEntryFetch die ctx)
def execWrite (die : Fin 2) (ctx : Fin 131072) (s : State) : Answer := s.run (onWrite die ctx)
def execRead (die : Fin 2) (ctx : Fin 131072) (data : List Byte) (s : State) : Answer := s.run (onRead die ctx data)
def execFlush (die : Fin 2) (ctx : Fin 131072) (s : State) : Answer := s.run (onFlush die ctx)
def execLocate (die : Fin 2) (ctx : Fin 131072) (s : State) : Answer := s.run (onLocate die ctx)
def execNop (die : Fin 2) (ctx : Fin 131072) (s : State) : Answer := s.run (onNop die ctx)
def execTarget (die : Fin 2) (ctx : Fin 131072) (s : State) : Answer := s.run (onTarget die ctx)
def execSend (die : Fin 2) (ctx : Fin 131072) (s : State) : Answer := s.run (onSend die ctx)
def execReceive (die : Fin 2) (ctx : Fin 131072) (s : State) : Answer := s.run (onReceive die ctx)
def execEntryEnd (die : Fin 2) (ctx : Fin 131072) (result : NvmeEnd) (s : State) : Answer := s.run (onEntryEnd die ctx result)
def execPathFailure (user : PathUser) (s : State) : Answer := s.run (onPathFailure user)
def execEntryTimeout (user : PathUser) (s : State) : Answer := s.run (onEntryTimeout user)
def execHaltingTimeout (die : Fin 2) (ctx : Fin 131072) (s : State) : Answer := s.run (onHaltingTimeout die ctx)
def execAbortConfirmed (die : Fin 2) (ctx : Fin 131072) (s : State) : Answer := s.run (onAbortConfirmed die ctx)
def execLateDiscard (die : Fin 2) (s : State) : Answer := s.run (onLateDiscard die)
def execOrphaning (die : Fin 2) (ctx : Fin 131072) (s : State) : Answer := s.run (onOrphaning die ctx)
def execUnpairedRepair (die : Fin 2) (s : State) : Answer := s.run (onUnpairedRepair die)

end Sys2Proof.Machine
end

