-- ==== Sys2Proof/Machine/HaulerPorts.lean ====
section
/-! DEFINITION. The ports of a hauler (R368, R369, R391), its DMA channels (R369, R370), its pit (R366), and its lane queues (R388-R391). -/

namespace Sys2Proof.Machine

/-! ### Pit and bits -/

/-- The key of a pit word. -/
def pitKey (h w : Nat) : Nat := h * 65536 + w % 65536

def State.pitWord (s : State) (h w : Nat) : Half := s.pit.look 0 (pitKey h w)

def State.setPit (s : State) (h w : Nat) (v : Half) : State :=
  { s with pit := s.pit.put 0 (pitKey h w) v, pitBad := s.pitBad.put false (pitKey h w) false }

def State.pitIsBad (s : State) (h w : Nat) : Bool := s.pitBad.look false (pitKey h w)

/-- Bit `n` of a 16-bit word in the numbering of R4, as a mask. -/
def hbit (n : Nat) : Half := 0x8000#16 >>> n

/-- Bits `lo:hi` of a 16-bit word (R4). -/
def hfield (w : Half) (lo hi : Nat) : Nat := (w.toNat >>> (15 - hi)) % 2 ^ (hi + 1 - lo)

/-- An uncorrectable pit word is met (R366). -/
def State.pitError (s : State) (h w : Nat) : State :=
  let s := (s.bump (uHauler h) Reg.PIT_STAT.UNCORR).wr (uHauler h) Reg.PIT_ERRADDR.ADDR w
  s.stick (uHauler h) Reg.HLR_FAULT.PIT_UNCORR

/-- Words of a pit as bytes, from word `w`, `n` bytes; and bytes stored as words. -/
def State.pitBytes (s : State) (h w n : Nat) : List Byte :=
  (List.range (n / 2)).flatMap fun i => beBytes 2 (s.pitWord h (w + i)).toNat

def State.putPitBytes (s : State) (h w : Nat) (l : List Byte) : State :=
  State.each (List.range (l.length / 2)) (fun i s =>
    s.setPit h (w + i) (BitVec.ofNat 16 ((l.getD (2 * i) 0).toNat * 256 + (l.getD (2 * i + 1) 0).toNat))) s

/-! ### Seam tags (R370) -/

/-- The owner of a unit (R42). -/
def State.ownerOfUnit (s : State) (u : UnitId) : Nat := s.rd u Reg.UNIT_OWNER.OWNER

/-- The seam tag of a DMA channel's access. -/
def State.dmaTag (s : State) (h : Nat) (d : Dma) : Nat :=
  let o := s.ownerOfUnit (uHauler h)
  if o = 0xFF then d.seam else o

/-! ### Hot contexts as words (R311, R368) -/

/-- STATE of a context as its byte (R314). -/
def ExState.code : ExState → Nat
  | .idle => 0 | .start => 1 | .active => 2 | .redrive => 3 | .journal => 4 | .halting => 5 | .pending => 6

def exStateOf (n : Nat) : ExState :=
  match n with | 1 => .start | 2 => .active | 3 => .redrive | 4 => .journal | 5 => .halting | 6 => .pending | _ => .idle

/-- The hint target of a context in eight bytes: R311 gives no layout (log entry 18). -/
def hintCode : Option HintTarget → Nat
  | none => 0 | some (.l2 k) => 256 + k | some (.l3 t) => 512 + t

def hintOf (n : Nat) : Option HintTarget :=
  if n / 256 = 1 ∧ n % 256 < 48 then some (.l2 (n % 256)) else if n / 256 = 2 ∧ n % 256 < 4 then some (.l3 (n % 256)) else none

/-- The 64 bytes of a hot context (R311). -/
def Exchange.bytes (x : Exchange) : List Byte :=
  beBytes 1 x.st.code ++ beBytes 1 x.seam ++ beBytes 1 x.path ++ beBytes 1 x.tried.toNat ++ beBytes 4 x.sch ++ beBytes 8 x.cpa
    ++ beBytes 8 x.cur ++ beBytes 8 x.lba ++ beBytes 8 (hintCode x.hint) ++ wordBytes x.seq ++ beBytes 8 x.start
    ++ wordBytes x.status

/-- A context with the fields of R311 taken from bytes. -/
def Exchange.ofBytes (x : Exchange) (l : List Byte) : Exchange :=
  { x with st := exStateOf (recNum l 0 1), seam := recNum l 1 1, path := recNum l 2 1 % 8, tried := BitVec.ofNat 8 (recNum l 3 1),
           sch := recNum l 4 4 % 262144, cpa := recNum l 8 8, cur := recNum l 0x10 8, lba := recNum l 0x18 8,
           hint := hintOf (recNum l 0x20 8), seq := wordOf l 5, start := recNum l 0x30 8, status := wordOf l 7 }

/-! ### Personality groups as ports see them (R391) -/

/-- Quads of a group of a width code. -/
def quadsOf (lane code : Nat) : List Nat := (List.range (if code = 4 then 4 else if code = 3 then 2 else 1)).map fun i => lane / 4 + i

/-- May the hauler select the group (R391)? -/
def State.mayselect (s : State) (h lane : Nat) : Bool :=
  let o := s.ownerOfUnit (uHauler h)
  match s.widthAt lane with
  | none => false
  | some c => o == 0xFF || (quadsOf lane c).all fun q => s.ownerOfUnit (uLane q) == o || s.ownerOfUnit (uLane q) == 0xFF

/-- GSTAT (R391). -/
def State.gstat (s : State) (lane : Nat) : Half :=
  let l := s.link lane
  BitVec.ofNat 16 ((if l.up then 0x8000 else 0) + (if s.isEth lane then 0x4000 else 0) + l.width * 0x800 + l.rate % 8 * 0x100)

/-- May hauler `h` take the item: an MSI message for it, or a frame where RXHAUL names it (R384, R391)? -/
def State.mayTake (s : State) (h lane : Nat) (x : RxItem) : Bool :=
  match x.hauler with
  | some n => n == h
  | none => s.bitOf (laneUnit lane) (Reg.LNK_RXHAUL.RXHAUL.ix (lane % 4)) (h % 32)

/-- RXINFO of a frame (R391): PCP, tagged, L3 and L4. -/
def rxInfo (f : List Byte) : Half :=
  let (tag, pcp, et, off) := ethHead f
  let l3 := if et = 0x0800 then 1 else if et = 0x86DD then 2 else 0
  let proto := if l3 = 1 then recNum f (off + 9) 1 else if l3 = 2 then recNum f (off + 6) 1 else 0
  let l4 := if proto = 6 then 1 else if proto = 17 then 2 else 0
  BitVec.ofNat 16 (pcp * 8192 + (if tag then 4096 else 0) + l3 * 1024 + l4 * 256)

/-! ### Port reads and writes -/

/-- TIMER (R368): hauler cycles of 1.6 GHz since wake, 48 bits. -/
def State.timer (s : State) (h : Nat) : Nat := (s.now - (s.hauler h).timerFrom) * 8 / 5 % 2 ^ 48

/-- A 16-bit word of a wider value of `n` words, word 0 the most significant. -/
def wordAt (n v i : Nat) : Half := BitVec.ofNat 16 (v / 65536 ^ (n - 1 - i))

/-- A wider value with word `i` replaced. -/
def setWordAt (n v i : Nat) (x : Half) : Nat :=
  v - (v / 65536 ^ (n - 1 - i) % 65536) * 65536 ^ (n - 1 - i) + x.toNat * 65536 ^ (n - 1 - i)

def Hauler.dmaAt (x : Hauler) (c : Nat) : Dma := x.dma.look Dma.reset c

def State.setDma (s : State) (h c : Nat) (d : Dma) : State :=
  let x := s.hauler h
  s.setHauler h { x with dma := x.dma.put Dma.reset c d }

/-- The module-wide first lane that GSEL selects, if it selects one. -/
def State.gselLane (s : State) (h : Nat) : Option Nat :=
  let g := (s.hauler h).gsel
  if g = 0xFFFF then none else some (h / 32 * 64 + g.toNat % 64)

/-- XNOTE (R368): the oldest notice is taken, its context loaded into XSEL, and its kind returned. -/
def State.xnote (s : State) (h : Nat) : State × Half :=
  let x := s.hauler h
  match x.notices with
  | [] => (s, 0)
  | n :: rest => (s.setHauler h { x with notices := rest, xsel := n.ctx }, BitVec.ofNat 16 n.kind)

/-- RXTAKE (R391): the oldest frame or MSI message for this hauler is taken; its length in bytes. -/
def State.rxtake (s : State) (h lane : Nat) : State × Half :=
  let l := s.link lane
  match l.rx.findIdx? fun x => s.mayTake h lane x with
  | none => (s, 0)
  | some i =>
    let item := l.rx.getD i ⟨[], none, none⟩
    let s := (s.setLink lane { l with rx := l.rx.eraseIdx i }).pfcCheck lane
    let x := s.hauler h
    (s.setHauler h { x with taken := some item }, BitVec.ofNat 16 (if item.msi.isSome then 2 else item.bytes.length))

/-- Read a port (R368, R369, R391); none for a port that traps with cause 0x04. -/
def State.portRead (s : State) (h port : Nat) : State × Option Half :=
  let x := s.hauler h
  if port < 0x100 then
    let d := x.dmaAt (port / 16)
    match port % 16 with
    | 0 => (s, some ((d.ctl &&& ~~~(hbit 0 ||| hbit 1)) ||| (if d.busy then hbit 1 else 0)))
    | 1 | 2 | 3 => (s, some (wordAt 3 d.src (port % 16 - 1)))
    | 4 | 5 | 6 => (s, some (wordAt 3 d.dst (port % 16 - 4)))
    | 7 | 8 => (s, some (wordAt 2 d.len (port % 16 - 7)))
    | 9 => (s, some (BitVec.ofNat 16 d.seam))
    | _ => (s, none)
  else if port = 0x100 then (s, some x.gsel)
  else if port < 0x140 then
    match s.gselLane h with
    | none => (s, none)
    | some lane =>
      if port = 0x101 then (s, some (s.gstat lane))
      else if port = 0x102 then
        let r := s.rxtake h lane
        (r.1, some r.2)
      else if port = 0x103 then
        (s, some (match x.taken with
          | none => 0
          | some t => match t.msi with | some m => BitVec.ofNat 16 m | none => rxInfo t.bytes))
      else if port = 0x104 then (s, some 0)
      else if port = 0x108 then (s, some x.txopt)
      else if port = 0x109 then (s, some x.txmss)
      else if 0x110 ≤ port ∧ port < 0x114 then (s, some (wordAt 4 x.obaddr.toNat (port - 0x110)))
      else if 0x114 ≤ port ∧ port < 0x118 then (s, some (wordAt 4 x.obdata.toNat (port - 0x114)))
      else if port = 0x118 then (s, some x.obctl)
      else (s, none)
  else if port = 0x140 then (s, some (BitVec.ofNat 16 (x.xsel / 65536)))
  else if port = 0x141 then (s, some (BitVec.ofNat 16 x.xsel))
  else if 0x142 ≤ port ∧ port < 0x162 then
    let l := (s.exch (exKey (h / 32) x.xsel)).bytes
    let i := port - 0x142
    (s, some (BitVec.ofNat 16 (recNum l (2 * i) 2)))
  else if port = 0x162 then
    let r := s.xnote h
    (r.1, some r.2)
  else if port = 0x180 then (s, some x.evtDma)
  else if port = 0x181 then (s, some x.evtMisc)
  else if port = 0x182 then (s, some x.maskDma)
  else if port = 0x183 then (s, some x.maskMisc)
  else if port = 0x1C0 then
    let t := s.timer h
    (s.setHauler h { x with latch := t }, some (wordAt 3 t 0))
  else if port = 0x1C1 ∨ port = 0x1C2 then (s, some (wordAt 3 x.latch (port - 0x1C0)))
  else if 0x1C3 ≤ port ∧ port < 0x1C6 then (s, some (wordAt 3 x.tcmp (port - 0x1C3)))
  else if 0x1D0 ≤ port ∧ port < 0x1D4 then (s, some (wordAt 4 (s.rd (uHauler h) Reg.HLR_MBOX_TO.TO) (port - 0x1D0)))
  else if 0x1D4 ≤ port ∧ port < 0x1D8 then (s, some (wordAt 4 (s.rd (uHauler h) Reg.HLR_MBOX_FROM.FROM) (port - 0x1D4)))
  else (s, none)

/-- Are the kinds, the length and the tag of a transfer allowed (R369, R370)? -/
def dmaAllowed (d : Dma) (tag : Nat) : Bool :=
  let a := hfield d.ctl 4 7
  let b := hfield d.ctl 8 11
  (a == 0) != (b == 0) && decide (a ≤ 4) && decide (b ≤ 4) && a != 2 && b != 3 && hfield d.ctl 14 15 == 0
    && decide (2 ≤ d.len) && decide (d.len ≤ 16777216) && d.len % 2 == 0
    && (tag == 0 || (a != 4 && b != 4)) && decide (tag < 64)

/-- RESULT in CTL (R369). -/
def Dma.result (d : Dma) (r : Nat) : Dma :=
  { d with ctl := (d.ctl &&& ~~~(hbit 2 ||| hbit 3)) ||| BitVec.ofNat 16 (r * 0x1000), busy := false }

/-- A transfer ends with a RESULT, and EVT_DMA is set when asked (R369). -/
def State.dmaEnd (s : State) (h c r : Nat) : State :=
  let d := (s.hauler h).dmaAt c
  let s := s.setDma h c (d.result r)
  let x := s.hauler h
  if hfield d.ctl 12 12 = 1 then s.setHauler h { x with evtDma := x.evtDma ||| hbit c } else s

/-- A write of CTL (R369): GO starts the transfer, unless the channel is busy; one that is not allowed ends at once. -/
def State.dmaCtl (s : State) (h c : Nat) (v : Half) : State :=
  let d := (s.hauler h).dmaAt c
  if d.busy then s
  else
    let keep := d.ctl &&& (hbit 2 ||| hbit 3)
    let d := { d with ctl := (v &&& ~~~(hbit 0 ||| hbit 1 ||| hbit 2 ||| hbit 3)) ||| keep }
    if hfield v 0 0 = 0 then s.setDma h c d
    else
      let s := s.setDma h c { d with busy := true }
      if dmaAllowed d (s.dmaTag h d) then s else s.dmaEnd h c 1

/-- A write of OBCTL (R391): GO starts an outbound PCI Express access on the selected group. -/
def State.obGo (s : State) (h lane : Nat) (v : Half) : State :=
  let x := s.hauler h
  if hfield x.obctl 1 1 = 1 then s
  else
    let base := (v &&& 0x3FFF#16 &&& ~~~(hbit 6 ||| hbit 7)) ||| (x.obctl &&& (hbit 6 ||| hbit 7))
    if hfield v 0 0 = 0 then s.setHauler h { x with obctl := base }
    else
      let kind := hfield v 2 3
      let s := s.setHauler h { x with obctl := base ||| hbit 1 }
      { s with outbox := s.outbox ++ [Out.pcie lane (kind % 2 == 0) x.obaddr.toNat x.obdata.toNat] }

/-- Write a port (R368, R369, R391); false for a port that traps with cause 0x04. A port that the tables only read ignores writes
(log entry 19). -/
def State.portWrite (s : State) (h port : Nat) (v : Half) : State × Bool :=
  let x := s.hauler h
  if port < 0x100 then
    let c := port / 16
    let d := x.dmaAt c
    let i := port % 16
    if i = 0 then (s.dmaCtl h c v, true)
    else if 10 ≤ i then (s, false)
    else if d.busy then (s, true)
    else if i ≤ 3 then (s.setDma h c { d with src := setWordAt 3 d.src (i - 1) v }, true)
    else if i ≤ 6 then (s.setDma h c { d with dst := setWordAt 3 d.dst (i - 4) v }, true)
    else if i ≤ 8 then (s.setDma h c { d with len := setWordAt 2 d.len (i - 7) v }, true)
    else (s.setDma h c { d with seam := v.toNat % 256 }, true)
  else if port = 0x100 then
    let lane := h / 32 * 64 + v.toNat
    (s.setHauler h { x with gsel := if v.toNat < 64 ∧ s.mayselect h lane then v else 0xFFFF }, true)
  else if port < 0x140 then
    match s.gselLane h with
    | none => (s, false)
    | some lane =>
      if port = 0x101 ∨ port = 0x102 ∨ port = 0x103 then (s, true)
      else if port = 0x104 then
        match x.taken with
        | none => (s, true)
        | some _ => ((s.setHauler h { x with taken := none }).count (laneUnit lane) (Reg.LNK_ETH_DROP.NOMATCH.ix (lane % 4)), true)
      else if port = 0x108 then (s.setHauler h { x with txopt := v }, true)
      else if port = 0x109 then (s.setHauler h { x with txmss := v }, true)
      else if 0x110 ≤ port ∧ port < 0x114 then
        (s.setHauler h { x with obaddr := BitVec.ofNat 64 (setWordAt 4 x.obaddr.toNat (port - 0x110) v) }, true)
      else if 0x114 ≤ port ∧ port < 0x118 then
        (s.setHauler h { x with obdata := BitVec.ofNat 64 (setWordAt 4 x.obdata.toNat (port - 0x114) v) }, true)
      else if port = 0x118 then (s.obGo h lane v, true)
      else (s, false)
  else if port = 0x140 then (s.setHauler h { x with xsel := v.toNat % 2 * 65536 + x.xsel % 65536 }, true)
  else if port = 0x141 then (s.setHauler h { x with xsel := x.xsel / 65536 * 65536 + v.toNat }, true)
  else if 0x142 ≤ port ∧ port < 0x162 then
    let key := exKey (h / 32) x.xsel
    let e := s.exch key
    let l := overlay e.bytes (2 * (port - 0x142)) (beBytes 2 v.toNat)
    (if e.st = .idle then s else s.setExch key (e.ofBytes l), true)
  else if port = 0x162 then (s, true)
  else if port = 0x180 then (s.setHauler h { x with evtDma := x.evtDma &&& ~~~v }, true)
  else if port = 0x181 then (s.setHauler h { x with evtMisc := x.evtMisc &&& ~~~v }, true)
  else if port = 0x182 then (s.setHauler h { x with maskDma := v }, true)
  else if port = 0x183 then (s.setHauler h { x with maskMisc := v }, true)
  else if 0x1C0 ≤ port ∧ port < 0x1C3 then (s, true)
  else if 0x1C3 ≤ port ∧ port < 0x1C6 then (s.setHauler h { x with tcmp := setWordAt 3 x.tcmp (port - 0x1C3) v }, true)
  else if 0x1D0 ≤ port ∧ port < 0x1D4 then (s, true)
  else if 0x1D4 ≤ port ∧ port < 0x1D8 then
    (s.wr (uHauler h) Reg.HLR_MBOX_FROM.FROM (setWordAt 4 (s.rd (uHauler h) Reg.HLR_MBOX_FROM.FROM) (port - 0x1D4) v), true)
  else (s, false)

/-! ### Transmit offloads (R387, R391) -/

/-- The ones' complement sum of 16-bit words over bytes, folded, and the checksum that a header carries (RFC 1071; PRESUMED). -/
def onesSum (l : List Byte) : Nat :=
  let t := (List.range ((l.length + 1) / 2)).foldl (fun a i => a + (l.getD (2 * i) 0).toNat * 256 + (l.getD (2 * i + 1) 0).toNat) 0
  let t := t % 65536 + t / 65536
  t % 65536 + t / 65536

def inetSum (l : List Byte) : Nat := 65535 - onesSum l

/-- The IPv4 or IPv6 pseudo-header of a segment of `n` bytes. -/
def pseudo (f : List Byte) (off et proto n : Nat) : List Byte :=
  if et = 0x0800 then (f.drop (off + 12)).take 8 ++ beBytes 2 proto ++ beBytes 2 n
  else (f.drop (off + 8)).take 32 ++ beBytes 4 n ++ beBytes 4 proto

/-- The L4 protocol of a frame. -/
def protoOf (f : List Byte) (off et : Nat) : Nat := if et = 0x0800 then recNum f (off + 9) 1 else recNum f (off + 6) 1

/-- A frame with its IPv4 header checksum inserted. -/
def withIpSum (f : List Byte) : List Byte :=
  let (_, _, et, off) := ethHead f
  if et ≠ 0x0800 then f
  else
    let n := recNum f off 1 % 16 * 4
    let z := overlay f (off + 10) [0, 0]
    overlay z (off + 10) (beBytes 2 (inetSum ((z.drop off).take n)))

/-- A frame with its TCP or UDP checksum inserted; `l4` is the offset of that header. -/
def withL4Sum (f : List Byte) (l4 : Nat) : List Byte :=
  let (_, _, et, off) := ethHead f
  let proto := protoOf f off et
  let at_ := if proto = 6 then l4 + 16 else l4 + 6
  if (et ≠ 0x0800 ∧ et ≠ 0x86DD) ∨ (proto ≠ 6 ∧ proto ≠ 17) then f
  else
    let z := overlay f at_ [0, 0]
    let sum := inetSum (pseudo f off et proto (f.length - l4) ++ z.drop l4)
    overlay z at_ (beBytes 2 (if proto = 17 ∧ sum = 0 then 65535 else sum))

/-- The segments of a frame, of `mss` payload bytes each: lengths, IPv4 identification and TCP sequence advance, and only the last
keeps FIN and PSH (R391 names segmentation and gives no header rules: PRESUMED from TCP and UDP practice, log entry 20). -/
def segments (f : List Byte) (l4 mss : Nat) : List (List Byte) :=
  let (_, _, et, off) := ethHead f
  let proto := protoOf f off et
  let hl := if proto = 6 then recNum f (l4 + 12) 1 / 16 * 4 else 8
  let head := f.take (l4 + hl)
  let body := f.drop (l4 + hl)
  let parts := (List.range ((body.length + mss - 1) / mss)).map fun i => (body.drop (i * mss)).take mss
  (List.range parts.length).map fun i =>
    let p := parts.getD i []
    let h := head
    let total := h.length - off + p.length
    let h := if et = 0x0800 then overlay (overlay h (off + 2) (beBytes 2 total)) (off + 4) (beBytes 2 (recNum f (off + 4) 2 + i))
      else overlay h (off + 4) (beBytes 2 (total - 40))
    let h := if proto = 6 then
        let h := overlay h (l4 + 4) (beBytes 4 (recNum f (l4 + 4) 4 + i * mss))
        if i + 1 = parts.length then h else overlay h (l4 + 13) (beBytes 1 (recNum f (l4 + 13) 1 &&& 0xF6))
      else overlay h (l4 + 4) (beBytes 2 (8 + p.length))
    h ++ p

/-- The frames that a transmit transfer puts on the lane (R391 TXOPT, TXMSS). -/
def offload (f : List Byte) (opt mss : Half) : List (List Byte) :=
  let l4 := hfield opt 8 15
  let fs := if hfield opt 2 2 = 1 ∧ mss ≠ 0 then segments f l4 mss.toNat else [f]
  fs.map fun g =>
    let g := if hfield opt 0 0 = 1 then withIpSum g else g
    if hfield opt 1 1 = 1 then withL4Sum g l4 else g

/-! ### Transfers -/

/-- The hint that a transfer applies to its lines (R240, R369). -/
def State.dmaHint (s : State) (h : Nat) (d : Dma) : Nat → Option HintTarget :=
  if hfield d.ctl 13 13 = 1 then s.hintAt (s.exch (exKey (h / 32) (s.hauler h).xsel)).hint else fun _ => none

/-- Count the words that a transfer moved. How many of its accesses the processor has deferred is a matter of cycles: a free value (R366;
log entry 117). -/
def State.countWords (s : State) (h n : Nat) : State :=
  let f := (s.bump (uHauler h) Reg.PIT_DMA.WORDS (n / 2)).freeValue
  f.1.count (uHauler h) Reg.PIT_DMA.DEFERRED (f.2.toNat % (n / 2 + 1))

/-- A transfer into the pit. -/
def State.dmaIn (s : State) (h c : Nat) (d : Dma) : State :=
  let tag := s.dmaTag h d
  let put (s : State) (l : List Byte) : State := ((s.putPitBytes h d.dst l).countWords h l.length).dmaEnd h c 0
  match hfield d.ctl 4 7 with
  | 1 =>
    let r := s.agentRead tag d.src d.len
    if r.2.2 = .done then put r.1 r.2.1 else (r.1.agentFault tag r.2.2).dmaEnd h c 1
  | 3 =>
    match (s.hauler h).taken with
    | none => s.dmaEnd h c 1
    | some t =>
      let x := s.hauler h
      let s := if t.bytes.length ≤ d.len then s.setHauler h { x with taken := none }
        else s.setHauler h { x with taken := some { t with bytes := t.bytes.drop d.len } }
      let l := t.bytes.take d.len
      put s (padTo ((l.length + 1) / 2 * 2) l)
  | _ => if d.src + d.len ≤ 2 ^ 26 then put s ((List.range d.len).map fun i => s.journalByte (d.src + i)) else s.dmaEnd h c 1

/-- A transfer out of the pit. -/
def State.dmaOut (s : State) (h c : Nat) (d : Dma) : State :=
  let tag := s.dmaTag h d
  match (List.range (d.len / 2)).find? fun i => s.pitIsBad h (d.src + i) with
  | some i => (s.pitError h ((d.src + i) % 65536)).dmaEnd h c 1
  | none =>
    let l := s.pitBytes h d.src d.len
    match hfield d.ctl 8 11 with
    | 1 =>
      let r := s.agentWrite tag d.dst l (s.dmaHint h d)
      if r.2 = .done then (r.1.countWords h d.len).dmaEnd h c 0 else (r.1.agentFault tag r.2).dmaEnd h c 1
    | 2 =>
      let x := s.hauler h
      let lane := h / 32 * 64 + d.dst / 256 % 64
      let s : State := { s with outbox := s.outbox ++ (offload l x.txopt x.txmss).map fun f => Out.frame lane (withFcs f) }
      (s.countWords h d.len).dmaEnd h c 0
    | _ =>
      if d.dst + d.len ≤ 2 ^ 26 then
        let s := State.each (List.range 2) (fun b s =>
          if s.bankAvail b then
            State.each (List.range d.len) (fun i s => { s with jdata := s.jdata.put 0 (b * 2 ^ 26 + d.dst + i) (l.getD i 0) }) s
          else s) s
        (s.countWords h d.len).dmaEnd h c 0
      else s.dmaEnd h c 1

/-- Abort every DMA channel of a hauler (R365, R373). -/
def State.dmaAbort (s : State) (h : Nat) : State :=
  State.each (List.range 16) (fun c s => if ((s.hauler h).dmaAt c).busy then s.dmaEnd h c 2 else s) s

/-- OUTBOUND_DONE (R391): an outbound access completes with a result, and for a read with data. -/
def onOutboundDone (h : Fin 64) (result : Fin 3) (data : Word) (s : State) : State :=
  let x := s.hauler h.val
  if hfield x.obctl 1 1 = 0 then s
  else
    let read := hfield x.obctl 2 3 % 2 == 1
    let data := if hfield x.obctl 4 4 = 1 then data else data &&& 0xFFFFFFFF#64
    s.setHauler h.val
      { x with obctl := (x.obctl &&& ~~~(hbit 1 ||| hbit 6 ||| hbit 7)) ||| BitVec.ofNat 16 (result.val * 256),
               obdata := if read ∧ result.val = 0 then data else x.obdata }

/-- TIMER_COMPARE (R368): TIMER has reached TCMP. -/
def onTimerCompare (h : Fin 64) (s : State) : State :=
  let x := s.hauler h.val
  if x.tcmp ≤ s.timer h.val then s.setHauler h.val { x with evtMisc := x.evtMisc ||| hbit 3 } else s

/-! ### The commands as the queue gives them -/

def execOutboundDone (h : Fin 64) (result : Fin 3) (data : Word) (s : State) : Answer := s.run (onOutboundDone h result data)
def execTimerCompare (h : Fin 64) (s : State) : Answer := s.run (onTimerCompare h)

end Sys2Proof.Machine
end

