-- ==== Sys2Proof/Machine/Foreman.lean ====
section
/-! DEFINITION. The Foreman's decisions (R228-R254): choice of seam, work unit and core, take-offs, reservations and hint targets,
parking and the cap on powered cores. -/

namespace Sys2Proof.Machine

/-- The near I/O die of a tile (R11). -/
def nearDieOf (t : Nat) : Nat := if t < 2 then 0 else 1

/-- STATE of a seam; seam 0 is always built (R255, R273). -/
def State.seamState (s : State) (n : Nat) : Nat := if n = 0 then 1 else s.rd uSeamCtl (Reg.SEAM_STATE.STATE.ix n)

/-- Is the seam sealed (R264)? -/
def State.sealed (s : State) (n : Nat) : Bool := n != 0 && s.flag uSeamCtl (Reg.SEAM_STATE.SEALED.ix n)

/-- A core that runs work: ROLE active or active under watch. -/
def CoreSt.active (c : CoreSt) : Bool := c.role == .active || c.role == .watch

/-! ### Power limits (R244-R247) -/

def allCores : List Nat := List.range 48

/-- Is the core clock-gated or running? -/
def State.coreOnPower (s : State) (k : Nat) : Bool :=
  let p := (s.unit (uCore k)).power
  p == .run || p == .gated

/-- POWERED: cores gated or running (R253). -/
def State.poweredCores (s : State) : Nat := (allCores.filter s.coreOnPower).length

/-- CAP (R245). -/
def State.capNow (s : State) : Nat :=
  min (s.power.pCore / 16)
    (if s.power.envelope = 2 then 4 else (allCores.filter fun k => (s.core k).active).length)

def State.seamMin (s : State) (n : Nat) : Nat := s.rd uForeman (Reg.FMN_SEAM_ALLOT.MIN.ix n)
def State.seamMax (s : State) (n : Nat) : Nat := s.rd uForeman (Reg.FMN_SEAM_ALLOT.MAX.ix n)
def State.seamRank (s : State) (n : Nat) : Nat := s.rd uForeman (Reg.FMN_SEAM_ALLOT.RANK.ix n)

def allSeams : List Nat := List.range 64

/-- The seam of the work unit that a core holds. -/
def State.coreSeam (s : State) (k : Nat) : Option Nat := (s.core k).wu.map fun n => (s.work n).seam

/-- The cores held for each sealed seam (R247): those that run its work units, then the lowest-numbered active ones that run nothing and
are not held for a lower-numbered seam, up to MIN (log entry 22). -/
def State.heldCores (s : State) : List (Nat × Nat) :=
  (allSeams.filter s.sealed).foldl (fun acc n =>
    let own := allCores.filter fun k => s.coreSeam k == some n
    let idle := allCores.filter fun k =>
      (s.core k).active && (s.core k).wu.isNone && !(s.unit (uCore k)).fenced && !(acc.any fun e => e.2 == k)
    acc ++ (own ++ idle.take (s.seamMin n - own.length)).map fun k => (n, k)) []

/-- The seam for which a core is held. -/
def State.heldFor (s : State) (k : Nat) : Option Nat := (s.heldCores.find? fun e => e.2 == k).map Prod.fst

/-! ### Eligible cores (R235) -/

/-- May the power of a core that is off rise within CAP, and within the budget of a sealed seam (R235, R247)? -/
def State.mayWake (s : State) (n : Nat) : Bool :=
  decide (s.poweredCores < s.capNow) &&
    (!s.sealed n ||
      decide (16 * (((s.heldCores.filter fun e => e.1 == n).filter fun e => s.coreOnPower e.2).length + 1)
        ≤ s.rd uForeman (Reg.FMN_SEAM_POWER.BUDGET_W.ix n)))

/-- Is the core the source of a ROTATE, off which the Foreman moves every work unit (R209)? -/
def State.rotating (s : State) (k : Nat) : Bool :=
  match s.ckwRuns.look none (k / 12) with
  | some r => r.op == 2 && r.src == k % 12
  | none => false

/-- Is core `k` eligible for a work unit of seam `n`, reservations apart (R235)? -/
def State.eligible (s : State) (n k : Nat) : Bool :=
  let c := s.core k
  let u := s.unit (uCore k)
  let t := s.unit (uTile (k / 12))
  c.active && c.wu.isNone && !s.rotating k && !s.marchHolds (k / 24) 3 k && c.takeoff.isNone
    && (!s.loadDue k || (s.unit (uCore k)).power == .off) && !s.bitOf uForeman Reg.FMN_HOLD.HOLD k
    && (s.rd (uCore k) Reg.L2_LOCK.LOCKED == 0 || s.rd (uCore k) Reg.L2_LOCK.OWNER == n)
    && (match s.heldFor k with
        | some m => m == n
        | none => !s.sealed n)
    && (!s.flag (uCore k) Reg.UNIT_POWER.PIN || s.rd (uCore k) Reg.UNIT_POWER.REQ == 0)
    && !u.fenced && !u.resetting && u.transition.isNone && !t.fenced && !t.resetting && t.transition.isNone && t.power != .off
    && (t.power != .retention || !s.flag (uTile (k / 12)) Reg.UNIT_POWER.PIN)
    && (s.coreOnPower k || s.mayWake n)

/-- The work unit for which core `k` is reserved (R239). A core that has failed keeps what it was reserved for until the next decision makes
the reservation again (R237). -/
def State.reservedFor (s : State) (k : Nat) : Option Nat := if (s.core k).active then (s.core k).reserved.map Prod.fst else none

/-- The eligible cores for a work unit: those reserved for another only when there is no other (R239). -/
def State.candidates (s : State) (num : Nat) : List Nat :=
  let l := allCores.filter (s.eligible (s.work num).seam)
  let free := l.filter fun k => s.reservedFor k == none || s.reservedFor k == some num
  if free.isEmpty then l else free

/-! ### Scores (R235) -/

/-- The footprint of a work unit in a core's L2. -/
def State.foot (s : State) (k num : Nat) : Nat :=
  match (s.core k).recent.find? fun e => e.1 == num with
  | some (_, n) => if n = 0 then 0 else min 15 (ilog2 n + 1)
  | none => 0

/-- The group tile of a work unit. -/
def State.groupTile (s : State) (num : Nat) : Option Nat :=
  let w := s.work num
  if w.group = 0 then none
  else
    let count (t : Nat) : Nat := (s.wus.filter fun e => match e.2.run with
      | .running k => k / 12 == t && e.2.seam == w.seam && e.2.group == w.group
      | _ => false).length
    if (List.range 4).all fun t => count t == 0 then none
    else bestBy (fun a b => decide (count b < count a)) (List.range 4)

/-- The score of a core for a work unit, with the die that the decision's cause names. -/
def State.score (s : State) (num : Nat) (die : Option Nat) (k : Nat) : Nat :=
  let g := if s.groupTile num = some (k / 12) then 1 else 0
  let n := if die = some (nearDieOf (k / 12)) then 1 else 0
  let p := if s.coreOnPower k then 15 else if (s.unit (uTile (k / 12))).power = .retention then 0 else 4
  s.rd uForeman Reg.FMN_WEIGHT.W_FOOT * s.foot k num + s.rd uForeman Reg.FMN_WEIGHT.W_GROUP * 15 * g
    + s.rd uForeman Reg.FMN_WEIGHT.W_NEAR * 15 * n + s.rd uForeman Reg.FMN_WEIGHT.W_POWER * p

/-- The core that the Foreman chooses among candidates: the highest score, the lowest instance among equals. -/
def State.chooseCore (s : State) (num : Nat) (die : Option Nat) : Option Nat :=
  bestBy (fun a b => decide (s.score num die b < s.score num die a)) (s.candidates num)

/-! ### Seams and work units (R233, R234) -/

/-- Does a seam take part in dispatching (R233, R255)? -/
def State.takesPart (s : State) (n : Nat) : Bool := s.seamMax n != 0 && s.seamState n == 1

/-- Ready work units of a seam. -/
def State.readyOf (s : State) (n : Nat) : List (Nat × WorkUnit) := s.wus.filter fun e => e.2.run == .ready && e.2.seam == n

/-- The seam that the Foreman chooses (R234, R247). -/
def State.chooseSeam (s : State) : Option Nat :=
  let c := allSeams.filter fun n =>
    s.takesPart n && !(s.readyOf n).isEmpty && decide (s.runningOf n < s.seamMax n)
      && (!s.sealed n || decide (s.runningOf n < s.seamMin n)) && allCores.any (s.eligible n)
  let a := c.filter fun n => decide (s.runningOf n < s.seamMin n)
  let share (n : Nat) : Nat := max 1 (s.rd uForeman (Reg.FMN_SEAM_ALLOT.SHARE.ix n))
  let key (n : Nat) : Nat := s.runningOf n * 256 / share n
  if a.isEmpty then
    bestBy (fun x y => decide (key x < key y) || (key x == key y && decide (s.seamRank x < s.seamRank y))) c
  else bestBy (fun x y => decide (s.seamRank x < s.seamRank y)) a

/-- The head of the lowest-numbered non-empty ready ring of a seam: priority, work unit and ring position. -/
def State.chooseUnit (s : State) (n : Nat) : Option (Nat × Nat × Option Nat) :=
  (List.range 8).findSome? fun p => (s.ring n p).units.head?.map fun e => (p, e.1, e.2)

/-- The Foreman takes the head of a ring: later held entries get their places (R236). -/
def State.takeHead (s : State) (n p : Nat) (pos : Option Nat) : State :=
  let r := s.ring n p
  let k := s.ringK n p
  let s := s.setRing n p { r with units := r.units.drop 1,
                                   cons := match pos with | some q => if k = 0 then r.cons else (q + 1) % 2 ^ k | none => r.cons }
  s.placeHeld n p

/-- Does the ring entry in memory agree with the live table (R232)? -/
def State.entryGood (s : State) (n p num : Nat) (pos : Option Nat) : State × Bool :=
  match pos with
  | none => (s, true)
  | some q =>
    if s.ringK n p = 0 then (s, true)
    else
      let r := s.agentRead n (s.ringAddr n p q) 8
      (r.1, r.2.2 == .done && r.2.1 == ringEntry num (s.work num).desc)

/-- Bytes 0x20-0x3D of a dispatch record (R249): foot of cores 0-47 and ELIGIBLE. -/
def State.dispatchData (s : State) (num : Nat) : List Byte :=
  let n := (s.work num).seam
  (List.range 24).map (fun i => BitVec.ofNat 8 (s.foot (2 * i) num * 16 + s.foot (2 * i + 1) num))
    ++ (List.range 6).map fun i => BitVec.ofNat 8 ((List.range 8).foldl (fun a j => 2 * a + (if s.eligible n (8 * i + j) then 1 else 0)) 0)

/-- A core is powered, its tile first, for a dispatch or a reservation (R244, R237). -/
def State.wakeCore (s : State) (k : Nat) (p : PowerState) : State :=
  let t := k / 12
  let s := if (s.unit (uTile t)).power = .retention then s.tileWake t else s
  if s.coreOnPower k then s else s.coreOn k p

/-- One placement decision (R233-R235): a seam, its next work unit and a core. -/
def State.place (s : State) (die : Option Nat) : State :=
  if !s.flag uForeman Reg.FMN_CTL.ENABLE ∨ !s.operates uForeman ∨ s.stopped then s
  else match s.chooseSeam with
    | none => s
    | some n => match s.chooseUnit n with
      | none => s
      | some (p, num, pos) =>
        match s.entryGood n p num pos with
        | (s, false) =>
          let s := (s.takeHead n p pos).stick uForeman Reg.FMN_ERR.QUEUE_ERR
          let s := s.tallyEvent (some uForeman) 0x0E 0x03 7 n
            (payload8 0 (beBytes 1 n ++ beBytes 1 p ++ wordBytes (workId n num)))
          s.endWork num 0x14
        | (s, true) => match s.chooseCore num die with
          | none => s
          | some k =>
            let gt := match s.groupTile num with | some t => t | none => 0xFF
            let nd := match die with | some d => d | none => 0xFF
            let s := s.trace 0x05 n p k gt nd (workId n num) (s.dispatchData num)
            let s := ((s.takeHead n p pos).lapse num).wakeCore k .gated
            (s.setCore k { s.core k with reserved := none }).dispatch k num

/-! ### Events (R233) -/

/-- The order of events that reach the Foreman in one cycle. A work unit's end follows the deadlines (log entry 23). -/
def FmnEvent.rank : FmnEvent → Nat × Nat
  | .failure k => (0, k) | .envelope => (1, 0) | .status n => (2, n) | .deadline n => (3, n) | .ended => (4, 0)
  | .wait k => (5, k) | .yield k => (6, k) | .enqw k => (7, k) | .policy => (8, 0) | .tick => (9, 0)

/-- The next event: the first kind in the order, then the lowest core, then the oldest. -/
def State.nextEvent (s : State) : Option FmnEvent :=
  bestBy (fun a b => decide (a.rank.1 < b.rank.1) || (a.rank.1 == b.rank.1 && decide (a.rank.2 < b.rank.2))) s.fmnEvents

/-! ### Take-offs (R236, R245, R252) -/

/-- A take-off with a reason is due at the core's next instruction boundary, unless one is due already. -/
def State.askOff (s : State) (k reason : Nat) : State :=
  let c := s.core k
  if c.wu.isSome ∧ c.takeoff.isNone then s.setCore k { c with takeoff := some reason } else s

/-- MIN of each seam that has work as far as CAP meets them, in ascending (RANK, seam) order (R246). -/
def State.dueMin (s : State) : List (Nat × Nat) :=
  let work := allSeams.filter fun n => s.takesPart n && s.wus.any fun e => e.2.seam == n && (match e.2.run with
    | .ready | .running _ => true | _ => false)
  let order := sortBy (fun a b => decide (s.seamRank a < s.seamRank b) || (s.seamRank a == s.seamRank b && decide (a ≤ b))) work
  (order.foldl (fun (a : List (Nat × Nat) × Nat) n =>
    let m := min (s.seamMin n) a.2
    (a.1 ++ [(n, m)], a.2 - m)) ([], s.capNow)).1

def State.dueOf (l : List (Nat × Nat)) (n : Nat) : Nat := match l.find? fun e => e.1 == n with | some e => e.2 | none => 0

/-- The running work units that no take-off awaits: number, work unit and core. -/
def State.running (s : State) : List (Nat × WorkUnit × Nat) :=
  s.wus.filterMap fun e => match e.2.run with
    | .running k => if (s.core k).takeoff.isNone then some (e.1, e.2, k) else none
    | _ => none

/-- The work unit of the highest-numbered priority, the longest running among equals. -/
def pickVictim (s : State) (l : List (Nat × WorkUnit × Nat)) : Option (Nat × WorkUnit × Nat) :=
  bestBy (fun a b => decide (b.2.1.prio < a.2.1.prio)
    || (a.2.1.prio == b.2.1.prio && decide ((s.core a.2.2).dispatchedAt < (s.core b.2.2).dispatchedAt))) l

/-- The take-off for a seam below MIN (R236): from the unsealed seam with the largest running minus MIN above what R246 leaves it. -/
def State.offForMin (s : State) (n : Nat) : State :=
  let due := s.dueMin
  if s.takesPart n && !(s.readyOf n).isEmpty && decide (s.runningOf n < State.dueOf due n) && !(allCores.any (s.eligible n)) then
    let from_ := allSeams.filter fun m => m != n && !s.sealed m && decide (State.dueOf due m < s.runningOf m)
      && s.running.any fun e => e.2.1.seam == m
    match bestBy (fun a b => decide (s.runningOf b + s.seamMin a < s.runningOf a + s.seamMin b)) from_ with
    | none => s
    | some m => match pickVictim s (s.running.filter fun e => e.2.1.seam == m) with
      | some e => s.askOff e.2.2 1
      | none => s
  else s

/-- The take-off within a seam at MAX (R236). -/
def State.offForPriority (s : State) (n : Nat) : State :=
  if s.takesPart n && decide (s.seamMax n ≤ s.runningOf n) then
    match (List.range 8).find? fun p => (s.readyOf n).any fun e => e.2.prio == p with
    | none => s
    | some p => match pickVictim s (s.running.filter fun e => e.2.1.seam == n && decide (p < e.2.1.prio)) with
      | some e => s.askOff e.2.2 2
      | none => s
  else s

/-- The take-offs for the time slice (R236). -/
def State.offForQuantum (s : State) : State :=
  let q := s.rd uForeman Reg.FMN_CTL.QUANTUM_US
  if q = 0 then s
  else State.each s.running (fun e s =>
    if 1000 * q ≤ s.now - (s.core e.2.2).dispatchedAt
        ∧ ((s.readyOf e.2.1.seam).any fun r => r.2.prio == e.2.1.prio) = true then s.askOff e.2.2 3 else s) s

/-- The waits with a deadline, in the order in which they began; those beyond 16,384 are checked at each tick (R238). -/
def State.deadlines (s : State) : List Nat :=
  (sortBy (fun a b => decide (a.2.since < b.2.since) || (a.2.since == b.2.since && decide (a.1 ≤ b.1)))
    (s.wus.filter fun e => e.2.run == .waiting && decide (2 ≤ e.2.waitKind))).map Prod.fst

/-- The deadlines beyond the table (FMN_LIVE SPILL). -/
def State.spilled (s : State) : List Nat := s.deadlines.drop 16384

/-! ### Parking (R244, R245) -/

/-- The Foreman powers a core off. -/
def State.parkCore (s : State) (k : Nat) : State :=
  (s.coreOff k).count uForeman Reg.FMN_COUNT2.PARKS

/-- May the Foreman change the power of a core: it holds no work unit, is not pinned, and no command of steward firmware runs on it? -/
def State.parkable (s : State) (k : Nat) : Bool :=
  let c := s.core k
  let u := s.unit (uCore k)
  c.wu.isNone && c.suspended.isNone && u.power == .gated && !u.fenced && !u.resetting && u.transition.isNone
    && !s.flag (uCore k) Reg.UNIT_POWER.PIN

/-- The gated cores that count toward SPARE_GATED for a core: those of its tile; for a core held for a sealed seam, those of its tile held
for that seam (R244, R247; log entry 22). -/
def State.spareGated (s : State) (k : Nat) : Nat :=
  (allCores.filter fun j => j / 12 == k / 12 && (s.unit (uCore j)).power == .gated
    && ((s.heldFor k).isNone || s.heldFor j == s.heldFor k)).length

/-- A gated core that got no dispatch for OFF_US is powered off, unless its tile would keep fewer than SPARE_GATED gated cores. A core held
for a sealed seam stays while that seam's rings hold work (R247). -/
def State.corePark (s : State) (k : Nat) : State :=
  let gated := s.spareGated k
  let wanted := match s.heldFor k with | some n => !(s.readyOf n).isEmpty | none => false
  if s.operates uForeman ∧ s.parkable k = true ∧ (s.core k).reserved = none
      ∧ 1000 * s.rd uForeman Reg.FMN_PARK.OFF_US ≤ s.now - (s.core k).idleSince
      ∧ s.rd uForeman Reg.FMN_PARK.SPARE_GATED < gated ∧ wanted = false then s.parkCore k
  else s

/-- A tile whose cores have all been off for RET_MS enters retention. `idleSince` of a core that is off is the time at which it went off. -/
def State.tileRetention (s : State) (t : Nat) : State :=
  let u := s.unit (uTile t)
  let cores := allCores.filter fun k => k / 12 == t
  if s.operates uForeman ∧ u.power = .run ∧ !u.fenced ∧ !u.resetting ∧ !s.flag (uTile t) Reg.UNIT_POWER.PIN
      ∧ (cores.all fun k => (s.unit (uCore k)).power == .off
          && decide (1000000 * s.rd uForeman Reg.FMN_PARK.RET_MS ≤ s.now - (s.core k).idleSince)) = true then
    s.tileRetain t
  else s

/-- Gated cores go off, the highest instance first, until POWERED is CAP (R245). -/
def State.capGated (s : State) : State :=
  State.each allCores.reverse (fun k s =>
    if s.capNow < s.poweredCores ∧ s.parkable k = true then
      (s.setCore k { s.core k with reserved := none }).parkCore k else s) s

/-- Cores that run work beyond CAP lose it: seams in descending RANK, the lowest priority and then the highest core first (R245). -/
def State.capBusy (s : State) : State :=
  let l := s.running.filter fun e => !s.flag (uCore e.2.2) Reg.UNIT_POWER.PIN
  let order := sortBy (fun a b =>
    let ra := s.seamRank a.2.1.seam
    let rb := s.seamRank b.2.1.seam
    decide (rb < ra) || (ra == rb && (decide (b.2.1.prio < a.2.1.prio) || (a.2.1.prio == b.2.1.prio && decide (b.2.2 ≤ a.2.2))))) l
  let already := (allCores.filter fun k => (s.core k).takeoff == some 4).length
  State.each (order.take (s.poweredCores - s.capNow - already)) (fun e s => s.askOff e.2.2 4) s

/-- The sum of MIN over the seams that have work exceeds CAP (R246). -/
def State.envShort (s : State) : State :=
  let work := s.dueMin.map Prod.fst
  let sum := work.foldl (fun a n => a + s.seamMin n) 0
  if s.capNow < sum ∧ !s.flag uForeman Reg.FMN_ERR.ENV_SHORT then
    (s.stick uForeman Reg.FMN_ERR.ENV_SHORT).tallyEvent (some uForeman) 0x0E 0x01 7 0xFF
      (payload8 0 (beBytes 1 s.capNow ++ beBytes 4 sum))
  else s

/-- The Foreman brings the powered cores down to CAP (R245, R246). -/
def State.applyCap (s : State) : State :=
  if !s.operates uForeman then { s with capPowered := s.capNow }
  else
    let s := ({ s with capPowered := s.capNow } : State).capGated
    s.capBusy.envShort

/-! ### FMN_EVICT and held power requests (R41, R252) -/

/-- FMN_EVICT ends once its core holds neither a work unit nor a reservation. -/
def State.evictCheck (s : State) : State :=
  match s.evict with
  | some k =>
    if (s.core k).wu.isNone ∧ (s.core k).reserved = none then
      ({ s with evict := none } : State).wr uForeman Reg.FMN_EVICT.RESULT 1
    else s
  | none => s

/-- A power request for a core that held a work unit is carried out once it holds none (R41). -/
def State.carryReq (s : State) (k : Nat) : State :=
  if (s.core k).wu.isSome ∨ !s.flag (uCore k) Reg.UNIT_POWER.PIN then s
  else match s.rd (uCore k) Reg.UNIT_POWER.REQ, (s.unit (uCore k)).power with
    | 1, .run => s.setPower (uCore k) .gated
    | 2, .run => s.setUnit (uCore k) { s.unit (uCore k) with transition := some (.off, s.now) }
    | 2, .gated => s.setUnit (uCore k) { s.unit (uCore k) with transition := some (.off, s.now) }
    | _, _ => s

/-- What follows when a core has given up its work unit: a held power request, the end of FMN_EVICT, and the cap on powered cores (R245). -/
def State.coreFreed (s : State) (k : Nat) : State :=
  let s := (s.carryReq k).evictCheck
  if s.capNow < s.poweredCores ∧ s.parkable k = true then s.parkCore k else s

/-- The take-off due on a core is performed (R236). A core that no longer holds a work unit has none due. -/
def State.performTakeOff (s : State) (k : Nat) : State :=
  match (s.core k).takeoff with
  | none => s
  | some reason =>
    let r := s.takeOff k reason
    (r.1.losses r.2).coreFreed k

/-! ### Reservations and hints (R239, R240) -/

/-- Reserved cores of a seam. -/
def State.reservedOf (s : State) (n : Nat) : Nat :=
  (allCores.filter fun k => match s.reservedFor k with | some num => (s.work num).seam == n | none => false).length

/-- A core is reserved for a work unit that waits on a subchannel: it is held clock-gated and takes the state area's lines (R239). -/
def State.reserve (s : State) (num sch : Nat) (die : Option Nat) : State :=
  let w := s.work num
  if !s.flag uForeman Reg.FMN_CTL.ENABLE ∨ !s.operates uForeman ∨ s.seamMax w.seam ≤ s.runningOf w.seam + s.reservedOf w.seam then s
  else
    let free := (allCores.filter (s.eligible w.seam)).filter fun k => s.reservedFor k == none
    match bestBy (fun a b => decide (s.score num die b < s.score num die a)) free with
    | none => s
    | some k =>
      let s := s.wakeCore k .gated
      let s := s.setCore k { s.core k with reserved := some (num, sch) }
      State.each (List.range 8) (fun i s =>
        match s.mapAbs w.seam (w.area + 128 * i) with
        | .ok phys => match s.getShared k (phys / 128) w.seam false false with
          | .ok s _ => s
          | _ => s
        | _ => s) s

/-- The hint target of an exchange of a work unit (R240): its reserved core's L2, else the L3 of the tile that R235 would choose. -/
def State.hintFor (s : State) (num : Nat) (die : Option Nat) : Option HintTarget :=
  let w := s.work num
  if !s.flag uForeman Reg.FMN_HINT.HINT_EN ∨ w.noHint = true ∨ s.flag uForeman (Reg.FMN_SEAM_ALLOT.HINT_OFF.ix w.seam) then none
  else match allCores.find? fun k => s.reservedFor k == some num with
    | some k => some (.l2 k)
    | none => (s.chooseCore num die).map fun k => .l3 (k / 12)

/-- The trace record of a hint target (R249). -/
def State.traceHint (s : State) (num sch : Nat) (h : Option HintTarget) : State :=
  match h with
  | none => s
  | some t => s.traceWork 0x0F num 0xFF (beBytes 4 sch ++ (match t with | .l2 k => beBytes 1 k | .l3 t => beBytes 1 t))

/-- The I/O die of the first lane of a subchannel's path group (R239). -/
def State.schDie (s : State) (seam sch : Nat) : Option Nat :=
  match (s.schOf seam sch).2 with
  | some r => some (pathLane (recPath r 0) / 64)
  | none => none

/-- A core is reserved for a waiting work unit, and its exchange takes the new hint target (R239, R240). -/
def State.reserveFor (s : State) (num sch : Nat) : State :=
  let die := s.schDie (s.work num).seam sch
  let s := s.reserve num sch die
  if allCores.any fun j => s.reservedFor j == some num then
    let hint := s.hintFor num die
    match s.exOf sch with
    | some key => (s.setExch key { s.exch key with hint := hint }).traceHint num sch hint
    | none => s
  else s

/-- The reservations of cores that have failed are made again (R237). -/
def State.reserveAgain (s : State) : State :=
  State.each allCores (fun k s =>
    match (s.core k).reserved with
    | some (num, sch) =>
      if (s.core k).active then s
      else
        let s := s.setCore k { s.core k with reserved := none }
        if (s.work num).run = .waiting then s.reserveFor num sch else s
    | none => s) s

/-! ### Decisions (R233) -/

/-- The Foreman makes the decision of its next event (R233). -/
def State.foremanDecision (s : State) : State :=
  if !s.operates uForeman then s
  else match s.nextEvent with
    | none => s
    | some e =>
      let die := match e with | .status n => (s.work n).nearDie | _ => none
      ({ s with fmnEvents := s.fmnEvents.erase e } : State).reserveAgain.envShort.place die

/-- A tick (R233, R236, R238). -/
def State.foremanTick (s : State) : State :=
  if !s.operates uForeman then s
  else
    let s := State.each (s.spilled.filter fun n => decide ((s.work n).waitUntil ≤ s.timeBase)) (fun n s => s.endWait n 1 none) s
    let s := s.endDeadWaits
    let s := if s.flag uForeman Reg.FMN_CTL.ENABLE ∧ !s.stopped then
        (State.each allSeams (fun n s => (s.offForMin n).offForPriority n) s).offForQuantum
      else s
    s.reserveAgain.envShort.place none

end Sys2Proof.Machine
end

