-- ==== Sys2Proof/Machine/Sign.lean ====
section
/-! DEFINITION. The signatures of the cipher engines, the patch loader, the boot ROM and the attestation signer (R416, R220, R425, R444):
ECDSA on P-256 and P-384 (FIPS 186) with the nonce of RFC 6979, Ed25519 of RFC 8032, and RSA verification of RFC 8017. -/

namespace Sys2Proof.Machine

/-- Modular exponentiation over the bits of the exponent, the highest first, in `bits` steps. -/
def modPow (b e m bits : Nat) : Nat :=
  (List.range bits).foldl (fun a i =>
    let a := a * a % m
    if e.testBit (bits - 1 - i) then a * b % m else a) (1 % m)

/-- The inverse modulo a prime. -/
def modInv (x p bits : Nat) : Nat := modPow (x % p) (p - 2) p bits

/-! ### ECDSA -/

/-- A prime curve y^2 = x^3 - 3x + b (FIPS 186), its order, base point and size in bytes. -/
structure Curve where
  p : Nat
  b : Nat
  n : Nat
  gx : Nat
  gy : Nat
  size : Nat
  deriving DecidableEq, Repr

/-- The curve P-256. -/
def p256 : Curve where
  p := 0xFFFFFFFF00000001000000000000000000000000FFFFFFFFFFFFFFFFFFFFFFFF
  b := 0x5AC635D8AA3A93E7B3EBBD55769886BC651D06B0CC53B0F63BCE3C3E27D2604B
  n := 0xFFFFFFFF00000000FFFFFFFFFFFFFFFFBCE6FAADA7179E84F3B9CAC2FC632551
  gx := 0x6B17D1F2E12C4247F8BCE6E563A440F277037D812DEB33A0F4A13945D898C296
  gy := 0x4FE342E2FE1A7F9B8EE7EB4A7C0F9E162BCE33576B315ECECBB6406837BF51F5
  size := 32

/-- The curve P-384. -/
def p384 : Curve where
  p := 0xFFFFFFFFFFFFFFFFFFFFFFFFFFFFFFFFFFFFFFFFFFFFFFFFFFFFFFFFFFFFFFFEFFFFFFFF0000000000000000FFFFFFFF
  b := 0xB3312FA7E23EE7E4988E056BE3F82D19181D9C6EFE8141120314088F5013875AC656398D8A2ED19D2A85C8EDD3EC2AEF
  n := 0xFFFFFFFFFFFFFFFFFFFFFFFFFFFFFFFFFFFFFFFFFFFFFFFFC7634D81F4372DDF581A0DB248B0A77AECEC196ACCC52973
  gx := 0xAA87CA22BE8B05378EB1C71EF320AD746E1D3B628BA79B9859F741E082542A385502F25DBF55296C3A545E3872760AB7
  gy := 0x3617DE4A96262C6F5D9E98BF9292DC29F8F41DBD289A147CE9DA3113B5F0B8C00A60B1CE1D7E819D7A431D7C90EA0E5F
  size := 48

/-- A point in Jacobian coordinates; z = 0 is the point at infinity. -/
structure Jac where
  x : Nat
  y : Nat
  z : Nat
  deriving DecidableEq, Repr

/-- Doubling, for a = -3. -/
def Curve.double (c : Curve) (q : Jac) : Jac :=
  let p := c.p
  if q.z = 0 ∨ q.y = 0 then ⟨1, 1, 0⟩
  else
    let z2 := q.z * q.z % p
    let m := 3 * ((q.x + z2) % p) % p * ((q.x + p - z2) % p) % p
    let y2 := q.y * q.y % p
    let t := 4 * q.x * y2 % p
    let x3 := (m * m + 2 * p - 2 * t % p) % p
    let y3 := (m * ((t + p - x3) % p) + p - 8 * (y2 * y2 % p) % p) % p
    ⟨x3, y3, 2 * q.y * q.z % p⟩

/-- Addition. -/
def Curve.add (c : Curve) (a b : Jac) : Jac :=
  let p := c.p
  if a.z = 0 then b
  else if b.z = 0 then a
  else
    let z1 := a.z * a.z % p
    let z2 := b.z * b.z % p
    let u1 := a.x * z2 % p
    let u2 := b.x * z1 % p
    let s1 := a.y * b.z % p * z2 % p
    let s2 := b.y * a.z % p * z1 % p
    if u1 = u2 then (if s1 = s2 then c.double a else ⟨1, 1, 0⟩)
    else
      let h := (u2 + p - u1) % p
      let r := (s2 + p - s1) % p
      let h2 := h * h % p
      let h3 := h * h2 % p
      let v := u1 * h2 % p
      let x3 := (r * r + 3 * p - h3 - 2 * v % p) % p
      let y3 := (r * ((v + p - x3) % p) + p - s1 * h3 % p) % p
      ⟨x3, y3, h * a.z % p * b.z % p⟩

/-- A multiple of a point. -/
def Curve.mul (c : Curve) (k : Nat) (q : Jac) : Jac :=
  let bits := 8 * c.size
  (List.range bits).foldl (fun a i =>
    let a := c.double a
    if k.testBit (bits - 1 - i) then c.add a q else a) ⟨1, 1, 0⟩

/-- The affine x coordinate of a point that is not at infinity. -/
def Curve.affineX (c : Curve) (q : Jac) : Nat :=
  let zi := modInv q.z c.p (8 * c.size)
  q.x * (zi * zi % c.p) % c.p

/-- The affine y coordinate of a point that is not at infinity. -/
def Curve.affineY (c : Curve) (q : Jac) : Nat :=
  let zi := modInv q.z c.p (8 * c.size)
  q.y * (zi * zi % c.p * zi % c.p) % c.p

def Curve.base (c : Curve) : Jac := ⟨c.gx, c.gy, 1⟩

/-- Is an affine point on the curve? -/
def Curve.onCurve (c : Curve) (x y : Nat) : Bool :=
  decide (x < c.p) && decide (y < c.p) && (y * y + 3 * x) % c.p == (x * x * x + c.b) % c.p

/-- The number that ECDSA takes from a digest: its leftmost bits, as many as the order has. -/
def Curve.hashNum (c : Curve) (h : List Byte) : Nat := bytesNat (h.take c.size)

/-- The hash and its block size that RFC 6979 uses with a curve. -/
def Curve.mac (c : Curve) (k m : List Byte) : List Byte :=
  if c.size = 32 then hmac sha256 64 k m else hmac sha384 128 k m

/-- Try nonces of RFC 6979 until one gives a signature; `fuel` bounds the tries. -/
def Curve.tryNonce (c : Curve) (d e : Nat) : Nat → List Byte → List Byte → Option (Nat × Nat)
  | 0, _, _ => none
  | fuel + 1, k, v =>
    let v := c.mac k v
    let t := bytesNat v
    let again : Option (Nat × Nat) :=
      let k' := c.mac k (v ++ [0])
      c.tryNonce d e fuel k' (c.mac k' v)
    if t = 0 ∨ c.n ≤ t then again
    else
      let r := c.affineX (c.mul t c.base) % c.n
      let s := modInv t c.n (8 * c.size) * ((e + r * d) % c.n) % c.n
      if r = 0 ∨ s = 0 then again else some (r, s)

/-- An ECDSA signature over a digest with the nonce of RFC 6979. -/
def Curve.sign (c : Curve) (d : Nat) (digest : List Byte) : Option (Nat × Nat) :=
  let h := digest.take c.size
  let e := c.hashNum digest
  let x := natBytes c.size d ++ natBytes c.size (e % c.n)
  let v0 := List.replicate h.length (1 : Byte)
  let k1 := c.mac (List.replicate h.length 0) (v0 ++ [0] ++ x)
  let v1 := c.mac k1 v0
  let k2 := c.mac k1 (v1 ++ [1] ++ x)
  c.tryNonce d (e % c.n) 16 k2 (c.mac k2 v1)

/-- ECDSA verification. -/
def Curve.verify (c : Curve) (qx qy : Nat) (digest : List Byte) (r s : Nat) : Bool :=
  if r = 0 ∨ c.n ≤ r ∨ s = 0 ∨ c.n ≤ s then false
  else
    let w := modInv s c.n (8 * c.size)
    let u1 := c.hashNum digest * w % c.n
    let u2 := r * w % c.n
    let q := c.add (c.mul u1 c.base) (c.mul u2 ⟨qx, qy, 1⟩)
    q.z != 0 && c.affineX q % c.n == r

/-! ### Ed25519 -/

def edP : Nat := 2 ^ 255 - 19
def edL : Nat := 0x1000000000000000000000000000000014DEF9DEA2F79CD65812631A5CF5D3ED
def edD : Nat := 0x52036CEE2B6FFE738CC740797779E89800700A4D4141D8AB75EB4DCA135978A3
def edI : Nat := 0x2B8324804FC1DF0B2B4D00993DFBD7A72F431806AD2FE478C4EE1B274A0EA0B0
def edGx : Nat := 0x216936D3CD6E53FEC0A4E231FDD6DC5C692CC7609525A7B2C9562D608F25D51A
def edGy : Nat := 0x6666666666666666666666666666666666666666666666666666666666666658

/-- Points of edwards25519 in extended homogeneous coordinates (RFC 8032). -/
structure Ed where
  x : Nat
  y : Nat
  z : Nat
  t : Nat
  deriving DecidableEq, Repr

def edAdd (a b : Ed) : Ed :=
  let p := edP
  let aa := (a.y + p - a.x) * (b.y + p - b.x) % p
  let bb := (a.y + a.x) * (b.y + b.x) % p
  let cc := 2 * a.t * b.t % p * edD % p
  let dd := 2 * a.z * b.z % p
  let e := (bb + p - aa) % p
  let f := (dd + p - cc) % p
  let g := (dd + cc) % p
  let h := (bb + aa) % p
  ⟨e * f % p, g * h % p, f * g % p, e * h % p⟩

def edMul (k : Nat) (q : Ed) : Ed :=
  (List.range 256).foldl (fun a i =>
    let a := edAdd a a
    if k.testBit (255 - i) then edAdd a q else a) ⟨0, 1, 1, 0⟩

def edBase : Ed := ⟨edGx, edGy, 1, edGx * edGy % edP⟩

def leNat (l : List Byte) : Nat := bytesNat l.reverse
def leBytes (n v : Nat) : List Byte := (natBytes n v).reverse

def edEncode (q : Ed) : List Byte :=
  let zi := modInv q.z edP 255
  let x := q.x * zi % edP
  let y := q.y * zi % edP
  leBytes 32 (y + x % 2 * 2 ^ 255)

/-- A point from its encoding, if it is one. -/
def edDecode (l : List Byte) : Option Ed :=
  let v := leNat l
  let y := v % 2 ^ 255
  let sign := v / 2 ^ 255
  if edP ≤ y then none
  else
    let u := (y * y + edP - 1) % edP
    let w := (edD * y % edP * y + 1) % edP
    let x2 := u * modInv w edP 255 % edP
    let x := modPow x2 ((edP + 3) / 8) edP 255
    let x := if x * x % edP = x2 then x else x * edI % edP
    if x * x % edP ≠ x2 then none
    else if x = 0 ∧ sign = 1 then none
    else
      let x := if x % 2 = sign then x else edP - x
      some ⟨x, y, 1, x * y % edP⟩

/-- The secret scalar and the prefix of a seed. -/
def edSecret (seed : List Byte) : Nat × List Byte :=
  let h := sha512 seed
  let a := leNat (h.take 32)
  let a := a % 2 ^ 254 / 8 * 8 + 2 ^ 254
  (a, h.drop 32)

/-- Ed25519 signature of a message under a seed and its public key. -/
def edSign (seed pub m : List Byte) : List Byte :=
  let (a, prefix_) := edSecret seed
  let r := leNat (sha512 (prefix_ ++ m)) % edL
  let rr := edEncode (edMul r edBase)
  let k := leNat (sha512 (rr ++ pub ++ m)) % edL
  rr ++ leBytes 32 ((r + k * a) % edL)

/-- Ed25519 verification: none where the public key is no point. -/
def edVerify (pub m sig : List Byte) : Option Bool :=
  match edDecode pub with
  | none => none
  | some a =>
    let s := leNat (sig.drop 32)
    match edDecode (sig.take 32) with
    | none => some false
    | some r =>
      if edL ≤ s then some false
      else
        let k := leNat (sha512 (sig.take 32 ++ pub ++ m)) % edL
        some (edEncode (edMul s edBase) == edEncode (edAdd r (edMul k a)))

/-! ### RSA -/

/-- MGF1 with a hash. -/
def mgf1 (hash : List Byte → List Byte) (n : Nat) (seed : List Byte) : List Byte :=
  ((List.range (n / 32 + 1)).flatMap fun i => hash (seed ++ natBytes 4 i)).take n

/-- The DigestInfo prefix of PKCS #1 v1.5 for SHA-256 and SHA-384. -/
def digestInfo (sha384_ : Bool) : List Byte :=
  [0x30, if sha384_ then 0x41 else 0x31, 0x30, 0x0D, 0x06, 0x09, 0x60, 0x86, 0x48, 0x01, 0x65, 0x03, 0x04, 0x02,
   if sha384_ then 0x02 else 0x01, 0x05, 0x00, 0x04, if sha384_ then 0x30 else 0x20]

/-- RSA verification of RFC 8017 with a modulus of `bits` bits: PKCS #1 v1.5, or PSS with salt length equal to the hash length. -/
def rsaVerify (pss sha384_ : Bool) (bits e n : Nat) (digest sig : List Byte) : Bool :=
  let k := (bits + 7) / 8
  let hl := if sha384_ then 48 else 32
  let hash := if sha384_ then sha384 else sha256
  let s := bytesNat sig
  if sig.length ≠ k ∨ n ≤ s then false
  else
    let m := modPow s e n 64
    if !pss then
      let t := digestInfo sha384_ ++ digest.take hl
      natBytes k m == [0, 1] ++ List.replicate (k - 3 - t.length) 0xFF ++ [0] ++ t
    else
      let emBits := bits - 1
      let emLen := (emBits + 7) / 8
      let em := natBytes emLen m
      if emLen < 2 * hl + 2 ∨ em.getLast? ≠ some 0xBC ∨ 256 ^ emLen ≤ m then false
      else
        let dbLen := emLen - hl - 1
        let masked := em.take dbLen
        let h := (em.drop dbLen).take hl
        let top := 8 * emLen - emBits
        if (masked.headD 0).toNat / 2 ^ (8 - top) ≠ 0 then false
        else
          let db := List.zipWith (· ^^^ ·) masked (mgf1 hash dbLen h)
          let db := (BitVec.ofNat 8 ((db.headD 0).toNat % 2 ^ (8 - top))) :: db.drop 1
          let pad := dbLen - hl - 1
          db.take pad == List.replicate pad 0 && db.getD pad 0 == 1
            && hash (List.replicate 8 0 ++ digest.take hl ++ db.drop (pad + 1)) == h

end Sys2Proof.Machine
end

