-- ==== Sys2Proof/Machine/Microcode.lean ====
section
/-! DEFINITION. The patch loader of the service die (R220-R227) and patch loads of the cores (R222). -/

namespace Sys2Proof.Machine

/-- The staged bytes of the loader's 32 KiB buffer. -/
def State.staged (s : State) (n : Nat) : List Byte := (List.range n).map (s.staging.look 0)

/-- Are all bytes of a range 0? -/
def zeros (b : List Byte) (off n : Nat) : Bool := ((b.drop off).take n).all (· == 0)

/-- Doubleword `i` of the match table of a bundle. -/
def bunMatch (b : List Byte) (i : Nat) : Word := BitVec.ofNat 64 (bunNum b (0x040 + 8 * i) 8)

/-- Are the reserved bits of the match entries in use 0 (R220, R225)? -/
def matchesClean (b : List Byte) : Bool := (List.range (bunMatches b)).all fun i => bunMatch b i &&& ~~~matchMask == 0

/-- Is the match table sound (R221): no ROM_ADDR twice among the enabled entries, and no PATCH_ADDR at or above n? -/
def matchesGood (b : List Byte) : Bool :=
  let m := bunMatches b
  let es := ((List.range m).map (bunMatch b)).filter fun w => w.bit 0
  (es.map fun w => w.field 15 31).Nodup && (es.all fun w => decide (w.field 52 63 < bunWords b))

/-- The RESULT of VERIFY for the bytes in the staging buffer (R221, R227). -/
def State.verifyResult (s : State) (ecc : Bool) : Nat :=
  let head := s.staged 0x140
  let n := bunWords head
  let b := s.staged (520 + 4 * n)
  if ecc then 0x09
  else if bunNum b 0 4 ≠ 0x4C4D5042 ∨ bunNum b 4 2 ≠ 1 then 0x03
  else if bunNum b 0x01C 4 ≠ 520 + 4 * n ∨ 4096 < n ∨ 32 < bunMatches b ∨ !zeros b 6 2 ∨ !zeros b 0x00E 2
      ∨ !zeros b 0x030 16 ∨ !zeros b (0x1A1 + 4 * n) 7 ∨ !zeros b (0x040 + 8 * bunMatches b) (8 * (32 - bunMatches b)) ∨ !matchesClean b then 0x03
  else if bunNum b 8 2 ≠ 0x0011 ∨ bunNum b 0x00A 2 ≠ UnitType.core.layout ∨ bunNum b 0x00C 2 ≠ 0x0201
      ∨ bunNum b 0x010 4 ≠ romId then 0x04
  else if !matchesGood b then 0x05
  else
    let key := (b.drop (0x140 + 4 * n)).take 97
    let hash := (List.range 6).map fun i => (Config.mcsKeyHash i).toNat
    if (List.range 6).map (fun i => bytesNat (((sha384 key).drop (8 * i)).take 8)) ≠ hash then 0x06
    else if bunNum key 0 1 ≠ 4 ∨ !p384.verify (bunNum key 1 48) (bunNum key 49 48) (sha384 (b.take (0x1A8 + 4 * n)))
        (bunNum b (0x1A8 + 4 * n) 48) (bunNum b (0x1D8 + 4 * n) 48) then 0x07
    else if bunGen b < s.rd uSvcDie Reg.MCS_LDR_STAT.FLOOR then 0x08
    else 0x01

/-- A command of the loader: OP is written with START, which is ignored while BUSY (R221). -/
def State.loaderCommand (s : State) (sender : Sender) (op : Nat) (act : State → State) : State :=
  s.command sender uSvcDie 0x800 fun s =>
    let s := s.wr uSvcDie Reg.MCS_LDR_CTL.OP op
    if s.mcsRun.isSome then s else act s

def State.loaderResult (s : State) (r : Nat) : State := s.wr uSvcDie Reg.MCS_LDR_CTL.RESULT r

/-- The staged state clears. -/
def State.unstage (s : State) : State :=
  (s.wr uSvcDie Reg.MCS_LDR_STAT.STAGED 0).wr uSvcDie Reg.MCS_LDR_GEN.STAGED_GEN 0

/-- MCS_LDR_DATA (R221, R226): 8 bytes at ADDR, which advances; STAGED clears. Ignored while BUSY, and beyond the buffer. -/
def onMcsLdrData (sender : Sender) (data : Word) (s : State) : State :=
  s.command sender uSvcDie 0x810 fun s =>
    let a := s.rd uSvcDie Reg.MCS_LDR_ADDR.ADDR / 8 * 8
    if s.mcsRun.isSome then s
    else
      let s := s.unstage
      if 0x8000 ≤ a then s
      else
        let s := State.each (List.range 8) (fun i s =>
          { s with staging := s.staging.put 0 (a + i) ((wordBytes data).getD i 0) }) s
        s.wr uSvcDie Reg.MCS_LDR_ADDR.ADDR (a + 8)

/-- VERIFY (R221): the staged bundle passes every check or RESULT names the first that fails. `ecc` is a read error of the buffer. -/
def onVerify (sender : Sender) (ecc : Bool) (s : State) : State :=
  s.loaderCommand sender 1 fun s =>
    { s with mcsRun := some (1, s.verifyResult ecc) }

/-- The next core of a rollout in each tile has its work unit taken off, unless it is pinned (R222), as at parking (reason 5). -/
def State.rolloutNext (s : State) : State :=
  State.each (s.mcsPending.filter fun k => s.loadTurn k && !s.flag (uCore k) Reg.UNIT_POWER.PIN) (fun k s => s.askOff k 5) s

/-- Does a per-core load run? -/
def State.loadsRun (s : State) : Bool := s.patchRuns.any fun e => e.2.isSome

/-- Make the staged bundle the active copy, measure it, and begin its rollout (R221, R222, R224). -/
def State.activate (s : State) : State :=
  let b := s.staged (520 + 4 * bunWords (s.staged 0x140))
  let digest := bunDigest b
  let gen := bunGen b
  let s := ({ s with active := some b }).unstage
  let s := (s.wr uSvcDie Reg.MCS_LDR_STAT.ACTIVE 1).wr uSvcDie Reg.MCS_LDR_GEN.ACTIVE_GEN gen
  let s := State.each (List.range 6) (fun i s =>
    s.wr uSvcDie (Reg.MCS_LDR_DIGEST.DIGEST.ix i) (bytesNat ((digest.drop (8 * i)).take 8))) s
  let s := s.extendLog 2 0 gen false digest
  let s := s.tallyEvent (some uSvcDie) 0x06 0x01 7 0xFF (payload8 0 (beBytes 4 gen ++ [0] ++ digest.take 16))
  let act := (List.range 48).filter fun k => (s.core k).active && !(s.unit (uCore k)).fenced
  let off := act.filter fun k => !s.powered (uCore k)
  let s := State.each off (fun k s => { s with patchDue := s.patchDue.put 0 k 0x07 }) s
  ({ s with mcsRun := some (2, 0x10), mcsPending := act.filter fun k => s.powered (uCore k) } : State).rolloutNext.activateCheck

/-- An ACTIVATE that waited goes on once no load runs (R221). -/
def State.activateDue (s : State) : State :=
  if s.mcsRun = some (2, 0) ∧ s.loadsRun = false then s.activate else s

/-- ACTIVATE (R221): a staged bundle becomes the active copy and is rolled out, once the per-core loads in progress have finished. -/
def onActivate (sender : Sender) (s : State) : State :=
  s.loaderCommand sender 2 fun s =>
    if s.flag uSvcDie Reg.MCS_LDR_STAT.STAGED then ({ s with mcsRun := some (2, 0) } : State).activateDue else s.loaderResult 0x11

/-- MCS_LDR_DISCARD (R221): the staged state clears. -/
def onMcsLdrDiscard (sender : Sender) (s : State) : State :=
  s.loaderCommand sender 3 fun s =>
    { s with mcsRun := some (3, if s.flag uSvcDie Reg.MCS_LDR_STAT.STAGED then 0 else 0x11) }

/-- RAISE_FLOOR (R221): floor fuses are blown until FLOOR is the lesser of ACTIVE_GEN and 64. -/
def onRaiseFloor (sender : Sender) (s : State) : State :=
  s.loaderCommand sender 4 fun s =>
    let floor := s.rd uSvcDie Reg.MCS_LDR_STAT.FLOOR
    let gen := s.rd uSvcDie Reg.MCS_LDR_GEN.ACTIVE_GEN
    { s with mcsRun := some (4, if gen ≤ floor ∨ 64 ≤ floor then 0x13 else 0x12) }

/-- MCS_LDR_DONE (R221, R227): VERIFY, DISCARD or RAISE_FLOOR ends with its RESULT. A DISCARD of a staged bundle has no RESULT of its
own in R227 and leaves the field (log entry 40). -/
def onMcsLdrDone (s : State) : State :=
  match s.mcsRun with
  | some (1, r) =>
    let s := { s with mcsRun := none }.loaderResult r
    if r = 1 then
      (s.wr uSvcDie Reg.MCS_LDR_STAT.STAGED 1).wr uSvcDie Reg.MCS_LDR_GEN.STAGED_GEN (bunGen (s.staged 0x140))
    else s
  | some (3, r) => if r = 0 then { s with mcsRun := none }.unstage else { s with mcsRun := none }.loaderResult r
  | some (4, r) =>
    let s := { s with mcsRun := none }.loaderResult r
    if r = 0x12 then
      s.wr uSvcDie Reg.MCS_LDR_STAT.FLOOR (min (s.rd uSvcDie Reg.MCS_LDR_GEN.ACTIVE_GEN) 64)
    else s
  | _ => s.activateDue

/-- PATCH_LOAD (R222): a core that owes a load and holds no work unit begins it, one at a time in each tile. None begins while an ACTIVATE
waits for those in progress (log entry 114). -/
def onPatchLoad (k : Fin 48) (s : State) : State :=
  let busy := (List.range 12).any fun j => (s.patchRuns.look none (12 * (k.val / 12) + j)).isSome
  let due := s.patchDue.look 0 k.val
  let cause := if due ≠ 0 then due else 0x02
  if (!s.loadDue k.val ∧ !s.mcsPending.contains k.val) ∨ busy ∨ (s.core k.val).wu.isSome ∨ !s.powered (uCore k.val)
      ∨ s.mcsRun = some (2, 0) then s
  else { s with patchRuns := s.patchRuns.put none k.val (some (cause, s.now)) }.wr (uMcs k.val) Reg.MCS_STAT.LOADING 1

/-- PATCH_LOAD_DONE (R222): the load ends, the core may execute, and PENDING falls. -/
def onPatchLoadDone (k : Fin 48) (s : State) : State :=
  match s.patchRuns.look none k.val with
  | none => s
  | some (cause, from_) =>
    let s := s.patchLoad k.val cause ((s.now - from_) / 1000)
    (s.leaveRollout k.val false).rolloutNext.activateDue

/-! ### The commands as the queue gives them -/

def execMcsLdrData (sender : Sender) (data : Word) (s : State) : Answer := s.run (onMcsLdrData sender data)
def execVerify (sender : Sender) (ecc : Bool) (s : State) : Answer := s.run (onVerify sender ecc)
def execActivate (sender : Sender) (s : State) : Answer := s.run (onActivate sender)
def execMcsLdrDiscard (sender : Sender) (s : State) : Answer := s.run (onMcsLdrDiscard sender)
def execRaiseFloor (sender : Sender) (s : State) : Answer := s.run (onRaiseFloor sender)
def execPatchLoad (k : Fin 48) (s : State) : Answer := s.run (onPatchLoad k)
def execPatchLoadDone (k : Fin 48) (s : State) : Answer := s.run (onPatchLoadDone k)
def execMcsLdrDone (s : State) : Answer := s.run onMcsLdrDone

end Sys2Proof.Machine
end

