-- ==== Sys2Proof/Machine/Attest.lean ====
section
/-! DEFINITION. Attestation (R422-R425, R428). What a command reads is read at its START; what it leaves appears at ATT_DONE. -/

namespace Sys2Proof.Machine

/-- The start of an attestation command: ignored while one runs; the fields of ATT_CTL take what is written (R428). -/
def State.attCommand (s : State) (op kind subject : Nat) (act : State → State × AttRun) : State :=
  let s := ((s.wr uSvcDie Reg.ATT_CTL.OP op).wr uSvcDie Reg.ATT_CTL.KIND kind).wr uSvcDie Reg.ATT_CTL.SUBJECT subject
  if s.att.isSome then s
  else
    let r := act s
    { r.1 with att := some r.2 }

def attFails (result : Nat) : AttRun := { addr := 0, result := result, entry := none, report := [] }

/-- The address in ATT_ADDR. -/
def State.attAddr (s : State) : Nat := s.rd uSvcDie Reg.ATT_ADDR.ADDR

/-- A read for attestation: the bytes, or the RESULT. -/
def State.attRead (s : State) (addr n : Nat) : State × Except Nat (List Byte) :=
  let r := s.physRead addr n
  (r.1, match r.2.2 with
    | .done => .ok r.2.1
    | .poisoned => .error 5
    | _ => .error 4)

/-- MEASURE: the digest of ATT_LEN bytes at ATT_ADDR (R424). -/
def State.attMeasure (s : State) (kind subject : Nat) : State × AttRun :=
  let n := s.rd uSvcDie Reg.ATT_LEN.LEN
  if kind < 0x10 ∨ 0x1F < kind then (s, attFails 3)
  else if n = 0 ∨ 2 ^ 30 < n then (s, attFails 4)
  else
    let r := s.attRead s.attAddr n
    match r.2 with
    | .error e => (r.1, attFails e)
    | .ok l => (r.1, { addr := 0, result := 1, entry := some (kind, false, subject, n, sha384 l), report := [] })

/-- DECLARE: the 48 bytes at ATT_ADDR, taken as given (R424). The generation or length of such an entry is stated nowhere. -/
def State.attDeclare (s : State) (kind subject : Nat) : State × AttRun :=
  if kind < 0x20 ∨ 0x2F < kind then (s, attFails 3)
  else
    let r := s.attRead s.attAddr 48
    match r.2 with
    | .error e => (r.1, attFails e)
    | .ok l =>
      let f := r.1.freeValue
      (f.1, { addr := 0, result := 1, entry := some (kind, true, subject, f.2.toNat, l), report := [] })

/-- SEAM_STATE of a seam as it reads (R273). -/
def State.seamStateWord (s : State) (n : Nat) : Word :=
  if n = 0 then (0 : Word).setField 0 1 1
  else (s.word uSeamCtl (Reg.SEAM_STATE.STATE.ix n).off).setField 3 3 (if s.timingOk.look false n then 1 else 0)

/-- The certificate's bytes (R422). -/
def certBytes : List Byte := (List.range (min Config.certLen 2048)).map Config.certByte

/-- Bytes 0x000-0x11F of a report (R425). -/
def State.reportFront (s : State) (subject : Nat) (nonce : List Byte) : List Byte :=
  let reg6 (f : Field) : List Byte := (List.range 6).flatMap fun i => natBytes 8 (s.rd uSvcDie (f.ix i))
  let flags := (if s.flag uSvcDie Reg.ATT_LOG_STAT.OVERFLOW then 128 else 0) + 64
  natBytes 4 0x4C4D4154 ++ natBytes 2 1 ++ natBytes 2 0x0201 ++ natBytes 8 (Config.lot 0xFF).toNat ++ natBytes 4 s.pcycle
    ++ natBytes 4 0 ++ natBytes 8 s.opTime ++ nonce ++ natBytes 4 (s.rd uSvcDie Reg.ATT_LOG_STAT.COUNT) ++ natBytes 1 flags
    ++ natBytes 1 subject ++ natBytes 2 0 ++ s.chain ++ reg6 Reg.MCS_LDR_DIGEST.DIGEST
    ++ wordBytes (if subject = 0 then 0 else s.seamStateWord subject) ++ natBytes 8 (s.tallySeq - 1) ++ sha384 certBytes
    ++ List.replicate 56 0

/-- The signature of the attestation signer under the device key (R422, R425). -/
def attSignature (front : List Byte) : List Byte :=
  match p384.sign (Config.deviceKey % p384.n) (sha384 front) with
  | some (r, s) => natBytes 48 r ++ natBytes 48 s
  | none => List.replicate 96 0

/-- REPORT (R425): everything that it captures is captured at START. -/
def State.attReport (s : State) (subject : Nat) : State × AttRun :=
  if s.attAddr % 128 ≠ 0 ∨ 63 < subject then (s, attFails 4)
  else
    let r := s.attRead (s.attAddr + 0x20) 32
    match r.2 with
    | .error e => (r.1, attFails e)
    | .ok nonce =>
      let front := r.1.reportFront subject nonce
      (r.1, { addr := s.attAddr, result := 1, entry := none, report := front ++ attSignature front })

/-- MEASURE (R424). -/
def onMeasure (sender : Sender) (kind : BitVec 8) (subject : BitVec 16) (s : State) : State :=
  s.command sender uSvcDie 0x900 fun s => s.attCommand 1 kind.toNat subject.toNat fun s => s.attMeasure kind.toNat subject.toNat

/-- DECLARE (R424). -/
def onDeclare (sender : Sender) (kind : BitVec 8) (subject : BitVec 16) (s : State) : State :=
  s.command sender uSvcDie 0x900 fun s => s.attCommand 2 kind.toNat subject.toNat fun s => s.attDeclare kind.toNat subject.toNat

/-- REPORT (R425). -/
def onReport (sender : Sender) (kind : BitVec 8) (subject : BitVec 16) (s : State) : State :=
  s.command sender uSvcDie 0x900 fun s => s.attCommand 3 kind.toNat subject.toNat fun s => s.attReport subject.toNat

/-- ATT_DONE (R425): the command in progress ends: the log is extended or the report is written, and RESULT is set. -/
def onAttDone (s : State) : State :=
  match s.att with
  | none => s
  | some a =>
    let s := { s with att := none }
    match a.entry with
    | some (kind, declared, subject, gen, digest) =>
      let full := 2048 ≤ s.rd uSvcDie Reg.ATT_LOG_STAT.COUNT
      (s.extendLog kind subject gen declared digest).wr uSvcDie Reg.ATT_CTL.RESULT (if full then 6 else a.result)
    | none =>
      if a.report.isEmpty then s.wr uSvcDie Reg.ATT_CTL.RESULT a.result
      else
        let r := s.physWrite a.addr a.report
        r.1.wr uSvcDie Reg.ATT_CTL.RESULT (if r.2 = .done then a.result else 4)

/-! ### The commands as the queue gives them -/

def execMeasure (sender : Sender) (kind : BitVec 8) (subject : BitVec 16) (s : State) : Answer := s.run (onMeasure sender kind subject)
def execDeclare (sender : Sender) (kind : BitVec 8) (subject : BitVec 16) (s : State) : Answer := s.run (onDeclare sender kind subject)
def execReport (sender : Sender) (kind : BitVec 8) (subject : BitVec 16) (s : State) : Answer := s.run (onReport sender kind subject)
def execAttDone (s : State) : Answer := s.run onAttDone

end Sys2Proof.Machine
end

