-- ==== Sys2Proof/Machine/Errors.lean ====
section
/-! DEFINITION. What the arrays of the caches, the home directories, the control stores and the Foreman's live table do with an error that
their checks find (R163, R188, R218, R251). A FAULT_REPORT brings the error; its syndrome names the place (log entry 106). -/

namespace Sys2Proof.Machine

/-- The array of a unit that a syndrome names, whether the error is uncorrectable, and the line: bits 0:7, bit 8, bits 16:63. -/
def errArray (w : Word) : Nat := w.field 0 7
def errHard (w : Word) : Bool := w.bit 8
def errLine (w : Word) : Nat := w.field 16 63 / 128

/-- The copy of a line in an L1 is invalidated and comes again from the L2 of its core (R163). A dirty copy is not touched. -/
def State.refetchL1 (s : State) (k line : Nat) (ifetch : Bool) : State :=
  let c : CacheId := if ifetch then .l1i k else .l1d k
  match s.peek c line, s.peek (.l2 k) line with
  | some l, some m => if l.st.dirty then s else (s.drop c line).fillL1 k ifetch line m.data m.seam l.stream
  | _, _ => s

/-- A clean line of an L2 is invalidated, with its copies in the L1s, and fetched again: it comes back with the data that memory or the
line's owner holds, which are those it had (R163). -/
def State.refetchL2 (s : State) (k line : Nat) : State :=
  match s.peek (.l2 k) line with
  | some l => if l.st.dirty then s else s.dropL1 k line
  | none => s

/-- A line with every word marked poisoned. -/
def LineData.allPoison (d : LineData) : LineData := { d with poison := 0xFFFF }

/-- A dirty line with an uncorrectable error is marked poisoned where it is (R163). -/
def State.poisonDirty (s : State) (c : CacheId) (line : Nat) : State :=
  s.alter c line fun l => if l.st.dirty then { l with data := l.data.allPoison } else l

/-- A corrected error of a core's caches, counted (R163, R165): array 1 the L1I, whose parity finds errors only, 2 the L1D, 3 the L2. -/
def State.coreCorrected (s : State) (k : Nat) (w : Word) : State :=
  match errArray w with
  | 1 => (s.bump (uCore k) Reg.L1_ECC.L1I_CORR).refetchL1 k (errLine w) true
  | 2 =>
    let s := s.bump (uCore k) Reg.L1_ECC.L1D_CORR
    if errHard w then s.refetchL1 k (errLine w) false else s
  | 3 =>
    let s := s.bump (uCore k) Reg.L2_ECC.CORR
    if errHard w then s.refetchL2 k (errLine w) else s
  | _ => s

/-- A corrected error of a unit is counted where its page counts it: caches (R165, R166), directory entries (R188), control stores (array 1
patch words and match registers, 2 ROM words; R218, R225), and the instruction store (array 1) and the pit (2) of a hauler (R348, R366). -/
def State.arrayCorrected (s : State) (u : UnitId) (w : Word) : State :=
  match u.type with
  | .core => s.coreCorrected u.inst w
  | .l3 => s.bump u Reg.L3_ECC.CORR
  | .home => s.count u Reg.DIR_ECC.CORR
  | .hauler => match errArray w with
    | 1 => s.bump u Reg.HLR_COUNT.ISTORE_CORR
    | 2 => s.bump u Reg.PIT_STAT.CORR
    | _ => s
  | .mcs => match errArray w with
    | 1 => s.bump u Reg.MCS_ECC.PATCH_CORR
    | 2 => s.bump u Reg.MCS_ECC.ROM_CORR
    | _ => s
  | _ => s

/-- A directory entry that cannot be read (R188): the home agent takes the line from all four tiles, writes any dirty data and frees the
entry. -/
def State.dirUncorr (s0 : State) (home line : Nat) : State :=
  let s := s0.awaitLine line
  match s.dirFind home line with
  | none => s
  | some _ =>
    let r := s.killTiles (List.range 4) line
    let s := match r.2 with
      | some d => r.1.putMemLine line maskAll d
      | none => r.1
    s.setDir home line DirEntry.empty

/-- What a unit does with an uncorrectable error whose cause `f` is set: a dirty line is poisoned (R163), a directory entry is given up
(R188), the work unit of a live-table entry, named as in c0, ends (R251), a pit word reads uncorrectable until it is written (R366), a
microword or match register is repaired or the core fails (R218). -/
def State.arrayUncorr (s : State) (u : UnitId) (f : Field) (w : Word) : State :=
  let is (g : Field) : Bool := f.off == g.off && f.lo == g.lo
  match u.type with
  | .core =>
    if is Reg.L1_STATUS.L1D_UNCORR then (s.poisonDirty (.l1d u.inst) (errLine w)).poisonDirty (.l2 u.inst) (errLine w)
    else if is Reg.L2_ECC.UNCORR then (s.poisonDirty (.l2 u.inst) (errLine w)).poisonDirty (.l2e u.inst) (errLine w)
    else s
  | .l3 => if is Reg.L3_ECC.UNCORR then s.poisonDirty (.l3 u.inst) (errLine w) else s
  | .home => if is Reg.DIR_ECC.UNCORR then s.dirUncorr u.inst (errLine w) else s
  | .foreman => if is Reg.FMN_ERR.TABLE_UNCORR then s.endWork (w.field 8 63) 0x16 else s
  | .hauler => if is Reg.HLR_FAULT.PIT_UNCORR then { s with pitBad := s.pitBad.put false (u.inst * 65536 + w.field 48 63) true } else s
  | .mcs =>
    if is Reg.MCS_ECC.PATCH_UNCORR then s.patchUncorr u.inst else if is Reg.MCS_ECC.ROM_UNCORR then s.romUncorr u.inst else s
  | _ => s

end Sys2Proof.Machine
end

