-- ==== Sys2Proof/Machine/Coherence.lean ====
section
/-! DEFINITION. The commands of the coherence protocol: single messages that arrive at a tile, a home agent or an I/O agent (R170-R182),
ring requests (R171), expiries and timeouts (R180, R183), and replays on the Shaft (R186). A message that the model's own agents have sent
stands in `State.msgs`; its arrival takes it from there, with its data, flag and request. The arrival of a message that nothing in the
model has sent is the message of an agent outside it, and takes them from the command (log entry 112). -/

namespace Sys2Proof.Machine

/-! ### Arrivals (R169, R187) -/

/-- A message of a kind arrives: those of its class that were sent before it about its line have arrived (R169). -/
def State.bring (s : State) (kind : MsgKind) (src dst line : Nat) : State × Option Msg :=
  (arriveBefore kind src dst line 256 s).arrive kind src dst line

/-- A message that waits at its stop for a slot cannot arrive yet (R187). -/
def State.blocked (s : State) (kind : MsgKind) (src dst line : Nat) : Bool :=
  match s.msgs.find? fun m => m.isOf kind src dst line with
  | some m => !(m.inserted || s.mayInsert m.src m.dst m.seam)
  | none => false

/-- What an arrival does, with the checkstops of requests that home agents have refused meanwhile (R262). -/
def State.arrival (s : State) (kind : MsgKind) (src dst line : Nat) (f : State → Option Msg → Answer) : Answer :=
  if s.blocked kind src dst line then .next s
  else
    let a := s.bring kind src dst line
    match f a.1 a.2 with
    | .next t => .next t.isolations
    | r => r

/-- The stop of the home of a line; a line without a home, to which nothing has been sent, has a stop of no agent. -/
def State.stopOf (s : State) (line : Nat) : Nat :=
  match s.homeAgent line with
  | some home => homeStop home
  | none => 0x100

/-- An arrival at the home of a line. -/
def State.atHome (s : State) (kind : MsgKind) (src line : Nat) (f : State → Option Msg → Answer) : Answer :=
  s.arrival kind src (s.stopOf line) line f

/-- An arrival at a tile or an I/O agent from the home of a line. -/
def State.fromHome (s : State) (kind : MsgKind) (dst line : Nat) (f : State → Option Msg → Answer) : Answer :=
  s.arrival kind (s.stopOf line) dst line f

/-! ### Requests that reach a home agent -/

/-- A request that arrives is the one that its message carries, or the command's. -/
def State.requestArrives (s : State) (kind : MsgKind) (r : HomeReq) : Answer :=
  s.atHome kind r.agent.stop r.line fun s m => .next (s.homeArrive (msgReq m r))

/-- RDS (R175): a read for sharing reaches the home agent. -/
def onRds (t : Fin 4) (line : BitVec 28) (seam : Fin 64) (s : State) : Answer :=
  s.requestArrives .rds (tileRequest t .rds line.toNat seam)

/-- RDX (R175): a read for ownership reaches the home agent. -/
def onRdx (t : Fin 4) (line : BitVec 28) (seam : Fin 64) (s : State) : Answer :=
  s.requestArrives .rdx (tileRequest t .rdx line.toNat seam)

/-- RDX_A (R175, R182): an ownership request that carries an atomic reaches the home agent. -/
def onRdxA (t : Fin 4) (line : BitVec 28) (seam : Fin 64) (a : AtomicReq) (s : State) : Answer :=
  s.requestArrives .rdxA { tileRequest t .rdxA line.toNat seam with atomic := some a }

/-- UPG (R175): an upgrade request reaches the home agent. -/
def onUpg (t : Fin 4) (line : BitVec 28) (seam : Fin 64) (s : State) : Answer :=
  s.requestArrives .upg (tileRequest t .upg line.toNat seam)

/-- The kind of a maintenance request. -/
def MaintOp.kind : MaintOp → ReqKind
  | .clean => .mntClean
  | .inval => .mntInv
  | .cleanInval => .mntCleanInv

/-- MNT (R175, R177): a maintenance request reaches the home agent. -/
def onMnt (t : Fin 4) (line : BitVec 28) (seam : Fin 64) (op : MaintOp) (skip : Bool) (s : State) : Answer :=
  s.requestArrives .mnt { tileRequest t op.kind line.toNat seam with skipLocked := skip }

/-- IOR (R175): a line read of an I/O agent reaches the home agent. -/
def onIor (u : UnitId) (line : BitVec 28) (seam : Fin 64) (s : State) : Answer :=
  s.requestArrives .ior { tileRequest 0 .ior line.toNat seam with agent := .io u }

/-- IOW (R175, R181): a masked line write of an I/O agent, with or without a hint target, reaches the home agent. -/
def onIow (u : UnitId) (line : BitVec 28) (seam : Fin 64) (mask : BitVec 128) (data : BitVec 1024)
    (hint : Option HintTarget) (s : State) : Answer :=
  s.requestArrives .iow { tileRequest 0 .iow line.toNat seam with agent := .io u, mask := mask, data := data, hint := hint }

/-! ### Answers that reach a home agent -/

/-- INVACK (R175, R177). -/
def onInvAck (t : Fin 4) (line : BitVec 28) (kept : Bool) (s : State) : Answer :=
  s.atHome .invAck t line.toNat fun s m => s.atInvAck t line.toNat (msgFlag m kept)

/-- SNPACK (R175). -/
def onSnpAck (t : Fin 4) (line : BitVec 28) (kept : Bool) (s : State) : Answer :=
  s.atHome .snpAck t line.toNat fun s m => s.atSnpAck t line.toNat (msgFlag m kept)

/-- SNPD (R175): an answer with dirty data. -/
def onSnpD (t : Fin 4) (line : BitVec 28) (data : LineData) (kept : Bool) (s : State) : Answer :=
  s.atHome .snpD t line.toNat fun s m => s.atSnpD t line.toNat (msgData m data) (msgFlag m kept)

/-- HINTACK (R175). -/
def onHintAck (t : Fin 4) (line : BitVec 28) (s : State) : Answer :=
  s.atHome .hintAck t line.toNat fun s _ => s.atHintAck t line.toNat

/-- HINTDECL (R175). -/
def onHintDecl (t : Fin 4) (line : BitVec 28) (s : State) : Answer :=
  s.atHome .hintDecl t line.toNat fun s _ => s.atHintDecl line.toNat

/-- DONE (R175). -/
def onDone (t : Fin 4) (line : BitVec 28) (s : State) : Answer :=
  s.atHome .done t line.toNat fun s _ => s.atDone t line.toNat

/-- WB (R175): a write-back of a tile's last dirty copy arrives and is acknowledged. -/
def onWb (t : Fin 4) (line : BitVec 28) (data : LineData) (s : State) : Answer :=
  s.atHome .wb t line.toNat fun s m => .next (s.atWb t line.toNat (msgData m data))

/-- EVC (R175): the notice that a tile's last clean copy left arrives and is acknowledged. -/
def onEvc (t : Fin 4) (line : BitVec 28) (s : State) : Answer :=
  s.atHome .evc t line.toNat fun s _ => s.atEvc t line.toNat

/-! ### The ring and the tile controller (R171-R173) -/

/-- TRD (R171, R172): a core's read. -/
def onTrd (k : Fin 48) (line : BitVec 28) (seam : Fin 64) (s : State) : State :=
  s.trd { core := k, line := line.toNat, seam := seam, excl := false, atomic := none }

/-- TRDX (R171, R172): a core's ownership request, or its atomic. -/
def onTrdx (k : Fin 48) (line : BitVec 28) (seam : Fin 64) (atomic : Option AtomicReq) (s : State) : State :=
  s.trdx { core := k, line := line.toNat, seam := seam, excl := true, atomic := atomic }

/-- TDOWN (R171): the tile's action on SnpS, or on SnpS.C with `clean`. -/
def onTdown (t : Fin 4) (line : BitVec 28) (clean : Bool) (s : State) : State := s.tdown t.val line.toNat clean

/-- TKILL (R171): the tile's action on Inv or SnpX. -/
def onTkill (t : Fin 4) (line : BitVec 28) (s : State) : State := s.tkill t.val line.toNat

/-- INV (R172). -/
def onInv (t : Fin 4) (line : BitVec 28) (skip : Bool) (s : State) : Answer :=
  s.fromHome .inv t line.toNat fun s m => s.atInv t line.toNat (msgFlag m skip)

/-- SNPS (R172), with SnpS.C as `clean`. -/
def onSnpS (t : Fin 4) (line : BitVec 28) (clean : Bool) (s : State) : Answer :=
  s.fromHome (if clean then .snpSC else .snpS) t line.toNat fun s _ => s.atSnpS t line.toNat clean

/-- SNPX (R172). -/
def onSnpX (t : Fin 4) (line : BitVec 28) (skip : Bool) (s : State) : Answer :=
  s.fromHome .snpX t line.toNat fun s m => s.atSnpX t line.toNat (msgFlag m skip)

/-- HINT (R145, R172): the state that it installs, its target and its seam are those that the home has put in it. -/
def onHint (target : HintTarget) (line : BitVec 28) (seam : Fin 64) (dirty : Bool) (data : LineData) (s : State) : Answer :=
  s.fromHome .hint target.tile line.toNat fun s m =>
    let r := msgReq m { tileRequest 0 .iow line.toNat seam with hint := some target }
    s.atHint (r.hint.getD target) line.toNat r.seam (msgFlag m dirty) (msgData m data)

/-- DATAS (R172): a tile receives line data in state S. -/
def onDataS (t : Fin 4) (line : BitVec 28) (data : LineData) (s : State) : Answer :=
  s.fromHome .dataS t line.toNat fun s m => s.atData .s t line.toNat (msgData m data)

/-- DATAE (R172): a tile receives line data in state E. -/
def onDataE (t : Fin 4) (line : BitVec 28) (data : LineData) (s : State) : Answer :=
  s.fromHome .dataE t line.toNat fun s m => s.atData .e t line.toNat (msgData m data)

/-- DATAM (R172): a tile receives line data in state M. -/
def onDataM (t : Fin 4) (line : BitVec 28) (data : LineData) (s : State) : Answer :=
  s.fromHome .dataM t line.toNat fun s m => s.atData .m t line.toNat (msgData m data)

/-- GNTX (R172). -/
def onGntX (t : Fin 4) (line : BitVec 28) (s : State) : Answer :=
  s.fromHome .gntX t line.toNat fun s _ => s.atGntX t line.toNat

/-- ATMR (R172): a tile receives the old value of an atomic performed at the home agent. One that no message carries has the value that
memory holds. -/
def onAtmR (t : Fin 4) (line : BitVec 28) (s : State) : Answer :=
  s.fromHome .atmR t line.toNat fun s m => s.atAtmR t line.toNat (msgData m (s.memData line.toNat))

/-- WBACK (R172). -/
def onWbAck (t : Fin 4) (line : BitVec 28) (s : State) : Answer :=
  s.fromHome .wbAck t line.toNat fun s _ => s.atWbAck t line.toNat

/-- RETRY (R172, R173). -/
def onRetry (t : Fin 4) (line : BitVec 28) (s : State) : Answer :=
  s.fromHome .retry t line.toNat fun s _ => s.atRetry t line.toNat

/-- RETRY_RESEND (R173): 64 Shaft cycles after a Retry the tile controller sends the request again. -/
def onRetryResend (t : Fin 4) (line : BitVec 28) (s : State) : State :=
  match s.tileTx t.val line.toNat with
  | some x => match x.resendAt with
    | some at_ => if at_ ≤ s.now then s.resend x else s
    | none => s
  | none => s

/-! ### I/O agents, HOT, timeouts and the Shaft -/

/-- IO_CMP (R181): an agent receives Cmp, so its IOW or Mnt is performed. -/
def onIoCmp (u : UnitId) (line : BitVec 28) (s : State) : Answer := s.fromHome .cmp u.dieSlot line.toNat fun s _ => .next s

/-- IODATA (R170): an I/O agent receives the data of its IOR. -/
def onIoData (u : UnitId) (line : BitVec 28) (s : State) : Answer :=
  s.fromHome .ioData u.dieSlot line.toNat fun s m =>
    .next (match m with
      | some m => s.atIoData u line.toNat (m.data.getD LineData.zero)
      | none => s)

/-- HOT_WINDOW_EXPIRY (R180): HOT clears once HOT_WINDOW Shaft cycles of 0.5 ns have passed with no change of owner. -/
def onHotWindowExpiry (line : BitVec 28) (s : State) : State :=
  match s.homeAgent line.toNat with
  | none => s
  | some home =>
    let e := s.dirEntry home line.toNat
    if e.hot ∧ s.rd (uHome home) Reg.HOME_CFG.HOT_WINDOW ≤ 2 * (s.now - e.hotAt) then
      s.setDir home line.toNat { e with hot := false } else s

/-- HOME_TRANSACTION_TIMEOUT (R183): a home transaction that has awaited an answer for 20 µs is closed, with the data
at hand as log entry 37 says. -/
def onHomeTransactionTimeout (line : BitVec 28) (s : State) : State :=
  match s.homeTx line.toNat with
  | none => s
  | some h => if s.now < h.since + 20000 then s else (s.homeTimeout h).isolations

/-- SLOT_REPLAY (R186): a slot received with a bad CRC is replayed from its sending stop; 16 replays of a segment within 1 ms take
the segment down. -/
def onSlotReplay (stop : Fin 7) (against : Bool) (s : State) : State :=
  let d : Nat := if against then 1 else 0
  let s := { s with replays := (s.replays.filter fun (r : Nat × Nat × Nat) => decide (s.now < r.2.2 + 1000000)) ++ [(stop.val, d, s.now)] }
  let s := (s.bump uModule (Reg.SHF_STOP_STAT.REPLAYS.ix stop.val)).corrected uModule (BitVec.ofNat 64 stop.val)
  let n : Nat := (s.replays.filter fun (r : Nat × Nat × Nat) => r.1 == stop.val && r.2.1 == d).length
  let bit : Field := if against then Reg.SHF_STOP_STAT.DN_DOWN.ix stop.val else Reg.SHF_STOP_STAT.UP_DOWN.ix stop.val
  if 16 ≤ n ∧ !s.flag uModule bit then s.stick uModule bit else s

/-! ### The commands as the queue gives them -/

def execTrd (k : Fin 48) (line : BitVec 28) (seam : Fin 64) (s : State) : Answer := s.run (onTrd k line seam)
def execTrdx (k : Fin 48) (line : BitVec 28) (seam : Fin 64) (atomic : Option AtomicReq) (s : State) : Answer := s.run (onTrdx k line seam atomic)
def execTdown (t : Fin 4) (line : BitVec 28) (clean : Bool) (s : State) : Answer := s.run (onTdown t line clean)
def execTkill (t : Fin 4) (line : BitVec 28) (s : State) : Answer := s.run (onTkill t line)
def execRds (t : Fin 4) (line : BitVec 28) (seam : Fin 64) (s : State) : Answer := s.runAnswer (onRds t line seam)
def execRdx (t : Fin 4) (line : BitVec 28) (seam : Fin 64) (s : State) : Answer := s.runAnswer (onRdx t line seam)
def execRdxA (t : Fin 4) (line : BitVec 28) (seam : Fin 64) (a : AtomicReq) (s : State) : Answer := s.runAnswer (onRdxA t line seam a)
def execUpg (t : Fin 4) (line : BitVec 28) (seam : Fin 64) (s : State) : Answer := s.runAnswer (onUpg t line seam)
def execMnt (t : Fin 4) (line : BitVec 28) (seam : Fin 64) (op : MaintOp) (skip : Bool) (s : State) : Answer := s.runAnswer (onMnt t line seam op skip)
def execIor (u : UnitId) (line : BitVec 28) (seam : Fin 64) (s : State) : Answer := s.runAnswer (onIor u line seam)
def execIow (u : UnitId) (line : BitVec 28) (seam : Fin 64) (mask : BitVec 128) (data : BitVec 1024) (hint : Option HintTarget) (s : State) : Answer :=
  s.runAnswer (onIow u line seam mask data hint)
def execInv (t : Fin 4) (line : BitVec 28) (skip : Bool) (s : State) : Answer := s.runAnswer (onInv t line skip)
def execSnpS (t : Fin 4) (line : BitVec 28) (clean : Bool) (s : State) : Answer := s.runAnswer (onSnpS t line clean)
def execSnpX (t : Fin 4) (line : BitVec 28) (skip : Bool) (s : State) : Answer := s.runAnswer (onSnpX t line skip)
def execHint (target : HintTarget) (line : BitVec 28) (seam : Fin 64) (dirty : Bool) (data : LineData) (s : State) : Answer :=
  s.runAnswer (onHint target line seam dirty data)
def execInvAck (t : Fin 4) (line : BitVec 28) (kept : Bool) (s : State) : Answer := s.runAnswer (onInvAck t line kept)
def execSnpAck (t : Fin 4) (line : BitVec 28) (kept : Bool) (s : State) : Answer := s.runAnswer (onSnpAck t line kept)
def execSnpD (t : Fin 4) (line : BitVec 28) (data : LineData) (kept : Bool) (s : State) : Answer := s.runAnswer (onSnpD t line data kept)
def execHintAck (t : Fin 4) (line : BitVec 28) (s : State) : Answer := s.runAnswer (onHintAck t line)
def execHintDecl (t : Fin 4) (line : BitVec 28) (s : State) : Answer := s.runAnswer (onHintDecl t line)
def execDone (t : Fin 4) (line : BitVec 28) (s : State) : Answer := s.runAnswer (onDone t line)
def execDataS (t : Fin 4) (line : BitVec 28) (data : LineData) (s : State) : Answer := s.runAnswer (onDataS t line data)
def execDataE (t : Fin 4) (line : BitVec 28) (data : LineData) (s : State) : Answer := s.runAnswer (onDataE t line data)
def execDataM (t : Fin 4) (line : BitVec 28) (data : LineData) (s : State) : Answer := s.runAnswer (onDataM t line data)
def execGntX (t : Fin 4) (line : BitVec 28) (s : State) : Answer := s.runAnswer (onGntX t line)
def execAtmR (t : Fin 4) (line : BitVec 28) (s : State) : Answer := s.runAnswer (onAtmR t line)
def execWbAck (t : Fin 4) (line : BitVec 28) (s : State) : Answer := s.runAnswer (onWbAck t line)
def execRetry (t : Fin 4) (line : BitVec 28) (s : State) : Answer := s.runAnswer (onRetry t line)
def execRetryResend (t : Fin 4) (line : BitVec 28) (s : State) : Answer := s.run (onRetryResend t line)
def execIoCmp (u : UnitId) (line : BitVec 28) (s : State) : Answer := s.runAnswer (onIoCmp u line)
def execIoData (u : UnitId) (line : BitVec 28) (s : State) : Answer := s.runAnswer (onIoData u line)
def execWb (t : Fin 4) (line : BitVec 28) (data : LineData) (s : State) : Answer := s.runAnswer (onWb t line data)
def execEvc (t : Fin 4) (line : BitVec 28) (s : State) : Answer := s.runAnswer (onEvc t line)
def execHotWindowExpiry (line : BitVec 28) (s : State) : Answer := s.run (onHotWindowExpiry line)
def execHomeTransactionTimeout (line : BitVec 28) (s : State) : Answer := s.run (onHomeTransactionTimeout line)
def execSlotReplay (stop : Fin 7) (against : Bool) (s : State) : Answer := s.run (onSlotReplay stop against)

end Sys2Proof.Machine
end

