-- ==== Sys2Proof/Machine/Aes.lean ====
section
/-! DEFINITION. AES of FIPS 197 and its modes that the cipher engines and the DRBG use (R416, R420): GCM of SP 800-38D with 96-bit IVs,
XTS of IEEE 1619 with ciphertext stealing, CBC of SP 800-38A. -/

namespace Sys2Proof.Machine

/-- The S-box of AES. -/
def aesSbox : List Nat :=
  [0x63, 0x7C, 0x77, 0x7B, 0xF2, 0x6B, 0x6F, 0xC5, 0x30, 0x01, 0x67, 0x2B, 0xFE, 0xD7, 0xAB, 0x76]
  ++ [0xCA, 0x82, 0xC9, 0x7D, 0xFA, 0x59, 0x47, 0xF0, 0xAD, 0xD4, 0xA2, 0xAF, 0x9C, 0xA4, 0x72, 0xC0]
  ++ [0xB7, 0xFD, 0x93, 0x26, 0x36, 0x3F, 0xF7, 0xCC, 0x34, 0xA5, 0xE5, 0xF1, 0x71, 0xD8, 0x31, 0x15]
  ++ [0x04, 0xC7, 0x23, 0xC3, 0x18, 0x96, 0x05, 0x9A, 0x07, 0x12, 0x80, 0xE2, 0xEB, 0x27, 0xB2, 0x75]
  ++ [0x09, 0x83, 0x2C, 0x1A, 0x1B, 0x6E, 0x5A, 0xA0, 0x52, 0x3B, 0xD6, 0xB3, 0x29, 0xE3, 0x2F, 0x84]
  ++ [0x53, 0xD1, 0x00, 0xED, 0x20, 0xFC, 0xB1, 0x5B, 0x6A, 0xCB, 0xBE, 0x39, 0x4A, 0x4C, 0x58, 0xCF]
  ++ [0xD0, 0xEF, 0xAA, 0xFB, 0x43, 0x4D, 0x33, 0x85, 0x45, 0xF9, 0x02, 0x7F, 0x50, 0x3C, 0x9F, 0xA8]
  ++ [0x51, 0xA3, 0x40, 0x8F, 0x92, 0x9D, 0x38, 0xF5, 0xBC, 0xB6, 0xDA, 0x21, 0x10, 0xFF, 0xF3, 0xD2]
  ++ [0xCD, 0x0C, 0x13, 0xEC, 0x5F, 0x97, 0x44, 0x17, 0xC4, 0xA7, 0x7E, 0x3D, 0x64, 0x5D, 0x19, 0x73]
  ++ [0x60, 0x81, 0x4F, 0xDC, 0x22, 0x2A, 0x90, 0x88, 0x46, 0xEE, 0xB8, 0x14, 0xDE, 0x5E, 0x0B, 0xDB]
  ++ [0xE0, 0x32, 0x3A, 0x0A, 0x49, 0x06, 0x24, 0x5C, 0xC2, 0xD3, 0xAC, 0x62, 0x91, 0x95, 0xE4, 0x79]
  ++ [0xE7, 0xC8, 0x37, 0x6D, 0x8D, 0xD5, 0x4E, 0xA9, 0x6C, 0x56, 0xF4, 0xEA, 0x65, 0x7A, 0xAE, 0x08]
  ++ [0xBA, 0x78, 0x25, 0x2E, 0x1C, 0xA6, 0xB4, 0xC6, 0xE8, 0xDD, 0x74, 0x1F, 0x4B, 0xBD, 0x8B, 0x8A]
  ++ [0x70, 0x3E, 0xB5, 0x66, 0x48, 0x03, 0xF6, 0x0E, 0x61, 0x35, 0x57, 0xB9, 0x86, 0xC1, 0x1D, 0x9E]
  ++ [0xE1, 0xF8, 0x98, 0x11, 0x69, 0xD9, 0x8E, 0x94, 0x9B, 0x1E, 0x87, 0xE9, 0xCE, 0x55, 0x28, 0xDF]
  ++ [0x8C, 0xA1, 0x89, 0x0D, 0xBF, 0xE6, 0x42, 0x68, 0x41, 0x99, 0x2D, 0x0F, 0xB0, 0x54, 0xBB, 0x16]

def subByte (b : Byte) : Byte := BitVec.ofNat 8 (aesSbox.getD b.toNat 0)

/-- The inverse S-box: the value whose substitution is `b`. -/
def invSubByte (b : Byte) : Byte := BitVec.ofNat 8 ((aesSbox.findIdx? fun x => x == b.toNat).getD 0)

/-- Multiplication by x in GF(2^8). -/
def xtime (b : Byte) : Byte := if b.getLsbD 7 then (b <<< 1) ^^^ 0x1B#8 else b <<< 1

/-- Multiplication in GF(2^8) by a constant below 16. -/
def gf8 (c : Nat) (b : Byte) : Byte :=
  let b2 := xtime b
  let b4 := xtime b2
  let b8 := xtime b4
  (if c % 2 = 1 then b else 0) ^^^ (if c / 2 % 2 = 1 then b2 else 0) ^^^ (if c / 4 % 2 = 1 then b4 else 0)
    ^^^ (if c / 8 % 2 = 1 then b8 else 0)

def xorBytes (a b : List Byte) : List Byte := List.zipWith (· ^^^ ·) a b

/-- The key schedule: words of four bytes, newest first, for a key of `nk` words; `n` words are still to come and `i` is the number
of the next. -/
def aesExpand (nk : Nat) : Nat → Nat → Byte → List (List Byte) → List (List Byte)
  | 0, _, _, l => l
  | n + 1, i, rc, l =>
    let t := l.getD 0 []
    let old := l.getD (nk - 1) []
    if i % nk = 0 then
      let r := (t.drop 1 ++ t.take 1).map subByte
      let r := xorBytes r [rc, 0, 0, 0]
      aesExpand nk n (i + 1) (xtime rc) (xorBytes old r :: l)
    else if nk = 8 ∧ i % 8 = 4 then aesExpand nk n (i + 1) rc (xorBytes old (t.map subByte) :: l)
    else aesExpand nk n (i + 1) rc (xorBytes old t :: l)

/-- The round keys of a 16- or 32-byte key. -/
def aesKeys (key : List Byte) : List (List Byte) :=
  let nk := key.length / 4
  let words := (chunks 4 nk key).reverse
  let all := (aesExpand nk (4 * (nk + 7) - nk) nk 1 words).reverse
  (chunks 4 (nk + 7) all).map fun ws => ws.flatMap id

def shiftRows (s : List Byte) : List Byte := (List.range 16).map fun i => s.getD ((i + 4 * (i % 4)) % 16) 0
def invShiftRows (s : List Byte) : List Byte := (List.range 16).map fun i => s.getD ((i + 16 - 4 * (i % 4)) % 16) 0

/-- MixColumns with the first row of its matrix. -/
def mixColumns (row : List Nat) (s : List Byte) : List Byte :=
  (List.range 16).map fun i =>
    let c := i / 4 * 4
    (List.range 4).foldl (fun a j => a ^^^ gf8 (row.getD ((j + 4 - i % 4) % 4) 0) (s.getD (c + j) 0)) 0

/-- AES encryption of one block under expanded keys. -/
def aesEnc (keys : List (List Byte)) (b : List Byte) : List Byte :=
  match keys with
  | [] => b
  | k0 :: rest =>
    let s := rest.dropLast.foldl (fun s k => xorBytes (mixColumns [2, 3, 1, 1] (shiftRows (s.map subByte))) k) (xorBytes b k0)
    xorBytes (shiftRows (s.map subByte)) (rest.getLast?.getD [])

/-- AES decryption of one block under expanded keys. -/
def aesDec (keys : List (List Byte)) (b : List Byte) : List Byte :=
  match keys.reverse with
  | [] => b
  | k0 :: rest =>
    let s := rest.dropLast.foldl (fun s k => mixColumns [14, 11, 13, 9] (xorBytes ((invShiftRows s).map invSubByte) k))
      (xorBytes b k0)
    xorBytes ((invShiftRows s).map invSubByte) (rest.getLast?.getD [])

/-! ### GCM -/

/-- Multiplication in GF(2^128) of GHASH, on 128-bit blocks. -/
def ghashMul (x y : BitVec 128) : BitVec 128 :=
  ((List.range 128).foldl (fun (a : BitVec 128 × BitVec 128) i =>
    let z := if x.getLsbD (127 - i) then a.1 ^^^ a.2 else a.1
    let v := if a.2.getLsbD 0 then (a.2 >>> 1) ^^^ 0xE1000000000000000000000000000000#128 else a.2 >>> 1
    (z, v)) (0, y)).1

def blockOf (l : List Byte) : BitVec 128 := BitVec.ofNat 128 (bytesNat (l ++ List.replicate (16 - l.length) 0))

/-- GHASH of blocks. -/
def ghash (h : BitVec 128) (l : List (BitVec 128)) : BitVec 128 := l.foldl (fun a b => ghashMul (a ^^^ b) h) 0

def blocksOf (l : List Byte) : List (BitVec 128) := (chunks 16 (l.length / 16 + 1) l).map blockOf

/-- The key stream of counter mode from a 16-byte counter block, whose low 32 bits count. -/
def ctrStream (keys : List (List Byte)) (iv : List Byte) (first n : Nat) : List Byte :=
  (List.range ((n + 15) / 16)).flatMap fun i => aesEnc keys (iv ++ natBytes 4 (first + i))

/-- AES-GCM encryption with a 12-byte IV: ciphertext and tag. -/
def gcmEncrypt (key iv aad p : List Byte) : List Byte × List Byte :=
  let keys := aesKeys key
  let h := blockOf (aesEnc keys (List.replicate 16 0))
  let c := xorBytes p (ctrStream keys iv 2 p.length)
  let s := ghash h (blocksOf aad ++ blocksOf c ++ [BitVec.ofNat 128 (8 * aad.length * 2 ^ 64 + 8 * c.length)])
  (c, xorBytes (natBytes 16 s.toNat) (ctrStream keys iv 1 16))

/-- AES-GCM decryption: the plaintext, if the tag matches. -/
def gcmDecrypt (key iv aad c tag : List Byte) : Option (List Byte) :=
  let keys := aesKeys key
  let h := blockOf (aesEnc keys (List.replicate 16 0))
  let s := ghash h (blocksOf aad ++ blocksOf c ++ [BitVec.ofNat 128 (8 * aad.length * 2 ^ 64 + 8 * c.length)])
  if xorBytes (natBytes 16 s.toNat) (ctrStream keys iv 1 16) = tag then some (xorBytes c (ctrStream keys iv 2 c.length)) else none

/-! ### XTS -/

/-- Multiplication of a tweak by x in GF(2^128), least significant byte first. -/
def xtsDouble (t : List Byte) : List Byte :=
  let v := bytesNat t.reverse
  let w := if 2 ^ 127 ≤ v then (v * 2 % 2 ^ 128) ^^^ 0x87 else v * 2
  (natBytes 16 w).reverse

/-- The tweaks of `n` blocks. -/
def xtsTweaks : Nat → List Byte → List (List Byte)
  | 0, _ => []
  | n + 1, t => t :: xtsTweaks n (xtsDouble t)

/-- AES-XTS of one data unit of at least 16 bytes, with ciphertext stealing. -/
def xts (enc : Bool) (key1 key2 tweak l : List Byte) : List Byte :=
  let k1 := aesKeys key1
  let t0 := aesEnc (aesKeys key2) tweak
  let n := l.length / 16
  let r := l.length % 16
  let ts := xtsTweaks (n + 1) t0
  let one (t b : List Byte) : List Byte := xorBytes ((if enc then aesEnc else aesDec) k1 (xorBytes b t)) t
  let bs := chunks 16 n l
  if r = 0 then (List.zipWith one ts bs).flatMap id
  else
    let headN := n - 1
    let front := (List.zipWith one (ts.take headN) (bs.take headN)).flatMap id
    let last := bs.getD headN []
    let part := l.drop (16 * n)
    let tA := ts.getD (if enc then headN else n) []
    let tB := ts.getD (if enc then n else headN) []
    let cc := one tA last
    let final := one tB (part ++ cc.drop r)
    front ++ final ++ cc.take r

/-! ### CBC -/

def cbcEncrypt (key iv l : List Byte) : List Byte :=
  let keys := aesKeys key
  ((chunks 16 (l.length / 16) l).foldl (fun (a : List Byte × List Byte) b =>
    let c := aesEnc keys (xorBytes b a.1)
    (c, a.2 ++ c)) (iv, [])).2

def cbcDecrypt (key iv l : List Byte) : List Byte :=
  let keys := aesKeys key
  ((chunks 16 (l.length / 16) l).foldl (fun (a : List Byte × List Byte) b =>
    (b, a.2 ++ xorBytes (aesDec keys b) a.1)) (iv, [])).2

end Sys2Proof.Machine
end

