-- ==== Sys2Proof/Machine/Drbg.lean ====
section
/-! DEFINITION. CTR_DRBG with AES-256 and the derivation function (NIST SP 800-90A), and the DRBG instances of a seam (R420, R421). -/

namespace Sys2Proof.Machine

/-- Xor of two lists of bytes of one length. -/
def xorList (a b : List Byte) : List Byte := List.zipWith (· ^^^ ·) a b

/-- BCC of SP 800-90A: CBC-MAC over whole blocks. -/
def drbgBcc (keys : List (List Byte)) (l : List Byte) : List Byte :=
  (chunks 16 (l.length / 16) l).foldl (fun c b => aesEnc keys (xorList c b)) (List.replicate 16 0)

/-- The derivation function, for 48 bytes. -/
def drbgDf (input : List Byte) : List Byte :=
  let s := natBytes 4 input.length ++ natBytes 4 48 ++ input ++ [0x80]
  let s := s ++ List.replicate ((16 - s.length % 16) % 16) 0
  let k := aesKeys ((List.range 32).map fun i => BitVec.ofNat 8 i)
  let bcc (i : Nat) : List Byte := drbgBcc k (natBytes 4 i ++ List.replicate 12 0 ++ s)
  let t := bcc 0 ++ bcc 1 ++ bcc 2
  let keys := aesKeys (t.take 32)
  let x := (t.drop 32).take 16
  let a := aesEnc keys x
  let b := aesEnc keys a
  a ++ b ++ aesEnc keys b

/-- Blocks of output: V counts before each. -/
def drbgBlocks (keys : List (List Byte)) (v : BitVec 128) (n : Nat) : List Byte :=
  (List.range n).flatMap fun i => aesEnc keys (natBytes 16 (v + BitVec.ofNat 128 (i + 1)).toNat)

/-- CTR_DRBG_Update. -/
def Drbg.update (d : Drbg) (data : List Byte) : Drbg :=
  let t := xorList (drbgBlocks (aesKeys (natBytes 32 d.key.toNat)) d.v 3) data
  { d with key := BitVec.ofNat 256 (bytesNat (t.take 32)), v := BitVec.ofNat 128 (bytesNat (t.drop 32)) }

/-- Instantiation with 48 bytes of entropy, a 16-byte nonce and a personalisation string. -/
def drbgInstantiate (entropy nonce pers : List Byte) : Drbg :=
  ({ key := 0, v := 0, served := 0, due := false } : Drbg).update (drbgDf (entropy ++ nonce ++ pers))

/-- Reseeding with 48 bytes of entropy and additional input. -/
def Drbg.reseed (d : Drbg) (entropy add : List Byte) : Drbg :=
  { d.update (drbgDf (entropy ++ add)) with served := 0, due := false }

/-- Generation of `n` bytes with additional input. -/
def Drbg.generate (d : Drbg) (n : Nat) (add : List Byte) : Drbg × List Byte :=
  let a := if add.isEmpty then List.replicate 48 0 else drbgDf add
  let d := if add.isEmpty then d else d.update a
  let blocks := (n + 15) / 16
  let out := (drbgBlocks (aesKeys (natBytes 32 d.key.toNat)) d.v blocks).take n
  let d := ({ d with v := d.v + BitVec.ofNat 128 blocks } : Drbg).update a
  ({ d with served := d.served + 1 }, out)

/-! ### Blocks and instances -/

/-- The next conditioned block of the entropy source (R418), 48 bytes; a free value while none has been conditioned (log entry 31). -/
def State.entropyBlock (s : State) : State × List Byte :=
  match s.entropy.blocks with
  | b :: l => ({ s with entropy := { s.entropy with blocks := l } }, natBytes 48 b)
  | [] => ({ s with free := s.free + 6 }, (List.range 6).flatMap fun i => wordBytes (Config.freeWord (s.free + i)))

def drbgKey (seam inst : Nat) : Nat := seam * 8 + inst

def State.drbgOf (s : State) (seam inst : Nat) : Option Drbg := s.drbg.look none (drbgKey seam inst)

def State.setDrbg (s : State) (seam inst : Nat) (d : Option Drbg) : State :=
  { s with drbg := s.drbg.put none (drbgKey seam inst) d }

/-- The personalisation string of an instance: seam, GEN, instance, the module's UNIT_LOT, zeros (R420; widths in log entry 32). -/
def State.persString (s : State) (seam inst : Nat) : List Byte :=
  padTo 16 (natBytes 1 seam ++ natBytes 4 (s.rd uSeamCtl (Reg.SEAM_STATE.GEN.ix seam)) ++ natBytes 1 inst
    ++ natBytes 8 (Config.lot 0xFF).toNat)

/-- Instantiate one DRBG instance (R420), with its Tally record. -/
def State.instantiate (s : State) (seam inst : Nat) : State :=
  let e := s.entropyBlock
  let n := e.1.entropyBlock
  let d := drbgInstantiate e.2 (n.2.take 16) (n.1.persString seam inst)
  (n.1.setDrbg seam inst (some d)).tallyEvent (some uEntropy) 0x0C 0x01 7 seam (payload8 0 (beBytes 1 seam ++ beBytes 1 inst))

end Sys2Proof.Machine
end

