-- ==== Sys2Proof/Machine/Inflate.lean ====
section
/-! DEFINITION. DEFLATE of RFC 1951 with the containers of RFC 1950 and RFC 1952, as the Crusher reads and writes them (R412-R415). -/

namespace Sys2Proof.Machine

/-- How a decompression ends badly: invalid data, no room for the output, or a failed container check (R408, R415). -/
inductive InflateErr where
  | bad | full | check
  deriving DecidableEq, Repr

/-- The bits of bytes, the least significant bit of each byte first. -/
def deflateBits (l : List Byte) : List Bool := l.flatMap fun b => (List.range 8).map fun i => b.getLsbD i

/-- A number of `n` bits, the least significant first, and the bits after it. -/
def takeBits : Nat → List Bool → Option (Nat × List Bool)
  | 0, l => some (0, l)
  | _ + 1, [] => none
  | n + 1, b :: l => (takeBits n l).map fun r => ((if b then 1 else 0) + 2 * r.1, r.2)

/-- A Huffman code: how many codes have 1, 2, … 15 bits, and the symbols in the order of their codes. -/
structure Huffman where
  counts : List Nat
  syms : List Nat
  deriving DecidableEq, Repr

def huffman (lens : List Nat) : Huffman :=
  { counts := (List.range 15).map fun i => (lens.filter (· == i + 1)).length,
    syms := (List.range 15).flatMap fun i => (lens.zipIdx.filter fun e => e.1 == i + 1).map Prod.snd }

/-- The codes that a set of lengths leaves unused; none where it uses more than there are. -/
def Huffman.left (h : Huffman) : Option Nat :=
  h.counts.foldl (fun (a : Option Nat) c => a.bind fun x => if c ≤ 2 * x then some (2 * x - c) else none) (some 1)

/-- Is the set of lengths complete, or, where `one`, at most one code of one bit? -/
def Huffman.sound (h : Huffman) (one : Bool) : Bool :=
  match h.left with
  | none => false
  | some 0 => true
  | some _ => one && decide (h.syms.length ≤ 1) && decide (h.counts.headD 0 = h.syms.length)

/-- The next symbol of a code. -/
def Huffman.read (h : Huffman) : List Nat → Nat → Nat → Nat → List Bool → Option (Nat × List Bool)
  | [], _, _, _, _ => none
  | _ :: _, _, _, _, [] => none
  | c :: cs, code, first, index, b :: l =>
    let code := code + (if b then 1 else 0)
    if code < first + c then (h.syms[index + (code - first)]?).map fun y => (y, l)
    else h.read cs (2 * code) (2 * (first + c)) (index + c) l

def Huffman.symbol (h : Huffman) (l : List Bool) : Option (Nat × List Bool) := h.read h.counts 0 0 0 l

def lengthBase : List Nat :=
  [3, 4, 5, 6, 7, 8, 9, 10, 11, 13, 15, 17, 19, 23, 27, 31, 35, 43, 51, 59, 67, 83, 99, 115, 131, 163, 195, 227, 258]
def lengthExtra : List Nat := [0, 0, 0, 0, 0, 0, 0, 0, 1, 1, 1, 1, 2, 2, 2, 2, 3, 3, 3, 3, 4, 4, 4, 4, 5, 5, 5, 5, 0]
def distBase : List Nat :=
  [1, 2, 3, 4, 5, 7, 9, 13, 17, 25, 33, 49, 65, 97, 129, 193, 257, 385, 513, 769, 1025, 1537, 2049, 3073, 4097, 6145, 8193, 12289,
   16385, 24577]
def distExtra : List Nat :=
  [0, 0, 0, 0, 1, 1, 2, 2, 3, 3, 4, 4, 5, 5, 6, 6, 7, 7, 8, 8, 9, 9, 10, 10, 11, 11, 12, 12, 13, 13]

/-- Output in progress: the bytes, the newest first, with a dictionary behind them, and how many are output. -/
structure Inflating where
  out : List Byte
  n : Nat
  deriving DecidableEq, Repr

def Inflating.put (o : Inflating) (b : Byte) : Inflating := ⟨b :: o.out, o.n + 1⟩

/-- Copy bytes from a distance. -/
def Inflating.copy (o : Inflating) (dist : Nat) : Nat → Inflating
  | 0 => o
  | k + 1 => (o.put (o.out.getD (dist - 1) 0)).copy dist k

/-- The symbols of a compressed block, up to its end; `fuel` bounds their number. -/
def inflateSyms (lit dst : Huffman) (limit : Nat) : Nat → Inflating → List Bool → Except InflateErr (Inflating × List Bool)
  | 0, _, _ => .error .bad
  | fuel + 1, o, l =>
    match lit.symbol l with
    | none => .error .bad
    | some (y, l) =>
      if y < 256 then
        if limit ≤ o.n then .error .full else inflateSyms lit dst limit fuel (o.put (BitVec.ofNat 8 y)) l
      else if y = 256 then .ok (o, l)
      else if 285 < y then .error .bad
      else match takeBits (lengthExtra.getD (y - 257) 0) l with
        | none => .error .bad
        | some (e, l) =>
          let len := lengthBase.getD (y - 257) 0 + e
          match dst.symbol l with
          | none => .error .bad
          | some (d, l) =>
            if 29 < d then .error .bad
            else match takeBits (distExtra.getD d 0) l with
              | none => .error .bad
              | some (e, l) =>
                let dist := distBase.getD d 0 + e
                if o.out.length < dist then .error .bad
                else if limit < o.n + len then .error .full
                else inflateSyms lit dst limit fuel (o.copy dist len) l

/-- The code lengths of a dynamic block, run by run; `n` are wanted. -/
def readLengths (h : Huffman) (n : Nat) : Nat → List Nat → List Bool → Option (List Nat × List Bool)
  | 0, _, _ => none
  | fuel + 1, acc, l =>
    if n < acc.length then none
    else if n = acc.length then some (acc.reverse, l)
    else match h.symbol l with
      | none => none
      | some (y, l) =>
        if y < 16 then readLengths h n fuel (y :: acc) l
        else
          let spec := if y = 16 then (acc.head?, 2, 3) else if y = 17 then (some 0, 3, 3) else (some 0, 7, 11)
          match spec.1, takeBits spec.2.1 l with
          | some v, some (e, l) => readLengths h n fuel (List.replicate (spec.2.2 + e) v ++ acc) l
          | _, _ => none

def codeOrder : List Nat := [16, 17, 18, 0, 8, 7, 9, 6, 10, 5, 11, 4, 12, 3, 13, 2, 14, 1, 15]

/-- Several numbers of three bits. -/
def takeTriples : Nat → List Bool → Option (List Nat × List Bool)
  | 0, l => some ([], l)
  | n + 1, l => match takeBits 3 l with
    | none => none
    | some (v, l) => (takeTriples n l).map fun r => (v :: r.1, r.2)

/-- The two codes of a dynamic block. -/
def dynamicCodes (l : List Bool) : Option (Huffman × Huffman × List Bool) :=
  match takeBits 14 l with
  | none => none
  | some (h, l) =>
    let nlit := h % 32 + 257
    let ndist := h / 32 % 32 + 1
    let ncode := h / 1024 + 4
    if 286 < nlit ∨ 30 < ndist then none
    else match takeTriples ncode l with
      | none => none
      | some (v, l) =>
        let lens := (List.range 19).map fun i => v.getD ((codeOrder.findIdx? (· == i)).getD 19) 0
        let hc := huffman lens
        if hc.left ≠ some 0 then none
        else match readLengths hc (nlit + ndist) 400 [] l with
          | none => none
          | some (all, l) =>
            let lit := huffman (all.take nlit)
            let dst := huffman (all.drop nlit)
            if all.getD 256 0 = 0 ∨ !lit.sound true ∨ !(dst.sound true || dst.syms.isEmpty) then none
            else some (lit, dst, l)

def fixedLit : Huffman :=
  huffman (List.replicate 144 8 ++ List.replicate 112 9 ++ List.replicate 24 7 ++ List.replicate 8 8)
def fixedDist : Huffman := huffman (List.replicate 30 5)

/-- Bytes from a bit position on a byte boundary. -/
def takeBytes : Nat → List Bool → Option (List Byte × List Bool)
  | 0, l => some ([], l)
  | n + 1, l => match takeBits 8 l with
    | none => none
    | some (v, l) => (takeBytes n l).map fun r => (BitVec.ofNat 8 v :: r.1, r.2)

/-- The blocks of a stream, up to the final one; `total` bits came in. -/
def inflateBlocks (limit total : Nat) : Nat → Inflating → List Bool → Except InflateErr (Inflating × List Bool)
  | 0, _, _ => .error .bad
  | fuel + 1, o, l =>
    match takeBits 3 l with
    | none => .error .bad
    | some (h, l) =>
      let body : Except InflateErr (Inflating × List Bool) :=
        match h / 2 with
        | 0 =>
          let l := l.drop ((8 - (total - l.length) % 8) % 8)
          match takeBits 16 l with
          | none => .error .bad
          | some (len, l) => match takeBits 16 l with
            | none => .error .bad
            | some (nlen, l) =>
              if len + nlen ≠ 65535 then .error .bad
              else match takeBytes len l with
                | none => .error .bad
                | some (bytes, l) =>
                  if limit < o.n + len then .error .full else .ok (⟨bytes.reverse ++ o.out, o.n + len⟩, l)
        | 1 => inflateSyms fixedLit fixedDist limit (l.length + 1) o l
        | 2 => match dynamicCodes l with
          | none => .error .bad
          | some (lit, dst, l) => inflateSyms lit dst limit (l.length + 1) o l
        | _ => .error .bad
      match body with
      | .error e => .error e
      | .ok (o, l) => if h % 2 = 1 then .ok (o, l) else inflateBlocks limit total fuel o l

/-- Inflate a raw stream with a dictionary: the output and the bytes consumed. -/
def inflateRaw (dict src : List Byte) (limit : Nat) : Except InflateErr (List Byte × Nat) :=
  let bits := deflateBits src
  match inflateBlocks limit bits.length (bits.length + 1) ⟨dict.reverse, 0⟩ bits with
  | .error e => .error e
  | .ok (o, l) => .ok ((o.out.take o.n).reverse, (bits.length - l.length + 7) / 8)

/-! ### Containers -/

/-- A number from bytes, the least significant first. -/
def leNum (l : List Byte) : Nat := l.foldr (fun b a => b.toNat + 256 * a) 0

/-- `n` bytes of a number, the least significant first. -/
def leNumBytes (n v : Nat) : List Byte := (List.range n).map fun i => BitVec.ofNat 8 (v >>> (8 * i))

/-- `n` bytes of a number, the most significant first. -/
def beNumBytes (n v : Nat) : List Byte := (leNumBytes n v).reverse

def beNum (l : List Byte) : Nat := l.foldl (fun a b => a * 256 + b.toNat) 0

/-- A zlib stream (RFC 1950): output, bytes consumed. `dict` is the dictionary if DICT is 1. -/
def inflateZlib (dict : Option (List Byte)) (src : List Byte) (limit : Nat) : Except InflateErr (List Byte × Nat) :=
  match src with
  | cmf :: flg :: rest =>
    if (cmf.toNat * 256 + flg.toNat) % 31 ≠ 0 ∨ cmf.toNat % 16 ≠ 8 ∨ 7 < cmf.toNat / 16 then .error .check
    else
      let fdict := flg.getLsbD 5
      let go (d : List Byte) (body : List Byte) (hdr : Nat) : Except InflateErr (List Byte × Nat) :=
        match inflateRaw d body limit with
        | .error e => .error e
        | .ok (o, n) =>
          let t := (body.drop n).take 4
          if t.length < 4 then .error .bad
          else if beNum t ≠ adler32 o then .error .check
          else .ok (o, hdr + n + 4)
      if fdict then
        if rest.length < 4 then .error .bad
        else match dict with
          | none => .error .check
          | some d => if beNum (rest.take 4) ≠ adler32 d then .error .check else go d (rest.drop 4) 6
      else go [] rest 2
  | _ => .error .bad

/-- Skip a string that a zero byte ends. -/
def skipString : List Byte → Option (List Byte)
  | [] => none
  | b :: l => if b = 0 then some l else skipString l

/-- The bytes after the header of a gzip member (RFC 1952), whose options may be any. -/
def gzipHeader (src : List Byte) : Except InflateErr (List Byte) :=
  if src.length < 10 then .error .bad
  else
    let flg := (src.getD 3 0).toNat
    if src.take 3 ≠ [0x1F, 0x8B, 8] ∨ 32 ≤ flg then .error .check
    else
      let l := src.drop 10
      let extra : Option (List Byte) :=
        if flg / 4 % 2 = 1 then
          (if l.length < 2 ∨ l.length < 2 + leNum (l.take 2) then none else some (l.drop (2 + leNum (l.take 2))))
        else some l
      let named := extra.bind fun l => if flg / 8 % 2 = 1 then skipString l else some l
      let noted := named.bind fun l => if flg / 16 % 2 = 1 then skipString l else some l
      match noted with
      | none => .error .bad
      | some l =>
        if flg / 2 % 2 = 1 then
          if l.length < 2 then .error .bad
          else if leNum (l.take 2) ≠ (crc32 (src.take (src.length - l.length))).toNat % 65536 then .error .check
          else .ok (l.drop 2)
        else .ok l

/-- A gzip stream of one member. -/
def inflateGzip (src : List Byte) (limit : Nat) : Except InflateErr (List Byte × Nat) :=
  match gzipHeader src with
  | .error e => .error e
  | .ok body => match inflateRaw [] body limit with
    | .error e => .error e
    | .ok (o, n) =>
      let t := (body.drop n).take 8
      if t.length < 8 then .error .bad
      else if leNum (t.take 4) ≠ (crc32 o).toNat ∨ leNum (t.drop 4) ≠ o.length % 2 ^ 32 then .error .check
      else .ok (o, src.length - body.length + n + 8)

/-! ### Compression (R414) -/

/-- A stored block. -/
def storedBlock (final : Bool) (l : List Byte) : List Byte :=
  BitVec.ofNat 8 (if final then 1 else 0) :: (leNumBytes 2 l.length ++ leNumBytes 2 (65535 - l.length) ++ l)

/-- Stored blocks for all of the input; a stored block holds at most 65,535 bytes. -/
def storedBody : Nat → List Byte → List Byte
  | 0, l => storedBlock true l
  | fuel + 1, l => if l.length ≤ 65535 then storedBlock true l else storedBlock false (l.take 65535) ++ storedBody fuel (l.drop 65535)

/-- The container around a body (R414). -/
def deflateWrap (container : Nat) (dict : Option (List Byte)) (src body : List Byte) : List Byte :=
  match container with
  | 0 => body
  | 1 =>
    let head : List Byte := match dict with
      | some d => [0x78, 0xBB] ++ beNumBytes 4 (adler32 d)
      | none => [0x78, 0x9C]
    head ++ body ++ beNumBytes 4 (adler32 src)
  | _ => [0x1F, 0x8B, 8, 0, 0, 0, 0, 0, 0, 0xFF] ++ body ++ leNumBytes 4 (crc32 src).toNat ++ leNumBytes 4 src.length

end Sys2Proof.Machine
end

