-- ==== Sys2Proof/Machine/Engines.lean ====
section
/-! DEFINITION. The servers of job rings (R404-R411): the Crusher and cipher engines and the entropy source as servers of descriptors:
pick-up, quanta, stores of results and ends of jobs. The operations stand in Machine/Crusher.lean, Cipher.lean and Entropy.lean. -/

namespace Sys2Proof.Machine

/-- The unit of a server. -/
def EngineId.unit : EngineId → UnitId
  | .crusher n => ⟨.crusher, n.val⟩
  | .cipher n => ⟨.cipher, n.val⟩
  | .entropy => ⟨.entropy, 0⟩

/-- All servers. -/
def EngineId.all : List EngineId :=
  (List.finRange 4).map .crusher ++ (List.finRange 8).map .cipher ++ [.entropy]

def EngineId.isEntropy : EngineId → Bool
  | .entropy => true | _ => false

/-- Where a server's registers stand: the engines' page (R426) or the entropy source's (R427). -/
def EngineId.ring (e : EngineId) (seam : Nat) : Field × Field × Field :=
  if e.isEntropy then (Reg.ENT_RING.BASE.ix seam, Reg.ENT_RING.K.ix seam, Reg.ENT_HEAD.HEAD.ix seam)
  else (Reg.ENG_RING.BASE.ix seam, Reg.ENG_RING.K.ix seam, Reg.ENG_HEAD.HEAD.ix seam)

def EngineId.en (e : EngineId) : Field := if e.isEntropy then Reg.ENT_CFG.EN else Reg.ENG_CFG.EN

def State.engine (s : State) (e : EngineId) : Engine := s.engines.look Engine.reset e.unit.key
def State.setEngine (s : State) (e : EngineId) (x : Engine) : State :=
  { s with engines := s.engines.put Engine.reset e.unit.key x }

/-- The job taken from a seam's ring and not done. -/
def State.job (s : State) (e : EngineId) (seam : Nat) : Option Job := (s.engine e).jobs.look none seam
def State.setJob (s : State) (e : EngineId) (seam : Nat) (j : Option Job) : State :=
  let x := s.engine e
  s.setEngine e { x with jobs := x.jobs.put none seam j }

/-- K of a ring; 0 where it is disabled (R426). -/
def State.jobK (s : State) (e : EngineId) (seam : Nat) : Nat :=
  let k := s.rd e.unit (e.ring seam).2.1
  if 5 ≤ k ∧ k ≤ 12 ∧ (e.isEntropy = false ∨ seam ≠ 0) then k else 0

/-- The address of the descriptor at HEAD of a ring. -/
def State.headAddr (s : State) (e : EngineId) (seam : Nat) : Nat :=
  let f := e.ring seam
  s.rd e.unit f.1 * 128 + s.rd e.unit f.2.2 * 128

/-- The owner byte of a quantum (R409). -/
def State.quantumOwner (s : State) (e : EngineId) (q : Nat) : Nat :=
  let f := if e.isEntropy then Reg.ENT_QOWN.QOWN.ix (q / 8) else Reg.ENG_QOWN.QOWN.ix (q / 8)
  (s.word e.unit f.off).field (8 * (q % 8)) (8 * (q % 8) + 7)

/-- Reserved mode (R270). -/
def State.resMode (s : State) : Bool := s.flag uSeamCtl Reg.SEAM_MODE.RESMODE

/-- Does the server serve rings now: enabled, operating, and for an engine not in the survival envelope (R475)? -/
def State.serving (s : State) (e : EngineId) : Bool :=
  s.operates e.unit && s.flag e.unit e.en && !s.stopped && (e.isEntropy || s.power.envelope != 2) && s.power.mode == .on

/-- A big-endian field of a descriptor or parameter block. -/
def fieldAt (l : List Byte) (off n : Nat) : Nat := bytesNat ((l.drop off).take n)

/-- Does a ring hold a job: one in progress, or a descriptor with GO 1? -/
def State.ringHasJob (s : State) (e : EngineId) (seam : Nat) : Bool :=
  s.jobK e seam != 0 && s.seamState seam == 1 &&
    ((s.job e seam).isSome ||
      (let r := s.agentRead seam (s.headAddr e seam) 128
       r.2.2 == .done && decide (128 ≤ fieldAt r.2.1 0x78 1)))

/-- The next ring that holds a job, in seam order after the last one served (R409). -/
def State.nextRing (s : State) (e : EngineId) : Option Nat :=
  ((List.range 64).map fun i => ((s.engine e).lastSeam + 1 + i) % 64).find? (s.ringHasJob e)

/-- May a quantum serve the seam's ring (R409, R411)? With RESMODE 0 an idle unit goes to the next ring that holds a job. -/
def State.serves1 (s : State) (e : EngineId) (seam : Nat) : Bool :=
  let x := s.engine e
  s.serving e && s.jobK e seam != 0 && s.seamState seam == 1
    && (if s.resMode then (let o := s.quantumOwner e x.quantum; if o = 0xFF then seam == 0 else seam == o)
        else x.seamNow == some seam || (x.seamNow == none && s.nextRing e == some seam))

/-! ### Descriptors (R405) -/

def Job.op (j : Job) : Nat := fieldAt j.line 2 1
def Job.flags (j : Job) : Nat := fieldAt j.line 3 1
def Job.opt (j : Job) : Nat := fieldAt j.line 4 4
def Job.src (j : Job) : Nat := fieldAt j.line 8 8
def Job.dst (j : Job) : Nat := fieldAt j.line 0x10 8
def Job.aux (j : Job) : Nat := fieldAt j.line 0x18 8
def Job.srcLen (j : Job) : Nat := fieldAt j.line 0x20 4
def Job.dstLen (j : Job) : Nat := fieldAt j.line 0x24 4
def Job.auxLen (j : Job) : Nat := fieldAt j.line 0x28 4
def Job.save (j : Job) : Nat := fieldAt j.line 0x30 8
def Job.hintWu (j : Job) : Nat := fieldAt j.line 0x38 8

/-- Bits `lo:hi` of OPT, in the numbering of R4. -/
def Job.optBits (j : Job) (lo hi : Nat) : Nat := j.opt / 2 ^ (31 - hi) % 2 ^ (hi + 1 - lo)

/-- Does the server implement OP (R413, R416, R421)? -/
def servesOp (e : EngineId) (op : Nat) : Bool :=
  match e with
  | .crusher _ => op == 1 || op == 2
  | .cipher _ => (decide (0x10 ≤ op) && decide (op ≤ 0x15)) || op == 0x20 || (decide (0x30 ≤ op) && decide (op ≤ 0x34))
  | .entropy => op == 0x40 || op == 0x41

/-- The AUX_LEN that a cipher operation asks for (R416). -/
def auxSize (op : Nat) : Nat :=
  if op = 0x10 ∨ op = 0x11 then 64 else if op = 0x12 ∨ op = 0x13 then 80 else if op = 0x14 ∨ op = 0x15 then 48
  else if op = 0x20 then 0 else if op = 0x30 then 96 else if op = 0x31 then 240 else if op = 0x32 then 64
  else if op = 0x33 then 96 else 568

/-- Is OPT one of the values of its operation? -/
def optValid (j : Job) : Bool :=
  let op := j.op
  if op = 1 then
    j.optBits 0 1 != 3 && j.optBits 2 3 != 3 && j.optBits 5 31 == 0 && (j.optBits 4 4 == 0 || j.optBits 0 1 != 2)
  else if op = 2 then
    j.optBits 0 1 != 3 && j.optBits 2 3 == 0 && j.optBits 5 31 == 0 && (j.optBits 4 4 == 0 || j.optBits 0 1 != 2)
  else if op ≤ 0x15 ∨ op = 0x30 ∨ op = 0x31 then decide (j.optBits 0 1 ≤ 1) && j.optBits 2 31 == 0
  else if op = 0x20 then j.optBits 2 31 == 0
  else if op = 0x32 ∨ op = 0x33 then j.opt == 0
  else if op = 0x34 then j.optBits 2 15 == 0 && decide (1024 ≤ j.optBits 16 31) && decide (j.optBits 16 31 ≤ 4096)
  else j.optBits 4 31 == 0 && (op == 0x40 || j.optBits 3 3 == 0)

/-- Are the lengths of a descriptor in range (R405, R413, R416, R421)? -/
def lensValid (j : Job) : Bool :=
  let op := j.op
  decide (j.srcLen ≤ 16777216) && decide (j.dstLen ≤ 16777216)
    && (if op = 1 ∨ op = 2 then j.optBits 4 4 == 0 || (decide (1 ≤ j.auxLen) && decide (j.auxLen ≤ 32768))
        else if op = 0x40 then decide (1 ≤ j.dstLen) && decide (j.dstLen ≤ 65536) && decide (j.auxLen ≤ 48)
        else if op = 0x41 then decide (j.auxLen ≤ 48)
        else j.auxLen == auxSize op
          && (if op = 0x11 ∨ op = 0x12 ∨ op = 0x13 then decide (16 ≤ j.srcLen)
              else if op = 0x14 ∨ op = 0x15 then j.srcLen % 16 == 0 else true))

/-- The reserved bytes and bits of a descriptor are 0, and FORMAT is 1 (R405). -/
def formValid (j : Job) : Bool :=
  fieldAt j.line 0 2 == 1 && j.flags % 64 == 0 && fieldAt j.line 0x2C 4 == 0 && fieldAt j.line 0x70 8 == 0
    && fieldAt j.line 0x78 8 % 2 ^ 62 == 0

/-- The STATUS with which a descriptor is refused when it is taken (R408); none if it is good. -/
def descStatus (e : EngineId) (j : Job) : Option Nat :=
  if !formValid j ∨ !servesOp e j.op ∨ !optValid j ∨ !lensValid j then some 0x10
  else if j.save % 2048 ≠ 0 then some 0x11
  else none

/-- The job is to end with a STATUS, OUT_LEN bytes stored and CHECK as given. -/
def Job.ends (j : Job) (status outLen : Nat) (check : Word) : Job :=
  { j with performed := true, status := status, outLen := outLen, check := check }

/-- A check value and a number of bytes consumed (R405). -/
def checkWord (value consumed : Nat) : Word := BitVec.ofNat 64 (value % 2 ^ 32 * 2 ^ 32 + consumed % 2 ^ 32)

/-- The CHECK of a job of which the spec states no check value: a free value. -/
def State.freeCheck (s : State) : State × Word := s.freeValue

/-- A unit reads the descriptor at HEAD and takes the job if GO is 1 (R406). A ring whose descriptor cannot be read, or is poisoned, is
idle (log entry 33); an uncorrectable map entry checkstops the seam. CHECK is a free value until an operation gives one. -/
def State.pickUp (s : State) (e : EngineId) (seam : Nat) : State :=
  if !s.serves1 e seam ∨ (s.job e seam).isSome then s
  else
    let addr := s.headAddr e seam
    let r := s.agentRead seam addr 128
    if r.2.2 ≠ .done then r.1.agentFault seam r.2.2
    else if fieldAt r.2.1 0x78 1 < 128 then r.1
    else
      let c := r.1.freeCheck
      let j : Job := { addr := addr, line := r.2.1, performed := false, status := 0, outLen := 0, check := c.2, saved := false }
      let j := match descStatus e j with
        | some st => j.ends st 0 c.2
        | none => j
      let f := (e.ring seam).2.2
      let s := c.1.wr e.unit f ((c.1.rd e.unit f + 1) % 2 ^ c.1.jobK e seam)
      let x := s.engine e
      (s.setEngine e { x with seamNow := some seam, lastSeam := seam }).setJob e seam (some j)

/-- RING_POLL (R406): the idle ring of the current quantum is read again, and a job that waits there is taken. -/
def onRingPoll (e : EngineId) (seam : Fin 64) (s : State) : State := s.pickUp e seam.val

/-- JOB_PICKUP (R406). -/
def onJobPickup (e : EngineId) (seam : Fin 64) (s : State) : State := s.pickUp e seam.val

/-- The job that an operation is to perform: taken, served now, in the unit and not in its save area, not performed yet, with this OP. -/
def State.toPerform (s : State) (e : EngineId) (seam op : Nat) : Option Job :=
  if !s.serves1 e seam then none
  else match s.job e seam with
    | some j => if !j.performed ∧ !j.saved ∧ j.op = op then some j else none
    | none => none

/-! ### Reads and stores of a job -/

/-- What a job's read gives: the bytes, or the STATUS that ends the job; none where the job stays saved (R408, R411). -/
inductive JobRead where
  | bytes (l : List Byte)
  | fails (status : Nat)
  | stays
  deriving DecidableEq, Repr

/-- Read bytes for a job. -/
def State.jobRead (s : State) (seam addr n : Nat) : State × JobRead :=
  let r := s.agentRead seam addr n
  match r.2.2 with
  | .done => (r.1, .bytes r.2.1)
  | .poisoned => (r.1, .fails 0x18)
  | .outside | .unmapped => (r.1, .fails 0x11)
  | e => (r.1.agentFault seam e, .stays)

/-- The target of output line `i` of `n` lines: the last L2_LINES go to the L2 of the core that a HINT names (R407). -/
def outHint (target : Option HintTarget) (l2 n i : Nat) : Option HintTarget :=
  if n ≤ i + l2 then target else none

/-- The target of a HINT (R407): the core that runs or is reserved for HINT_WU, else the L3 of the tile that R235 would choose. -/
def State.jobHint (s : State) (j : Job) : Option HintTarget :=
  if j.flags / 64 % 2 = 0 then none
  else
    let num := j.hintWu % 2 ^ 56
    let w := s.work num
    if w.run = .none ∨ w.seam ≠ j.hintWu / 2 ^ 56 then none
    else match w.run with
      | .running k => some (.l2 k)
      | _ => match allCores.find? fun k => s.reservedFor k == some num with
        | some k => some (.l2 k)
        | none => (s.chooseCore num none).map fun k => .l3 (k / 12)

/-- Store the output of a job line by line: how many bytes were stored, and how it ended. -/
def State.storeOut (s : State) (seam addr : Nat) (bytes : List Byte) (target : Option HintTarget) : State × Nat × AgentEnd :=
  let pieces := piecesOf addr bytes.length
  let l2 := s.hintLines.1
  (pieces.zipIdx).foldl (fun (a : State × Nat × AgentEnd) p =>
    if a.2.2 != .done then a
    else
      let r := a.1.agentWrite seam p.1.1 ((bytes.drop a.2.1).take p.1.2) fun _ => outHint target l2 pieces.length p.2
      if r.2 = .done then (r.1, a.2.1 + p.1.2, .done) else (r.1, a.2.1, r.2)) (s, 0, .done)

/-- Free bytes, for what the spec does not state. -/
def State.freeBytes (s : State) (n : Nat) : State × List Byte :=
  ({ s with free := s.free + n }, (List.range n).map fun i => (Config.freeWord (s.free + i)).setWidth 8)

/-- Store output and settle how the job ends: an address outside the allotment ends it with 0x11. -/
def State.storeJob (s : State) (e : EngineId) (seam : Nat) (j : Job) (status : Nat) (out : List Byte) (check : Word) : State :=
  let r := s.storeOut seam j.dst out (s.jobHint j)
  match r.2.2 with
  | .done => r.1.setJob e seam (some (j.ends status r.2.1 check))
  | .outside | .unmapped => r.1.setJob e seam (some (j.ends 0x11 r.2.1 check))
  | x => r.1.agentFault seam x

/-- Store a job's output and settle how it ends. More output than DST_LEN ends it with 0x12: how much of it was stored by then is a free
value (log entry 34). -/
def State.finishJob (s : State) (e : EngineId) (seam : Nat) (j : Job) (status : Nat) (out : List Byte) (check : Word) : State :=
  if j.dstLen < out.length then
    let f := s.freeValue
    f.1.storeJob e seam j 0x12 (out.take (f.2.toNat % (j.dstLen + 1))) check
  else s.storeJob e seam j status out check

/-- End a job that failed while it produced output: how many bytes it had stored by then, and which, are free values (R408, log entry
34). -/
def State.partJob (s : State) (e : EngineId) (seam : Nat) (j : Job) (status : Nat) (check : Word) : State :=
  let f := s.freeValue
  let o := f.1.freeBytes (f.2.toNat % (j.dstLen + 1))
  o.1.storeJob e seam j status o.2 check

/-- End a job with no output. -/
def State.failJob (s : State) (e : EngineId) (seam : Nat) (j : Job) (status : Nat) (check : Word) : State :=
  s.setJob e seam (some (j.ends status 0 check))

/-! ### Ends and quanta (R407, R409-R411) -/

/-- Write the descriptor line at the end of a job: RESULT, CHECK, GO 0 and DONE 1 (R405, R407). -/
def State.writeEnd (s : State) (seam : Nat) (j : Job) (status : Nat) (target : Option HintTarget) : State :=
  let line := j.line.take 0x60 ++ natBytes 8 (status * 2 ^ 56 + j.outLen) ++ wordBytes j.check ++ (j.line.drop 0x70).take 8
    ++ natBytes 8 (2 ^ 62)
  (s.agentWrite seam j.addr line fun _ => target).1

/-- Count a job that ended (R426); the entropy source has no such counters. -/
def State.countJob (s : State) (e : EngineId) (status : Nat) : State :=
  if e.isEntropy then s
  else
    let s := s.bump e.unit Reg.ENG_COUNT.JOBS
    if 0x10 ≤ status then s.bump e.unit Reg.ENG_COUNT.FAILED else s

/-- JOB_END (R407): a job that has been performed, or refused, ends. -/
def onJobEnd (e : EngineId) (seam : Fin 64) (s : State) : State :=
  if !s.serves1 e seam.val then s
  else match s.job e seam.val with
    | none => s
    | some j =>
      if !j.performed ∨ j.saved then s
      else
        let s := s.writeEnd seam.val j j.status (s.jobHint j)
        let s := (s.countJob e j.status).setJob e seam.val none
        if j.flags / 128 = 1 then s.pendSeam seam.val { cls := 4, code := 0x1003, xaddr := BitVec.ofNat 64 j.addr } else s

/-- A write of a ring register takes effect: HEAD returns to 0 and a job in progress is abandoned (R411). -/
def State.applyRing (s : State) (e : EngineId) (seam : Nat) : State :=
  let x := s.engine e
  match x.ringWrites.find? fun w => w.1 == seam with
  | none => s
  | some (_, v) =>
    let off := (e.ring seam).1.off
    let s := s.setEngine e { x with ringWrites := x.ringWrites.filter fun w => w.1 != seam }
    let s := (s.setWord e.unit off v).wr e.unit (e.ring seam).2.2 0
    s.setJob e seam none

/-- At the end of a quantum the job in progress is saved to its save area (R409, R410): what it holds there is a free value, and a save area
outside the allotment ends the job with 0x11 (R408). -/
def State.saveJob (s : State) (e : EngineId) (seam : Nat) : State :=
  match s.job e seam with
  | none => s
  | some j =>
    let f := s.freeBytes 2048
    let r := f.1.agentWrite seam j.save f.2
    match r.2 with
    | .done => r.1.setJob e seam (some { j with saved := true })
    | .outside | .unmapped => r.1.setJob e seam (some (j.ends 0x11 j.outLen j.check))
    | x => r.1.agentFault seam x

/-- At the start of a quantum a saved job is restored from its save area (R410). -/
def State.restoreJob (s : State) (e : EngineId) (seam : Nat) : State :=
  match s.job e seam with
  | none => s
  | some j =>
    if !j.saved then s
    else
      let r := s.jobRead seam j.save 2048
      match r.2 with
      | .bytes _ => r.1.setJob e seam (some { j with saved := false })
      | .fails st => r.1.setJob e seam (some (j.ends st j.outLen j.check))
      | .stays => r.1

/-- The unit turns to the ring of a seam, or to none. -/
def State.turnTo (s : State) (e : EngineId) (seam : Option Nat) : State :=
  let x := s.engine e
  s.setEngine e { x with seamNow := seam, lastSeam := seam.getD x.lastSeam }

/-- QUANTUM_END (R409, R410): the next quantum begins, with the seam that its owner byte names, or with RESMODE 0 the next ring in seam
order that holds a job. With RESMODE 1 every quantum ends with a save and begins with a restore; with RESMODE 0 only a change of the job
does. A ring register written meanwhile takes effect. -/
def onQuantumEnd (e : EngineId) (s : State) : State :=
  if !s.operates e.unit then s
  else
    let x := s.engine e
    let q := (x.quantum + 1) % 32
    let save (s : State) : State := match x.seamNow with | some n => s.saveJob e n | none => s
    if s.resMode then
      let s := (save s).setEngine e { (save s).engine e with quantum := q }
      let o := s.quantumOwner e q
      let n := if o = 0xFF then 0 else o
      let s := s.applyRing e n
      if n < 64 ∧ s.serving e then (s.turnTo e (some n)).restoreJob e n else s.turnTo e none
    else
      let s := s.setEngine e { x with quantum := q }
      let s := State.each (x.ringWrites.map Prod.fst) (fun n s => s.applyRing e n) s
      let n := if s.serving e then s.nextRing e else none
      let s := (if n = x.seamNow then s else save s).turnTo e n
      match n with
      | some n => s.restoreJob e n
      | none => s

/-- In the survival envelope the Crusher and cipher engines serve no ring: jobs in progress are saved as at the end of a quantum (R475). -/
def State.survivalJobs (s : State) : State :=
  State.each (EngineId.all.filter fun e => !e.isEntropy) (fun e s =>
    match (s.engine e).seamNow with
    | some n => (s.saveJob e n).turnTo e none
    | none => s) s

/-- A write of a ring register waits for the ring's next quantum (R411). -/
def State.ringWrite (s : State) (e : EngineId) (seam : Nat) (v : Word) : State :=
  if s.locked e.unit then s
  else
    let x := s.engine e
    let v := writtenWord (pageRows e.unit) (e.ring seam).1.off false (s.word e.unit (e.ring seam).1.off) v
    s.setEngine e { x with ringWrites := x.ringWrites.put 0 seam v }

/-- The S reset of a seam: its jobs are abandoned and its HEADs return to 0 (R411). -/
def State.engineSeamReset (s : State) (seam : Nat) : State :=
  State.each EngineId.all (fun e s => (s.setJob e seam none).wr e.unit (e.ring seam).2.2 0) s

/-- An engine is fenced, reset or powered off: the I/O die ends every job taken and not done with 0x1F (R411). -/
def State.engineLost (s : State) (e : EngineId) : State :=
  let x := s.engine e
  let s := State.each x.jobs (fun j s => match j.2 with
    | none => s
    | some job =>
      let s := (s.writeEnd j.1 job 0x1F none).countJob e 0x1F
      let s := if e.isEntropy then s else s.stick e.unit Reg.ENG_ERR.LOST
      if job.flags / 128 = 1 then s.pendSeam j.1 { cls := 4, code := 0x1003, xaddr := BitVec.ofNat 64 job.addr } else s) s
  s.setEngine e Engine.reset

/-- The server of a unit. -/
def engineOf (u : UnitId) : Option EngineId := EngineId.all.find? fun e => e.unit == u

/-- An uncorrectable word in a unit's buffer ends the job of the current quantum with 0x18 (R411). -/
def State.bufferUncorr (s : State) (u : UnitId) : State :=
  match engineOf u with
  | none => s
  | some e => match (s.engine e).seamNow with
    | none => s
    | some n => match s.job e n with
      | some j => s.setJob e n (some (j.ends 0x18 j.outLen j.check))
      | none => s

/-! ### The commands as the queue gives them -/

def execRingPoll (e : EngineId) (seam : Fin 64) (s : State) : Answer := s.run (onRingPoll e seam)
def execJobPickup (e : EngineId) (seam : Fin 64) (s : State) : Answer := s.run (onJobPickup e seam)
def execJobEnd (e : EngineId) (seam : Fin 64) (s : State) : Answer := s.run (onJobEnd e seam)
def execQuantumEnd (e : EngineId) (s : State) : Answer := s.run (onQuantumEnd e)

end Sys2Proof.Machine
end

