-- ==== Sys2Proof/Machine/Hauler.lean ====
section
/-! DEFINITION. The execution of hauler instructions (R346-R365): distances, delay slots, loops, traps and faults. The instructions stand
in Machine/Grecel.lean. -/

namespace Sys2Proof.Machine

/-! ### Registers -/

def Hauler.reg (x : Hauler) (r : Nat) : Half := x.h.look 0 r
def Hauler.spec (x : Hauler) (n : Nat) : Half := x.sp.look 0 n
def Hauler.setReg (x : Hauler) (r : Nat) (v : Half) : Hauler := { x with h := x.h.put 0 r v }
def Hauler.setSpec (x : Hauler) (n : Nat) (v : Half) : Hauler := { x with sp := x.sp.put 0 n v }

/-- The flags N, Z, C and V of FLAGS (R347). -/
structure HFlags where
  n : Bool
  z : Bool
  c : Bool
  v : Bool
  deriving DecidableEq, Repr

def flagsOf (w : Half) : HFlags := ⟨hfield w 12 12 == 1, hfield w 13 13 == 1, hfield w 14 14 == 1, hfield w 15 15 == 1⟩

def HFlags.word (f : HFlags) : Half :=
  BitVec.ofNat 16 ((if f.n then 8 else 0) + (if f.z then 4 else 0) + (if f.c then 2 else 0) + (if f.v then 1 else 0))

def Hauler.flags (x : Hauler) : HFlags := flagsOf (x.spec 0x10)

/-- TRAPPED (R347). -/
def Hauler.trapped (x : Hauler) : Bool := hfield (x.spec 0x14) 0 0 == 1

/-- Does the condition of a COND prefix hold (R353)? Codes 0 to 13 are bytes 0xE0 to 0xED. -/
def condHolds (f : HFlags) (c : Nat) : Bool :=
  match c with
  | 0 => f.z | 1 => !f.z | 2 => f.c | 3 => !f.c | 4 => f.n | 5 => !f.n | 6 => f.v | 7 => !f.v
  | 8 => f.c && !f.z | 9 => !f.c || f.z | 10 => f.n == f.v | 11 => f.n != f.v | 12 => !f.z && f.n == f.v
  | _ => f.z || f.n != f.v

/-! ### Writes in flight (R355-R357) -/

/-- A write lands. -/
def Hauler.land (x : Hauler) (l : Late) : Hauler := if l.special then x.setSpec l.num l.value else x.setReg l.num l.value

/-- The boundary after an instruction: the writes of distance 1 land first, then the older ones that are due (R357). -/
def Hauler.boundary (x : Hauler) (new : List Late) : Hauler :=
  let aged := x.late.map fun (l : Late) => { l with left := l.left - 1 }
  let fresh := new.map fun (l : Late) => { l with left := l.left - 1 }
  let due := (fresh.filter fun l => l.left == 0) ++ aged.filter fun l => l.left == 0
  let rest := (aged.filter fun l => l.left != 0) ++ fresh.filter fun l => l.left != 0
  due.foldl Hauler.land { x with late := rest }

/-- Every pending write lands, at trap entry and at a halt (R357). -/
def Hauler.landAll (x : Hauler) : Hauler :=
  (sortBy (fun (a b : Late) => decide (a.left ≤ b.left)) x.late).foldl Hauler.land { x with late := [] }

/-! ### Loops (R359) -/

/-- The levels armed with LE at address `pc`, the highest first. -/
def Hauler.levelsAt (x : Hauler) (pc : Half) : List Nat :=
  [3, 2, 1, 0].filter fun n => x.spec (8 + n) != 0 && x.spec (4 + n) == pc

/-- The loop hardware at the completion of the instruction at `pc`: the counts, and where execution goes back to, if it does. -/
def Hauler.loopBack (x : Hauler) (pc : Half) : Hauler × Option Half :=
  (x.levelsAt pc).foldl (fun (a : Hauler × Option Half) n =>
    if a.2.isSome then a
    else
      let c := a.1.spec (8 + n)
      if 1 < c.toNat then (a.1.setSpec (8 + n) (c - 1), some (a.1.spec n))
      else (a.1.setSpec (8 + n) 0, none)) (x, none)

/-! ### Halting, faulting and trapping -/

/-- The mode in which a hauler executes: trapped while TRAPPED is 1 (R379). -/
def Hauler.runMode (x : Hauler) : HState := if x.trapped then .trapped else .running

/-- The hauler halts: pending writes land and RUN is cleared (R357, R373). Its paths fail (R302, R315). -/
def State.haltHauler (s : State) (h : Nat) : State :=
  let s := s.setHauler h { (s.hauler h).landAll with mode := .halted }
  (s.wr (uHauler h) Reg.HLR_CTL.RUN 0).failUsers fun p => pathHauler p == h

/-- The hauler faults (R365): RUN is cleared, its DMA aborts and its paths fail. The root records the fault with the report. -/
def State.faultHauler (s : State) (h : Nat) (f : Field) : State :=
  let x := s.hauler h
  let s := (s.setHauler h { x with mode := .faulted }).stick (uHauler h) f
  ((s.wr (uHauler h) Reg.HLR_CTL.RUN 0).dmaAbort h).failUsers fun p => pathHauler p == h

/-- The byte of the instruction store at an address. -/
def State.istoreByte (s : State) (h a : Nat) : Byte := s.istore.look 0 (h * 65536 + a % 65536)

/-- Trap entry (R362, R363) of the instruction at PC with length `len`, in 4 cycles, the first of which the caller has counted; a trap
while TRAPPED is 1 faults the hauler (R365). -/
def State.trapHauler (s : State) (h cause len : Nat) : State :=
  let x := s.hauler h
  if x.trapped then s.faultHauler h Reg.HLR_FAULT.DOUBLE_TRAP
  else
    let pc := x.pc
    let taken := match x.delay with | some (some _) => true | _ => false
    let follow := match x.delay with
      | some (some t) => t
      | _ => if cause = 1 then pc + 1 else pc + BitVec.ofNat 16 len
    let x := x.landAll
    let top (i : Nat) : Half := BitVec.ofNat 16
      ((s.istoreByte h (pc.toNat + 2 * i)).toNat * 256 + (s.istoreByte h (pc.toNat + 2 * i + 1)).toNat)
    let state : Half := hbit 0 ||| (if x.delay.isSome then hbit 1 else 0) ||| (if taken then hbit 2 else 0)
    let x := ((((x.setSpec 0x11 pc).setSpec 0x12 follow).setSpec 0x13 (BitVec.ofNat 16 cause)).setSpec 0x14 state).setSpec 0x15
      (x.spec 0x10)
    let x := ((x.setSpec 0x16 (top 0)).setSpec 0x17 (top 1)).setSpec 0x18 (top 2)
    let s := s.setHauler h { x with pc := 0xFF00, delay := none, lsetLeft := 0, mode := .trapped }
    let s := s.count (uHauler h) Reg.HLR_CYCLES.CYCLES 3
    (s.wr (uHauler h) Reg.HLR_STAT.TCAUSE cause).bump (uHauler h) Reg.HLR_COUNT.TRAPS

/-! ### Lengths (R350-R352) -/

/-- The bytes of an opcode with its operands, without prefixes and with the immediate or displacement of 8 bits (R351, R352). -/
def opLength (op : Nat) : Nat :=
  if op < 5 then 1
  else if 0x10 ≤ op ∧ op < 0x20 then 2
  else if (0x20 ≤ op ∧ op < 0x2E) ∨ op = 0x30 ∨ op = 0x31 then 3
  else if op = 0x32 ∨ op = 0x33 ∨ op = 0x38 ∨ op = 0x39 then 4
  else if op = 0x3A ∨ op = 0x3B ∨ op = 0x42 ∨ op = 0x53 then 2
  else if op = 0x40 ∨ op = 0x41 ∨ op = 0x50 ∨ op = 0x51 then 3
  else if op = 0x52 then 6
  else 1

/-- The length of the instruction that the store holds at an address: COND, then XPFX, then the opcode and its operands. -/
def State.lengthAt (s : State) (h a : Nat) : Nat :=
  let byte (i : Nat) : Nat := (s.istoreByte h (a + i)).toNat
  let c := if 0xE0 ≤ byte 0 ∧ byte 0 ≤ 0xED then 1 else 0
  let x := if 0xF1 ≤ byte c ∧ byte c ≤ 0xF7 then 1 else 0
  let wide := x = 1 ∧ byte c / 4 % 2 = 1
  c + x + opLength (byte (c + x)) + (if wide then 1 else 0)

/-! ### One instruction -/

/-- How an instruction goes on: to the next one, with a branch (its target), by stopping, by waiting for an event, or with a trap. -/
inductive HNext where
  | next
  | branch (target : Half)
  | halt
  | wait
  | trap (cause : Nat)
  | resume
  deriving DecidableEq, Repr

/-- What an instruction is to the rules of R358 and R361. -/
inductive HKind where
  | plain | branch | lset
  deriving DecidableEq, Repr

/-- The trap of R358 or R361 that the instruction at PC meets before it executes. -/
def Hauler.ruleBroken (x : Hauler) (kind : HKind) : Option Nat :=
  let slot := x.delay.isSome
  let atLe := !x.trapped && !(x.levelsAt x.pc).isEmpty
  if kind = .branch ∧ slot then some 2
  else if kind = .lset ∧ slot then some 3
  else if kind ≠ .plain ∧ x.lsetLeft ≠ 0 then some 3
  else if kind = .branch ∧ atLe then some 3
  else if slot ∧ atLe then some 3
  else none

/-- Where execution goes after the instruction at PC, and the loop counts it leaves (R355, R358, R359). -/
def Hauler.advance (x : Hauler) (len : Nat) (branch : Bool) (target : Option Half) : Hauler :=
  let seq := x.pc + BitVec.ofNat 16 len
  let (y, back) := if x.trapped then (x, none) else x.loopBack x.pc
  let next := match x.delay with
    | some (some t) => t
    | _ => match back with | some t => t | none => seq
  { y with pc := next, delay := if branch then some target else none }

/-- Can the hauler execute an instruction now? -/
def State.haulerRuns (s : State) (h : Nat) : Bool :=
  s.operates (uHauler h) && !s.stopped && (match (s.hauler h).mode with | .running | .trapped => true | _ => false)

/-- After an instruction, a pending halt request takes effect at a boundary that is not a delay slot (R373). -/
def State.haltAsked (s : State) (h : Nat) : State :=
  let x := s.hauler h
  if !s.flag (uHauler h) Reg.HLR_CTL.RUN ∧ x.delay.isNone ∧ (x.mode = .running ∨ x.mode = .trapped) then s.haltHauler h else s

/-- Execute the instruction at PC: `len` bytes without the COND prefix, which `cond` counts; `body` gives its writes and how it goes
on. An instruction of a hauler that does not run has no effect (log entry 9). -/
def State.hexec (s : State) (h : Nat) (cond : Option (Fin 14)) (len : Nat) (kind : HKind)
    (body : State → State × List Late × HNext) : State :=
  if !s.haulerRuns h then s
  else
    let len := if cond.isSome then len + 1 else len
    let s := s.count (uHauler h) Reg.HLR_CYCLES.CYCLES
    let x := s.hauler h
    match x.ruleBroken kind with
    | some c => s.trapHauler h c len
    | none =>
      let go : Bool := match cond with | some c => condHolds x.flags c.val | none => true
      let r := if go then body s else (s, [], .next)
      let s := r.1
      let x := s.hauler h
      let left := if kind == .lset && go then 2 else x.lsetLeft - 1
      match r.2.2 with
      | .trap c => s.trapHauler h c len
      | .resume => s.haltAsked h
      | n =>
        let target := match n with | .branch t => some t | _ => none
        let y := x.advance len (kind == .branch) target
        let y := { y.boundary r.2.1 with lsetLeft := left }
        let s := s.setHauler h y
        match n with
        | .halt => s.haltHauler h
        | .wait =>
          let x := s.hauler h
          if (x.evtDma &&& x.maskDma) = 0 ∧ (x.evtMisc &&& x.maskMisc) = 0 then s.setHauler h { x with mode := .wfe }
          else s.haltAsked h
        | _ => s.haltAsked h

/-- A write of distance `d` to a general or a special register. -/
def lateReg (r : Nat) (v : Half) (d : Nat) : Late := { special := false, num := r, value := v, left := d }
def lateSpec (n : Nat) (v : Half) (d : Nat) : Late := { special := true, num := n, value := v, left := d }

/-- Bytes of an XPFX prefix, which is there when an operand needs it (R350). -/
def xpfx (b : Bool) : Nat := if b then 1 else 0

/-- An immediate or displacement as written: `wide` takes all 16 bits, else the low 8, extended (R351). -/
def extended (wide sext : Bool) (v : Half) : Half :=
  if wide then v else if sext then (v.setWidth 8).signExtend 16 else (v.setWidth 8).setWidth 16

/-! ### Arithmetic and flags (R352, R354) -/

/-- N and Z of a result. -/
def hnz (f : HFlags) (r : Half) : HFlags := { f with n := r.getLsbD 15, z := r == 0 }

/-- An addition with carry in: the result and N, Z, C, V. -/
def hadd (a b : Half) (c : Bool) : Half × HFlags :=
  let sum := a.toNat + b.toNat + (if c then 1 else 0)
  let r : Half := BitVec.ofNat 16 sum
  (r, { n := r.getLsbD 15, z := r == 0, c := decide (65536 ≤ sum),
        v := (a.getLsbD 15 == b.getLsbD 15) && r.getLsbD 15 != a.getLsbD 15 })

/-- A subtraction with the carry convention of R352: C is 1 without a borrow. -/
def hsub (a b : Half) (c : Bool) : Half × HFlags := hadd a (~~~b) c

/-- The shifts of R354: kind 0 SHL, 1 SHR, 2 SAR, 3 ROL. -/
def hshift (kind : Nat) (a : Half) (n : Nat) (f : HFlags) : Half × HFlags :=
  let r : Half := match kind with
    | 0 => if 16 ≤ n then 0 else a <<< n
    | 1 => if 16 ≤ n then 0 else a >>> n
    | 2 => if 16 ≤ n then (if a.getLsbD 15 then 0xFFFF else 0) else a.sshiftRight n
    | _ => a.rotateLeft (n % 16)
  let c := if n = 0 ∨ kind = 3 then f.c
    else match kind with
      | 0 => decide (n ≤ 16) && a.getLsbD (16 - n)
      | 1 => decide (n ≤ 16) && a.getLsbD (n - 1)
      | _ => if 16 ≤ n then a.getLsbD 15 else a.getLsbD (n - 1)
  (r, { (hnz f r) with c := c })

/-- The results of the two-operand operations: the value to write, if any, and the flags. -/
inductive HOp where
  | mov | add | adc | sub | sbc | and | or | xor | cmp | tst | oca
  deriving DecidableEq, Repr

def hop (op : HOp) (a b : Half) (f : HFlags) : Option Half × HFlags :=
  let logic (r : Half) : HFlags := { (hnz f r) with v := false }
  match op with
  | .mov => (some b, f)
  | .add => let r := hadd a b false; (some r.1, r.2)
  | .adc => let r := hadd a b f.c; (some r.1, r.2)
  | .sub => let r := hsub a b true; (some r.1, r.2)
  | .sbc => let r := hsub a b f.c; (some r.1, r.2)
  | .and => (some (a &&& b), logic (a &&& b))
  | .or => (some (a ||| b), logic (a ||| b))
  | .xor => (some (a ^^^ b), logic (a ^^^ b))
  | .cmp => (none, (hsub a b true).2)
  | .tst => (none, logic (a &&& b))
  | .oca =>
    let t := a.toNat + b.toNat
    let r : Half := BitVec.ofNat 16 (t % 65536 + t / 65536)
    (some r, hnz f r)

/-- The writes of an operation: the result, and FLAGS where it changes them. -/
def hopWrites (op : HOp) (rd : Nat) (a b : Half) (f : HFlags) : List Late :=
  let r := hop op a b f
  (match r.1 with | some v => [lateReg rd v 1] | none => [])
    ++ (if op = .mov then [] else [lateSpec 0x10 r.2.word 1])

end Sys2Proof.Machine
end

