-- ==== Sys2Proof/Machine/Header.lean ====
section
/-! DEFINITION. The hardware fields of the common header as a read sees them (R14-R17, R34-R39). -/

namespace Sys2Proof.Machine

/-- Is any RS field of the unit's page 1 (R16)? -/
def State.anyRs (s : State) (u : UnitId) : Bool := (rsFields u).any fun f => s.rd u f != 0

/-- OWN of UNIT_STICKY as it reads (R16). -/
def State.ownSticky (s : State) (u : UnitId) : Bool := s.flag u Reg.UNIT_STICKY.OWN || s.anyRs u

/-- Is any bit of UNIT_STICKY of the unit 1? The tree is no deeper than `fuel`. -/
def State.stickyIn (s : State) : Nat → UnitId → Bool
  | 0, _ => false
  | fuel + 1, u => s.ownSticky u || u.children.any fun c => s.stickyIn fuel c

def State.sticky (s : State) (u : UnitId) : Bool := s.stickyIn 5 u

/-- Is a fault of the unit present now (R17)? -/
def State.ownLive (s : State) (u : UnitId) : Bool := !(s.unit u).live.isEmpty

def State.liveIn (s : State) : Nat → UnitId → Bool
  | 0, _ => false
  | fuel + 1, u => s.ownLive u || u.children.any fun c => s.liveIn fuel c

def State.liveFault (s : State) (u : UnitId) : Bool := s.liveIn 5 u

/-- The members of the coupled complex, by index (R398). -/
def State.members (s : State) : List Nat := List.range s.complex.lots.length

/-- STICKY and LIVE of a member: the module's own, or what STATUS frames brought; an unreachable member reads LIVE 1 (R398, R399). -/
def State.memberSticky (s : State) (m : Nat) : Bool :=
  if s.ownIndex = some m then s.sticky uModule else decide (2 ≤ s.complex.summary.look 0 m)
def State.memberLive (s : State) (m : Nat) : Bool :=
  if s.ownIndex = some m then s.liveFault uModule else (s.groupsTo m).isEmpty || s.complex.summary.look 0 m % 2 == 1

/-- A summary doubleword: own bit, any-child bit, and the bits of children 0 to 61. -/
def summaryWord (own : Bool) (kids : List Bool) : Word :=
  let w : Word := if own then Word.setField 0 0 0 1 else 0
  let w := if kids.any id then Word.setField w 1 1 1 else w
  (List.range (min kids.length 62)).foldl (fun w i => if kids.getD i false then Word.setField w (2 + i) (2 + i) 1 else w) w

/-- UNIT_STICKY and UNIT_LIVE as they read (R16, R38). -/
def State.stickyWord (s : State) (u : UnitId) : Word :=
  summaryWord (s.ownSticky u) (if u.type = .complex then s.members.map s.memberSticky else u.children.map s.sticky)
def State.liveWord (s : State) (u : UnitId) : Word :=
  summaryWord (s.ownLive u) (if u.type = .complex then s.members.map s.memberLive else u.children.map s.liveFault)

/-- UNIT_POWER STATE as it reads (R34): on the module page, standby and hold-up drain too. -/
def State.stateCode (s : State) (u : UnitId) : Nat :=
  if u.type = .module ∧ s.powerCode u < 6 then
    match s.power.mode with
    | .standby => 4
    | .holdup => 5
    | _ => s.powerCode u
  else s.powerCode u

/-- The header doubleword at an offset below 0x080 as a read sees it. -/
def State.headerWord (s : State) (u : UnitId) (off : Nat) : Word :=
  let w := s.word u off
  let d := s.unit u
  let bit (b : Bool) : Nat := if b then 1 else 0
  if off = 0x000 then Word.setField (Word.setField (Word.setField w 0 15 u.type.code) 16 31 u.inst) 32 39 u.type.depth
  else if off = 0x008 then Word.setField (Word.setField (Word.setField w 0 7 2) 8 15 1) 16 31 u.type.layout
  else if off = 0x010 then
    Word.setField w 24 63 (if u.type = .complex then s.complex.lots.headD 0 else (Config.lot u.dieSlot).toNat)
  else if off = 0x018 then
    Word.setField (Word.setField w 0 23 (if u.dieSlot = 0xFF then 0 else (Config.waferXY u.dieSlot).toNat)) 24 31 u.dieSlot
  else if off = 0x020 then
    let n := if u.type = .complex then s.complex.lots.length else u.children.length
    Word.setField (Word.setField w 0 15 n) 16 31
      (if n = 0 then 0 else if u.type = .complex then 0x100 else childListAt u)
  else if off = 0x028 then s.stickyWord u
  else if off = 0x038 then s.liveWord u
  else if off = 0x040 then
    Word.setField (Word.setField (Word.setField w 1 1
      (bit (d.resetting || d.heldReset || (u.type == .complex && (s.unit uModule).resetting)))) 2 2 (bit d.absorbed)) 8 15 d.last
  else if off = 0x048 then Word.setField w 0 2 (s.stateCode u)
  else w

/-- A child-list entry (R38). -/
def State.childEntry (s : State) (c : UnitId) : Word :=
  let w := Word.setField (Word.setField (0 : Word) 0 15 c.type.code) 16 27 (slotNumber c)
  let w := if s.sticky c then Word.setField w 28 28 1 else w
  if s.liveFault c then Word.setField w 29 29 1 else w

/-- A child-list entry of the coupled complex (R399): a remote member names its module page and the group that reaches it. -/
def State.memberEntry (s : State) (m : Nat) : Word :=
  let w := Word.setField (0 : Word) 0 15 UnitType.module.code
  let w := if s.memberSticky m then Word.setField w 28 28 1 else w
  let w := if s.memberLive m then Word.setField w 29 29 1 else w
  if s.ownIndex = some m then w
  else
    let g := match s.groupTo m 0 with | some g => g | none => 0xFF
    Word.setField (Word.setField (Word.setField w 30 30 1) 32 33 m) 48 55 g

end Sys2Proof.Machine
end

