-- ==== Sys2Proof/Machine/Links.lean ====
section
/-! DEFINITION. The channel lanes (R381-R391) and the coupling lanes with the coupled complex (R392-R400): links, inbound requests,
received frames, coupling frames, enumeration and adoption. Remote page accesses are served in Machine/Pages.lean. -/

namespace Sys2Proof.Machine

/-! ### Personality groups (R381, R382) -/

/-- The first lanes of the groups in which a quad takes part, with their width codes, by its LAYOUT. -/
def State.quadGroups (s : State) (q : Nat) : List (Nat × Nat) :=
  match s.rd (uLane q) Reg.LNK_CFG.LAYOUT with
  | 1 => (List.range 4).map fun i => (4 * q + i, 0)
  | 2 => [(4 * q, 1), (4 * q + 2, 1)]
  | 3 => [(4 * q, 2)]
  | 4 => [(q / 2 * 8, 3)]
  | 5 => [(q / 4 * 16, 4)]
  | _ => []

/-- Do two quads hold the same LAYOUT, PERS, MAXRATE and FEC? -/
def State.quadsAgree (s : State) (a b : Nat) : Bool :=
  [Reg.LNK_CFG.LAYOUT, Reg.LNK_CFG.PERS, Reg.LNK_CFG.MAXRATE, Reg.LNK_CFG.FEC].all fun f => s.rd (uLane a) f == s.rd (uLane b) f

/-- Is a group free of the errors of R382? Quads that are not enabled are not compared yet (log entry 42). -/
def State.groupSound (s : State) (lane code : Nat) : Bool :=
  let qs := (quadsOf lane code).filter fun q => s.flag (uLane q) Reg.LNK_CFG.ENABLE
  let u := laneUnit lane
  qs.all (fun q => s.quadsAgree (lane / 4) q) && (!s.isEth lane || code == 0 || code == 2)
    && decide (1 ≤ s.rd u Reg.LNK_CFG.MAXRATE) && decide (s.rd u Reg.LNK_CFG.MAXRATE ≤ 5) && decide (s.rd u Reg.LNK_CFG.FEC ≤ 2)

/-- A quad is enabled: an error of its configuration sets CFG_ERR in every quad of the group (R382). -/
def State.quadEnabled (s : State) (q : Nat) : State :=
  if 6 ≤ s.rd (uLane q) Reg.LNK_CFG.LAYOUT then s.stick (uLane q) Reg.LNK_ERR.CFG_ERR
  else State.each (s.quadGroups q) (fun g s =>
    if s.groupSound g.1 g.2 then s
    else State.each (quadsOf g.1 g.2) (fun r s => s.stick (uLane r) Reg.LNK_ERR.CFG_ERR) s) s

/-- A link goes down: the transition is counted, and whoever uses a path of the group meets a path failure (R315, R383). -/
def State.linkLost (s : State) (lane : Nat) : State :=
  let l := s.link lane
  if !l.up then s
  else
    let s := s.setLink lane { l with up := false, degraded := false, downAt := s.now }
    (s.bump (laneUnit lane) (Reg.LNK_STAT.DOWNS.ix (lane % 4))).failUsers fun p => pathLane p == lane

/-- Every link of a quad goes down, wide groups included: the unit is fenced, reset, powered off or no longer enabled. -/
def State.quadLost (s : State) (q : Nat) : State :=
  let lanes := ((List.range 4).map fun i => 4 * q + i) ++ (s.quadGroups q).map Prod.fst
  State.each lanes (fun lane s => s.linkLost lane) s

/-- LINK_DOWN (R383). -/
def onLinkDown (lane : BitVec 7) (s : State) : State := s.linkLost lane.toNat

/-- Is a group configured, enabled and powered, and without a configuration error? Then its width code. -/
def State.trainable (s : State) (lane : Nat) : Option Nat :=
  match s.widthAt lane with
  | none => none
  | some code =>
    let qs := quadsOf lane code
    if (qs.all fun q => s.flag (uLane q) Reg.LNK_CFG.ENABLE && s.operates (uLane q)) && s.groupSound lane code && !s.stopped then some code
    else none

/-- RETRAIN_ATTEMPT (R383): a PCI Express port whose link is down attempts to train it; the attempt counts as the last. -/
def onRetrainAttempt (lane : BitVec 7) (s : State) : State :=
  let l := s.link lane.toNat
  if !l.up ∧ !s.isEth lane.toNat ∧ (s.trainable lane.toNat).isSome ∧ l.downAt + 100000000 ≤ s.now then
    s.setLink lane.toNat { l with downAt := s.now }
  else s

/-- LINK_UP (R383, R387): the link trains at a width and a rate within its configuration, and the group is usable. -/
def onLinkUp (lane : BitVec 7) (width : Fin 5) (rate : BitVec 8) (s : State) : State :=
  let lane := lane.toNat
  match s.trainable lane with
  | none => s
  | some code =>
    let l := s.link lane
    let fits := if s.isEth lane then width.val == code
      else decide (width.val ≤ code) && decide (1 ≤ rate.toNat) && decide (rate.toNat ≤ s.rd (laneUnit lane) Reg.LNK_CFG.MAXRATE)
    if l.up ∨ !fits then s
    else s.setLink lane { l with up := true, degraded := decide (width.val < code), width := width.val, rate := rate.toNat }

/-! ### Inbound requests (R384) -/

/-- A request is refused: Unsupported Request, counted in INB_REJ; no other unit sees it. -/
def State.inboundRefuse (s : State) (lane : Nat) : State :=
  let s := s.count (laneUnit lane) (Reg.LNK_ETH_DROP.INB_REJ.ix (lane % 4))
  { s with outbox := s.outbox ++ [Out.completion lane false []] }

/-- Is an access of `n` bytes with a seam tag accepted on the group? -/
def State.inboundAccepts (s : State) (lane tag addr n : Nat) : Bool :=
  let u := laneUnit lane
  let i := lane % 4
  if tag = 0 then
    let base := s.rd u (Reg.LNK_Q0.BASE.ix i) * 4096
    decide (base ≤ addr) && decide (addr + n ≤ base + s.rd u (Reg.LNK_Q0.PAGES.ix i) * 4096)
  else s.bitOf u (Reg.LNK_INB.INB.ix i) tag && decide (addr < 2 ^ 40)

/-- INBOUND_REQUEST (R384): the request is decoded by its address, checked, and performed or refused. -/
def onInboundRequest (lane : BitVec 7) (addr : Word) (req : Inbound) (s : State) : State :=
  let lane := lane.toNat
  if !(s.link lane).up ∨ s.isEth lane then s
  else match req, addr.field 0 1 with
    | .read len, 1 =>
      let tag := addr.field 2 7
      let a := addr.field 16 63
      if addr.field 8 15 ≠ 0 ∨ !s.inboundAccepts lane tag a len.toNat then s.inboundRefuse lane
      else
        let r := s.agentRead tag a len.toNat
        if r.2.2 = .done then { r.1 with outbox := r.1.outbox ++ [Out.completion lane true r.2.1] }
        else (r.1.agentFault tag r.2.2).inboundRefuse lane
    | .write data, 1 =>
      let tag := addr.field 2 7
      let a := addr.field 16 63
      if addr.field 8 15 ≠ 0 ∨ !s.inboundAccepts lane tag a data.length then s.inboundRefuse lane
      else
        let r := s.agentWrite tag a data
        if r.2 = .done then r.1 else (r.1.agentFault tag r.2).inboundRefuse lane
    | .write data, 2 =>
      let h := lane / 64 * 32 + addr.field 48 52
      let value := (data.getD 0 0).toNat + 256 * (data.getD 1 0).toNat
      let l := s.link lane
      let s := s.setLink lane { l with rx := l.rx ++ [{ bytes := [], msi := some value, hauler := some h }] }
      let x := s.hauler h
      s.setHauler h { x with evtMisc := x.evtMisc ||| hbit 0 }
    | _, _ => s.inboundRefuse lane

/-! ### Received frames (R388, R389) -/

/-- Is the frame's IPv4 header, TCP or UDP checksum bad (R388)? A UDP checksum of 0 over IPv4 is none, and fragments are not checked
(RFC 768, RFC 791; PRESUMED, log entry 20). -/
def badChecksum (f : List Byte) : Bool :=
  let (_, _, et, off) := ethHead f
  let v4 := decide (et = 0x0800)
  if !v4 ∧ et ≠ 0x86DD then false
  else
    let hl := if v4 then recNum f off 1 % 16 * 4 else 40
    let proto := protoOf f off et
    let l4 := off + hl
    let n := if v4 then recNum f (off + 2) 2 - hl else recNum f (off + 4) 2
    let badHead := v4 && inetSum ((f.drop off).take hl) != 0
    let fragment := v4 && recNum f (off + 6) 2 % 16384 != 0
    let seg := (f.drop l4).take n
    let unsummed := v4 && proto == 17 && recNum f (l4 + 6) 2 == 0
    badHead || (!fragment && !unsummed && (proto == 6 || proto == 17) && inetSum (pseudo f off et proto n ++ seg) != 0)

/-- Does a frame match the filter of an Ethernet subchannel record (R389)? -/
def frameMatches (r f : List Byte) : Bool :=
  let (tag, t, et, off) := ethTag f
  let m (o n : Nat) : Nat := recNum r (0x18 + o) n
  let ver := if et = 0x0800 then 4 else if et = 0x86DD then 6 else 0
  let proto := if ver = 0 then 0 else protoOf f off et
  let l4 := off + (if ver = 4 then recNum f off 1 % 16 * 4 else 40)
  let ports := proto == 6 || proto == 17
  let ip : Nat := if ver = 4 then recNum f (off + 16) 4 * 2 ^ 64 else if ver = 6 then recNum f (off + 28) 12 else 0
  m 0 6 == recNum f 0 6
    && (m 6 2 == 0xFFFF || (tag && t % 4096 == m 6 2 % 4096))
    && (m 8 1 == 0 || m 8 1 == ver)
    && (m 9 1 == 0 || (ver != 0 && m 9 1 == proto))
    && (m 0xA 2 == 0 || (ports && recNum f (l4 + 2) 2 == m 0xA 2))
    && (m 0xC 12 == 0 || (ver != 0 && m 0xC 12 == ip))

/-- The lowest subchannel with an open RECEIVE whose filter takes the frame and whose path group has the group (R389). -/
def State.frameTaker (s : State) (lane : Nat) (f : List Byte) : Option Nat :=
  let open_ := s.exchanges.filter fun e => e.2.st == .active && entryCmd e.2.word0 == 0x12 && !e.2.performed
  bestBy (fun a b => decide (a < b)) ((open_.filter fun e =>
    let r := s.recOf e.2.sch (exDie e.1)
    recKind r == 2 && frameMatches r f
      && (List.range 8).any fun i => pathV (recPath r i) && pathLane (recPath r i) == lane).map fun e => e.2.sch)

/-- FRAME_RECEIVE (R388, R389): a frame with its frame check sequence is checked, and dropped and counted, delivered to the RECEIVE that
matches it, or kept for the haulers of LNK_RXHAUL. MAC control frames stay in the MAC (PRESUMED, log entry 20). -/
def onFrameReceive (lane : BitVec 7) (frame : List Byte) (s : State) : State :=
  let lane := lane.toNat
  let u := laneUnit lane
  let i := lane % 4
  let f := frame.take (frame.length - 4)
  let prio := (ethHead f).2.1
  let size := 524288 * (match s.widthAt lane with | some 2 => 4 | _ => 1)
  if !(s.link lane).up ∨ !s.isEth lane then s
  else if frame.length < 64 ∨ 9604 < frame.length then s.bump u (Reg.LNK_ETH_STAT.RX_LEN.ix i)
  else if withFcs f ≠ frame then s.bump u (Reg.LNK_ETH_STAT.RX_FCS.ix i)
  else if badChecksum f then s.bump u (Reg.LNK_ETH_STAT.RX_CSUM.ix i)
  else if recNum f 12 2 = 0x8808 then s
  else if size < s.bufferedAll lane + f.length then
    if s.bitOf u (Reg.LNK_PFC.PFC_EN.ix i) prio then s else s.bump u (Reg.LNK_ETH_STAT.RX_OVF.ix i)
  else
    let s := match s.frameTaker lane f with
      | some sch => { s with ethQueue := s.ethQueue.put [] sch (s.ethQueue.look [] sch ++ [(lane, f)]) }
      | none =>
        let l := s.link lane
        let s := s.setLink lane { l with rx := l.rx ++ [RxItem.mk f none none] }
        State.each ((List.range 32).filter fun h => s.bitOf u (Reg.LNK_RXHAUL.RXHAUL.ix i) h) (fun h s =>
          let x := s.hauler (lane / 64 * 32 + h)
          s.setHauler (lane / 64 * 32 + h) { x with evtMisc := x.evtMisc ||| hbit 0 }) s
    s.pfcCheck lane

/-! ### The coupling link layer (R392-R395) -/

/-- Copies that were arriving on a group that is down are abandoned: their slots are free again. -/
def State.cplSettle (s : State) (g : Nat) : State :=
  if (s.cpl g).up then s
  else
    let s := State.each (s.jrecv.filter fun r => r.group == g) (fun r s => s.freeSlot r.slot) s
    { s with jrecv := s.jrecv.filter fun (r : JRecv) => r.group != g }

/-- IDLE (R395): acknowledgements and credits. -/
def onIdle (g : Fin 4) (head : FrameHead) (s : State) : State :=
  if (s.cpl g.val).up then s.cplAck g.val head else s

/-- NAK (R394): the frames after ACKSEQ are sent again. -/
def onNak (g : Fin 4) (head : FrameHead) (s : State) : State :=
  if (s.cpl g.val).up then (s.cplReplay g.val head.ack.toNat).cplSettle g.val else s

/-- A group comes up: enumeration runs, unless the membership is already fixed, when the new peer is only told (R398). -/
def State.enumOnUp (s : State) (g : Nat) : State :=
  if s.rd uModule Reg.CPL_ENUM.RESULT = 1 then s.sendHello g else s.startEnum

/-- INIT (R394): the peer's credits at link-up, answered with the module's own. It brings up a group that is enabled, with two good lanes.
-/
def onInit (g : Fin 4) (c0 c1 c2 c3 : BitVec 16) (s : State) : State :=
  let c := s.cpl g.val
  if c.up ∨ !s.flag (uCpl g.val) Reg.CPL_LINK.ENABLE ∨ !s.operates (uCpl g.val) ∨ s.stopped ∨ c.good < 2 then s
  else
    let credits : Table Nat := [(0, c0), (1, c1), (2, c2), (3, c3)].foldl (fun t (p : Nat × BitVec 16) => t.put 0 p.1 p.2.toNat) []
    let s := s.setCpl g.val { Coupling.reset with up := true, failed := c.failed, credits := credits, heard := s.now }
    let s := s.cplPlain g.val 0x02 0 0 (beBytes 2 64 ++ beBytes 2 2048 ++ beBytes 2 64 ++ beBytes 2 64)
    s.enumOnUp g.val

/-- COUPLING_SILENCE (R394): a group that has received nothing for 10 µs is declared down. -/
def onCouplingSilence (g : Fin 4) (s : State) : State :=
  if (s.cpl g.val).up ∧ (s.cpl g.val).heard + 10000 ≤ s.now then (s.cplDown g.val).cplSettle g.val else s

/-- COUPLING_FRAME_CRC_ERROR (R394): the frame is discarded and a NAK is sent. -/
def onCouplingFrameCrcError (g : Fin 4) (s : State) : State :=
  if (s.cpl g.val).up then (s.setCpl g.val ({ s.cpl g.val with heard := s.now } : Coupling)).cplPlain g.val 0x01 0 0 [] else s

/-- Is a frame TYPE one that R395 lists? -/
def knownType (t : Nat) : Bool :=
  [0x00, 0x01, 0x02, 0x10, 0x11, 0x12, 0x20, 0x21, 0x22, 0x30, 0x31, 0x32, 0x33, 0x34, 0x35].contains t

/-- RESERVED_FRAME_TYPE (R395): handled as a CREDIT_ERR. -/
def onReservedFrameType (g : Fin 4) (type : BitVec 8) (s : State) : State :=
  if (s.cpl g.val).up ∧ !knownType type.toNat then (s.creditError g.val).cplSettle g.val else s

/-- COUPLING_LANE_FAIL (R392): the group runs on, degraded, or goes down with fewer than two good lanes. -/
def onCouplingLaneFail (g : Fin 4) (lane : Fin 4) (s : State) : State :=
  let c := s.cpl g.val
  let s := (s.setCpl g.val { c with failed := c.failed ||| (1#4 <<< lane.val) }).stick (uCpl g.val) Reg.CPL_ERR.LANE_FAIL
  if (s.cpl g.val).good < 2 then (s.cplDown g.val).cplSettle g.val else s

/-- A frame with a SEQ arrives: what it says is acted on only in order (R394). -/
def State.cplFrame (s : State) (g : Nat) (head : FrameHead) (vc : Nat) (payload : Nat) (act : State → State) : State :=
  let r := s.cplTake g head vc ((payload + 31) / 32)
  if r.2 then act r.1 else r.1

/-! ### Enumeration (R398) -/

/-- Entry numbers of the copies that the module holds for the member with index `m`. -/
def State.copiesOf (s : State) (m : Nat) : List Nat :=
  (s.liveSlots.filter fun i => (s.jentry i).seam == 0x40 + m).map fun i => (s.jentry i).num

/-- After an enumeration, JM_QUERY lists to each present member the copies held for it, 32 to a frame (R397). -/
def State.queryCopies (s : State) : State :=
  State.each s.members (fun m s =>
    let l := s.copiesOf m
    match s.groupTo m 0 with
    | none => s
    | some g => State.each (List.range ((l.length + 31) / 32)) (fun i s =>
        s.cplSend g 0x35 0 (((l.drop (32 * i)).take 32).flatMap (beBytes 8))) s) s

/-- The members have been named: the complex page is presented. -/
def State.enumDone (s : State) (lots : List Nat) : State :=
  let s := s.wr uModule Reg.CPL_ENUM.RESULT 1
  ({ s with complex := { s.complex with lots := lots, summary := [] } }).queryCopies

/-- Are all members joined to one another directly, as their HELLO frames say? -/
def State.fullyJoined (s : State) (members : List Nat) : Bool :=
  s.joined.all fun g => members.all fun l => l == (s.cpl g).peerLot || l == ownLot || (s.cpl g).peerLots.contains l

/-- Send the ROSTER on a group: four lots in index order (R395). -/
def State.sendRoster (s : State) (g : Nat) (lots : List Nat) : State :=
  s.cplSend g 0x11 0 ((List.range 4).flatMap fun i => lotBytes (lots.getD i 0))

/-- Judge the enumeration in progress, once every up group has brought a HELLO: too many members, not fully joined, or complete, where
the module with the lowest lot is the root and sends ROSTER. -/
def State.enumCheck (s : State) : State :=
  if !s.flag uModule Reg.CPL_CX.EN ∨ s.rd uModule Reg.CPL_CX.CXID = 0 ∨ s.rd uModule Reg.CPL_ENUM.RESULT = 1 then s
  else if (List.range 4).any fun g => (s.cpl g).up && (s.cpl g).peerLot == 0 then s
  else
    let lots := (sortBy (fun a b => decide (a ≤ b)) (ownLot :: s.joined.map fun g => (s.cpl g).peerLot)).eraseDups
    if 4 < lots.length then s.wr uModule Reg.CPL_ENUM.RESULT 4
    else if !s.fullyJoined lots then s.wr uModule Reg.CPL_ENUM.RESULT 3
    else if lots.head? = some ownLot then (State.each s.joined (fun g s => s.sendRoster g lots) s).enumDone lots
    else s.wr uModule Reg.CPL_ENUM.RESULT 2

/-- Enumeration starts, on EN written 1, on a group coming up and on REENUM. -/
def State.enumerate (s : State) : State := s.startEnum.enumCheck

/-- HELLO (R398): what the peer says is kept; what it changes is told on every up group, and the enumeration is judged. -/
def onHello (g : Fin 4) (head : FrameHead) (lot : BitVec 40) (cxid : BitVec 16) (group : BitVec 8) (lots : List (BitVec 40))
    (s : State) : State :=
  s.cplFrame g.val head 0 (8 + 5 * lots.length) fun s =>
    let c := s.cpl g.val
    let c' := { c with peerLot := lot.toNat, peerGroup := group.toNat, peerCxid := cxid.toNat, peerLots := lots.map BitVec.toNat }
    if c = c' then s.enumCheck
    else
      let s := s.setCpl g.val c'
      let s := if s.flag uModule Reg.CPL_CX.EN ∧ s.rd uModule Reg.CPL_CX.CXID ≠ 0 then
          State.each (List.range 4) (fun i s => if (s.cpl i).up then s.sendHello i else s) s
        else s
      if s.rd uModule Reg.CPL_ENUM.RESULT = 1 then
        if s.complex.lots.head? = some ownLot ∧ s.complex.lots.contains lot.toNat then s.sendRoster g.val s.complex.lots else s
      else s.enumCheck

/-- ROSTER (R398): the root names the members in index order. -/
def onRoster (g : Fin 4) (head : FrameHead) (l0 l1 l2 l3 : BitVec 40) (s : State) : State :=
  s.cplFrame g.val head 0 20 fun s =>
    let lots := ([l0, l1, l2, l3].map BitVec.toNat).filter (· != 0)
    if s.flag uModule Reg.CPL_CX.EN ∧ s.rd uModule Reg.CPL_CX.CXID ≠ 0 ∧ (s.cpl g.val).peerCxid = s.rd uModule Reg.CPL_CX.CXID
        ∧ lots.contains ownLot then
      if s.rd uModule Reg.CPL_ENUM.RESULT = 1 ∧ s.complex.lots = lots then s else s.enumDone lots
    else s

/-- REENUM (R398, R403). -/
def onReenum (sender : Sender) (s : State) : State := s.command sender uModule Reg.CPL_ENUM.REENUM.off State.enumerate

/-- STATUS (R395, R399): a member's sticky and live summaries. -/
def onStatus (g : Fin 4) (head : FrameHead) (sticky live : Word) (s : State) : State :=
  s.cplFrame g.val head 0 16 fun s =>
    match s.memberAt g.val with
    | none => s
    | some m =>
      let v := (if sticky = 0 then 0 else 2) + (if live = 0 then 0 else 1)
      { s with complex := { s.complex with summary := s.complex.summary.put 0 m v } }

/-- A STATUS frame goes to every member that a group reaches, with the module's summaries (R395). -/
def State.tellStatus (s : State) : State :=
  let now := (s.stickyWord uModule, s.liveWord uModule)
  let s : State := { s with complex := { s.complex with told := some now } }
  State.each s.joined (fun g s => s.cplSend g 0x12 0 (wordBytes now.1 ++ wordBytes now.2)) s

/-- STATUS_PERIOD (R395): every 100 µs a module sends its summaries to the members it reaches. -/
def onStatusPeriod (s : State) : State := if s.complex.lots.isEmpty then s else s.tellStatus

/-- A change of the summaries is told too (R395), when the module idles after the command that made it (log entry 118). -/
def State.statusChange (s : State) : State :=
  if s.complex.lots.isEmpty ∨ s.stopped ∨ s.complex.told = some (s.stickyWord uModule, s.liveWord uModule) then s else s.tellStatus

/-! ### Journal copies (R396, R397) -/

/-- The copy of an origin's entry, live or arriving, by the origin's number. -/
def State.copySlot? (s : State) (m num : Nat) : Option Nat :=
  s.usedSlots.find? fun i => (s.jentry i).seam == 0x40 + m && (s.jentry i).num == num

/-- KiB held in copies for peers. -/
def State.copyKib (s : State) : Nat :=
  (s.usedSlots.filter fun i => (s.jentry i).isCopy).foldl (fun a i => a + (s.jentry i).pages.length * 4) 0

/-- Has the peer room for a copy of `len` bytes within PEER_KIB (R336, R396)? -/
def State.copyRoom (s : State) (len : Nat) : Bool :=
  let n := pagesOf len
  s.bankAvail 0 && s.bankAvail 1 && decide (s.copyKib + 4 * n ≤ s.rd s.jbank Reg.JNL_CFG.PEER_KIB)
    && !(lowestFree s.usedSlots 16384 1).isEmpty && decide ((lowestFree s.usedPages 16384 n).length = n)

/-- JM_HDR (R396): a copy is announced; the peer allocates a slot and pages, answers a duplicate again, or refuses for want of room. -/
def onJmHdr (g : Fin 4) (head : FrameHead) (header : BitVec 1024) (s : State) : State :=
  s.cplFrame g.val head 1 128 fun s =>
    let l := lineBytes header
    let e := entryOfBytes l
    match s.memberAt g.val with
    | none => s
    | some m =>
      let stale := s.jrecv.filter fun r => r.group == g.val
      let s := State.each stale (fun r s => s.freeSlot r.slot) s
      let s : State := { s with jrecv := s.jrecv.filter fun (r : JRecv) => r.group != g.val }
      if (s.copySlot? m e.num).any fun i => (s.jentry i).marked then s.cplSend g.val 0x32 0 (beBytes 8 e.num)
      else
        let again := (s.copySlot? m e.num).toList
        let s := State.each again (fun i s => s.freeSlot i) s
        let s : State := { s with jrecv := s.jrecv.filter fun (r : JRecv) => !again.contains r.slot }
        if !s.copyRoom e.len then s.cplSend g.val 0x33 1 (beBytes 8 e.num)
        else
          let i := (lowestFree s.usedSlots 16384 1).getD 0 0
          let s := s.putEntry i
            { e with seam := 0x40 + m, pages := lowestFree s.usedPages 16384 (pagesOf e.len), used := true, marked := false }
          { s with jrecv := s.jrecv ++ [{ group := g.val, slot := i, header := l, chunks := head.tag.toNat, got := [] }] }

/-- JM_DATA (R396): a chunk of the copy that arrives on the group; with the last one both marks are written and the origin is told. -/
def onJmData (g : Fin 4) (head : FrameHead) (payload : List Byte) (s : State) : State :=
  s.cplFrame g.val head 1 payload.length fun s =>
    match s.jrecv.find? fun r => r.group == g.val with
    | none => s
    | some r =>
      let r := { r with got := r.got.put [] head.tag.toNat (payload.take 256) }
      let rest := s.jrecv.filter fun (q : JRecv) => q.group != g.val
      if r.got.length < r.chunks then { s with jrecv := rest ++ [r] }
      else
        let s : State := { s with jrecv := rest }
        let e := s.jentry r.slot
        if !(s.bankAvail 0 && s.bankAvail 1) then (s.freeSlot r.slot).cplSend g.val 0x33 2 (beBytes 8 e.num)
        else
          let bytes := ((List.range r.chunks).flatMap fun i => r.got.look [] i).take e.len
          let s := State.each (List.range 2) (fun d s => s.putPayload d e.pages bytes) s
          (s.putEntry r.slot { e with marked := true }).cplSend g.val 0x32 0 (beBytes 8 e.num)

/-- The commit that waits for a peer's answer about an entry number. -/
def State.commitNumbered (s : State) (num : Nat) : Option Commit :=
  s.commits.find? fun c => (s.jentry c.slot).num == num && (s.jentry c.slot).xmod

/-- JM_ACK (R396): the peer holds the copy. -/
def onJmAck (g : Fin 4) (head : FrameHead) (num : Word) (s : State) : State :=
  s.cplFrame g.val head 2 8 fun s =>
    match s.commitNumbered num.toNat with
    | none => s
    | some c => { s with commits := s.commits.map fun (x : Commit) => if x.ex = c.ex then { x with acked := true } else x }

/-- JM_NACK (R396): the exchange ends with code 0x03 and DEV 0x06. -/
def onJmNack (g : Fin 4) (head : FrameHead) (num : Word) (s : State) : State :=
  s.cplFrame g.val head 2 8 fun s =>
    match s.commitNumbered num.toNat with
    | none => s
    | some c => if c.acked then s else s.refuseCommit c.ex 6

/-- JM_RETIRE (R397): the peer frees its copy of a retired entry. -/
def onJmRetire (g : Fin 4) (head : FrameHead) (num : Word) (s : State) : State :=
  s.cplFrame g.val head 1 8 fun s =>
    match s.memberAt g.val with
    | none => s
    | some m => match s.copySlot? m num.toNat with
      | none => s
      | some i => if (s.jentry i).marked then s.freeSlot i else s

/-- JM_QUERY (R397): the origin answers JM_RETIRE for every number that is none of its live entries. -/
def onJmQuery (g : Fin 4) (head : FrameHead) (nums : List Word) (s : State) : State :=
  s.cplFrame g.val head 1 (8 * nums.length) fun s =>
    State.each (nums.take 32) (fun n s =>
      if (s.slotOfEntry n.toNat false).isSome then s else s.cplSend g.val 0x34 0 (wordBytes n)) s

/-- May the entry be redriven to a subchannel (R397): a valid NVMe record of the entry's block size? -/
def State.adoptable (s : State) (sch shift : Nat) : Bool :=
  match s.schRecord (if s.storeAvail 0 then 0 else 1) sch with
  | some r => recValid r && recKind r == 1 && recShift r == shift
  | none => false

/-- Copies are adopted or discarded through CPL_ADOPT (R397, R403); the Tally names the origin's entry number and the new one. -/
def State.adoptRecord (s : State) (detail m num new : Nat) : State :=
  s.tallyEvent (some uModule) 0x0B detail 7 0xFF (payload8 1 (beBytes 1 m ++ beBytes 8 num ++ beBytes 8 new))

/-- The copy that CPL_ADOPT and CPL_ADOPT_ARG name. -/
def State.adoptSlot (s : State) : Option Nat :=
  let m := s.rd uModule Reg.CPL_ADOPT.MEMBER
  s.liveSlots.find? fun i => (s.jentry i).seam == 0x40 + m && (s.jentry i).num == s.rd uModule Reg.CPL_ADOPT_ARG.ENTRY

/-- ADOPT: the copy becomes a held entry of this module. -/
def State.doAdopt (s : State) : State :=
  let m := s.rd uModule Reg.CPL_ADOPT.MEMBER
  let sch0 := s.rd uModule Reg.CPL_ADOPT_SCH.SCH0
  let sch1 := s.rd uModule Reg.CPL_ADOPT_SCH.SCH1
  let fin (s : State) (r : Nat) : State := s.wr uModule Reg.CPL_ADOPT.RESULT r
  match s.adoptSlot with
  | none => fin s 3
  | some i =>
    let e := s.jentry i
    if !(s.groupsTo m).isEmpty then fin s 4
    else if !s.adoptable sch0 e.shift ∨ (e.ntgt = 2 ∧ !s.adoptable sch1 e.shift) then fin s 5
    else
      let d := if s.storeAvail 0 then 0 else 1
      let num := s.jnext
      let s := s.putEntry i { e with
        num := num, seam := 0, xmod := false, sch0 := sch0, nsid0 := recNsid (s.recOf sch0 d),
        sch1 := if e.ntgt = 2 then sch1 else 0, nsid1 := if e.ntgt = 2 then recNsid (s.recOf sch1 d) else 0, held := true }
      let s : State := { s with jcount := s.jcount + 1 }
      let s := s.wr s.jbank Reg.JNL_ERR.HELD_SET 1
      fin (s.adoptRecord 0x01 m e.num num) 1

/-- DISCARD of a copy. -/
def State.doCopyDiscard (s : State) : State :=
  match s.adoptSlot with
  | none => s.wr uModule Reg.CPL_ADOPT.RESULT 3
  | some i =>
    let num := (s.jentry i).num
    ((s.freeSlot i).adoptRecord 0x02 (s.rd uModule Reg.CPL_ADOPT.MEMBER) num 0).wr uModule Reg.CPL_ADOPT.RESULT 1

/-- A write of CPL_ADOPT with START (R403). -/
def State.adoptStart (s : State) : State :=
  match s.rd uModule Reg.CPL_ADOPT.OP with
  | 1 => s.doAdopt
  | 2 => s.doCopyDiscard
  | _ => s.wr uModule Reg.CPL_ADOPT.RESULT 2

/-- ADOPT (R397). -/
def onAdopt (sender : Sender) (member : Fin 4) (s : State) : State :=
  s.command sender uModule Reg.CPL_ADOPT.START.off fun s =>
    ((s.wr uModule Reg.CPL_ADOPT.MEMBER member.val).wr uModule Reg.CPL_ADOPT.OP 1).adoptStart

/-- CPL_ADOPT_DISCARD (R397). -/
def onCplAdoptDiscard (sender : Sender) (member : Fin 4) (s : State) : State :=
  s.command sender uModule Reg.CPL_ADOPT.START.off fun s =>
    ((s.wr uModule Reg.CPL_ADOPT.MEMBER member.val).wr uModule Reg.CPL_ADOPT.OP 2).adoptStart

/-! ### Remote page accesses (R400) -/

/-- Does the sender hold the cube, as a remote write says of it (R400)? Only a steward does (log entry 102). -/
def State.holdsCube (s : State) (sender : Sender) : Bool :=
  match sender with
  | .steward n => s.holder == some n.val
  | _ => false

/-- The data of a PAGE_WR: slot, offset, value and whether the sender holds the cube (log entry 44). -/
def pageWrBytes (slot off v : Nat) (holds : Bool) : List Byte :=
  beBytes 2 slot ++ beBytes 2 off ++ beBytes 8 v ++ beBytes 1 (if holds then 0x80 else 0)

/-- A write of the complex page that acts in the module page of every member goes to each remote member that a group reaches (R20,
R400). -/
def State.toMembers (s : State) (sender : Sender) (off v : Nat) : State :=
  State.each s.members (fun m s =>
    if s.ownIndex = some m then s
    else match s.groupTo m 0 with
      | some g => s.cplSend g 0x21 0 (pageWrBytes 0 off v (s.holdsCube sender))
      | none => s) s

/-- An access through CPL_RA starts: a request goes to the member, or RESULT reads 0x04 where no group reaches it. -/
def State.remoteStart (s : State) (sender : Sender) (op : Nat) : State :=
  if s.complex.access.isSome then s
  else match s.groupTo (s.rd uComplex Reg.CPL_RA_SEL.MEMBER) 0 with
    | none => s.wr uComplex Reg.CPL_RA_CTL.RESULT 4
    | some g =>
      let tag := (s.complex.tag + 1) % 65536
      let slot := s.rd uComplex Reg.CPL_RA_SEL.SLOT
      let off := s.rd uComplex Reg.CPL_RA_SEL.OFFSET
      let s : State := { s with complex := { s.complex with access := some (tag, s.now), tag := tag } }
      if op = 1 then s.cplSend g 0x20 tag (beBytes 2 slot ++ beBytes 2 off)
      else s.cplSend g 0x21 tag (pageWrBytes slot off (s.rd uComplex Reg.CPL_RA_DATA.DATA) (s.holdsCube sender))

/-- CPL_RA_READ (R400). -/
def onCplRaRead (sender : Sender) (s : State) : State :=
  s.command sender uComplex Reg.CPL_RA_CTL.START.off fun s => (s.wr uComplex Reg.CPL_RA_CTL.OP 1).remoteStart sender 1

/-- CPL_RA_WRITE (R400). -/
def onCplRaWrite (sender : Sender) (s : State) : State :=
  s.command sender uComplex Reg.CPL_RA_CTL.START.off fun s => (s.wr uComplex Reg.CPL_RA_CTL.OP 2).remoteStart sender 2

/-- PAGE_RSP (R400): the response to the access in progress. -/
def onPageRsp (g : Fin 4) (head : FrameHead) (result : RemoteEnd) (s : State) : State :=
  s.cplFrame g.val head 3 9 fun s =>
    match s.complex.access with
    | none => s
    | some (tag, _) =>
      if tag ≠ head.tag.toNat then s
      else
        let s : State := { s with complex := { s.complex with access := none } }
        match result with
        | .data w => (s.wr uComplex Reg.CPL_RA_DATA.DATA w.toNat).wr uComplex Reg.CPL_RA_CTL.RESULT 1
        | .done => s.wr uComplex Reg.CPL_RA_CTL.RESULT 1
        | .error => s.wr uComplex Reg.CPL_RA_CTL.RESULT 2
        | .refused => s.wr uComplex Reg.CPL_RA_CTL.RESULT 3

/-- CPL_RA_TIMEOUT (R400): no response within 5 µs. -/
def onCplRaTimeout (s : State) : State :=
  match s.complex.access with
  | some (_, since) =>
    if since + 5000 ≤ s.now then
      { s with complex := { s.complex with access := none } }.wr uComplex Reg.CPL_RA_CTL.RESULT 4
    else s
  | none => s

/-! ### The commands as the queue gives them -/

def execLinkDown (lane : BitVec 7) (s : State) : Answer := s.run (onLinkDown lane)
def execRetrainAttempt (lane : BitVec 7) (s : State) : Answer := s.run (onRetrainAttempt lane)
def execLinkUp (lane : BitVec 7) (width : Fin 5) (rate : BitVec 8) (s : State) : Answer := s.run (onLinkUp lane width rate)
def execInboundRequest (lane : BitVec 7) (addr : Word) (req : Inbound) (s : State) : Answer := s.run (onInboundRequest lane addr req)
def execFrameReceive (lane : BitVec 7) (frame : List Byte) (s : State) : Answer := s.run (onFrameReceive lane frame)
def execIdle (g : Fin 4) (head : FrameHead) (s : State) : Answer := s.run (onIdle g head)
def execNak (g : Fin 4) (head : FrameHead) (s : State) : Answer := s.run (onNak g head)
def execInit (g : Fin 4) (c0 c1 c2 c3 : BitVec 16) (s : State) : Answer := s.run (onInit g c0 c1 c2 c3)
def execHello (g : Fin 4) (head : FrameHead) (lot : BitVec 40) (cxid : BitVec 16) (group : BitVec 8) (lots : List (BitVec 40)) (s : State) : Answer :=
  s.run (onHello g head lot cxid group lots)
def execRoster (g : Fin 4) (head : FrameHead) (l0 l1 l2 l3 : BitVec 40) (s : State) : Answer := s.run (onRoster g head l0 l1 l2 l3)
def execStatus (g : Fin 4) (head : FrameHead) (sticky live : Word) (s : State) : Answer := s.run (onStatus g head sticky live)
def execStatusPeriod (s : State) : Answer := s.run onStatusPeriod
def execPageRsp (g : Fin 4) (head : FrameHead) (result : RemoteEnd) (s : State) : Answer := s.run (onPageRsp g head result)
def execJmHdr (g : Fin 4) (head : FrameHead) (header : BitVec 1024) (s : State) : Answer := s.run (onJmHdr g head header)
def execJmData (g : Fin 4) (head : FrameHead) (payload : List Byte) (s : State) : Answer := s.run (onJmData g head payload)
def execJmAck (g : Fin 4) (head : FrameHead) (num : Word) (s : State) : Answer := s.run (onJmAck g head num)
def execJmNack (g : Fin 4) (head : FrameHead) (num : Word) (s : State) : Answer := s.run (onJmNack g head num)
def execJmRetire (g : Fin 4) (head : FrameHead) (num : Word) (s : State) : Answer := s.run (onJmRetire g head num)
def execJmQuery (g : Fin 4) (head : FrameHead) (nums : List Word) (s : State) : Answer := s.run (onJmQuery g head nums)
def execCouplingSilence (g : Fin 4) (s : State) : Answer := s.run (onCouplingSilence g)
def execReenum (sender : Sender) (s : State) : Answer := s.run (onReenum sender)
def execAdopt (sender : Sender) (member : Fin 4) (s : State) : Answer := s.run (onAdopt sender member)
def execCplAdoptDiscard (sender : Sender) (member : Fin 4) (s : State) : Answer := s.run (onCplAdoptDiscard sender member)
def execCplRaRead (sender : Sender) (s : State) : Answer := s.run (onCplRaRead sender)
def execCplRaWrite (sender : Sender) (s : State) : Answer := s.run (onCplRaWrite sender)
def execCouplingFrameCrcError (g : Fin 4) (s : State) : Answer := s.run (onCouplingFrameCrcError g)
def execReservedFrameType (g : Fin 4) (type : BitVec 8) (s : State) : Answer := s.run (onReservedFrameType g type)
def execCouplingLaneFail (g : Fin 4) (lane : Fin 4) (s : State) : Answer := s.run (onCouplingLaneFail g lane)
def execCplRaTimeout (s : State) : Answer := s.run onCplRaTimeout

end Sys2Proof.Machine
end

