-- ==== Sys2Proof/Machine/Placement.lean ====
section
/-! DEFINITION. The Foreman's commands: decisions, ticks, take-offs, parking, policy writes, FMN_EVICT (R233, R236, R244, R252), the end of
a wait at its deadline (R86, R238), and the placement of memory (R241-R243, R282-R284). -/

namespace Sys2Proof.Machine

/-- FOREMAN_DECISION (R233). -/
def onForemanDecision (s : State) : State := s.foremanDecision

/-- FOREMAN_TICK (R236, R238). -/
def onForemanTick (s : State) : State := s.foremanTick

/-- TAKE_OFF (R236): the take-off due on core `k`. -/
def onTakeOff (k : Fin 48) (s : State) : State := s.performTakeOff k.val

/-- CORE_PARK (R244). -/
def onCorePark (k : Fin 48) (s : State) : State := s.corePark k.val

/-- TILE_RETENTION (R244). -/
def onTileRetention (t : Fin 4) (s : State) : State := s.tileRetention t.val

/-- WAIT_DEADLINE (R86, R238): the deadline of a waiting work unit; those beyond the table end at a tick. -/
def onWaitDeadline (num : BitVec 56) (s : State) : State :=
  let n := num.toNat
  let w := s.work n
  if w.run = .waiting ∧ 2 ≤ w.waitKind ∧ w.waitUntil ≤ s.timeBase ∧ s.operates uForeman ∧ s.spilled.contains n = false then
    s.endWait n 1 none
  else s

/-- The registers of the Foreman page that hold policy (R233, R250). -/
def isPolicy (off : Nat) : Bool :=
  off == 0x080 || off == 0x088 || off == 0x090 || off == 0x0A0 || off == 0x0A8 || off == 0x0F8
    || (decide (0x400 ≤ off) && decide (off < 0xC00) && ((off - 0x400) % 0x20 == 0 || (off - 0x400) % 0x20 == 8))

/-- A write of a policy register: traced, and followed by a decision (R233, R249). The group of a sealed seam ignores it (R254). -/
def State.policyWrite (s : State) (off : Nat) (v : Word) : State :=
  if 0x400 ≤ off ∧ s.sealed ((off - 0x400) / 0x20) then s
  else
    let old := s.word uForeman off
    let s := s.writeFields uForeman off v
    let new := s.word uForeman off
    (s.trace 0x10 0xFF 0xFF 0xFF 0xFF 0xFF 0 (beBytes 2 off ++ wordBytes old ++ wordBytes new)).fmnEvent .policy

/-- FMN_POLICY_WRITE (R233). -/
def onFmnPolicyWrite (sender : Sender) (off : BitVec 12) (v : Word) (s : State) : State :=
  if isPolicy off.toNat then s.command sender uForeman off.toNat fun s => s.policyWrite off.toNat v else s

/-- FMN_EVICT START with a core (R252, R253). -/
def State.evictStart (s : State) (n : Nat) : State :=
  let s := s.wr uForeman Reg.FMN_EVICT.CORE n
  if s.evict.isSome then s
  else
    if 48 ≤ n then s.wr uForeman Reg.FMN_EVICT.RESULT 2
    else if !(s.core n).active then s.wr uForeman Reg.FMN_EVICT.RESULT 3
    else
      let s := s.setBit uForeman Reg.FMN_HOLD.HOLD n true
      let s := s.setCore n { s.core n with reserved := none }
      let s := { s with evict := some n }
      (s.askOff n 6).evictCheck

/-- FMN_EVICT (R252). -/
def onFmnEvict (sender : Sender) (core : BitVec 8) (s : State) : State :=
  s.command sender uForeman 0x0F0 fun s => s.evictStart core.toNat

/-! ### Granule counters and migration (R241-R243) -/

def GranCount.total (g : GranCount) : Nat := g.counts.foldl (· + ·) 0

/-- Count a report of tile `t` about a granule (R241). -/
def countMiss (l : List GranCount) (t g : Nat) : List GranCount :=
  let one : List Nat := (List.range 4).map fun i => if i = t then 1 else 0
  if l.any fun e => e.gran == g then
    l.map fun e => if e.gran = g then { e with counts := List.zipWith (fun a b => (a + b) % 65536) e.counts one } else e
  else if l.length < 16384 then l ++ [{ gran := g, counts := one }]
  else match bestBy (fun a b => decide (a.2.total < b.2.total)) (l.zipIdx.map fun e => (e.2, e.1)) with
    | some (i, _) => l.set i { gran := g, counts := one }
    | none => l

/-- MISS_REPORT (R241): the oldest sampled miss reaches the Foreman. -/
def onMissReport (s : State) : State :=
  match s.missReports with
  | [] => s
  | (t, g) :: rest =>
    let s := { s with missReports := rest }
    if s.operates uForeman then { s with granCounts := countMiss s.granCounts t g } else s

/-- Granules that a channel holds for seams, guests included (R297 MAPPED). -/
def State.mappedOn (s : State) (c : Nat) : Nat :=
  let owned := (List.range (s.rd uSeamCtl Reg.SEAM_RSV.SEAM_RSV)).map (fun g => g)
    ++ (s.owners.filterMap fun e => if e.2 ≠ 0x80 ∧ s.rd uSeamCtl Reg.SEAM_RSV.SEAM_RSV ≤ e.1 then some e.1 else none)
  (owned.filter fun g => match s.homeOf g with | some h => h.ch == c || h.partner == some c | none => false).length

/-- The lowest free guest slot of a channel (R281, R284). -/
def State.freeGuest (s : State) (c : Nat) : Option Nat :=
  let cap := s.capacity c
  let g := s.guests c
  ((List.range g).map fun i => cap - g + i).find? fun sl =>
    !(s.remap.any fun e => e.1 / 2048 == c && e.2.v && !e.2.flip && e.2.slot == sl)
      && !(s.migrations.any fun m => !m.flip && m.dst == c && m.slot == sl)

/-- The lowest free entry of a channel's remap table. -/
def State.freeRemap (s : State) (c : Nat) : Option Nat :=
  (List.range 2048).find? fun i => !(s.remap.look { v := false, flip := false, gran := 0, slot := 0 } (c * 2048 + i)).v

/-- The tile with the highest count among those that dominate a granule's counters and whose far I/O die holds its home (R242). -/
def State.dominant (s : State) (g : GranCount) (h : Home) : Option Nat :=
  let n (t : Nat) : Nat := g.counts.getD t 0
  bestBy (fun a b => decide (n b < n a))
    ((List.range 4).filter fun t => decide (s.rd uForeman Reg.FMN_MIG.DOMINANCE * g.total ≤ 16 * n t) && h.ch / 8 != nearDieOf t)

/-- May the granule of an owner migrate (R243)? -/
def State.ownerMigrates (s : State) (g : Nat) : Bool :=
  let o := s.ownerOf g
  if o < 64 then !s.sealed o && !s.flag uForeman (Reg.FMN_SEAM_ALLOT.MIG_OFF.ix o) else true

/-- A candidate of R242 with its dominant tile. -/
def State.migCandidate (s : State) (g : GranCount) : Option Nat :=
  if g.total < s.rd uForeman Reg.FMN_MIG.THRESH ∨ !s.ownerMigrates g.gran ∨ (s.migrations.any fun m => m.gran == g.gran) then none
  else (s.homeOf g.gran).bind (s.dominant g)

/-- The record of a migration in the placement trace (R249). -/
def State.traceMigration (s : State) (kind : Nat) (m : Migration) (tail : List Byte) : State :=
  s.trace kind 0xFF 0xFF 0xFF 0xFF 0xFF 0
    (beBytes 8 (m.gran * 65536) ++ m.counts.flatMap (beBytes 2) ++ beBytes 1 m.src ++ beBytes 1 m.dst ++ tail)

/-- Start the migration of a candidate (R242, R243, R284): a candidate without a destination is skipped and counted. -/
def State.migStart (s : State) (g : GranCount) (t : Nat) : State :=
  match s.homeOf g.gran with
  | none => s
  | some h =>
    if s.mirrored then
      let other := partnerOf h.ch
      let clears := (s.remapOf g.gran true).isSome
      if s.serves other ∧ (clears ∨ ((s.freeRemap h.ch).isSome ∧ (s.freeRemap other).isSome)) then
        let m : Migration := { gran := g.gran, src := h.ch, dst := other, slot := 0, flip := true, counts := g.counts }
        { s.traceMigration 0x0D m [] with migrations := s.migrations ++ [m] }
      else s.bump (uHome other) Reg.MEM_REMAP_CNT.SKIPPED
    else
      let chans := ((List.range 8).map fun i => 8 * nearDieOf t + i).filter s.serves
      let d := s.defaultHome g.gran
      let fits := chans.filter fun c => c == d.1 || ((s.freeGuest c).isSome && (s.freeRemap c).isSome)
      let best (l : List Nat) : Option Nat := bestBy (fun a b => decide (s.mappedOn a < s.mappedOn b)) l
      match best fits with
      | none => match best chans with
        | some c => s.bump (uHome c) Reg.MEM_REMAP_CNT.SKIPPED
        | none => s
      | some c =>
        let slot := if c = d.1 then d.2 else (s.freeGuest c).getD 0
        let m : Migration := { gran := g.gran, src := h.ch, dst := c, slot := slot, flip := false, counts := g.counts }
        { s.traceMigration 0x0D m [] with migrations := s.migrations ++ [m] }

/-- EPOCH_END (R241, R242). -/
def onEpochEnd (s : State) : State :=
  if !s.operates uForeman then s
  else
    let l := s.granCounts.filterMap fun g => (s.migCandidate g).map fun t => (g, t)
    let order := sortBy (fun a b => decide (b.1.total < a.1.total) || (a.1.total == b.1.total && decide (a.1.gran ≤ b.1.gran))) l
    let s := if s.flag uForeman Reg.FMN_MIG.MIG_EN then
        State.each (order.take (s.rd uForeman Reg.FMN_MIG.MAX_MIG)) (fun e s => s.migStart e.1 e.2) s
      else s
    { s with granCounts := s.granCounts.map fun (g : GranCount) => { g with counts := g.counts.map (· / 2) } }

/-- The entries of a table in one range of keys take the place of another range. -/
def moveRange {α : Type} (m : Table α) (src dst n : Nat) : Table α :=
  (m.filter fun e => decide (e.1 < dst))
    ++ ((m.filter fun e => decide (src ≤ e.1) && decide (e.1 < src + n)).map fun e => (e.1 - src + dst, e.2))
    ++ m.filter fun e => decide (dst + n ≤ e.1)

/-- The entries of a range of keys are removed: they read as unlisted. -/
def clearRange {α : Type} (m : Table α) (lo n : Nat) : Table α := m.filter fun e => decide (e.1 < lo) || decide (lo + n ≤ e.1)

/-- Copy one slot of a channel to a slot of another, poison marks included. -/
def State.copySlot (s : State) (c1 s1 c2 s2 : Nat) : State :=
  let a := c1 * 2 ^ 31 + s1 * 65536
  let b := c2 * 2 ^ 31 + s2 * 65536
  { s with mem := moveRange s.mem a b 65536, poison := moveRange s.poison (a / 8) (b / 8) 8192,
           badWords := moveRange s.badWords (a / 8) (b / 8) 8192 }

/-- Fill a slot of a channel with zeros. -/
def State.zeroSlot (s : State) (c sl : Nat) : State :=
  let a := c * 2 ^ 31 + sl * 65536
  { s with mem := clearRange s.mem a 65536, poison := clearRange s.poison (a / 8) 8192, badWords := clearRange s.badWords (a / 8) 8192 }

def Remap.none : Remap := { v := false, flip := false, gran := 0, slot := 0 }

/-- Remove the remap entries of a granule. -/
def State.unmapRemap (s : State) (g : Nat) : State := { s with remap := s.remap.filter fun e => !(e.2.v && e.2.gran == g) }

/-- Add a remap entry in a channel's table. -/
def State.addRemap (s : State) (c : Nat) (e : Remap) : State :=
  match s.freeRemap c with
  | some i => { s with remap := s.remap.put Remap.none (c * 2048 + i) e }
  | none => s

/-- The directory entries of a granule's lines at a home agent. -/
def State.dirOfGranule (s : State) (home g : Nat) : List DirEntry :=
  s.dir.filterMap fun e => if e.1 / 524288 = home ∧ e.2.st ≠ .u ∧ e.2.line / 512 = g then some e.2 else none

/-- The switch of a migration (R242, R243): data, directory entries and the remap tables. -/
def State.migSwitch (s : State) (m : Migration) : State :=
  let entries := s.dirOfGranule m.src m.gran
  let s := State.each entries (fun e s => s.setDir m.src e.line DirEntry.empty) s
  let s := if m.flip then
      let had := (s.remapOf m.gran true).isSome
      let s := s.unmapRemap m.gran
      if had then s
      else
        let e : Remap := { v := true, flip := true, gran := m.gran, slot := 0 }
        (s.addRemap m.src e).addRemap m.dst e
    else
      let old := match s.homeOf m.gran with | some h => h.slot | none => 0
      let s := (s.copySlot m.src old m.dst m.slot).unmapRemap m.gran
      if (s.defaultHome m.gran).1 = m.dst then s
      else s.addRemap m.dst { v := true, flip := false, gran := m.gran, slot := m.slot }
  State.each entries (fun e s => s.dirRecord m.dst e.line e.seam e) s

/-- The byte of a trace record that tells how a migration ended (log entry 24). -/
def migResult (ok : Bool) : List Byte := [if ok then 1 else 0]

/-- Has the source granule of a migration a word that cannot be corrected, so that its copy stops (R242)? A flip moves no data (R243). -/
def State.copyStops (s : State) (m : Migration) : Bool :=
  !m.flip && match s.homeOf m.gran with
    | some h =>
      let lo := (m.src * 2 ^ 31 + h.slot * 65536) / 8
      s.badWords.any fun e => decide (lo ≤ e.1) && decide (e.1 < lo + 8192) && e.2
    | none => false

/-- MIGRATION_SWITCH (R242): the migration of a granule whose copy is complete. A channel fault or an uncorrectable error in the source
stops it; open transactions delay it. -/
def onMigrationSwitch (gran : BitVec 19) (s : State) : State :=
  match s.migrations.find? fun m => m.gran == gran.toNat with
  | none => s
  | some m =>
    let gone := s.migrations.filter fun x => x.gran != m.gran
    if !s.serves m.src ∨ !s.serves m.dst ∨ s.copyStops m = true then
      let s := ({ s with migrations := gone } : State).stick uForeman Reg.FMN_ERR.MIG_ABORT
      let s := s.tallyEvent (some uForeman) 0x0E 0x02 7 0xFF (payload8 0 (beBytes 8 (m.gran * 65536)))
      s.traceMigration 0x0E m (migResult false)
    else if s.homeTrans.any fun h => h.line / 512 == m.gran then s
    else
      let s := ({ s with migrations := gone } : State).migSwitch m
      let s := s.count uForeman Reg.FMN_COUNT2.MIGRATIONS
      let s := s.tallyEvent (some uForeman) 0x07 0x04 7 0xFF
        (payload8 1 (beBytes 8 (m.gran * 65536) ++ beBytes 1 m.src ++ beBytes 1 m.dst))
      s.traceMigration 0x0E m (migResult true)

/-! ### The commands as the queue gives them -/

def execWaitDeadline (num : BitVec 56) (s : State) : Answer := s.run (onWaitDeadline num)
def execForemanDecision (s : State) : Answer := s.run onForemanDecision
def execForemanTick (s : State) : Answer := s.run onForemanTick
def execTakeOff (k : Fin 48) (s : State) : Answer := s.run (onTakeOff k)
def execMissReport (s : State) : Answer := s.run onMissReport
def execEpochEnd (s : State) : Answer := s.run onEpochEnd
def execMigrationSwitch (gran : BitVec 19) (s : State) : Answer := s.run (onMigrationSwitch gran)
def execCorePark (k : Fin 48) (s : State) : Answer := s.run (onCorePark k)
def execTileRetention (t : Fin 4) (s : State) : Answer := s.run (onTileRetention t)
def execFmnPolicyWrite (sender : Sender) (off : BitVec 12) (v : Word) (s : State) : Answer := s.run (onFmnPolicyWrite sender off v)
def execFmnEvict (sender : Sender) (core : BitVec 8) (s : State) : Answer := s.run (onFmnEvict sender core)

end Sys2Proof.Machine
end

