-- ==== Sys2Proof/Machine/MemChannel.lean ====
section
/-! DEFINITION. The memory channels (R276-R297): accesses as the channel serves them, training and RESYNC, patrol scrub, impedance
calibration and the loss of a channel. What the devices do (an error in a word, a result of training) is an operand. -/

namespace Sys2Proof.Machine

/-- Is this a line of a channel that serves accesses? -/
def State.channelLine (s : State) (ch line : Nat) : Bool := s.serves ch && decide (line < s.capacity ch * 512)

/-- Does the partner of a mirrored pair serve (R287, R288)? -/
def State.pairServes (s : State) (ch : Nat) : Bool := s.mirrored && s.serves (partnerOf ch)

/-- A read of a line finds single-bit errors in some words and worse errors in others (R289). -/
def State.readErrors (s : State) (ch line : Nat) (single double : BitVec 16) : State × BitVec 16 :=
  let key := ch * 2 ^ 31 + line * 128
  let marks := wordMarks s.poison key
  let s := State.each ((List.range 16).filter fun w => (double &&& ~~~marks).getLsbD (15 - w)) (fun w s =>
    { s with badWords := s.badWords.put false (key / 8 + w) true }) s
  let fixed := single &&& ~~~(marks ||| wordMarks s.badWords key)
  let s := if fixed = 0 then s
    else (s.bump (uMem ch) Reg.MEM_ECC.CORR (markCount fixed)).corrected (uMem ch) (BitVec.ofNat 64 line)
  (s.channelReads ch (partnerOf ch) line (s.pairServes ch), fixed)

/-- CHANNEL_READ (R289, R292): the channel serves a read; the operands say which of the line's words read with a single-bit error, and
which with another error. -/
def onChannelRead (ch : Fin 16) (line : BitVec 24) (single double : BitVec 16) (s : State) : State :=
  if s.channelLine ch.val line.toNat then (s.readErrors ch.val line.toNat single double).1 else s

/-- CHANNEL_WRITE (R287, R289, R292): the channel stores the bytes that the mask selects, with the poison marks of the words; with
mirroring the partner stores them too. -/
def onChannelWrite (ch : Fin 16) (line : BitVec 24) (mask : BitVec 128) (data : BitVec 1024) (poison : BitVec 16) (s : State) : State :=
  if s.channelLine ch.val line.toNat then
    let d : LineData := ⟨data, poison⟩
    let s := s.putLineAt (ch.val * 2 ^ 31 + line.toNat * 128) mask d
    if s.pairServes ch.val then s.putLineAt (partnerOf ch.val * 2 ^ 31 + line.toNat * 128) mask d else s
  else s

/-- SCRUB_ACCESS (R291): patrol scrub reads the next line and writes back its corrected words. -/
def onScrubAccess (ch : Fin 16) (single double : BitVec 16) (s : State) : State :=
  let u := uMem ch.val
  let pos := s.rd u Reg.MEM_SCRUB.POS
  let lines := s.capacity ch.val * 512
  if !s.flag u Reg.MEM_SCRUB.EN ∨ !s.channelLine ch.val pos then s
  else
    let r := s.readErrors ch.val pos single double
    let s := r.1.count u Reg.MEM_SCRUB_COUNT.FIXED (markCount r.2)
    let s := s.wr u Reg.MEM_SCRUB.POS ((pos + 1) % lines)
    if pos + 1 = lines then s.count u Reg.MEM_SCRUB_COUNT.PASSES else s

/-- ZQ_CALIBRATION (R292, R297): the calibration's new code, an operand, is applied between transfers. -/
def onZqCalibration (ch : Fin 16) (code : BitVec 16) (s : State) : State :=
  let u := uMem ch.val
  if s.operates u then (s.wr u Reg.MEM_IO.ZQ_CODE code.toNat).bump u Reg.MEM_IO.ZQ_UPDATES else s

/-! ### Loss of a channel (R22, R279, R288, R290) -/

/-- The seams with a granule on a channel. -/
def State.seamsOn (s : State) (ch : Nat) : List Nat :=
  let l := s.owners.filterMap fun e => if 1 ≤ e.2 ∧ e.2 < 64 ∧ s.placedOn e.1 ch = true then some e.2 else none
  allSeams.filter fun n => l.contains n

/-- The partner of channel `c` becomes primary of the lines that `c` ordered (R184): it has every transaction that `c` had begun, answers
reach it, and tile controllers send it the requests that `c` had not taken (log entry 113). -/
def State.takeOver (s : State) (c : Nat) (lines : List Nat) : State :=
  let p := partnerOf c
  let mine (line : Nat) : Bool := lines.contains line
  let old := homeStop c
  let s : State := { s with
    msgs := (s.msgs.filter fun (m : Msg) => !(mine m.line && m.kind.cls == .request && m.src < 4)).map fun (m : Msg) =>
      if mine m.line then { m with src := if m.src = old then homeStop p else m.src, dst := if m.dst = old then homeStop p else m.dst } else m
    homeTrans := s.homeTrans.map fun (h : HomeTrans) => if h.home = c ∧ mine h.line then { h with home := p } else h
    homeQueue := s.homeQueue.filter fun (r : HomeReq) => !(mine r.line && r.agent.stop < 4) }
  State.each s.tileTrans (fun x s =>
    let taken := s.homeTrans.any fun h => (h.line == x.line || h.req.line == x.line) && h.req.agent == .tile x.tile
    if mine x.line && !taken && (x.tx == .is || x.tx == .im || x.tx == .sm || x.tx == .om) then s.resend x else s) s

/-- The lines with something in flight, by the channel that orders them. -/
def State.openLines (s : State) (c : Nat) : List Nat :=
  (((s.tileTrans.map TileTrans.line) ++ s.homeTrans.map HomeTrans.line ++ s.msgs.map Msg.line).eraseDups).filter fun l =>
    s.homeAgent l == some c

/-- A channel goes down (R290): reads of it return poison, and without a serving partner every seam with a granule on it is
checkstopped (R22, R288). -/
def State.channelLost (s : State) (ch : Nat) : State :=
  let partner := s.pairServes ch
  let seams := s.seamsOn ch
  let lines := s.openLines ch
  let s := (s.stick (uMem ch) Reg.MEM_ERR.DOWN).tallyEvent (some (uMem ch)) 0x07 0x02 7 0xFF (payload8 0 [])
  let s := { s with down := s.down.put false ch true }
  if partner then (s.stick (uHome (partnerOf ch)) Reg.HOME_ERR.PARTNER_LOST).takeOver ch lines
  else State.each seams (fun n s => s.checkstopSeam n 5) s

/-- CHANNEL_DOWN (R290). -/
def onChannelDown (ch : Fin 16) (s : State) : State := if s.down.look false ch.val then s else s.channelLost ch.val

/-! ### Training and RESYNC (R288, R295, R296) -/

/-- The RESULT of a MEM_CFG that holds a reserved value (R297). -/
def State.memCfgReserved (s : State) (ch : Nat) : Bool :=
  let u := uMem ch
  let dv := s.rd u Reg.MEM_CFG.DEVICES
  let rl := s.rd u Reg.MEM_CFG.RL
  !(dv == 0 || dv == 1 || dv == 2 || dv == 4) || s.rd u Reg.MEM_CFG.DENSITY == 3 || decide (rl < 3) || decide (8 < rl)
    || s.rd u Reg.MEM_CFG.WL == 3

/-- Do the channels of a mirrored pair disagree in MEM_CFG (R286)? -/
def State.pairDiffers (s : State) (ch : Nat) : Bool :=
  (s.flag (uMem ch) Reg.MEM_CFG.MIRROR || s.flag (uMem (partnerOf ch)) Reg.MEM_CFG.MIRROR)
    && s.word (uMem ch) 0x080 != s.word (uMem (partnerOf ch)) 0x080

/-- The RESULT of a training that finds `found` in its phases, an event of the devices: no device answers (0x02), deskew (0x04), read
latency (0x05), pattern (0x06), another MEM_CFG (0x0A), or nothing. The checks of MEM_CFG come of the registers alone. -/
def State.trainResult (s : State) (ch found : Nat) : Nat :=
  if s.memCfgReserved ch then 3
  else if s.rd (uMem ch) Reg.MEM_CFG.DEVICES = 0 then 2
  else if found = 2 ∨ found = 4 ∨ found = 5 ∨ found = 6 ∨ found = 0x0A then found
  else if s.pairDiffers ch then 7
  else 1

def State.trainRun (s : State) (ch : Nat) : Option (Nat × Nat) := s.trainRuns.look none ch

/-- Remove everything that a channel's memory holds: it is filled with zeros (R295). -/
def State.clearChannel (s : State) (ch : Nat) : State :=
  let a := ch * 2 ^ 31
  { s with mem := clearRange s.mem a (2 ^ 31), poison := clearRange s.poison (a / 8) (2 ^ 28),
           badWords := clearRange s.badWords (a / 8) (2 ^ 28) }

/-- MEM_TRAIN with an OP is started, unless a command runs (R297). TRAIN clears TRAINED and destroys the contents; RESYNC without
MIRROR, or whose partner is not trained, is refused. -/
def State.memTrain (s : State) (ch op : Nat) : State :=
  let u := uMem ch
  let s := s.wr u Reg.MEM_TRAIN.OP op
  if (s.trainRun ch).isSome then s
  else
    if op = 1 then
      let s := (s.wr u Reg.MEM_TRAIN.TRAINED 0).clearChannel ch
      { s with trainRuns := s.trainRuns.put none ch (some (1, s.now)) }
    else if op = 2 then
      if !s.flag u Reg.MEM_CFG.MIRROR ∨ !s.flag (uMem (partnerOf ch)) Reg.MEM_TRAIN.TRAINED then s.wr u Reg.MEM_TRAIN.RESULT 9
      else { s with trainRuns := s.trainRuns.put none ch (some (2, s.now)) }
    else s

/-- TRAIN (R295). -/
def onTrain (sender : Sender) (ch : Fin 16) (s : State) : State := s.command sender (uMem ch.val) 0x090 fun s => s.memTrain ch.val 1

/-- RESYNC (R288). -/
def onResync (sender : Sender) (ch : Fin 16) (s : State) : State := s.command sender (uMem ch.val) 0x090 fun s => s.memTrain ch.val 2

/-- The end of a TRAIN: trained and filled with zeros, or failed and down (R295, R296). A channel of a mirrored pair that was lost
serves again only after RESYNC (R288). -/
def State.trainEnds (s : State) (ch result lane : Nat) : State :=
  let u := uMem ch
  let s := (s.wr u Reg.MEM_TRAIN.RESULT result).wr u Reg.MEM_TRAIN.LANE (if result = 4 ∨ result = 6 then lane else 0xFF)
  if result = 1 then
    let s := s.wr u Reg.MEM_TRAIN.TRAINED 1
    if s.pairServes ch ∧ s.down.look false ch = true then s else { s with down := s.down.put false ch false }
  else (s.stick u Reg.MEM_ERR.TRAIN_FAIL).channelLost ch

/-- The end of a RESYNC: the survivor's contents are copied, or the survivor failed and both channels are down (R288). -/
def State.resyncEnds (s : State) (ch : Nat) : State :=
  let u := uMem ch
  let p := partnerOf ch
  let ok := s.serves p
  let result := if ok then 1 else 8
  let s := (s.wr u Reg.MEM_TRAIN.RESULT result).tallyEvent (some u) 0x07 0x03 7 0xFF (payload8 result [])
  if ok then
    let a := p * 2 ^ 31
    let b := ch * 2 ^ 31
    { s with mem := moveRange s.mem a b (2 ^ 31), poison := moveRange s.poison (a / 8) (b / 8) (2 ^ 28),
             badWords := moveRange s.badWords (a / 8) (b / 8) (2 ^ 28), down := s.down.put false ch false }
  else
    let s := (s.stick u Reg.MEM_ERR.RESYNC_FAIL).channelLost ch
    if s.down.look false p then s else s.channelLost p

/-- The time that a command of a channel has run, in µs (R297 LAST_US). -/
def State.trainUs (s : State) (t0 : Nat) : Nat := min ((s.now - t0) / 1000) 0xFFFFFFFF

/-- MEM_TRAIN_DONE (R295, R296): the command in progress ends; `found` and `lane` say what the devices showed. -/
def onMemTrainDone (ch : Fin 16) (found lane : BitVec 8) (s : State) : State :=
  match s.trainRun ch.val with
  | none => s
  | some (op, t0) =>
    let u := uMem ch.val
    let s := { s with trainRuns := s.trainRuns.put none ch.val none }
    let s := s.wr u Reg.MEM_TRAIN.LAST_US (s.trainUs t0)
    if op = 1 then s.trainEnds ch.val (s.trainResult ch.val found.toNat) lane.toNat else s.resyncEnds ch.val

/-- A U reset abandons the command of a channel (R295). -/
def State.trainAbandon (s : State) (ch : Nat) : State :=
  match s.trainRun ch with
  | some (_, t0) =>
    (({ s with trainRuns := s.trainRuns.put none ch none } : State).wr (uMem ch) Reg.MEM_TRAIN.RESULT 0x0B).wr (uMem ch)
      Reg.MEM_TRAIN.LAST_US (s.trainUs t0)
  | none => s

/-! ### The commands as the queue gives them -/

def execChannelRead (ch : Fin 16) (line : BitVec 24) (single double : BitVec 16) (s : State) : Answer := s.run (onChannelRead ch line single double)
def execChannelWrite (ch : Fin 16) (line : BitVec 24) (mask : BitVec 128) (data : BitVec 1024) (poison : BitVec 16) (s : State) : Answer :=
  s.run (onChannelWrite ch line mask data poison)
def execTrain (sender : Sender) (ch : Fin 16) (s : State) : Answer := s.run (onTrain sender ch)
def execResync (sender : Sender) (ch : Fin 16) (s : State) : Answer := s.run (onResync sender ch)
def execMemTrainDone (ch : Fin 16) (found lane : BitVec 8) (s : State) : Answer := s.run (onMemTrainDone ch found lane)
def execScrubAccess (ch : Fin 16) (single double : BitVec 16) (s : State) : Answer := s.run (onScrubAccess ch single double)
def execZqCalibration (ch : Fin 16) (code : BitVec 16) (s : State) : Answer := s.run (onZqCalibration ch code)
def execChannelDown (ch : Fin 16) (s : State) : Answer := s.run (onChannelDown ch)

end Sys2Proof.Machine
end

