-- ==== Sys2Proof/Machine/Seams.lean ====
section
/-! DEFINITION. The seam controller (R255-R275): its commands, the granule map, sealing, the S reset, and TIMING_OK. -/

namespace Sys2Proof.Machine

/-! ### Seams at large -/

/-- The fields of the seam's group (R273). -/
def State.seamLimit (s : State) (n : Nat) : Nat := s.rd uSeamCtl (Reg.SEAM_GRAN.LIMIT.ix n)
def State.seamGen (s : State) (n : Nat) : Nat := s.rd uSeamCtl (Reg.SEAM_STATE.GEN.ix n)

def State.seamWr (s : State) (n : Nat) (f : Field) (v : Nat) : State := s.wr uSeamCtl (f.ix n) v

/-- Seams 1-63. -/
def programSeams : List Nat := (List.range 63).map (· + 1)

/-- A sum over a list. -/
def sumOf (l : List Nat) (f : Nat → Nat) : Nat := l.foldl (fun a n => a + f n) 0

/-! ### Granules (R258-R261) -/

/-- The default channel of a granule, or with mirroring the pair (R260, R280). -/
def State.granule (s : State) (c slot : Nat) : Nat := if s.mirrored then slot * 8 + c else slot * 16 + c

/-- Is a granule free for GRANT (R260)? -/
def State.granFree (s : State) (g : Nat) : Bool := s.ownerOf g == 0x80 && (s.homeOf g).isSome

/-- The free granule with the lowest default local slot, at or above `from_`, of a channel or pair. -/
def State.freeGranule (s : State) (c from_ : Nat) : Option Nat :=
  ((List.range (s.capacity c - from_)).find? fun i => s.granFree (s.granule c (from_ + i))).map fun i => from_ + i

/-- The next granule of the rotation (R260): channel or pair, and slot. `ptrs` are the slots from which each is searched. -/
def State.nextGrant (s : State) (ptrs : List Nat) : Option (Nat × Nat) :=
  let n := if s.mirrored then 8 else 16
  (List.range n).findSome? fun i =>
    let c := (s.grantAt + i) % n
    (s.freeGranule c (ptrs.getD c 0)).map fun sl => (c, sl)

/-- Fill a granule with zeros at its home, in both channels of a pair. -/
def State.zeroGranule (s : State) (g : Nat) : State :=
  match s.homeOf g with
  | none => s
  | some h =>
    let s := s.zeroSlot h.ch h.slot
    match h.partner with
    | some p => s.zeroSlot p h.slot
    | none => s

/-- Write entry `g` of a seam's map table (R259). -/
def State.mapWrite (s : State) (n g v : Nat) : State :=
  (s.physWrite (s.rd uSeamCtl (Reg.SEAM_MAP.MAP_BASE.ix n) * 2 ^ 21 + 4 * g) (beBytes 4 v)).1

/-- Add up to `n` granules to a seam (R260): zeroed, owned, mapped, LIMIT raised. -/
def grantLoop (seam : Nat) : Nat → List Nat → State → State
  | 0, _, s => s
  | n + 1, ptrs, s =>
    match s.nextGrant ptrs with
    | none => s
    | some (c, sl) =>
      let g := s.granule c sl
      let s := s.zeroGranule g
      let s := { s with owners := s.owners.put 0x80 g seam, grantAt := c + 1 }
      let l := s.seamLimit seam
      let s := (s.mapWrite seam l (2 ^ 31 + g)).seamWr seam Reg.SEAM_GRAN.LIMIT (l + 1)
      grantLoop seam n (ptrs.set c (sl + 1)) s

/-- The free granules (SEAM_FREE FREE_GRAN). -/
def State.freeGranules (s : State) : Nat :=
  let total := if s.mirrored then 8 * s.capacity 0 else 16 * (s.capacity 0 - s.guests 0)
  ((List.range total).filter s.granFree).length

/-- Every cached copy of a granule is invalidated module-wide, and dirty data is discarded (R261). -/
def State.dropGranule (s : State) (g : Nat) : State :=
  let held := s.caches.filter fun e => e.2.st != .i && e.2.line / 512 == g
  let s := State.each held (fun e s => s.lockLost (cacheOfNum (e.1 / 131072)) e.2.line) s
  { s with
    caches := s.caches.filter fun e => e.2.line / 512 != g,
    dir := s.dir.filter fun e => e.2.line / 512 != g,
    wbq := s.wbq.filter fun e => e.line / 512 != g,
    tileTrans := s.tileTrans.filter fun t => t.line / 512 != g,
    homeTrans := s.homeTrans.filter fun h => h.line / 512 != g && h.req.line / 512 != g,
    homeQueue := s.homeQueue.filter fun r => r.line / 512 != g,
    ringWait := s.ringWait.filter fun r => r.line / 512 != g,
    supplied := s.supplied.filter fun x => x.2.1 / 512 != g,
    msgs := s.msgs.filter fun m => m.line / 512 != g }

/-- The module granule of seam granule `g`, by the map. -/
def State.mapped (s : State) (n g : Nat) : Option Nat :=
  match s.mapEntry n g with
  | some e => if e < 2 ^ 31 then none else some (e % 2 ^ 19)
  | none => none

/-- A granule whose data have been zeroed is back at its default slot: its guest entry goes, and a migration of it is given up (R282). -/
def State.backHome (s : State) (g : Nat) : State :=
  { s with remap := s.remap.filter fun e => !(e.2.v && !e.2.flip && e.2.gran == g),
           migrations := s.migrations.filter fun m => m.gran != g }

/-- Remove the top `k` granules of a seam, in the order of R261. -/
def State.revokeTop (s : State) (n k : Nat) : State :=
  let l := s.seamLimit n
  let gone := (List.range k).map fun i => l - k + i
  let mods := gone.filterMap fun g => s.mapped n g
  let s := s.seamWr n Reg.SEAM_GRAN.LIMIT (l - k)
  let s := State.each (List.range 48) (fun c s =>
    let x := s.core c
    s.setCore c { x with tlb := x.tlb.filter fun t => t.seam != n }) s
  let s := State.each mods (fun g s => ((s.dropGranule g).zeroGranule g).backHome g) s
  let s := State.each gone (fun g s => s.mapWrite n g 0) s
  State.each mods (fun g s => { s with owners := s.owners.put 0x80 g 0x80 }) s

/-! ### The S reset (R266) -/

/-- The work units of a seam end, and their descriptors are not written (R230, R266). -/
def State.endSeamWork (s : State) (n : Nat) : State :=
  State.each ((s.wus.filter fun e => e.2.run != .none && e.2.seam == n).map Prod.fst) (fun num s =>
    match (s.work num).run with
    | .running k => ((s.drainOrDiscard k).endWork num 0x13 false).coreFreed k
    | .suspended k =>
      let s := s.endWork num 0x13 false
      let s := s.setCore k { s.core k with ckpt := Ckpt.none }
      match s.ckwRuns.look none (k / 12) with
      | some r => if r.src = k % 12 then
          { s with ckwRuns := s.ckwRuns.put none (k / 12) (some { r with result := 0x06 }) } else s
      | none => s
    | _ => s.endWork num 0x13 false) s

/-- The steps of the S reset before its end (R266): work units, exchanges, DRBG instances, engines, ring counts and the completion
queue, interruptions that pend for the seam; locked L2 content of the seam is released (R153). -/
def State.seamResetSteps (s : State) (n : Nat) : State :=
  let s := s.seamWr n Reg.SEAM_STATE.STATE 3
  let s := (s.endSeamWork n).endExchanges n 0x02
  let s := State.each (List.range (s.rd uSeamCtl (Reg.SEAM_QUOTA.DRBG.ix n))) (fun i s => s.instantiate n i) s
  let s := s.engineSeamReset n
  let s := State.each (List.range 8) (fun p s => s.setRing n p Ring.empty) s
  let s := (s.spWr n Reg.SP_CQ_HEAD.HEAD 0).spWr n Reg.SP_CQ_TAIL.TAIL 0
  let s := State.each (List.range 48) (fun k s =>
    if s.rd (uCore k) Reg.L2_LOCK.OWNER = n ∧ s.rd (uCore k) Reg.L2_LOCK.LOCKED ≠ 0 then s.wr (uCore k) Reg.L2_LOCK.LOCKED 0 else s) s
  { s with seamPend := s.seamPend.put [] n [], cqPhase := s.cqPhase.put false n false }

/-- The registers that an S reset of seam `n` reaches (R8): those of the units that it owns, and those assigned to it, which are the locks
and the preload of a core whose lock names it (R165), its counts in the Foreman's page and its words in the seam controller's, and its ring
heads and DRBG counts (log entry 104). -/
def State.reachedByS (s : State) (n : Nat) (u : UnitId) (off : Nat) : Bool :=
  s.rd u Reg.UNIT_OWNER.OWNER == n || match u.type with
  | .core => s.rd u Reg.L2_LOCK.OWNER == n
      && (off == Reg.L2_LOCK.OWNER.off || off == Reg.L2_PRELOAD_BASE.BASE.off || off == Reg.L2_PRELOAD_CTL.WAYS.off)
  | .foreman => off == (Reg.FMN_SEAM_COUNT.REJECTS.ix n).off
  | .seamctl => off == (Reg.SEAM_STATE.STATE.ix n).off
  | .crusher => off == 0x300 + 8 * n
  | .cipher => off == 0x300 + 8 * n
  | .entropy => off == 0x300 + 8 * n || off == 0x500 + 8 * n
  | _ => false

/-- The end of the S reset: the fields that it reaches and that do not list S take their Reset values (R8), GEN goes up and STATE reads
built; CAUSE is cleared (R266, R273). -/
def State.seamResetEnd (s : State) (n : Nat) : State :=
  let s := s.keepRegs (s.reachedByS n) codeS
  let s := (s.seamWr n Reg.SEAM_STATE.GEN (s.seamGen n + 1)).seamWr n Reg.SEAM_STATE.STATE 1
  s.seamWr n Reg.SEAM_STATE.CAUSE 0

/-! ### Commands (R256, R257) -/

/-- The checks that every command makes: seam 0 or no seam, the lock, the state, the seal; 0 if all pass (the order is log entry
39). -/
def State.seamRefusal (s : State) (n : Nat) (lockable : Bool) (states : List Nat) (unsealed : Bool) : Nat :=
  if n = 0 then 0x09
  else if 64 ≤ n then 0x0C
  else if lockable && s.locked uSeamCtl then 0x05
  else if !states.contains (s.rd uSeamCtl (Reg.SEAM_STATE.STATE.ix n)) then 0x03
  else if unsealed && s.sealed n then 0x04
  else 0

/-- A command of the seam controller (R256): OP, SEAM and FIELD are written with START, which is ignored while BUSY. `check` answers
a RESULT that refuses it, or 0; `act` carries it out and answers its RESULT. -/
def State.seamCommand (s : State) (sender : Sender) (op n field : Nat) (check : State → Nat) (act : State → State × Nat) : State :=
  s.command sender uSeamCtl 0x080 fun s =>
    let s := ((s.wr uSeamCtl Reg.SEAM_CMD.OP op).wr uSeamCtl Reg.SEAM_CMD.SEAM n).wr uSeamCtl Reg.SEAM_CMD.FIELD field
    if s.seamCmd.isSome then s
    else
      let arg := s.rd uSeamCtl Reg.SEAM_ARG.ARG
      let r := check s
      let run : SeamCmd := { op := op, seam := n, arg := arg, result := r }
      if r ≠ 0 then { s with seamCmd := some run }
      else
        let a := act { s with seamCmd := some run }
        { a.1 with seamCmd := some { run with result := a.2 } }

/-- A field of SEAM_ARG. -/
def State.seamArg (s : State) (lo hi : Nat) : Nat := (s.word uSeamCtl Reg.SEAM_ARG.ARG.off).field lo hi

/-- Is a 2 MiB map table at this address allowed (R257 0x0A, R508)? -/
def State.mapBaseGood (s : State) : Bool :=
  let base := s.seamArg 0 63
  let g := base / 65536
  decide (base % 2 ^ 21 = 0) && decide (g + 32 ≤ s.rd uSeamCtl Reg.SEAM_RSV.SEAM_RSV)
    && (List.range 32).all fun i => (s.homeOf (g + i)).isSome

/-- Allotments of a seam, and its seam page, back to 0. -/
def State.clearAllotments (s : State) (n : Nat) : State :=
  let base := 0x100 + 0x30 * n
  let s := State.each [0x10, 0x18, 0x20] (fun o s => s.setWord uSeamCtl (base + o) 0) s
  { s with regs := s.regs.filter fun (e : Nat × Word) => e.1 / 4096 != 0x10000 * 65536 + n }

/-- CREATE (R256): a free seam is built with a map base. -/
def onCreate (sender : Sender) (n : BitVec 8) (s : State) : State :=
  let n := n.toNat
  s.seamCommand sender 1 n 0
    (fun s =>
      let r := s.seamRefusal n true [0] false
      if r ≠ 0 then r else if s.mapBaseGood then 0 else 0x0A)
    fun s =>
      let s := s.clearAllotments n
      let s := s.seamWr n Reg.SEAM_MAP.MAP_BASE (s.seamArg 16 42)
      let s := (s.seamWr n Reg.SEAM_STATE.GEN (s.seamGen n + 1)).seamWr n Reg.SEAM_STATE.STATE 1
      (s.seamWr n Reg.SEAM_STATE.CAUSE 0, 0x01)

/-- GRANT (R260): `n` free granules, zeroed, join the seam. An uncorrectable error after `stop` granules ends the command there. -/
def onGrant (sender : Sender) (seam : BitVec 8) (stop : Option (BitVec 20)) (s : State) : State :=
  let m := seam.toNat
  s.seamCommand sender 2 m 0
    (fun s =>
      let r := s.seamRefusal m true [1] true
      let k := s.seamArg 44 63
      if r ≠ 0 then r
      else if 524288 < s.seamLimit m + k then 0x0C
      else if s.freeGranules < k then 0x06 else 0)
    fun s =>
      let k := s.seamArg 44 63
      match stop with
      | some e => if e.toNat < k then (grantLoop m e.toNat (List.replicate 16 0) s, 0x0B)
          else (grantLoop m k (List.replicate 16 0) s, 0x01)
      | none => (grantLoop m k (List.replicate 16 0) s, 0x01)

/-- REVOKE (R261): the top granules leave a seam without live work units and open exchanges. -/
def onRevoke (sender : Sender) (seam : BitVec 8) (s : State) : State :=
  let m := seam.toNat
  s.seamCommand sender 3 m 0
    (fun s =>
      let r := s.seamRefusal m true [1] true
      if r ≠ 0 then r
      else if s.liveOf m ≠ 0 ∨ s.heldBy m ≠ 0 then 0x03
      else if s.seamLimit m < s.seamArg 44 63 then 0x0C else 0)
    fun s => (s.revokeTop m (s.seamArg 44 63), 0x01)

/-- Does a subchannel range overlap another seam's (R263)? -/
def State.schOverlap (s : State) (n first count : Nat) : Bool :=
  programSeams.any fun m => m != n &&
    (let f := s.rd uSeamCtl (Reg.SEAM_SCH.FIRST.ix m)
     let c := s.rd uSeamCtl (Reg.SEAM_SCH.COUNT.ix m)
     decide (c ≠ 0) && decide (count ≠ 0) && decide (first < f + c) && decide (f < first + count))

/-- The check of SET for a FIELD (R263): its RESULT, 0 if it passes. -/
def State.setCheck (s : State) (n field : Nat) : Nat :=
  match field with
  | 1 =>
    let first := s.seamArg 0 17
    let count := s.seamArg 32 50
    if 262144 < first + count then 0x0C else if s.schOverlap n first count then 0x07 else 0
  | 2 =>
    let others := sumOf (programSeams.filter (· != n)) fun m => s.rd uSeamCtl (Reg.SEAM_QUOTA.CTX.ix m)
    if 262144 < others + s.seamArg 0 18 then 0x06 else 0
  | 3 =>
    let others := sumOf (programSeams.filter (· != n)) fun m => s.rd uSeamCtl (Reg.SEAM_QUOTA.JNL_KIB.ix m)
    if 65536 < others + s.rd (uBank 0) Reg.JNL_CFG.PEER_KIB + s.seamArg 0 16 then 0x06 else 0
  | 4 => if 8 < s.seamArg 0 3 then 0x0C else 0
  | _ => 0x02

/-- Set one allotment (R263); DRBG instances are instantiated or zeroised (R420). -/
def State.setAllotment (s : State) (n field : Nat) : State :=
  match field with
  | 1 => (s.seamWr n Reg.SEAM_SCH.FIRST (s.seamArg 0 17)).seamWr n Reg.SEAM_SCH.COUNT (s.seamArg 32 50)
  | 2 => s.seamWr n Reg.SEAM_QUOTA.CTX (s.seamArg 0 18)
  | 3 => s.seamWr n Reg.SEAM_QUOTA.JNL_KIB (s.seamArg 0 16)
  | _ =>
    let old := s.rd uSeamCtl (Reg.SEAM_QUOTA.DRBG.ix n)
    let new := s.seamArg 0 3
    let s := s.seamWr n Reg.SEAM_QUOTA.DRBG new
    let s := State.each ((List.range 8).filter fun i => new ≤ i) (fun i s => s.setDrbg n i none) s
    State.each ((List.range new).filter fun i => old ≤ i) (fun i s => s.instantiate n i) s

/-- SET (R263): one allotment, selected by FIELD. -/
def onSet (sender : Sender) (seam : BitVec 8) (field : BitVec 8) (s : State) : State :=
  let m := seam.toNat
  s.seamCommand sender 4 m field.toNat
    (fun s =>
      let r := s.seamRefusal m true [1] true
      if r ≠ 0 then r else s.setCheck m field.toNat)
    fun s => (s.setAllotment m field.toNat, 0x01)

/-- The preconditions of SEAL (R264). -/
def State.sealable (s : State) (n : Nat) : Bool :=
  let minOf (m : Nat) : Nat := s.seamMin m
  decide (s.seamLimit n ≠ 0) && decide (1 ≤ minOf n) && s.seamMax n == minOf n
    && decide (16 * minOf n ≤ s.rd uForeman (Reg.FMN_SEAM_POWER.BUDGET_W.ix n))
    && decide (sumOf (programSeams.filter fun m => m == n || s.sealed m) minOf ≤ 40)

/-- SEAL (R264). -/
def onSeal (sender : Sender) (seam : BitVec 8) (s : State) : State :=
  let m := seam.toNat
  s.seamCommand sender 5 m 0
    (fun s =>
      let r := s.seamRefusal m false [1] true
      if r ≠ 0 then r else if s.sealable m then 0 else 0x08)
    fun s => (s.seamWr m Reg.SEAM_STATE.SEALED 1, 0x01)

/-- CHECKSTOP (R265): a steward checkstops a seam, with CAUSE 0x04. -/
def onCheckstop (sender : Sender) (seam : BitVec 8) (s : State) : State :=
  let m := seam.toNat
  s.seamCommand sender 6 m 0 (fun s => s.seamRefusal m false [1] false) fun s => (s.checkstopNow m 4, 0x01)

/-- RESET (R266): the S reset of a seam; STATE reads resetting until SEAM_CMD_DONE. -/
def onReset (sender : Sender) (seam : BitVec 8) (s : State) : State :=
  let m := seam.toNat
  s.seamCommand sender 7 m 0 (fun s => s.seamRefusal m false [1, 2] false) fun s => (s.seamResetSteps m, 0x01)

/-- The granules that the owner bytes still give a seam are freed, their cached copies dropped and their data zeroed: those that its map
entries no longer name (R261, R508). -/
def State.freeOwned (s : State) (n : Nat) : State :=
  let left := (s.owners.filter fun e => e.2 == n).map Prod.fst
  { State.each left (fun g s => ((s.dropGranule g).zeroGranule g).backHome g) s with owners := s.owners.filter fun e => e.2 != n }

/-- The end of DESTROY (R256): every granule is revoked, allotments and SEALED are 0, STATE is free. -/
def State.destroyEnd (s : State) (n : Nat) : State :=
  let s := ((s.seamResetEnd n).revokeTop n (s.seamLimit n)).freeOwned n
  let s := State.each (List.range 8) (fun i s => s.setDrbg n i none) s
  let s := (s.clearAllotments n).seamWr n Reg.SEAM_MAP.MAP_BASE 0
  (s.seamWr n Reg.SEAM_STATE.SEALED 0).seamWr n Reg.SEAM_STATE.STATE 0

/-- DESTROY (R256): the S reset, then everything is freed at SEAM_CMD_DONE. -/
def onDestroy (sender : Sender) (seam : BitVec 8) (s : State) : State :=
  let m := seam.toNat
  s.seamCommand sender 8 m 0 (fun s => s.seamRefusal m false [1, 2] false) fun s => (s.seamResetSteps m, 0x01)

/-- SEAM_CMD_DONE (R257): the command ends with its RESULT and its Tally record, and checkstops that waited for it take effect. -/
def onSeamCmdDone (s : State) : State :=
  match s.seamCmd with
  | none => s
  | some c =>
    let s : State := { s with seamCmd := none }
    let s := if c.result ≠ 1 then s
      else if c.op = 7 then (s.seamResetEnd c.seam).count uSeamCtl (Reg.SEAM_COUNT.RESETS.ix c.seam)
      else if c.op = 8 then s.destroyEnd c.seam
      else s
    let s := s.wr uSeamCtl Reg.SEAM_CMD.RESULT c.result
    let gen := if c.seam < 64 then s.seamGen c.seam else 0
    (s.tallyEvent (some uSeamCtl) 0x04 c.op 7 (if c.seam < 64 then c.seam else 0xFF)
      (payload8 c.result (beBytes 1 c.result ++ beBytes 4 gen ++ beBytes 8 c.arg))).heldStopsNow

/-! ### TIMING_OK (R269) -/

/-- Owner byte `i` of an array of doublewords from an offset. -/
def State.ownerByte (s : State) (u : UnitId) (off i : Nat) : Nat := (s.word u (off + 8 * (i / 8))).field (8 * (i % 8)) (8 * (i % 8) + 7)

/-- Does the seam own at least one of `count` owner bytes? -/
def State.ownsOne (s : State) (n : Nat) (u : UnitId) (off count : Nat) : Bool :=
  (List.range count).any fun i => s.ownerByte u off i == n

/-- Are the haulers and lane groups of a seam's subchannels its own (R269, condition 7)? -/
def State.pathsOwned (s : State) (n : Nat) : Bool :=
  let first := s.rd uSeamCtl (Reg.SEAM_SCH.FIRST.ix n)
  let owner (u : UnitId) : Nat := s.rd u Reg.UNIT_OWNER.OWNER
  (List.range (s.rd uSeamCtl (Reg.SEAM_SCH.COUNT.ix n))).all fun i =>
    match s.schRecord 0 (first + i) with
    | none => true
    | some r => !recValid r || (List.range 8).all fun j =>
        let p := recPath r j
        !pathV p || (owner (uHauler (pathHauler p)) == n && owner (laneUnit (pathLane p)) == n)

/-- Does an engine give the seam a quantum of its own, or has the seam no ring there (R269, condition 8)? -/
def State.engineOwned (s : State) (n : Nat) (e : EngineId) : Bool :=
  let k := s.rd e.unit (e.ring n).2.1
  s.ownsOne n e.unit (if e.isEntropy then 0x0C0 else 0x0A0) 32 || k == 0

/-- The conditions of R269. -/
def State.timingGood (s : State) (n : Nat) : Bool :=
  let chans := (List.range 16).filter fun c => s.owners.any fun e => e.2 == n && (match s.homeOf e.1 with
    | some h => h.ch == c || h.partner == some c
    | none => false)
  s.sealed n && s.flag uSeamCtl Reg.SEAM_MODE.RESMODE
    && s.flag uModule Reg.SHF_MODE.RESERVED
    && ((List.range 14).all fun i => s.ownsOne n uModule (0x240 + 0x40 * i) 64)
    && ((List.range 16).all fun c => s.flag (uHome c) Reg.HOME_CFG.RESERVED && s.ownsOne n (uHome c) 0x0C0 16
          && s.ownsOne n (uHome c) 0x088 16)
    && ((List.range 32).all fun i => s.ownsOne n (uL3 i) 0x080 16)
    && (chans.all fun c => s.ownsOne n (uMem c) 0x100 64)
    && s.pathsOwned n
    && (EngineId.all.all fun e => s.engineOwned n e)
    && s.power.envelope == 0
    && ((List.range 7).all fun i => s.word uModule (0x5C0 + 8 * i) &&& 0xC000000000000000#64 == 0)
    && ((List.range 16).all fun c => !s.flag (uHome c) Reg.HOME_ERR.PARTNER_LOST)
    && (s.rd uSeamCtl (Reg.SEAM_QUOTA.CTX.ix n) == 0 || (List.range 2).all fun d => s.ownsOne n (uCtx d) 0x100 64)
    && (s.rd uSeamCtl (Reg.SEAM_QUOTA.JNL_KIB.ix n) == 0 || (List.range 2).all fun d => s.ownsOne n (uBank d) 0x180 64)

/-- The seam controller brings TIMING_OK of every seam up to date; each change is recorded (R269). -/
def State.refreshTiming (s : State) : State :=
  State.each programSeams (fun n s =>
    let ok := s.timingGood n
    if ok = s.timingOk.look false n then s
    else
      ({ s with timingOk := s.timingOk.put false n ok } : State).tallyEvent (some uSeamCtl) 0x04 0x11 7 n
        (payload8 0 (beBytes 1 (if ok then 1 else 0)))) s

/-! ### The commands as the queue gives them -/

def execCreate (sender : Sender) (n : BitVec 8) (s : State) : Answer := s.run (onCreate sender n)
def execGrant (sender : Sender) (seam : BitVec 8) (stop : Option (BitVec 20)) (s : State) : Answer := s.run (onGrant sender seam stop)
def execRevoke (sender : Sender) (seam : BitVec 8) (s : State) : Answer := s.run (onRevoke sender seam)
def execSet (sender : Sender) (seam : BitVec 8) (field : BitVec 8) (s : State) : Answer := s.run (onSet sender seam field)
def execSeal (sender : Sender) (seam : BitVec 8) (s : State) : Answer := s.run (onSeal sender seam)
def execCheckstop (sender : Sender) (seam : BitVec 8) (s : State) : Answer := s.run (onCheckstop sender seam)
def execReset (sender : Sender) (seam : BitVec 8) (s : State) : Answer := s.run (onReset sender seam)
def execDestroy (sender : Sender) (seam : BitVec 8) (s : State) : Answer := s.run (onDestroy sender seam)
def execSeamCmdDone (s : State) : Answer := s.run onSeamCmdDone

end Sys2Proof.Machine
end

