-- ==== Sys2Proof/Machine/Cube.lean ====
section
/-! DEFINITION. The cube arbiter (R431-R434, R448). -/

namespace Sys2Proof.Machine

/-- The lease in ms, clamped to 10-1,000 (R448). -/
def State.leaseMs (s : State) : Nat := min 1000 (max 10 (s.rd uCube Reg.CUBE_CFG.LEASE_MS))

/-- The lease restarts at full length. -/
def State.leaseStart (s : State) : State := { s with leaseEnd := s.now + s.leaseMs * 1000000, leaseLen := s.leaseMs * 1000000 }

/-- REMAIN_US (R448). -/
def State.remainUs (s : State) : Nat := if s.holder.isSome then (s.leaseEnd - s.now + 999) / 1000 else 0

/-- Does the steward read halted (R447)? -/
def State.stwHalted (s : State) (n : Nat) : Bool := (s.stewards.look Steward.reset n).boot == .halted

/-- May the arbiter listen to a REQUEST of the steward (R431)? -/
def State.mayRequest (s : State) (n : Nat) : Bool := s.operates (uSteward n) && !s.stwHalted n

/-- Is a REQUEST of the steward pending? -/
def State.requestPends (s : State) (n : Nat) : Bool := s.cubePend.getLsbD n

def State.setPend (s : State) (n : Nat) (b : Bool) : State :=
  { s with cubePend := if b then s.cubePend ||| BitVec.ofNat 2 (2 ^ n) else s.cubePend &&& ~~~(BitVec.ofNat 2 (2 ^ n)) }

/-- Requests of stewards that may not request are cleared (R431). -/
def State.prunePend (s : State) : State :=
  State.each [0, 1] (fun n s => if s.mayRequest n then s else s.setPend n false) s

/-- A cube record of the Tally (R469): GEN and HOLDER. -/
def State.cubeRecord (s : State) (detail : Nat) : State :=
  s.tallyEvent (some uCube) 0x03 detail 7 0xFF
    (payload8 0 (beBytes 4 (s.rd uCube Reg.CUBE_STAT.GEN) ++ beBytes 1 (s.rd uCube Reg.CUBE_STAT.HOLDER)))

/-- REQUEST (R431, R434): it pends, unless the steward holds the cube or may not request. -/
def State.cubeRequest (s : State) (n : Nat) : State :=
  let s := s.prunePend
  if s.mayRequest n ∧ s.holder ≠ some n then s.setPend n true else s

/-- The replication of a steward that no longer holds the cube stops: its engine's next write ends the command with RESULT 0x07 (R435). -/
def State.replStops (s : State) : State :=
  match s.holder with
  | none => s
  | some n =>
    let t := s.stewards.look Steward.reset n
    if t.repl.isNone then s
    else
      let s : State := { s with stewards := s.stewards.put Steward.reset n { t with repl := none } }
      s.wr (uSteward n) Reg.STW_REPL_CTL.RESULT 7

/-- The lease ends by expiry, or by the fencing, reset or power-off of the holder (R432). -/
def State.leaseLost (s : State) : State :=
  let s := (s.wr uCube Reg.CUBE_ERR.EXPIRED 1).bump uCube Reg.CUBE_COUNT.EXPIRIES
  let s := s.cubeRecord 0x02
  (s.replStops.wr uCube Reg.CUBE_STAT.HOLDER 3).prunePend

/-- The steward has become fenced, resetting or off: it loses the cube and its request (R431, R432). -/
def State.stewardGone (s : State) (n : Nat) : State :=
  let s := s.setPend n false
  if s.holder = some n then s.leaseLost else s

/-- RELEASE by the holder (R432). -/
def State.cubeRelease (s : State) : State :=
  let s := (s.bump uCube Reg.CUBE_COUNT.RELEASES).cubeRecord 0x03
  s.replStops.wr uCube Reg.CUBE_STAT.HOLDER 3

/-- A write of CUBE_OP by a steward is always checked by R28 alone (R433). -/
def State.cubeOp (s : State) (n : Fin 2) (act : State → State) : State := s.command (.steward n) uCube 0x098 act

/-- CUBE_OP REQUEST (R431). -/
def onRequest (n : Fin 2) (s : State) : State := s.cubeOp n fun s => s.cubeRequest n.val

/-- CUBE_OP RENEW (R432, R434): the holder's lease restarts; later than half the lease sets LATE; at or after the expiry, or by another
steward, it is refused and counted. -/
def State.cubeRenew (s : State) (n : Nat) : State :=
  if s.holder ≠ some n ∨ s.leaseEnd ≤ s.now then s.bump uCube Reg.CUBE_COUNT.REFUSED_RENEW
  else
    let late : Bool := decide (2 * (s.leaseEnd - s.now) < s.leaseLen)
    let s := s.leaseStart
    if late then s.stick uCube Reg.CUBE_ERR.LATE else s

def onRenew (n : Fin 2) (s : State) : State := s.cubeOp n fun s => s.cubeRenew n.val

/-- CUBE_OP RELEASE (R432, R434). -/
def onRelease (n : Fin 2) (s : State) : State := s.cubeOp n fun s =>
  if s.holder = some n.val then s.cubeRelease else s.bump uCube Reg.CUBE_COUNT.REFUSED_RENEW

/-- A tick of the arbiter's 1 MHz clock at which no steward holds the cube and one has a pending request: a grant (R431). -/
def onCubeGrant (s : State) : State :=
  let s := s.prunePend
  if s.holder.isSome ∨ s.cubePend = 0 then s
  else
    let n := if s.requestPends 0 then 0 else 1
    let s := (s.setPend n false).wr uCube Reg.CUBE_STAT.HOLDER n
    let s := (s.count uCube Reg.CUBE_STAT.GEN).bump uCube Reg.CUBE_COUNT.GRANTS
    let s := (s.leaseStart).wr uCube Reg.CUBE_CFG.SEAM0_WR 0
    let s := { s with outbox := s.outbox ++ [Out.interrupt 0, Out.interrupt 1] }
    s.cubeRecord 0x01

/-- Is the boot ROM of the cube holder checking images? Then it renews the lease in time (R444). -/
def State.romRenews (s : State) : Bool :=
  match s.holder with
  | some n => s.operates (uSteward n) && (s.stewards.look Steward.reset n).boot == .rom
  | none => false

/-- The lease expires when REMAIN_US reaches 0 (R432), unless the holder's boot ROM has kept it (R444). -/
def onLeaseExpiry (s : State) : State :=
  if s.holder.isSome ∧ s.leaseEnd ≤ s.now ∧ s.power.mResetting = false then
    if s.romRenews then s.leaseStart else s.leaseLost
  else s

/-! ### The commands as the queue gives them -/

def execRequest (n : Fin 2) (s : State) : Answer := s.run (onRequest n)
def execRenew (n : Fin 2) (s : State) : Answer := s.run (onRenew n)
def execRelease (n : Fin 2) (s : State) : Answer := s.run (onRelease n)
def execCubeGrant (s : State) : Answer := s.run onCubeGrant
def execLeaseExpiry (s : State) : Answer := s.run onLeaseExpiry

end Sys2Proof.Machine
end

