-- ==== Sys2Proof/Machine/Stewards.lean ====
section
/-! DEFINITION. The replication engines of the stewards (R435-R440), their boot ROMs (R442-R444) and the firmware floor (R449). -/

namespace Sys2Proof.Machine

def State.stw (s : State) (n : Nat) : Steward := s.stewards.look Steward.reset n

def State.setStw (s : State) (n : Nat) (t : Steward) : State := { s with stewards := s.stewards.put Steward.reset n t }

/-! ### The peer store (R435, R436) -/

/-- Bytes of a steward's local SRAM. -/
def State.sramBytes (s : State) (n a len : Nat) : List Byte := (List.range len).map fun i => (s.stw n).sram.look 0 (a + i)

/-- The bytes of `l` stored from address `a` on. -/
def putBytes : Nat → List Byte → Table Byte → Table Byte
  | _, [], m => m
  | a, b :: l, m => putBytes (a + 1) l (m.put 0 a b)

def State.putSram (s : State) (n a : Nat) (l : List Byte) : State :=
  let t := s.stw n
  s.setStw n { t with sram := putBytes a l t.sram }

/-- The header address of an epoch slot. -/
def epochSlot (i : Nat) : Nat := 0x700000 + i * 0x400000

/-- The address of the journal record with sequence `j` (R435). -/
def journalSlot (j : Nat) : Nat := 0xF00000 + 128 * (j % 8192)

/-- A doubleword of a steward's SRAM, as a number. -/
def State.sramNum (s : State) (n a len : Nat) : Nat := bytesNat (s.sramBytes n a len)

/-- The EPOCH of a slot in the SRAM of steward `n` that passes the hardware checks of R440. -/
def State.epochValid (s : State) (n i : Nat) : Option Nat :=
  let h := s.sramBytes n (epochSlot i) 0x80
  let e := bytesNat ((h.drop 8).take 8)
  if bytesNat (h.take 4) = 0x45504F43 ∧ bytesNat ((h.drop 4).take 2) = 1 ∧ bytesNat (h.drop 0x78) = 2 ^ 64 - 1 - e
      ∧ bytesNat ((h.drop 0x6C).take 4) = (crc32 (h.take 0x6C)).toNat then some e else none

/-- The slot with the newer complete epoch. -/
def State.newerEpoch (s : State) (n : Nat) : Option Nat :=
  match s.epochValid n 0, s.epochValid n 1 with
  | some a, some b => some (if a < b then 1 else 0)
  | some _, none => some 0
  | none, some _ => some 1
  | none, none => none

/-- STW_PEERSTORE (R440, R447) of steward `n`: VALID0, VALID1, and the low 48 bits of the higher valid EPOCH. -/
def State.peerStoreWord (s : State) (n : Nat) : Word :=
  let bit (i : Nat) : Nat := if (s.epochValid n i).isSome then 1 else 0
  let last := match s.newerEpoch n with
    | some i => (match s.epochValid n i with | some e => e | none => 0)
    | none => 0
  Word.setField (Word.setField (Word.setField (0 : Word) 0 0 (bit 0)) 1 1 (bit 1)) 16 63 last

/-- Bytes 0x00-0x7F of a record or header: `l` to 0x6B, the CRC, eight zeros and MARK, the complement of `key`. -/
def marked (l : List Byte) (key : Nat) (mark : Bool) : List Byte :=
  let front := padTo 0x6C l
  front ++ natBytes 4 (crc32 front).toNat ++ List.replicate 8 0
    ++ (if mark then natBytes 8 (2 ^ 64 - 1 - key % 2 ^ 64) else List.replicate 8 0)

/-! ### Commands (R437-R439) -/

/-- The other steward. -/
def otherSteward (n : Nat) : Nat := 1 - n

def State.replResult (s : State) (n r : Nat) : State := s.wr (uSteward n) Reg.STW_REPL_CTL.RESULT r

/-- The other steward is off, resetting or fenced: nothing is replicated and PEER_SYNC clears (R439). -/
def State.peerAbsent (s : State) (n : Nat) : State := (s.setStw n { s.stw n with peerSync := false }).replResult n 4

/-- A command is aborted (R439). -/
def State.replAbort (s : State) (n r : Nat) : State :=
  match (s.stw n).repl with
  | none => s
  | some _ => ((s.setStw n { s.stw n with repl := none }).stick (uSteward n) Reg.STW_ERR.REPL_ABORT).replResult n r

/-- A write of STW_REPL_CTL with START: OP and LEN take what is written; START is ignored while BUSY reads 1 (R447). A command of an
engine whose peer is absent or whose steward does not hold the cube ends at once (R435, R439). -/
def State.replStart (s : State) (n op len : Nat) (act : State → State) : State :=
  let s := (s.wr (uSteward n) Reg.STW_REPL_CTL.OP op).wr (uSteward n) Reg.STW_REPL_CTL.LEN len
  if (s.stw n).repl.isSome then s
  else if op = 0 ∨ op = 3 then s.replResult n 2
  else if op = 1 ∧ (4194176 < len ∨ 0x1000000 < s.rd (uSteward n) Reg.STW_REPL_SRC.SRC * 128 + len) then s.replResult n 3
  else if !s.operates (uSteward (otherSteward n)) then s.peerAbsent n
  else if s.holder ≠ some n then s.replResult n 7
  else act s

/-- The source holds an uncorrectable word: MEM_UNCORR and an abort (R439). -/
def State.sourceBad (s : State) (n : Nat) : State :=
  ((s.stick (uSteward n) Reg.STW_ERR.MEM_UNCORR).stick (uSteward n) Reg.STW_ERR.REPL_ABORT).replResult n 5

/-- The start of EPOCH (R437): the slot's MARK is cleared and the body copied; the header and MARK follow at the end. -/
def State.doEpoch (s : State) (n step : Nat) (source : List Byte) (bad : Bool) : State :=
  let len := s.rd (uSteward n) Reg.STW_REPL_CTL.LEN
  let e := s.rd (uSteward n) Reg.STW_NEXT_EPOCH.EPOCH
  let a := epochSlot (e % 2)
  let p := otherSteward n
  let s := s.putSram p (a + 0x78) (List.replicate 8 0)
  if bad then s.sourceBad n
  else
    let body := padTo len source
    let s := s.putSram p (a + 0x80) body
    let front := natBytes 4 0x45504F43 ++ natBytes 2 1 ++ natBytes 1 step ++ [0] ++ natBytes 8 e
      ++ natBytes 8 (s.rd (uSteward n) Reg.STW_NEXT_JSEQ.JSEQ) ++ natBytes 4 len
      ++ natBytes 4 (s.rd uCube Reg.CUBE_STAT.GEN) ++ sha384 body ++ natBytes 4 s.pcycle ++ List.replicate 4 0 ++ natBytes 8 s.opTime
    s.setStw n { s.stw n with repl := some { op := 1, result := 1, writes := [(a, marked front e true)] } }

/-- EPOCH (R437). `source` is what the steward's SRAM holds at SRC, `bad` an uncorrectable word there, `step` the STEP of the header;
steward firmware has written them. -/
def onEpoch (sender : Sender) (n : Fin 2) (len : BitVec 22) (step : Byte) (source : List Byte) (bad : Bool) (s : State) : State :=
  s.command sender (uSteward n.val) 0x098 fun s =>
    s.replStart n.val 1 len.toNat fun s => s.doEpoch n.val step.toNat source bad

/-- Has the journal ring no room (R438)? -/
def State.ringFull (s : State) (n : Nat) : Bool :=
  let p := otherSteward n
  match s.newerEpoch p with
  | none => false
  | some i => decide (8192 ≤ s.rd (uSteward n) Reg.STW_NEXT_JSEQ.JSEQ - s.sramNum p (epochSlot i + 0x10) 8)

/-- The start of JLOG (R438): the record is completed from bytes 0x10-0x6B at SRC. The epoch in force is the one before NEXT_EPOCH. -/
def State.doJlog (s : State) (n : Nat) (source : List Byte) (bad : Bool) : State :=
  let j := s.rd (uSteward n) Reg.STW_NEXT_JSEQ.JSEQ
  let e := s.rd (uSteward n) Reg.STW_NEXT_EPOCH.EPOCH
  if s.ringFull n then s.replResult n 6
  else if bad then s.sourceBad n
  else
    let front := natBytes 8 j ++ natBytes 8 (e - 1) ++ padTo 0x5C source
    s.setStw n { s.stw n with repl := some { op := 2, result := 1, writes := [(journalSlot j, marked front j true)] } }

/-- JLOG (R438). `source` is bytes 0x10-0x6B of the record at SRC. -/
def onJlog (sender : Sender) (n : Fin 2) (len : BitVec 22) (source : List Byte) (bad : Bool) (s : State) : State :=
  s.command sender (uSteward n.val) 0x098 fun s => s.replStart n.val 2 len.toNat fun s => s.doJlog n.val source bad

/-- A command with a reserved OP (R447). -/
def State.replReserved (s : State) (n op len : Nat) : State := s.replStart n op len fun s => s

/-- Has the patch loader measured a bundle, or its absence, since P or M (R424)? -/
def State.bundleMeasured (s : State) : Bool := s.attLog.any fun e => e.2.getD 8 0 == 2

/-- The start-up step that loads patches always makes one measurement: where firmware has activated no bundle by the end of step 7, which
the epoch with that STEP shows, 48 zero bytes (R224, R445, R446; log entry 114). -/
def State.patchStepEnds (s : State) (step : Nat) : State :=
  if step = 7 ∧ !s.flag uSvcDie Reg.MCS_LDR_STAT.ACTIVE ∧ s.bundleMeasured = false then s.extendLog 2 0 0 false (List.replicate 48 0) else s

/-- An EPOCH or JLOG ends (R437-R439): its last writes are made and the sequence advances, unless the steward no longer holds the cube
or the peer no longer accepts. -/
def onReplDone (n : Fin 2) (s : State) : State :=
  let n := n.val
  match (s.stw n).repl with
  | none => s
  | some r =>
    if !s.operates (uSteward (otherSteward n)) then s.replAbort n 5
    else if s.holder ≠ some n then (s.setStw n { s.stw n with repl := none }).replResult n 7
    else
      let s := State.each r.writes (fun w s => s.putSram (otherSteward n) w.1 w.2) s
      let s := (s.setStw n { s.stw n with repl := none }).replResult n 1
      if r.op = 1 then
        let e := s.rd (uSteward n) Reg.STW_NEXT_EPOCH.EPOCH
        let s := s.patchStepEnds (s.sramNum (otherSteward n) (epochSlot (e % 2) + 6) 1)
        let s := (s.count (uSteward n) Reg.STW_NEXT_EPOCH.EPOCH).bump (uSteward n) Reg.STW_COUNT.EPOCHS
        s.setStw n { s.stw n with peerSync := true }
      else (s.count (uSteward n) Reg.STW_NEXT_JSEQ.JSEQ).bump (uSteward n) Reg.STW_COUNT.JLOGS

/-! ### The boot ROM (R442-R444) -/

/-- Is a component table entry sound: a KIND of R443, its reserved bytes 0, and its bytes before the key (R443, R444)? -/
def componentGood (total : Nat) (e : List Byte) : Bool :=
  let kind := bytesNat (e.take 1)
  decide (1 ≤ kind ∧ kind ≤ 3) && bytesNat ((e.drop 1).take 3) == 0 && bytesNat (e.drop 12) == 0
    && decide (0x140 ≤ bytesNat ((e.drop 4).take 4))
    && decide (bytesNat ((e.drop 4).take 4) + bytesNat ((e.drop 8).take 4) ≤ total - 200)

/-- Check 1 of R444: MAGIC, FORMAT, LENGTH, the component table and the reserved bytes. -/
def imageFormat (h : List Byte) : Bool :=
  let num (off n : Nat) : Nat := bytesNat ((h.drop off).take n)
  let total := num 0x10 4
  let ncomp := num 0x14 2
  let entry (i : Nat) : List Byte := (h.drop (0x40 + 16 * i)).take 16
  num 0 4 == 0x53545746 && num 4 2 == 1 && num 6 2 == 0 && num 0x0A 2 == 0 && num 0x16 2 == 0 && num 0x28 24 == 0
    && num 0x0C 4 != 0 && decide (0x140 + 200 ≤ total) && decide (total ≤ 0x800000) && decide (1 ≤ ncomp) && decide (ncomp ≤ 16)
    && ((List.range 16).all fun i => if i < ncomp then componentGood total (entry i) else bytesNat (entry i) == 0)

/-- Checks 1, 2 and 5 of R444 from the header: the BOOT_RESULT of the first that fails, or the GENERATION. -/
def State.headerCheck (s : State) (slot : FlashSlot) : Except Nat Nat :=
  match slot with
  | none => .error 0x16
  | some l =>
    let h := l.take 0x140
    let gen := bytesNat ((h.drop 0x0C).take 4)
    if !imageFormat h then .error 0x11
    else if bytesNat ((h.drop 8).take 2) ≠ 0x0201 then .error 0x12
    else if gen < s.rd uSvcDie Reg.STW_FWFLOOR.FLOOR then .error 0x15
    else .ok gen

/-- The whole image of a slot. -/
def wholeImage (l : List Byte) : List Byte := padTo (bytesNat ((l.drop 0x10).take 4)) l

/-- Checks 1 to 5 of R444 on a whole image: the BOOT_RESULT of the first that fails, or the GENERATION. -/
def State.imageCheck (s : State) (slot : FlashSlot) : Except Nat Nat :=
  match slot with
  | none => .error 0x16
  | some l =>
    let b := wholeImage l
    let n := b.length
    let key := (b.drop (n - 200)).take 97
    let hash := (List.range 6).map fun i => (Config.fwKeyHash i).toNat
    let gen := bytesNat ((b.drop 0x0C).take 4)
    if !imageFormat (b.take 0x140) ∨ bytesNat ((b.drop (n - 103)).take 7) ≠ 0 then .error 0x11
    else if bytesNat ((b.drop 8).take 2) ≠ 0x0201 then .error 0x12
    else if (List.range 6).map (fun i => bytesNat (((sha384 key).drop (8 * i)).take 8)) ≠ hash then .error 0x13
    else if bytesNat (key.take 1) ≠ 4 ∨ !p384.verify (bytesNat ((key.drop 1).take 48)) (bytesNat ((key.drop 49).take 48))
        (sha384 (b.take (n - 96))) (bytesNat ((b.drop (n - 96)).take 48)) (bytesNat ((b.drop (n - 48)).take 48)) then .error 0x14
    else if gen < s.rd uSvcDie Reg.STW_FWFLOOR.FLOOR then .error 0x15
    else .ok gen

/-- The slot that the boot ROM takes (false A, true B) with its GENERATION, or the failure of the last slot checked (R444). -/
def State.bootChoice (s : State) (flash : Bool) (a b : FlashSlot) : Except Nat (Bool × Nat) :=
  let full (isB : Bool) : Except Nat (Bool × Nat) := (s.imageCheck (if isB then b else a)).map fun g => (isB, g)
  let both (first : Bool) : Except Nat (Bool × Nat) := match full first with | .ok r => .ok r | .error _ => full (!first)
  if !flash then .error 0x10
  else match s.headerCheck a, s.headerCheck b with
    | .error _, .error e => .error e
    | .ok _, .error _ => full false
    | .error _, .ok _ => full true
    | .ok ga, .ok gb => both (decide (ga < gb))

/-- A boot record of the Tally (R469). -/
def State.bootRecord (s : State) (n : Nat) : State :=
  let t := s.stw n
  s.tallyEvent (some (uSteward n)) 0x03 0x04 7 0xFF (payload8 t.bootResult (beBytes 1 t.bootResult ++ beBytes 4 t.fwGen))

/-- The boot ROM of a steward (R444): it writes REQUEST, verifies an image, and starts the firmware or halts with BOOT_FAIL. `flash` says
whether a flash answers, `a` and `b` what its image slots hold. The holder's boot ROM renews the lease meanwhile. -/
def onBootRom (n : Fin 2) (flash : Bool) (a b : FlashSlot) (s : State) : State :=
  let n := n.val
  if (s.stw n).boot ≠ .rom ∨ !s.operates (uSteward n) then s
  else
    let s := if s.holder = some n then s.cubeRenew n else s.cubeRequest n
    match s.bootChoice flash a b with
    | .ok (isB, gen) =>
      let image := wholeImage (match (if isB then b else a) with | some l => l | none => [])
      let digest := sha384 image
      let s := s.setStw n { s.stw n with
        boot := .running, slotB := isB, bootResult := if isB then 2 else 1, fwGen := gen, digest := digest }
      (s.extendLog 0x01 n gen false digest).bootRecord n
    | .error e =>
      let s := if s.holder = some n then s.cubeRelease else s
      let s := s.setStw n { s.stw n with boot := .halted, bootResult := e }
      ((s.setPend n false).stick (uSteward n) Reg.STW_ERR.BOOT_FAIL).bootRecord n

/-! ### The firmware floor (R449) -/

/-- RAISE: floor fuses are blown up to the lesser of the holder's FW_GEN and 64 (R449). -/
def State.doRaise (s : State) : State :=
  let floor := s.rd uSvcDie Reg.STW_FWFLOOR.FLOOR
  let gen := match s.holder with | some h => (s.stw h).fwGen | none => 0
  if gen ≤ floor ∨ 64 ≤ floor then s.wr uSvcDie Reg.STW_FWFLOOR.RESULT 2
  else
    let s := (s.wr uSvcDie Reg.STW_FWFLOOR.FLOOR (min gen 64)).wr uSvcDie Reg.STW_FWFLOOR.RESULT 1
    s.tallyEvent (match s.holder with | some h => some (uSteward h) | none => some uCube) 0x03 0x05 7 0xFF
      (payload8 1 (beBytes 4 (s.rd uCube Reg.CUBE_STAT.GEN) ++ beBytes 1 (s.rd uCube Reg.CUBE_STAT.HOLDER)))

def onRaise (sender : Sender) (s : State) : State := s.command sender uSvcDie 0xB30 State.doRaise

/-! ### The commands as the queue gives them -/

def execEpoch (sender : Sender) (n : Fin 2) (len : BitVec 22) (step : Byte) (source : List Byte) (bad : Bool) (s : State) : Answer :=
  s.run (onEpoch sender n len step source bad)
def execJlog (sender : Sender) (n : Fin 2) (len : BitVec 22) (source : List Byte) (bad : Bool) (s : State) : Answer :=
  s.run (onJlog sender n len source bad)
def execReplDone (n : Fin 2) (s : State) : Answer := s.run (onReplDone n)
def execBootRom (n : Fin 2) (flash : Bool) (a b : FlashSlot) (s : State) : Answer := s.run (onBootRom n flash a b)
def execRaise (sender : Sender) (s : State) : Answer := s.run (onRaise sender)

end Sys2Proof.Machine
end

