-- ==== Sys2Proof/Machine/Losses.lean ====
section
/-! DEFINITION. What is lost with a unit that is fenced, reset or powered off (R22-R24, R303, R313, R315, R335, R378, R411, R432), and
the fencing of units (R455, R459, R462). -/

namespace Sys2Proof.Machine

/-! ### March runs that end early (R378) -/

/-- The units whose arrays a run of die `d` tests. -/
def MarchRun.units (r : MarchRun) (d : Nat) : List UnitId :=
  if r.op = 2 then unitRange .hauler (32 * d) 32 ++ [uCtx d] ++ (if r.skip then [] else [uBank d])
  else match r.kind with
    | 0 => [uHauler (32 * d + r.index)]
    | 1 => [uCtx d]
    | 2 => [uBank d]
    | _ => [uMcs r.index]

/-- Haulers held by a run read their former state again. -/
def State.marchRelease (s : State) (r : MarchRun) : State :=
  State.each r.modes (fun m s =>
    let x := s.hauler m.1
    if x.mode = .march then s.setHauler m.1 { x with mode := m.2 } else s) s

/-- `n` free values stored one after the other. -/
def State.freeFill (s : State) (n : Nat) (store : Nat → Word → State → State) : State :=
  State.each (List.range n) (fun i s =>
    let r := s.freeValue
    store i r.2 r.1) s

/-- The content of an array after an aborted destructive run is undefined, with valid check bits (R378): free values. The context store
held no exchange (R375). -/
def State.marchUndefined (s : State) (u : UnitId) : State :=
  match u.type with
  | .hauler =>
    let s : State := { s with pitBad := s.pitBad.filter fun e => e.1 / 65536 != u.inst }
    s.freeFill 65536 fun i v s => s.setPit u.inst i (v.setWidth 16)
  | .jbank => s.freeFill 0x4000000 fun i v s => { s with jdata := s.jdata.put 0 (u.inst * 2 ^ 26 + i) (v.setWidth 8) }
  | .mcs =>
    let s := s.freeFill 4096 fun i v s => { s with patches := s.patches.put 0 (patchKey u.inst i) (v &&& 0xFFFFFFFF#64) }
    s.freeFill 32 fun i v s => s.setWord u (0x100 + 8 * i) v
  | _ => s

/-- A march command is aborted with RESULT 0x06. -/
def State.marchAbort (s : State) (d : Nat) : State :=
  match s.marchRuns.look none d with
  | none => s
  | some r =>
    let s := ({ s with marchRuns := s.marchRuns.put none d none } : State).marchRelease r
    let s := if r.form = 0 ∨ r.op = 2 then State.each (r.units d) (fun u s => s.marchUndefined u) s else s
    s.wr (uIoDie d) Reg.MCH_CMD.RESULT 6

/-- Abort the runs that test an array of a unit that `p` selects, or whose I/O die it selects. -/
def State.marchStops (s : State) (p : UnitId → Bool) : State :=
  State.each [0, 1] (fun d s => match s.marchRuns.look none d with
    | none => s
    | some r => if p (uIoDie d) ∨ (r.units d).any p then s.marchAbort d else s) s

/-- An image load ends with its I/O die: the targets read halted again and nothing is written. -/
def State.loadStops (s : State) (d : Nat) : State :=
  match s.loadRuns.look none d with
  | none => s
  | some _ =>
    let s : State := { s with loadRuns := s.loadRuns.put none d none }
    State.each (List.range 32) (fun i s =>
      let x := s.hauler (32 * d + i)
      if x.mode = .loading then s.setHauler (32 * d + i) { x with mode := .halted } else s) s

/-! ### Units that stop serving -/

/-- A coupling lane group stops: its frames are gone. -/
def State.cplStops (s : State) (g : Nat) : State :=
  let c := s.cpl g
  (s.setCpl g { Coupling.reset with failed := c.failed, peerLot := c.peerLot, peerGroup := c.peerGroup, peerCxid := c.peerCxid }).cplSettle g

/-- A bank becomes unavailable (R335): BANK_LOST, and if the other serves on, the content here is out of date from now on. -/
def State.bankLost (s : State) (d : Nat) : State :=
  let s := State.each [0, 1] (fun b s => s.wr (uBank b) Reg.JNL_ERR.BANK_LOST 1) s
  if s.bankAvail (1 - d) then { s with jbad := s.jbad.put false d true } else s

/-- A bank that operates again takes over the content of the other one where its own is out of date. -/
def State.bankSync (s : State) (d : Nat) : State :=
  if s.operates (uBank d) && s.jbad.look false d && s.bankAvail (1 - d) then
    { s with
      jbad := s.jbad.put false d false
      jslots := (List.range 16384).foldl (fun t i => t.put JEntry.none (jKey d i) (s.jslot (1 - d) i)) s.jslots
      jdata := moveRange (clearRange s.jdata (d * 2 ^ 26) (2 ^ 26)) ((1 - d) * 2 ^ 26) (d * 2 ^ 26) (2 ^ 26) }
  else s

/-- What a unit that no longer serves leaves to others: called when it reads fenced, resetting or off. -/
def State.unitStops (s : State) (u : UnitId) : State :=
  match u.type with
  | .hauler => (s.dmaAbort u.inst).failUsers fun p => pathHauler p == u.inst
  | .lanegrp => s.quadLost u.inst
  | .cplgrp => s.cplStops u.inst
  | .jbank => s.bankLost u.inst
  | .ctxstore => s.storeLost u.inst
  | .crusher => if h : u.inst < 4 then s.engineLost (.crusher ⟨u.inst, h⟩) else s
  | .cipher => if h : u.inst < 8 then s.engineLost (.cipher ⟨u.inst, h⟩) else s
  | .entropy => s.engineLost .entropy
  | .steward => (s.replAbort u.inst 5).stewardGone u.inst
  | .iodie => s.loadStops u.inst
  | _ => s

/-! ### The loss of a tile (R23) and of memory (R22) -/

/-- A directory entry without a tile. -/
def DirEntry.without (e : DirEntry) (t : Nat) : DirEntry :=
  let rest := e.present &&& ~~~(tileBit t)
  match e.st with
  | .u => e
  | .s => if rest = 0 then DirEntry.empty else { e with present := rest }
  | .x => if e.owner = t then DirEntry.empty else e
  | .o => if e.owner = t then (if rest = 0 then DirEntry.empty else { e with st := .s, present := rest })
      else { e with present := rest }

/-- The seams with dirty lines in a tile, on their way out included. -/
def State.dirtySeams (s : State) (t : Nat) : List Nat :=
  let held := s.caches.filterMap fun e =>
    if (cacheOfNum (e.1 / 131072)).tile = t ∧ e.2.st.dirty then some e.2.seam else none
  let leaving := (s.wbq.filter fun e => e.tile == t).map WbEntry.seam
  (held ++ leaving).eraseDups

/-- The loss of a tile (R23): work units running there end, buffered stores are lost, and every seam that held dirty lines there is
checkstopped. -/
def State.tileGone (s : State) (t : Nat) : State :=
  let cores := (List.range 12).map fun j => 12 * t + j
  let s := State.each cores (fun k s => match (s.core k).wu with
    | some num => (s.discardStores k).endWork num 0x13
    | none => s.discardStores k) s
  let seams := s.dirtySeams t
  let s := s.loseCaches fun c => c.tile == t
  let s : State := { s with
    wbq := s.wbq.filter fun (e : WbEntry) => e.tile != t
    tileTrans := s.tileTrans.filter fun (x : TileTrans) => x.tile != t
    msgs := s.msgs.filter fun (m : Msg) => m.src != t && m.dst != t
    ringWait := s.ringWait.filter fun (r : RingWait) => r.core / 12 != t
    supplied := s.supplied.filter fun (x : Nat × Nat × LineData) => x.1 != t
    atmVals := s.atmVals.filter fun (v : AtmVal) => v.core / 12 != t
    cacheJobs := s.cacheJobs.filter fun (j : CacheJob) => (match j with | .preload c _ _ _ => c.tile | .flush i _ _ _ _ => i / 8) != t
    dir := (s.dir.map fun (e : Nat × DirEntry) => (e.1, e.2.without t)).filter fun (e : Nat × DirEntry) => e.2 != DirEntry.empty }
  State.each seams (fun n s => s.checkstopSeam n 2) s

/-- The channels whose memory goes with a unit. -/
def channelsIn (u : UnitId) : List Nat :=
  (List.range 16).filter fun c => (uMem c).within u || (uHome c).within u

/-- Memory channels of a unit stop serving (R22, R288): without a partner every seam with a granule there is checkstopped. `seams` are
those seams, and `lines` what was in flight there, found before the unit stopped. -/
def State.memoryStops (s : State) (u : UnitId) (seams : List Nat) (lines : Nat → List Nat) : State :=
  let s := if s.mirrored then State.each (channelsIn u) (fun c s =>
      if s.serves (partnerOf c) then (s.wr (uHome (partnerOf c)) Reg.HOME_ERR.PARTNER_LOST 1).takeOver c (lines c) else s) s else s
  State.each seams (fun n s => s.checkstopSeam n 5) s

/-- The seams that lose memory with a unit. -/
def State.memorySeams (s : State) (u : UnitId) : List Nat :=
  let cs := (channelsIn u).filter fun c => s.serves c && !(s.pairServes c && !(channelsIn u).contains (partnerOf c))
  (cs.flatMap s.seamsOn).eraseDups

/-! ### Fencing (R455, R459, R462) -/

/-- A unit is fenced: its state reads 0b111, its outputs are blocked, and what depends on it meets its loss. A tile or an I/O die that is
fenced is the loss of R22 or R23. -/
def State.fence (s : State) (u : UnitId) : State :=
  if (s.unit u).fenced then s
  else
    let seams := s.memorySeams u
    let lines := s.openLines
    let s := (s.setUnit u { s.unit u with fenced := true }).openWindow u
    let s := State.each u.subtree (fun v s => s.unitStops v) s
    let s := s.marchStops fun v => v.within u
    let s := s.memoryStops u seams lines
    if u.type = .tile then s.tileGone u.inst else s

/-- A fence is lifted: the consequential window closes 10 µs later (R462). -/
def State.unfence (s : State) (u : UnitId) : State :=
  if !(s.unit u).fenced then s
  else
    let s := (s.setUnit u { s.unit u with fenced := false }).endWindow u
    if u.type = .jbank then s.bankSync u.inst else s

/-- Fence a slot of a tile: CKW_SLOTS FENCED reads 1 for it (R213). -/
def State.fenceSlot (s : State) (k : Nat) : State :=
  let t := k / 12
  let s := s.wr (uTile t) Reg.CKW_SLOTS.FENCED ((s.rd (uTile t) Reg.CKW_SLOTS.FENCED) ||| 2 ^ (11 - k % 12))
  s.setCore k { s.core k with role := .fenced }

end Sys2Proof.Machine
end

