-- ==== Sys2Proof/Machine/HaulerCommands.lean ====
section
/-! DEFINITION. What steward firmware does with haulers: RUN, PIT_DATA and the mailbox (R373, R379), pit clears (R367), image loads
(R371, R372) and the march engines (R374-R378, R380). -/

namespace Sys2Proof.Machine

/-! ### Run state (R349, R373) -/

/-- h0-h15, the RW special registers and PC are 0 (R349). -/
def Hauler.cleared (x : Hauler) : Hauler := { x with h := [], sp := [], pc := 0, late := [], delay := none, lsetLeft := 0 }

/-- The hauler takes the reset state of R349: halted, or running at once with AUTORUN. -/
def State.haulerFresh (s : State) (h : Nat) : State :=
  let auto := s.flag (uHauler h) Reg.HLR_CTL.AUTORUN
  let s := s.setHauler h { (s.hauler h).cleared with mode := if auto then .running else .halted }
  s.wr (uHauler h) Reg.HLR_CTL.RUN (if auto then 1 else 0)

/-- A write of HLR_CTL (R373): RUN 0 halts at the next boundary that is not a delay slot, at once in WFE; RUN 1 resumes at PC. A faulted
hauler stays faulted (R365). -/
def State.runWrite (s : State) (h : Nat) : State :=
  let x := s.hauler h
  if s.flag (uHauler h) Reg.HLR_CTL.RUN then
    if x.mode = .halted then s.setHauler h { x with mode := x.runMode } else s
  else if x.mode = .wfe then s.haltHauler h
  else s.haltAsked h

def onRun (sender : Sender) (h : Fin 64) (run autorun : Bool) (s : State) : State :=
  s.command sender (uHauler h.val) 0x080 fun s =>
    let s := s.wr (uHauler h.val) Reg.HLR_CTL.RUN (if run then 1 else 0)
    (s.wrl (uHauler h.val) Reg.HLR_CTL.AUTORUN (if autorun then 1 else 0)).runWrite h.val

/-- Does the hauler read halted or faulted, so that its stores may be written (R372, R375, R379)? -/
def State.haulerIdle (s : State) (h : Nat) : Bool :=
  s.powered (uHauler h) && s.powerCode (uHauler h) != 6 && (match (s.hauler h).mode with | .halted | .faulted => true | _ => false)

/-- A write of PIT_DATA (R379): the word that PIT_SEL selects. -/
def State.pitData (s : State) (sender : Sender) (h : Nat) (v : BitVec 16) : State :=
  if !s.haulerIdle h then s.pageError sender (uHauler h) 0x100
  else
    let w := s.rd (uHauler h) Reg.PIT_SEL.ADDR
    { s.setPit h w v with pitBad := s.pitBad.put false (pitKey h w) false }

def onPitData (sender : Sender) (h : Fin 64) (v : BitVec 16) (s : State) : State :=
  s.command sender (uHauler h.val) 0x100 fun s => s.pitData sender h.val v

/-- The mailbox event (R379). -/
def State.mailboxEvent (s : State) (h : Nat) : State :=
  let x := s.hauler h
  s.setHauler h { x with evtMisc := x.evtMisc ||| hbit 4 }

def onHlrMboxTo (sender : Sender) (h : Fin 64) (v : Word) (s : State) : State :=
  s.command sender (uHauler h.val) 0x108 fun s => (s.writeFields (uHauler h.val) 0x108 v).mailboxEvent h.val

/-! ### Pit clears (R367) -/

/-- Hardware clears the pit to zero words; nothing of the hauler runs until PIT_CLEAR_DONE. -/
def State.clearPit (s : State) (h : Nat) (after : HState) : State :=
  let s := s.setHauler h { s.hauler h with mode := .clearing, after := after }
  ({ s with pit := s.pit.filter fun (e : Nat × Half) => e.1 / 65536 != h
            pitBad := s.pitBad.filter fun (e : Nat × Bool) => e.1 / 65536 != h } : State).bump (uHauler h) Reg.PIT_STAT.CLEARS

/-- PIT_CLEAR_DONE: the hauler is halted or faulted as before, or runs where RUN is 1. -/
def onPitClearDone (h : Fin 64) (s : State) : State :=
  let x := s.hauler h.val
  if x.mode ≠ .clearing then s
  else
    let mode := if x.after = .faulted then .faulted
      else if s.flag (uHauler h.val) Reg.HLR_CTL.RUN then x.runMode else .halted
    s.setHauler h.val { x with mode := mode, after := .halted }

/-! ### Image loads (R371, R372) -/

/-- The haulers that TARGETS selects: bit 0, the most significant one, selects the first hauler of the die (R4, R380). -/
def loadTargets (d targets : Nat) : List Nat :=
  ((List.range 32).filter fun i => targets / 2 ^ (31 - i) % 2 = 1).map fun i => 32 * d + i

/-- The start of LOAD: the image is read and checked, then the targets; the order of these checks is log entry 41. -/
def State.loadStart (s : State) (d : Nat) : State :=
  if (s.loadRuns.look none d).isSome then s
  else
    let targets := s.rd (uIoDie d) Reg.HLR_IMG_CTL.TARGETS
    let fails (s : State) (r : Nat) : State :=
      { s with loadRuns := s.loadRuns.put none d (some { targets := targets, result := r, gen := 0, digest := [], code := [] }) }
    let base := s.rd (uIoDie d) Reg.HLR_IMG_BASE.BASE * 128
    let r := s.physRead base 32
    let h := r.2.1
    let n := fieldAt h 8 4
    if r.2.2 ≠ .done then fails r.1 3
    else if fieldAt h 0 4 ≠ 0x47524345 ∨ fieldAt h 4 2 ≠ 1 ∨ fieldAt h 6 2 ≠ 3 ∨ n = 0 ∨ 65536 < n then fails r.1 2
    else
      let q := r.1.physRead base (32 + n)
      if q.2.2 ≠ .done then fails q.1 3
      else
        let s := q.1
        let ts := loadTargets d targets
        if !ts.all s.haulerIdle then fails s 4
        else
          let run : LoadRun := { targets := targets, result := 1, gen := fieldAt h 0x0C 4, digest := sha384 q.2.1, code := q.2.1.drop 32 }
          let s : State := { s with loadRuns := s.loadRuns.put none d (some run) }
          State.each ts (fun i s => s.setHauler i { s.hauler i with mode := .loading }) s

def onLoad (sender : Sender) (d : Fin 2) (targets : BitVec 32) (s : State) : State :=
  s.command sender (uIoDie d.val) 0x148 fun s => (s.wr (uIoDie d.val) Reg.HLR_IMG_CTL.TARGETS targets.toNat).loadStart d.val

/-- The code in the instruction store of a hauler, zero-filled (R371). -/
def State.storeCode (s : State) (h : Nat) (code : List Byte) : State :=
  { s with istore := putBytes (h * 65536) code (s.istore.filter fun e => e.1 / 65536 != h) }

/-- A digest in six doublewords of a page. -/
def State.wrDigest (s : State) (u : UnitId) (f : Field) (digest : List Byte) : State :=
  State.each (List.range 6) (fun i s => s.wr u (f.ix i) (bytesNat ((digest.drop (8 * i)).take 8))) s

/-- LOAD_DONE (R372): the code is in the stores of the targets, which take the reset state of R349; the digest and GENERATION are
recorded, and the measurement log and the Tally extended. -/
def onLoadDone (d : Fin 2) (s : State) : State :=
  match s.loadRuns.look none d.val with
  | none => s
  | some r =>
    let u := uIoDie d.val
    let s := ({ s with loadRuns := s.loadRuns.put none d.val none } : State).wr u Reg.HLR_IMG_CTL.RESULT r.result
    if r.result ≠ 1 then s
    else
      let s := State.each (loadTargets d.val r.targets) (fun h s =>
        let s := (s.storeCode h r.code).wr (uHauler h) Reg.HLR_IMG.GEN r.gen
        let s := (s.count (uHauler h) Reg.HLR_IMG.LOADS).wrDigest (uHauler h) Reg.HLR_DIGEST.DIGEST r.digest
        s.haulerFresh h) s
      let s := (s.wr u Reg.HLR_IMG_STAT.GEN r.gen).count u Reg.HLR_IMG_STAT.LOADS
      let s := (s.wrDigest u Reg.HLR_IMG_DIGEST.DIGEST r.digest).extendLog 0x03 d.val r.gen false r.digest
      s.tallyEvent (some u) 0x0A 0x01 7 0xFF (payload8 r.result (beBytes 4 r.targets ++ beBytes 4 r.gen))

/-! ### The march engines (R374-R378) -/

/-- Live entries of a bank. -/
def State.bankEntries (s : State) (d : Nat) : Nat := (s.jslots.filter fun e => e.1 / 16384 == d && e.2.live).length

/-- May the context store of a die be marched (R375)? -/
def State.marchCtx (s : State) (d : Nat) (destructive : Bool) : Bool :=
  !s.flag (uCtx d) Reg.CHS_CFG.EN
    && (!destructive || (s.heldIn d == 0 && !s.peers.any fun e => e.1 / 262144 == d && e.2.isSome))

/-- May the journal bank be marched (R375)? -/
def State.marchBank (s : State) (d : Nat) : Bool := !s.flag (uBank d) Reg.JNL_CFG.EN && s.bankEntries d == 0

/-- May the patch memory of a core be marched (R375)? -/
def State.marchPatch (s : State) (k : Nat) (destructive : Bool) : Bool :=
  s.powered (uCore k) && (if destructive then
      !s.flag (uMcs k) Reg.MCS_STAT.VALID && !s.flag (uMcs k) Reg.MCS_STAT.LOADING && (s.patchRuns.look none k).isNone
    else (s.core k).wu.isNone && s.flag (uCore k) Reg.UNIT_POWER.PIN)

/-- The RESULT that refuses the command in MCH_CMD, or 0 (R375, R376, R380). -/
def State.marchRefusal (s : State) (d op form kind index : Nat) : Nat :=
  let dest := form = 0
  if op = 2 then
    if ((List.range 32).all fun i => s.haulerIdle (32 * d + i)) ∧ s.marchCtx d true ∧ (s.bankEntries d ≠ 0 ∨ s.marchBank d) then 0 else 4
  else if op ≠ 1 then 3
  else match kind with
    | 0 => if 32 ≤ index then 3 else if s.haulerIdle (32 * d + index) then 0 else 4
    | 1 => if s.marchCtx d dest then 0 else 4
    | 2 => if !dest then 5 else if s.marchBank d then 0 else 4
    | _ => if 48 ≤ index ∨ index / 24 ≠ d then 3 else if s.marchPatch index dest then 0 else 4

/-- The start of the command in MCH_CMD: its arrays are held. -/
def State.marchStart (s : State) (d : Nat) : State :=
  if (s.marchRuns.look none d).isSome then s
  else
    let u := uIoDie d
    let op := s.rd u Reg.MCH_CMD.OP
    let form := s.rd u Reg.MCH_CMD.FORM
    let kind := s.rd u Reg.MCH_CMD.KIND
    let index := s.rd u Reg.MCH_CMD.INDEX
    let no := s.marchRefusal d op form kind index
    if no ≠ 0 then s.wr u Reg.MCH_CMD.RESULT no
    else
      let hs := if op = 2 then (List.range 32).map fun i => 32 * d + i else if kind = 0 then [32 * d + index] else []
      let run : MarchRun := { op := op, form := form, kind := kind, index := index, modes := hs.map fun h => (h, (s.hauler h).mode),
                              started := s.now, skip := op == 2 && s.bankEntries d != 0 }
      let s : State := { s with marchRuns := s.marchRuns.put none d (some run) }
      State.each hs (fun h s => s.setHauler h { s.hauler h with mode := .march }) s

/-- MARCH (R374, R375): tests one array in a form. -/
def onMarch (sender : Sender) (d : Fin 2) (form : Bool) (kind : BitVec 2) (index : BitVec 6) (s : State) : State :=
  let u := uIoDie d.val
  s.command sender u 0x100 fun s =>
    let s := (s.wr u Reg.MCH_CMD.OP 1).wr u Reg.MCH_CMD.FORM (if form then 1 else 0)
    ((s.wr u Reg.MCH_CMD.KIND kind.toNat).wr u Reg.MCH_CMD.INDEX index.toNat).marchStart d.val

/-- SWEEP (R376): tests every pit, the context store and the journal bank of the die, destructively. -/
def onSweep (sender : Sender) (d : Fin 2) (form : Bool) (kind : BitVec 2) (index : BitVec 6) (s : State) : State :=
  let u := uIoDie d.val
  s.command sender u 0x100 fun s =>
    let s := (s.wr u Reg.MCH_CMD.OP 2).wr u Reg.MCH_CMD.FORM (if form then 1 else 0)
    ((s.wr u Reg.MCH_CMD.KIND kind.toNat).wr u Reg.MCH_CMD.INDEX index.toNat).marchStart d.val

/-- A destructive run leaves an array all zero with valid check bits (R374). -/
def State.marchZero (s : State) (u : UnitId) : State :=
  match u.type with
  | .hauler => { s with pit := s.pit.filter fun (e : Nat × Half) => e.1 / 65536 != u.inst
                        pitBad := s.pitBad.filter fun (e : Nat × Bool) => e.1 / 65536 != u.inst }
  | .jbank => { s with jdata := clearRange s.jdata (u.inst * 2 ^ 26) (2 ^ 26)
                       jslots := s.jslots.filter fun (e : Nat × JEntry) => e.1 / 16384 != u.inst }
  | .mcs => s.patchClear u.inst
  | _ => s

/-- The consequences of a failing array (R377). -/
def State.marchFails (s : State) (u : UnitId) (form : Nat) : State :=
  match u.type with
  | .hauler => (s.stick u Reg.HLR_FAULT.MARCH_FAIL).fence u
  | .ctxstore => s.fence u
  | .jbank => ({ s with jbad := s.jbad.put false u.inst true } : State).bankLost u.inst
  | .mcs => if form = 1 then s.coreFail u.inst [] else (s.fenceSlot u.inst).fence (uCore u.inst)
  | _ => s

/-- The arrays of a run that a finding names as failed. -/
def MarchRun.failed (r : MarchRun) (d : Nat) (f : Option MarchFinding) : List UnitId :=
  match f with
  | none => []
  | some f =>
    if r.op = 1 then r.units d
    else (r.units d).filter fun u => match u.type with
      | .hauler => f.pits.getLsbD (31 - u.inst % 32)
      | .ctxstore => f.ctxs
      | _ => f.jbank

/-- MARCH_DONE (R377): the march command ends; what it found is an operand. -/
def onMarchDone (d : Fin 2) (found : Option MarchFinding) (s : State) : State :=
  match s.marchRuns.look none d.val with
  | none => s
  | some r =>
    let u := uIoDie d.val
    let bad := r.failed d.val found
    let bit (b : Bool) : Nat := if b then 1 else 0
    let s := ({ s with marchRuns := s.marchRuns.put none d.val none } : State).marchRelease r
    let s := if r.form = 0 ∨ r.op = 2 then State.each (r.units d.val) (fun v s => s.marchZero v) s else s
    let s := match found with
      | some f =>
        if bad.isEmpty then s
        else
          let s := ((s.wr u Reg.MCH_FAIL.KIND f.kind.toNat).wr u Reg.MCH_FAIL.INDEX f.index.toNat).wr u Reg.MCH_FAIL.ELEMENT f.element.toNat
          let s := (s.wr u Reg.MCH_FAIL.SIG (bit f.sig)).wr u Reg.MCH_FAIL.ADDR f.addr.toNat
          s.wr u Reg.MCH_FAILDIFF.DIFF f.diff.toNat
      | none => s
    let s := if r.op = 2 then
        let pits := (List.range 32).foldl (fun a i => a * 2 + bit (bad.contains (uHauler (32 * d.val + i)))) 0
        let s := (s.wr u Reg.MCH_FAILMAP.PITS pits).wr u Reg.MCH_FAILMAP.CTXS (bit (bad.contains (uCtx d.val)))
        (s.wr u Reg.MCH_FAILMAP.JBANK (bit (bad.contains (uBank d.val)))).wr u Reg.MCH_FAILMAP.JSKIP (bit r.skip)
      else s
    let result := if !bad.isEmpty then 2 else if r.skip then 7 else 1
    let s := (s.wr u Reg.MCH_CMD.RESULT result).count u Reg.MCH_COUNT.RUNS
    let s := s.count u Reg.MCH_COUNT.FAILS bad.length
    let s := s.tallyEvent (some u) 0x0A 0x02 7 0xFF (payload8 result (wordBytes (s.word u Reg.MCH_FAIL.KIND.off)))
    State.each bad (fun v s => s.marchFails v r.form) s

/-- The element of a run in progress (R374, R380), from the time since its start: the 10 operations of a word take equal times. -/
def State.marchElement (s : State) (d : Nat) : Nat :=
  match s.marchRuns.look none d with
  | none => 0
  | some r =>
    let total := if r.op = 2 then 6600000 else match r.kind with | 0 => 409600 | 1 => 6550000 | 2 => 3280000 | _ => 25800
    let op := min 9 (10 * (s.now - r.started) / total)
    (op + 1) / 2

/-! ### The commands as the queue gives them -/

def execPitClearDone (h : Fin 64) (s : State) : Answer := s.run (onPitClearDone h)
def execHlrMboxTo (sender : Sender) (h : Fin 64) (v : Word) (s : State) : Answer := s.run (onHlrMboxTo sender h v)
def execRun (sender : Sender) (h : Fin 64) (run autorun : Bool) (s : State) : Answer := s.run (onRun sender h run autorun)
def execPitData (sender : Sender) (h : Fin 64) (v : BitVec 16) (s : State) : Answer := s.run (onPitData sender h v)
def execLoad (sender : Sender) (d : Fin 2) (targets : BitVec 32) (s : State) : Answer := s.run (onLoad sender d targets)
def execLoadDone (d : Fin 2) (s : State) : Answer := s.run (onLoadDone d)
def execMarch (sender : Sender) (d : Fin 2) (form : Bool) (kind : BitVec 2) (index : BitVec 6) (s : State) : Answer :=
  s.run (onMarch sender d form kind index)
def execSweep (sender : Sender) (d : Fin 2) (form : Bool) (kind : BitVec 2) (index : BitVec 6) (s : State) : Answer :=
  s.run (onSweep sender d form kind index)
def execMarchDone (d : Fin 2) (found : Option MarchFinding) (s : State) : Answer := s.run (onMarchDone d found)

end Sys2Proof.Machine
end

