-- ==== Sys2Proof/Machine/Reset.lean ====
section
/-! DEFINITION. U and M resets (R7, R8, R17, R20, R39, R89, R164, R251, R272, R484, R492). -/

namespace Sys2Proof.Machine

/-! ### Commands of a tile that end (R206, R214) -/

/-- A CKW_CMD ends: RESULT, LAST_US and the Tally record (R212-R214, R469). -/
def State.ckwEnd (s : State) (t result : Nat) : State :=
  match s.ckwRuns.look none t with
  | none => s
  | some r =>
    let us := min ((s.now - r.started) / 1000) 0xFFFFFFFF
    let s := ({ s with ckwRuns := s.ckwRuns.put none t none } : State).wr (uTile t) Reg.CKW_CMD.RESULT result
    let s := s.wr (uTile t) Reg.CKW_CMD.LAST_US us
    s.tallyEvent (some (uTile t)) 0x05 0x03 7 0xFF
      (payload8 result (beBytes 1 result ++ beBytes 1 r.src ++ beBytes 1 r.dst ++ beBytes 4 us))

/-! ### Contents of units at a U reset (R492) -/

/-- Before a core is reset (R89, R138, R164): its stores drain, its running work unit ends with 0x13 and its dirty lines are written
back. With `tile`, a suspended work unit ends too and the checkpoint record is cleared (R200, R206). -/
def State.coreResetPrep (s : State) (k : Nat) (tile : Bool) : State :=
  let s := s.drainOrDiscard k
  let s := match (s.core k).wu with
    | some num => s.endWork num 0x13
    | none => s
  let s := match tile, (s.core k).suspended with
    | true, some num => s.endWork num 0x13
    | _, _ => s
  s.flushCore k

/-- A core slot after a U reset. -/
def State.coreFresh (s : State) (k : Nat) (tile : Bool) : State :=
  let c := s.core k
  let keep := !tile && s.flag (uCore k) Reg.CKW_STAT.FAILED
  s.setCore k { CoreSt.reset with
    role := if tile then .unassigned else c.role, posted := c.posted, suspended := c.suspended, idleSince := s.now,
    ckpt := if keep then c.ckpt else Ckpt.none }

/-- What the Foreman does before its reset (R251): every work unit is taken off and saved, then every one ends with 0x15. -/
def State.foremanReset (s : State) : State :=
  let s := State.each (s.running.map fun e => e.2.2) (fun k s => match (s.core k).wu with
    | some num =>
      let r := s.saveOff k num
      let s := r.1.losses r.2.2
      (if r.2.1 then s.setWork num { s.work num with run := .ready } else s).carryReq k
    | none => s) s
  let s := State.each ((s.wus.filter fun e => e.2.run != .none).map Prod.fst) (fun num s => s.endWork num 0x15) s
  { s with wus := [], nextWork := 1, rings := [], waiters := [], fmnEvents := [], granCounts := [], migrations := [], missOrder := [],
           missReports := [], evict := none }

/-- What the seam controller does at its reset (R272): DESTROY of every program seam. -/
def State.seamCtlReset (s : State) : State :=
  let s := State.each programSeams (fun n s =>
    if s.rd uSeamCtl (Reg.SEAM_STATE.STATE.ix n) = 0 then s else (s.seamResetSteps n).destroyEnd n) s
  { s with seamCmd := none, heldStops := [], timingOk := [] }

/-- The content of one unit after a U reset that reaches it (R492). -/
def State.unitFresh (s : State) (v : UnitId) (tile : Bool) : State :=
  let i := v.inst
  match v.type with
  | .core => (s.coreFresh i tile).leaveRollout i false
  | .mcs => { s.patchClear i with patchDue := s.patchDue.put 0 i 3, patchRuns := s.patchRuns.put none i none }
  | .hauler => s.setHauler i { Hauler.reset with timerFrom := (s.hauler i).timerFrom }
  | .lanegrp => { s with links := (List.range 4).foldl (fun l j => l.put Link.reset (4 * i + j) Link.reset) s.links }
  | .cplgrp => s.setCpl i Coupling.reset
  | .ctxstore => { s with exchanges := s.exchanges.filter fun e => exDie e.1 != i }
  | .memch => s.trainAbandon i
  | .home => { s with homeTrans := s.homeTrans.filter fun h => h.home != i
                      homeQueue := s.homeQueue.filter fun r => s.homeAgent r.line != some i }
  | .entropy => { s with entropy := Entropy.reset, drbg := [] }
  | .steward => s.setStw i { Steward.reset with sram := (s.stw i).sram }
  | _ => s

/-- Preloads and sweeps of a unit's caches end with it. -/
def State.jobsStop (s : State) (u : UnitId) : State :=
  { s with cacheJobs := s.cacheJobs.filter fun (j : CacheJob) => match j with
    | .preload (.l2 k) _ _ _ => !(uCore k).within u
    | .preload (.l3 i) _ _ _ => !(uL3 i).within u
    | .preload _ _ _ _ => true
    | .flush i _ _ _ _ => !(uL3 i).within u }

/-! ### The course of a U reset (R17) -/

/-- The cores and the slices of a subtree. -/
def coresIn (u : UnitId) : List Nat := (List.range 48).filter fun k => (uCore k).within u
def slicesIn (u : UnitId) : List Nat := (List.range 32).filter fun i => (uL3 i).within u

/-- The fields that show how the command of a unit ended where a U reset of the unit ends it (R214, R378, R439). -/
def endFields (v : UnitId) : List Field :=
  match v.type with
  | .tile => [Reg.CKW_CMD.RESULT, Reg.CKW_CMD.LAST_US]
  | .iodie => [Reg.MCH_CMD.RESULT]
  | .steward => [Reg.STW_REPL_CTL.RESULT]
  | _ => []

/-- Does a command of the unit run that a U reset of the unit ends? -/
def State.commandRuns (s : State) (v : UnitId) : Bool :=
  match v.type with
  | .tile => (s.ckwRuns.look none v.inst).isSome
  | .iodie => (s.marchRuns.look none v.inst).isSome
  | .steward => (s.stw v.inst).repl.isSome
  | _ => false

/-- The RESULT of a command that a U reset ends is set again when the reset completes, so that it can be read (log entry 80). -/
def State.noteEnded (s : State) (v : UnitId) : State :=
  s.setUnit v { s.unit v with ended := (endFields v).map fun f => (f, s.rd v f) }

/-- A U reset of a subtree starts in all its units at once. A request that one of them held for a copy is part of it (R17, R206). -/
def State.resetStart (s : State) (u : UnitId) : State :=
  let tile := u.type = .tile
  let runs := u.subtree.filter s.commandRuns
  let s := State.each (coresIn u) (fun k s => s.coreResetPrep k tile) s
  let s := State.each (slicesIn u) (fun i s => s.flushSlice i) s
  let s := if tile then s.ckwEnd u.inst 7 else s
  let s := if u.type = .foreman then s.foremanReset else if u.type = .seamctl then s.seamCtlReset else s
  let s := State.each u.subtree (fun v s =>
    s.setUnit v { s.unit v with
      resetting := true, resetRoot := v == u, absorbed := (s.unit v).absorbed && v != u, last := 3, heldReset := false, ended := [] }) s
  let s := s.openWindow u
  let s := State.each u.subtree (fun v s => s.unitStops v) s
  let s := (s.marchStops fun v => v.within u).jobsStop u
  let s := State.each runs (fun v s => s.noteEnded v) s
  let s := State.each u.subtree (fun v s => s.unitFresh v tile) s
  if tile then State.each (coresIn u) (fun k s => State.each (powerGroup (uCore k)) (fun v s => s.setPower v .off) s) s else s

/-- Is the core the source of a CKW_CMD whose copy has not ended (R206)? A ROTATE, which copies nothing, holds the request until it ends
(log entry 105). -/
def State.copyHolds (s : State) (u : UnitId) : Bool :=
  u.type == .core && match s.ckwRuns.look none (u.inst / 12) with
    | some r => r.src == u.inst % 12
    | none => false

/-- Units in whose page a write of 1 to REQ is ignored (R39). -/
def State.resetIgnored (s : State) (u : UnitId) : Bool :=
  u.type == .svcdie || u.type == .cube || u.type == .tally || u == uRoot || u.type == .power
    || (u.type == .steward && s.holder == some u.inst)

/-- Is the unit, or one above it, resetting? -/
def State.inReset (s : State) (u : UnitId) : Bool := (u :: u.ancestors).any fun a => (s.unit a).resetting

/-- A request for a U reset: absorbed into a reset that runs above or in the unit, held for a copy, or started (R17, R39, R206). -/
def State.resetRequest (s : State) (u : UnitId) : State :=
  if s.inReset u ∨ (s.unit u).heldReset then s.setUnit u { s.unit u with absorbed := true }
  else if s.copyHolds u then s.setUnit u { s.unit u with heldReset := true, absorbed := false }
  else s.resetStart u

/-- Will the ladder's check lift the fence of a unit whose rung-2 reset has completed (R459)? -/
def State.checkLifts (s : State) (u : UnitId) : Bool :=
  (s.canaries.any fun e => match e.2 with | some c => c.src == u && c.rung == 2 | none => false) && !s.ownLive u
    && !(u.type == .core && s.flag u Reg.CKW_STAT.FAILED)

/-- One unit when the reset of its subtree completes. -/
def State.unitReturns (s : State) (v : UnitId) : State :=
  match v.type with
  | .hauler =>
    let s := s.haulerFresh v.inst
    if s.powered v then s.clearPit v.inst .halted else s
  | .jbank => s.bankSync v.inst
  | _ => s

/-- The fields of a subtree when its U reset completes: every one that does not list U takes its Reset value (R7, R8), and the commands
that the reset has ended show their RESULT. -/
def State.fieldsAfterU (s : State) (u : UnitId) : State :=
  let s := s.keepFields (fun v => v.within u) codeU
  State.each u.subtree (fun v s => State.each (s.unit v).ended (fun e s => s.wr v e.1 e.2) s) s

/-- The U reset of a subtree completes (R17): its fields are reset, fences below the unit are lifted (R41), and the consequential windows of
the unit and of the resets that this one took over run on for 10 µs. -/
def State.resetEnd (s : State) (u : UnitId) (persist : Bool) : State :=
  let s := s.fieldsAfterU u
  let s := State.each u.subtree (fun v s =>
    let d := s.unit v
    let s := s.setUnit v { d with
      resetting := false, resetRoot := false, doneAt := s.now, fenced := d.fenced && v == u, ended := [],
      live := if persist && v == u then d.live else [] }
    if v == u then s else s.endWindow v) s
  let s := State.each u.subtree (fun v s => s.unitReturns v) s
  if !(s.unit u).fenced || s.checkLifts u then s.endWindow u else s

/-! ### M (R39, R484, R492) -/

/-- The journal after an M: entries without MARK are gone, live entries of the module become held, copies stay (R330, R341, R397). -/
def State.journalAfterM (s : State) : State :=
  { s with
    jslots := (s.jslots.filter fun (e : Nat × JEntry) => e.2.live).map fun (e : Nat × JEntry) =>
      (e.1, if e.2.isCopy then e.2 else { e.2 with held := true })
    commits := [], targetWrites := [], restored := false, jcmd := none, jrecv := [] }

/-- Everything that M empties beside registers (R484, R492). -/
def State.emptied (s : State) : State :=
  { s with
    cores := [], caches := [], plru := [], wbq := [], dir := [], homeTrans := [], homeQueue := [], dirReserve := [], tileTrans := [],
    msgs := [], ringWait := [], supplied := [], atmVals := [], ioData := [], isolated := [], cacheJobs := [], replays := [],
    owners := [], grantAt := 0, seamCmd := none, heldStops := [], seamPend := [], wus := [], nextWork := 1,
    rings := [], waiters := [], fmnEvents := [], granCounts := [], migrations := [], missOrder := [], missReports := [], evict := none,
    traceSeq := 0, traceGap := 0, exchanges := [], cqPhase := [], peers := [], ethQueue := [], haulers := [], istore := [], pit := [],
    pitBad := [], marchRuns := [], loadRuns := [], links := [], couplings := [], complex := Complex.reset, engines := [], drbg := [],
    entropy := Entropy.reset, attLog := [], att := none, staging := [], active := none, patches := [],
    patchDue := (List.range 48).map fun k => (k, 1), patchRuns := [], mcsRun := none, mcsPending := [], ckwRuns := [], trainRuns := [],
    timingOk := [],
    stewards := s.stewards.map fun (e : Nat × Steward) => (e.1, { Steward.reset with sram := e.2.sram }) }

/-- The units that M does not reach (R484). -/
def beyondM (t : UnitType) : Bool := t == .cube || t == .power || t == .tally || t == .drain

/-- The header state of every unit while M runs: resetting, and afterwards off outside the service die (R40). -/
def State.unitsAtM (s : State) : State :=
  State.each UnitId.allUnits (fun v s =>
    let d := UnitDyn.reset v
    if beyondM v.type then s.setUnit v { d with last := (s.unit v).last, live := (s.unit v).live }
    else s.setUnit v { d with resetting := true, resetRoot := v == uModule, last := 2, live := (s.unit v).live }) s

/-- Every field that M reaches takes its Reset value, unless it lists M (R8, R484). -/
def State.fieldsAtM (s : State) : State := s.keepFields (fun v => !beyondM v.type) codeM

/-- M begins: cores, haulers and engines stop at once, dirty lines are written back, and every field that M reaches takes its Reset
value, which it holds through M (R484). Standby ends with it (R40). During hold-up drain a request is ignored (R502). -/
def State.mStart (s : State) : State :=
  if s.power.mResetting ∨ s.power.mode = .holdup ∨ s.power.mode = .off then s
  else
    let s := State.each (List.range 48) (fun k s => (s.drainAll k).flushCore k) s
    let s := State.each (List.range 32) (fun i s => s.flushSlice i) s
    let s := State.each (List.range 4) (fun t s => s.ckwEnd t 7) s
    let s := s.tallyEvent (some uModule) 0x00 0x02
    let s := (s.journalAfterM.emptied).unitsAtM
    let s := s.fieldsAtM.openWindow uModule
    { s with power := { s.power with mResetting := true, cmdBusy := false, mode := .on, checkstop := false } }

/-- M completes, once MRST_N is high: every field has its Reset value, whatever was written while M ran (R7, R43), the time base restarts,
the lease of the cube holder restarts at full length (R88, R434). -/
def State.mEnd (s : State) : State :=
  if !s.power.mResetting ∨ s.power.mrstLow then s
  else
    let s := s.fieldsAtM
    let s := State.each UnitId.allUnits (fun v s =>
      s.setUnit v { s.unit v with resetting := false, resetRoot := false, doneAt := s.now }) s
    let s := State.each (s.windows.map Window.src) (fun u s => s.endWindow u) s
    let s : State := { s with power := { s.power with mResetting := false }, tbStart := s.now }
    if s.holder.isSome then s.leaseStart else s

/-! ### Requests -/

/-- A request for M (R39): one that runs absorbs it. -/
def State.mRequest (s : State) : State :=
  s.setUnit uModule { s.unit uModule with absorbed := s.power.mResetting } |>.mStart

/-- A write of 1 to REQ of UNIT_RESET (R17, R39). On the complex page it sends M to every member, only where every member's REMOTE_WR
reads 1 (R400): `allow` says so of the remote members. -/
def State.reqWrite (s : State) (sender : Sender) (u : UnitId) (allow : Bool) : State :=
  if s.resetIgnored u then s
  else match u.type with
    | .module => s.mRequest
    | .complex =>
      if !allow ∨ !s.flag uModule Reg.CPL_CX.REMOTE_WR then s
      else
        let s := s.toMembers sender 0x040 (2 ^ 63)
        if s.ownIndex.isSome then s.mRequest else s
    | _ => s.resetRequest u

def onUResetRequest (sender : Sender) (u : UnitId) (allow : Bool) (s : State) : State :=
  s.command sender u 0x040 fun s => s.reqWrite sender u allow

/-- U_RESET_COMPLETE: the reset of a subtree, or M, completes. `persist` says whether the unit's own fault is still present. -/
def onUResetComplete (u : UnitId) (persist : Bool) (s : State) : State :=
  if u.type = .module then s.mEnd
  else if (s.unit u).resetRoot ∧ (s.unit u).resetting ∧ !(u.ancestors.any fun a => (s.unit a).resetting) then s.resetEnd u persist
  else s

/-! ### The commands as the queue gives them -/

def execUResetRequest (sender : Sender) (u : UnitId) (allow : Bool) (s : State) : Answer := s.run (onUResetRequest sender u allow)
def execUResetComplete (u : UnitId) (persist : Bool) (s : State) : Answer := s.run (onUResetComplete u persist)

end Sys2Proof.Machine
end

