-- ==== Sys2Proof/Machine/Ladder.lean ====
section
/-! DEFINITION. The root of the fault collectors: reports, canary intervals, the escalation ladder, consequential windows and notices
(R451-R462, R471, R472). -/

namespace Sys2Proof.Machine

/-- A unit as its type code and instance, two bytes each. -/
def unitBytes (u : UnitId) : List Byte := beBytes 2 u.type.code ++ beBytes 2 u.inst

/-- The SEAM byte of a record about a unit: its owner, or 0xFF where no seam owns it (R464). -/
def State.ownerSeam (s : State) (u : UnitId) : Nat :=
  let o := s.rd u Reg.UNIT_OWNER.OWNER
  if o < 64 then o else 0xFF

/-- The node whose registers govern a unit's faults (R450). -/
def nodeOf (u : UnitId) : UnitId := ⟨.node, u.nodeInst⟩

/-! ### Canary slots (R456) -/

/-- A ladder record (R469): the slot and the SEQ of the fault record that opened it. -/
def State.ladderRecord (s : State) (u : UnitId) (detail slot seq : Nat) : State :=
  s.tallyEvent (some u) 0x02 detail 7 (s.ownerSeam u) (payload8 0 (beBytes 1 slot ++ beBytes 8 seq))

/-- The slot in use for a unit. -/
def State.slotFor (s : State) (u : UnitId) : Option Nat :=
  (s.canaries.find? fun e => match e.2 with | some c => c.src == u | none => false).map Prod.fst

/-- The lowest free canary slot. -/
def State.freeSlot64 (s : State) : Option Nat := (List.range 64).find? fun i => (s.canaries.look none i).isNone

/-- The canary interval of a class at the node of a unit, in µs (R471). -/
def State.canaryUs (s : State) (u : UnitId) (cls : Nat) : Nat :=
  let v := s.rd (nodeOf u) (Reg.FLT_REACT.CANARY_US.ix cls)
  if v = 0 then 1 else min v 1000000

def State.setCanary (s : State) (i : Nat) (c : Option Canary) : State := { s with canaries := s.canaries.put none i c }

/-- A ladder that has no slot takes one as soon as one is free (R456). -/
def State.slotDue (s : State) : State :=
  match s.laddersDue, s.freeSlot64 with
  | c :: rest, some i =>
    (({ s with laddersDue := rest } : State).setCanary i (some { c with expiry := s.now + s.canaryUs c.src c.cls * 1000 })).ladderRecord
      c.src 0x01 i c.seq
  | _, _ => s

/-- A slot is free again. -/
def State.dropCanary (s : State) (i : Nat) : State := (s.setCanary i none).slotDue

/-- An acknowledgement (R456): the slot is freed and the ladder stops before its next rung. -/
def State.ackSlot (s : State) (i : Nat) : State :=
  match s.canaries.look none i with
  | none => s
  | some c => ((s.bump uRoot Reg.FLT_LADDER.ACKS).ladderRecord c.src 0x02 i c.seq).dropCanary i

/-! ### The rungs (R459-R461) -/

/-- A rung acts on a unit: LADDER of its die's node is set. -/
def State.rungActs (s : State) (u : UnitId) : State := s.wr (nodeOf u) Reg.FLT_ERR.LADDER 1

/-- Module checkstop (R461): cores, haulers and target writes stop, engines abandon their jobs, CHECKSTOP is set and FAULT_N goes low; only
M or P ends it, not a clearing of the sticky bit. -/
def State.moduleCheckstop (s : State) (slot : Nat) (u : UnitId) : State :=
  let s := s.wr uRoot Reg.FLT_MCHK.CHECKSTOP 1
  let s := s.tallyEvent (some uModule) 0x00 0x06 7 0xFF (payload8 0 (beBytes 1 slot ++ unitBytes u))
  { s with
    power := { s.power with checkstop := true }
    engines := s.engines.map fun (e : Nat × Engine) => (e.1, { e.2 with jobs := [], seamNow := none })
    targetWrites := [] }

/-- Rung 4 for a unit (R459). -/
def State.rung4 (s : State) (slot : Nat) (c : Canary) : State :=
  let s := ((s.rungActs c.src).ladderRecord c.src 0x07 slot c.seq).moduleCheckstop slot c.src
  s.dropCanary slot

/-- Units that go to rung 4 at expiry (R460). -/
def rung4Only (u : UnitId) : Bool :=
  u.type == .svcdie || u.type == .cube || u.type == .tally || u == uRoot || u.type == .power

/-- Is the other steward fenced, halted or off (R460)? -/
def State.otherGone (s : State) (u : UnitId) : Bool :=
  u.type == .steward && (let o := uSteward (otherSteward u.inst); !s.powered o || (s.unit o).fenced || s.stwHalted o.inst)

/-- Rung 1 (R459): the unit is fenced, unless it already is. The module page itself is never fenced (R40). -/
def State.rung1 (s : State) (slot : Nat) (c : Canary) : State :=
  let s := (s.bump uRoot Reg.FLT_LADDER.FENCES).rungActs c.src
  let s := s.ladderRecord c.src 0x03 slot c.seq
  if c.src = uModule then s else s.fence c.src

/-- A canary interval has expired (R459, R460). -/
def State.expire (s : State) (slot : Nat) (c : Canary) : State :=
  if rung4Only c.src ∨ s.otherGone c.src then s.rung4 slot c
  else (s.rung1 slot c).setCanary slot (some { c with rung := 1, rungAt := s.now })

/-- CANARY_EXPIRY (R459): rung 1 of a slot whose interval has expired. -/
def onCanaryExpiry (slot : Fin 64) (s : State) : State :=
  match s.canaries.look none slot.val with
  | none => s
  | some c => if c.rung = 0 ∧ c.expiry ≤ s.now then s.expire slot.val c else s

/-- RUNG_2 (R459): 10 µs after rung 1, the unit is U reset. -/
def onRung2 (slot : Fin 64) (s : State) : State :=
  match s.canaries.look none slot.val with
  | none => s
  | some c =>
    if c.rung = 1 ∧ c.rungAt + 10000 ≤ s.now then
      let s := (s.bump uRoot Reg.FLT_LADDER.RESETS).rungActs c.src
      let s := s.ladderRecord c.src 0x04 slot.val c.seq
      let s := s.setCanary slot.val (some { c with rung := 2, rungAt := s.now })
      if c.src = uModule then s.mStart else s.resetRequest c.src
    else s

/-- Rung 3 (R459, R460): the parent is fenced, or the ladder goes to rung 4 or ends. -/
def State.rung3 (s : State) (slot : Nat) (c : Canary) : State :=
  let fenceIt (s : State) (p : UnitId) : State :=
    let s := (s.bump uRoot Reg.FLT_LADDER.PARENT_FENCES).rungActs c.src
    ((s.ladderRecord c.src 0x06 slot c.seq).fence p).dropCanary slot
  match c.src.type with
  | .steward | .complex => s.dropCanary slot
  | .iodie | .tile => fenceIt s c.src
  | .module => s.rung4 slot c
  | _ => match c.src.parent with
    | none => s.dropCanary slot
    | some p => if p.type = .svcdie then s.dropCanary slot else fenceIt s p

/-- LADDER_CHECK (R459): 10 µs after the rung-2 reset completes, the fence is lifted where OWN_LIVE reads 0, and rung 3 follows where it
reads 1. A unit that its own chapter keeps fenced stays so, and the ladder ends. -/
def onLadderCheck (slot : Fin 64) (s : State) : State :=
  match s.canaries.look none slot.val with
  | none => s
  | some c =>
    let d := s.unit c.src
    if c.rung ≠ 2 ∨ d.resetting ∨ d.heldReset ∨ d.doneAt < c.rungAt ∨ s.now < d.doneAt + 10000 then s
    else if s.ownLive c.src then s.rung3 slot.val c
    else if s.checkLifts c.src then ((s.ladderRecord c.src 0x05 slot.val c.seq).unfence c.src).dropCanary slot.val
    else s.dropCanary slot.val

/-- LADDER_RESET_TIMEOUT (R459): the rung-2 reset has not completed within 1 ms. -/
def onLadderResetTimeout (slot : Fin 64) (s : State) : State :=
  match s.canaries.look none slot.val with
  | none => s
  | some c =>
    if c.rung = 2 ∧ ((s.unit c.src).resetting ∨ (s.unit c.src).heldReset) ∧ c.rungAt + 1000000 ≤ s.now then s.rung3 slot.val c else s

/-! ### Reports at the root (R452-R456, R462) -/

/-- The window that tags a report: the first opened of those open (R462). -/
def State.taggedBy (s : State) (r : Report) : Option Window :=
  if r.ownFence then none
  else s.windows.find? fun w =>
    (match w.closeAt with | some t => decide (s.now < t) | none => true)
      && (r.src.within w.src || match r.peer with | some p => p.within w.src | none => false)

/-- The payload of a fault record (R469). -/
def Report.payload (r : Report) : List Byte :=
  let peer := match r.peer with | some p => unitBytes p | none => List.replicate 4 0
  beBytes 1 r.index ++ [0] ++ peer ++ List.replicate 2 0 ++ beBytes 8 r.time ++ beBytes 8 r.syndrome.toNat

/-- A consequential report (R462): logged and counted; the first of each window is recorded. -/
def State.conseqReport (s : State) (r : Report) (w : Window) : State :=
  let n := nodeOf r.src
  let s := ((s.count n Reg.FLT_CONSEQ.COUNT).wr n Reg.FLT_CONSEQ.TYPE r.src.type.code).wr n Reg.FLT_CONSEQ.INST r.src.inst
  let s : State := { s with windows := s.windows.map fun (v : Window) => if v.src = w.src then { v with count := v.count + 1 } else v }
  if w.count = 0 then s.tallyEvent (some r.src) 0x01 r.cls r.cls (s.ownerSeam r.src) r.payload true else s

/-- A canary interval starts for a report, or its unit's slot takes it in (R456). Answers the slot, or 0xFF. -/
def State.canaryStart (s : State) (r : Report) (seq : Nat) : State × Nat :=
  match s.slotFor r.src with
  | some i =>
    match s.canaries.look none i with
    | some c => (s.setCanary i (some { c with cls := max c.cls r.cls }), i)
    | none => (s, i)
  | none =>
    let c : Canary := { src := r.src, cls := r.cls, rung := 0, expiry := s.now + s.canaryUs r.src r.cls * 1000, seq := seq, rungAt := 0 }
    match s.freeSlot64 with
    | some i => ((s.setCanary i (some c)).ladderRecord r.src 0x01 i seq, i)
    | none =>
      if s.laddersDue.any fun d => d.src == r.src then
        ({ s with laddersDue := s.laddersDue.map fun (d : Canary) => if d.src = r.src then { d with cls := max d.cls r.cls } else d }, 0xFF)
      else if rung4Only r.src ∨ s.otherGone r.src then (s.rung4 0xFF c, 0xFF)
      else (({ s with laddersDue := s.laddersDue ++ [c] } : State).rung1 0xFF c, 0xFF)

/-- The notices of a report, per NOTIFY of its node (R455, R458). -/
def State.noticeOf (s : State) (r : Report) (slot seq : Nat) : State :=
  let how := s.rd (nodeOf r.src) (Reg.FLT_REACT.NOTIFY.ix r.cls)
  if how = 0 then s
  else
    let seam := s.ownerSeam r.src
    let s := s.notify { cls := r.cls, slot := slot, type := r.src.type.code, inst := r.src.inst, index := r.index, seam := seam, seq := seq }
    if how = 2 ∧ 1 ≤ seam ∧ seam < 64 then
      s.pendSeam seam { cls := 1, code := r.src.type.code * 65536 + 0x0301,
                        xaddr := BitVec.ofNat 64 (r.src.inst % 65536 + r.cls * 65536) }
    else s

/-- Does the report tell of a fault of a hauler's instruction stream (R365, R469)? -/
def haulerFault (r : Report) : Bool :=
  r.src.type == .hauler
    && (r.index == sourceIndex r.src Reg.HLR_FAULT.DOUBLE_TRAP || r.index == sourceIndex r.src Reg.HLR_FAULT.ISTORE_UNCORR)

/-- The record of a hauler fault (R469): TCAUSE and PC. -/
def State.haulerRecord (s : State) (u : UnitId) : State :=
  let x := s.hauler u.inst
  s.tallyEvent (some u) 0x0A 0x03 7 (s.ownerSeam u)
    (payload8 0 (beBytes 1 (s.rd u Reg.HLR_STAT.TCAUSE) ++ beBytes 2 x.pc.toNat))

/-- An ordinary report at the root: counted, recorded, noticed, and with a canary interval where its class asks for one; class 3 fences
the unit at once (R455, R456). Units that no rung fences are not fenced here either. -/
def State.plainReport (s : State) (r : Report) : State :=
  let s := s.bump (nodeOf r.src) (countField r.cls)
  let seq := s.tallySeq
  let s := s.tallyEvent (some r.src) 0x01 r.cls r.cls (s.ownerSeam r.src) r.payload
  let c := if 2 ≤ r.cls then s.canaryStart r seq else (s, 0xFF)
  let s := if haulerFault r then c.1.haulerRecord r.src else c.1
  let s := s.noticeOf r c.2 seq
  if r.cls = 3 ∧ !rung4Only r.src ∧ r.src.type ≠ .module then s.fence r.src else s

/-- Records about reports that a node dropped are entered once its queue has space (R454). -/
def State.overflowRecord (s : State) (node : Nat) : State :=
  let n := s.overflow.look 0 node
  if n = 0 then s
  else ({ s with overflow := s.overflow.put 0 node 0 } : State).tallyEvent (some ⟨.node, node⟩) 0x0F 0x02 7 0xFF (payload8 0 (beBytes 8 n))

/-- What the node of a unit keeps of a wire fault (R451, R471). -/
def State.wireSeen (s : State) (r : Report) : State :=
  let n := nodeOf r.src
  if r.cls = 4 then
    (((s.count n Reg.FLT_WIRE.WIRES).wr n Reg.FLT_WIRE.TYPE r.src.type.code).wr n Reg.FLT_WIRE.INST r.src.inst).wr n Reg.FLT_ERR.WIRE 1
  else s

/-- The root takes a report. -/
def State.rootTake (s : State) (r : Report) : State :=
  let s := s.wireSeen r
  let s := match s.taggedBy r with
    | some w =>
      let s := s.conseqReport r w
      if haulerFault r then s.haulerRecord r.src else s
    | none => s.plainReport r
  s.overflowRecord r.src.nodeInst

/-- The oldest queued report of a source leaves its node's queue. -/
def takeReport (u : UnitId) (i : Nat) : List Report → Option (Report × List Report)
  | [] => none
  | r :: l => if r.src = u ∧ r.index = i then some (r, l) else (takeReport u i l).map fun x => (x.1, r :: x.2)

/-- The live rail of a source of a unit. -/
def State.setLive (s : State) (u : UnitId) (i : Nat) (on : Bool) : State :=
  let d := s.unit u
  s.setUnit u { d with live := if on then (if d.live.contains i then d.live else d.live ++ [i]) else d.live.filter (· != i) }

/-- An uncorrectable error of the PCI Express group that holds a lane is a path failure for whoever uses the group (R315, R401). -/
def State.pcieError (s : State) (lane : Nat) : State :=
  match (s.quadGroups (lane / 4)).find? fun g => decide (g.1 ≤ lane) && decide (lane < g.1 + 2 ^ g.2) with
  | some g => if s.isEth g.1 then s else s.failUsers fun p => pathLane p == g.1
  | none => s

/-- What a unit itself does with a fault that its own chapter answers: poisoned data that a steward has read (R430), an error of a PCI
Express link, of an array or of an engine's buffers (R410, R411), an uncorrectable bank word (R335), an uncorrectable instruction-store
word (R365). -/
def State.ownReaction (s : State) (u : UnitId) (f : Field) (w : Word) : State :=
  let is (g : Field) : Bool := f.off == g.off && f.lo == g.lo
  match u.type with
  | .jbank => if is Reg.JNL_ERR.UNCORR then ({ s with jbad := s.jbad.put false u.inst true } : State).bankLost u.inst else s
  | .lanegrp => if is Reg.LNK_ERR.PCIE_UNCORR then s.pcieError (4 * u.inst + w.field 62 63) else s
  | .crusher | .cipher =>
    if is Reg.ENG_ERR.UNCORR then s.bufferUncorr u else if is Reg.ENG_ERR.SCRUB_FAIL then s.fence u else s
  | .steward => if is Reg.STW_ERR.POISON ∧ u.inst < 2 then s.busError u.inst (w.field 16 63) true else s
  | .hauler => if is Reg.HLR_FAULT.ISTORE_UNCORR then s.faultHauler u.inst Reg.HLR_FAULT.ISTORE_UNCORR else s
  | _ => s.arrayUncorr u f w

/-- FAULT_REPORT (R452): the oldest report of a source that waits in its node's queue reaches the root; with none waiting, a rising pair of
that source is seen, with its peer and syndrome, and its report goes through. `held` says that the fault stays present: while it does,
nothing rises again, and without it the pair returns to "no fault" (R451, R452). -/
def onFaultReport (u : UnitId) (index : BitVec 8) (peer : Option UnitId) (syndrome : Word) (held : Bool) (s : State) : State :=
  let i := index.toNat
  let deliver (s : State) : State :=
    match takeReport u i s.reports with
    | some (r, rest) => ({ s with reports := rest } : State).rootTake r
    | none => s
  if !s.present u then s
  else if (takeReport u i s.reports).isSome then deliver s
  else if i = 0 then deliver ((s.wr u Reg.UNIT_STICKY.OWN 1).raise u 0 peer syndrome)
  else if i = 254 then deliver ((s.corrected u syndrome).arrayCorrected u syndrome)
  else match fieldOfIndex u i with
    | none => s
    | some f =>
      let up := (s.unit u).live.contains i && held
      let s := s.setLive u i held
      let own := u.type = .hauler ∧ f = Reg.HLR_FAULT.ISTORE_UNCORR
      if up then s
      else
        let s := if own then s else s.stick u f peer syndrome
        deliver (s.ownReaction u f syndrome)

/-- WIRE_FAULT (R451): a fault pair of a unit is held equal; the unit at the far end is the source, with index 255. -/
def onWireFault (u : UnitId) (s : State) : State :=
  if !s.present u then s
  else
    let s := s.raise u 255
    match takeReport u 255 s.reports with
    | some (r, rest) => ({ s with reports := rest } : State).rootTake r
    | none => s

/-- NODE_QUEUE_ENTRY (R454): the oldest report that waits at a full node enters the queue when an entry is free. -/
def onNodeQueueEntry (node : Fin 7) (s : State) : State :=
  match s.reportsWaiting.find? fun r => r.src.nodeInst == node.val with
  | none => s
  | some r =>
    if s.nodeCount node.val true + s.nodeCount node.val false < 64 then
      match takeReport r.src r.index s.reportsWaiting with
      | some (r, rest) => { s with reportsWaiting := rest, reports := s.reports ++ [r] }
      | none => s
    else s

/-- FLT_ACK (R456, R472). -/
def onFltAck (sender : Sender) (slot : Fin 64) (s : State) : State := s.command sender uRoot 0x118 fun s => s.ackSlot slot.val

/-- FLT_NOTICE_POP (R472). -/
def onFltNoticePop (sender : Sender) (s : State) : State :=
  s.command sender uRoot 0x110 fun s => { s with notices := s.notices.drop 1 }

/-- CONSEQ_WINDOW_CLOSE (R462): the summary record, and new reports of the faults still present. -/
def onConseqWindowClose (u : UnitId) (s : State) : State :=
  match s.windows.find? fun w => w.src == u && (match w.closeAt with | some t => decide (t ≤ s.now) | none => false) with
  | none => s
  | some w =>
    let s : State := { s with windows := s.windows.filter fun (v : Window) => v.src != u }
    let s := s.tallyEvent (some u) 0x02 0x08 7 (s.ownerSeam u) (payload8 0 (beBytes 4 w.count))
    State.each u.subtree (fun v s => State.each (s.unit v).live (fun i s => s.raise v i) s) s

/-- Acknowledgement of the failure of a core by CKW_CMD (R202, R456). -/
def State.ackCore (s : State) (k : Nat) : State :=
  match s.slotFor (uCore k) with
  | some i => s.ackSlot i
  | none => s

/-! ### The commands as the queue gives them -/

def execFaultReport (u : UnitId) (index : BitVec 8) (peer : Option UnitId) (syndrome : Word) (held : Bool) (s : State) : Answer :=
  s.run (onFaultReport u index peer syndrome held)
def execWireFault (u : UnitId) (s : State) : Answer := s.run (onWireFault u)
def execNodeQueueEntry (node : Fin 7) (s : State) : Answer := s.run (onNodeQueueEntry node)
def execFltAck (sender : Sender) (slot : Fin 64) (s : State) : Answer := s.run (onFltAck sender slot)
def execFltNoticePop (sender : Sender) (s : State) : Answer := s.run (onFltNoticePop sender)
def execCanaryExpiry (slot : Fin 64) (s : State) : Answer := s.run (onCanaryExpiry slot)
def execRung2 (slot : Fin 64) (s : State) : Answer := s.run (onRung2 slot)
def execLadderCheck (slot : Fin 64) (s : State) : Answer := s.run (onLadderCheck slot)
def execConseqWindowClose (u : UnitId) (s : State) : Answer := s.run (onConseqWindowClose u)
def execLadderResetTimeout (slot : Fin 64) (s : State) : Answer := s.run (onLadderResetTimeout slot)

end Sys2Proof.Machine
end

