-- ==== Sys2Proof/Machine/PowerControl.lean ====
section
/-! DEFINITION. UNIT_POWER and UNIT_OWNER: power states of units (R8, R18, R41, R164, R349, R367, R482, R492) and ownership (R19, R42). -/

namespace Sys2Proof.Machine

/-! ### What off loses (R482, R492) -/

/-- The entries of a home agent's directory are lost: the copies that they record are dropped with them (log entry 50). -/
def State.directoryLost (s : State) (c : Nat) : State :=
  let es := (s.dir.filter fun (e : Nat × DirEntry) => e.1 / 524288 == c).map Prod.snd
  let s := State.each es (fun e s => (s.killTiles e.holders e.line).1) s
  { s with
    dir := s.dir.filter fun (e : Nat × DirEntry) => e.1 / 524288 != c
    homeTrans := s.homeTrans.filter fun (h : HomeTrans) => h.home != c
    homeQueue := s.homeQueue.filter fun (r : HomeReq) => s.homeAgent r.line != some c
    dirReserve := s.dirReserve.filter fun (r : Nat × Nat × Agent) => r.1 != c }

/-- The memory of a channel is lost: an unlisted byte reads 0 (log entry 3), and TRAIN writes zeros in any case (R295). -/
def State.channelMemoryLost (s : State) (c : Nat) : State :=
  { s.trainAbandon c with
    mem := clearRange s.mem (c * 2 ^ 31) (2 ^ 31), poison := clearRange s.poison (c * 2 ^ 28) (2 ^ 28)
    badWords := clearRange s.badWords (c * 2 ^ 28) (2 ^ 28), remap := clearRange s.remap (c * 2048) 2048 }

/-- The contents of one unit that off loses; `tile` and `die` say that its tile or I/O die is off with it (R222, R482). -/
def State.contentsOff (s : State) (v : UnitId) (tile die : Bool) : State :=
  match v.type with
  | .mcs => if tile then { s.patchClear v.inst with patchDue := s.patchDue.put 0 v.inst 7 } else s
  | .memch => s.channelMemoryLost v.inst
  | .home => if s.mirrored ∧ s.serves (partnerOf v.inst) then s else s.directoryLost v.inst
  | .hauler =>
    let s := s.setHauler v.inst Hauler.reset
    if die then { s with istore := s.istore.filter fun (e : Nat × Byte) => e.1 / 65536 != v.inst } else s
  | .jbank => { s with jslots := clearRange s.jslots (v.inst * 16384) 16384, jdata := clearRange s.jdata (v.inst * 2 ^ 26) (2 ^ 26) }
  | .lanegrp => { s with links := (List.range 4).foldl (fun l j => l.put Link.reset (4 * v.inst + j) Link.reset) s.links }
  | _ => s

/-- A unit and its subtree are powered off (R18, R164). -/
def State.unitOff (s : State) (u : UnitId) : State :=
  let seams := s.memorySeams u
  let lines := s.openLines
  let tile := u.type = .tile
  let s := State.each (coresIn u) (fun k s => s.coreOff k) s
  let s := State.each (slicesIn u) (fun i s => s.flushSlice i) s
  let s := if tile then s.ckwEnd u.inst 7 else s
  let s := (s.marchStops fun v => v.within u).jobsStop u
  let s := State.each u.subtree (fun v s => s.setPower v .off) s
  let s := State.each u.subtree (fun v s => s.unitStops v) s
  let s := s.memoryStops u seams lines
  State.each u.subtree (fun v s => s.contentsOff v tile (u.type == .iodie)) s

/-! ### Waking (R8, R349, R367, R482) -/

/-- A unit other than a core or a retained tile wakes from off: the fields that off does not keep take their Reset values (R8). A hauler
clears its pit and takes the state of R349; a journal bank takes over the content of the other one; the cores of a tile are unassigned
until ASSIGN (R210). -/
def State.wakeUnit (s : State) (u : UnitId) : State :=
  let us := powerGroup u
  let s := s.keepFields (fun v => us.contains v) codeO
  let s := State.each us (fun v s => s.setPower v .run) s
  match u.type with
  | .hauler =>
    let s := (s.setHauler u.inst { s.hauler u.inst with timerFrom := s.now }).haulerFresh u.inst
    s.clearPit u.inst .halted
  | .jbank => s.bankSync u.inst
  | .tile => State.each (coresIn u) (fun k s => s.setCore k { s.core k with role := .unassigned }) s
  | _ => s

/-- A unit runs. -/
def State.unitRun (s : State) (u : UnitId) : State :=
  match (s.unit u).power with
  | .run => s.setPower u .run
  | .gated => s.setPower u .run
  | .retention => s.tileWake u.inst
  | .off => if u.type = .core then s.coreOn u.inst .run else s.wakeUnit u

/-- The cores of a tile that is gated are gated with it. -/
def State.gateCores (s : State) (u : UnitId) : State :=
  State.each (coresIn u) (fun k s => if (s.unit (uCore k)).power = .run then s.setPower (uCore k) .gated else s) s

/-- A unit takes a power state. -/
def State.enterPower (s : State) (u : UnitId) (p : PowerState) : State :=
  match p with
  | .run => s.unitRun u
  | .gated => (if u.type = .tile then (s.unitRun u).gateCores u else s.unitRun u).setPower u .gated
  | .off => s.unitOff u
  | .retention =>
    let s := s.unitRun u
    let s := State.each (coresIn u) (fun k s => if (s.unit (uCore k)).power = .off then s else s.coreOff k) s
    s.tileRetain u.inst

/-! ### UNIT_POWER (R41) -/

def powerOfReq (req : Nat) : PowerState :=
  match req with | 0 => .run | 1 => .gated | 2 => .off | _ => .retention

/-- Can the unit be powered at all: is everything above it powered, and its tile not in retention (R18; log entry 50)? -/
def State.mayPower (s : State) (u : UnitId) : Bool :=
  u.ancestors.all fun a => (s.unit a).power != .off && (s.unit a).power != .retention

/-- REQ of a unit changes: the work units of its cores are taken off first (R41), then the transition runs. A request for off aborts the
march runs on the unit's arrays (R378). -/
def State.askPower (s : State) (u : UnitId) (p : PowerState) : State :=
  let s := if p = .off then s.marchStops fun v => v.within u else s
  let s := if p = .run then s else State.each (coresIn u) (fun k s => s.askOff k 6) s
  if u.type = .core ∧ (s.core u.inst).wu.isSome then s
  else s.setUnit u { s.unit u with transition := some (p, s.now) }

/-- A core that is the Foreman's again and holds no work unit is clock-gated at once (R41, R244). -/
def State.gateIdle (s : State) (k : Nat) : State :=
  let d := s.unit (uCore k)
  if (s.core k).active ∧ (s.core k).wu.isNone ∧ d.power = .run ∧ d.transition.isNone ∧ !s.flag (uCore k) Reg.UNIT_POWER.PIN then
    (s.setPower (uCore k) .gated).setCore k { s.core k with idleSince := s.now }
  else s

/-- A write of REQ and PIN (R18, R41). PIN takes the written bit of a write whose REQ is ignored too (log entry 102). A memory channel is
never gated (R295). A unit without a power state of its own takes none (log entry 21), nor does the module page (R40), nor a
core before ASSIGN for run or gate (R210). -/
def State.powerWrite (s : State) (u : UnitId) (req : Nat) (pin : Bool) : State :=
  let old := s.rd u Reg.UNIT_POWER.REQ
  let ignored := !ownPower u.type || (s.unit u).fenced || (req == 3 && u.type != .tile)
    || (req == 1 && u.type == .memch) || (req != 2 && !s.mayPower u)
    || (u.type == .core && (s.core u.inst).role == .unassigned && req < 2)
  let changes := !ignored && req != old
  let pins := u.type == .core || u.type == .tile
  let s := s.wr u Reg.UNIT_POWER.PIN (if pin || (changes && pins) then 1 else 0)
  if changes then (s.wr u Reg.UNIT_POWER.REQ req).askPower u (powerOfReq req)
  else if u.type = .core then s.gateIdle u.inst else s

/-- UNIT_POWER_WRITE (R41). -/
def onUnitPowerWrite (sender : Sender) (u : UnitId) (req : BitVec 2) (pin : Bool) (s : State) : State :=
  s.command sender u 0x048 fun s => s.powerWrite u req.toNat pin

/-- POWER_TRANSITION_DONE (R482): the unit is in the state requested, once none of its cores holds a work unit and everything above it is
still powered. -/
def onPowerTransitionDone (u : UnitId) (s : State) : State :=
  let d := s.unit u
  match d.transition with
  | none => s
  | some (p, _) =>
    if s.inReset u then s
    else if p ≠ .run ∧ (coresIn u).any (fun k => (s.core k).wu.isSome) = true then s
    else if p ≠ .off ∧ !s.mayPower u then s.setUnit u { d with transition := none }
    else s.enterPower u p

/-! ### UNIT_OWNER (R19, R42, R367) -/

/-- May the owner of a hauler change (R367)? -/
def State.ownerFree (s : State) (h : Nat) : Bool := !s.powered (uHauler h) || s.haulerIdle h

/-- The units of this module whose OWNER a write sets: the one written, or with a seam number its subtree, which for the coupled complex
holds the module page of this member and all below it (R20, R42). -/
def ownerReach (u : UnitId) (owner : Nat) : List UnitId :=
  if owner = 0xFF then [u] else if u.type = .complex then u :: UnitId.allUnits else u.subtree

/-- The haulers whose owner a write would change. -/
def State.ownerChanges (s : State) (u : UnitId) (owner : Nat) : List Nat :=
  ((ownerReach u owner).filter fun v => v.type == .hauler && s.rd v Reg.UNIT_OWNER.OWNER != owner).map UnitId.inst

/-- Does the parent of a unit name a seam (R42)? The parent of the module page is the coupled complex where there is one (R20); what a
remote module writes in the module page is the complex's own write (log entry 102). -/
def State.ownerHeld (s : State) (sender : Sender) (u : UnitId) : Bool :=
  match u.parent with
  | some p => s.rd p Reg.UNIT_OWNER.OWNER != 0xFF
  | none => u.type == .module && s.present uComplex && s.rd uComplex Reg.UNIT_OWNER.OWNER != 0xFF
      && (match sender with | .remote _ => false | _ => true)

/-- Does a write of OWNER get an error response (R42)? None does where LOCK ignores it. -/
def State.ownerRefused (s : State) (sender : Sender) (u : UnitId) (owner : Nat) : Bool :=
  !s.locked u && ((decide (64 ≤ owner) && owner != 0xFF) || s.ownerHeld sender u || !(s.ownerChanges u owner).all s.ownerFree)

/-- A write of OWNER (R42). A hauler whose owner changes clears its pit (R367). A refused write is an access error, with the cause in OWN
of the unit and a report (log entry 102). A seam number written in the complex page goes to every member (R20). -/
def State.ownerWrite (s : State) (sender : Sender) (u : UnitId) (owner : Nat) : State :=
  if s.locked u then s
  else if s.ownerRefused sender u owner then s.pageError sender u 0x050
  else
    let changed := s.ownerChanges u owner
    let s := State.each (ownerReach u owner) (fun v s => s.wr v Reg.UNIT_OWNER.OWNER owner) s
    let s := State.each changed (fun h s => if s.powered (uHauler h) then s.clearPit h (s.hauler h).mode else s) s
    if u.type = .complex ∧ owner ≠ 0xFF then s.toMembers sender 0x050 (owner * 2 ^ 56) else s

/-- UNIT_OWNER_WRITE (R42). -/
def onUnitOwnerWrite (sender : Sender) (u : UnitId) (owner : BitVec 8) (s : State) : State :=
  s.command sender u 0x050 fun s => s.ownerWrite sender u owner.toNat

/-! ### The commands as the queue gives them -/

def execUnitPowerWrite (sender : Sender) (u : UnitId) (req : BitVec 2) (pin : Bool) (s : State) : Answer := s.run (onUnitPowerWrite sender u req pin)
def execPowerTransitionDone (u : UnitId) (s : State) : Answer := s.run (onPowerTransitionDone u)
def execUnitOwnerWrite (sender : Sender) (u : UnitId) (owner : BitVec 8) (s : State) : Answer := s.run (onUnitOwnerWrite sender u owner)

end Sys2Proof.Machine
end

