-- ==== Sys2Proof/Machine/Checkweigher.lean ====
section
/-! DEFINITION. The checkweigher and the commands of a tile: comparison and retry (R191-R198), PROMOTE, ROTATE and RELOCATE (R202-R209,
R214), the watch (R204), ASSIGN and FENCED (R10, R210, R213). -/

namespace Sys2Proof.Machine

/-! ### Comparison and retry (R191-R198) -/

/-- Mismatches of a core within the last second (R197). -/
def State.mismatchesNow (s : State) (k : Nat) : List Nat := (s.core k).mismatches.filter fun t => decide (s.now < t + 1000000000)

/-- A mismatch is noted: CKW_LAST_IA, the first instruction of the mismatching group, CKW_LAST_KIND and the window of R197. -/
def State.noteMismatch (s : State) (k : Nat) (kind : Nat) : State :=
  let c := s.core k
  let s := s.wr (uCore k) Reg.CKW_LAST_IA.IA (if c.group.count = 0 then c.arch.ia else c.group.first).toNat
  let s := (s.wr (uCore k) Reg.CKW_LAST_KIND.KIND kind).wr (uCore k) Reg.CKW_LAST_KIND.ATTEMPT c.group.attempts
  let s := s.wr (uCore k) Reg.CKW_LAST_KIND.SEQ c.ckpt.seq
  s.setCore k { c with mismatches := s.mismatchesNow k ++ [s.now] }

/-- Does this mismatch, the next of the core, declare it failed (R197, R204)? -/
def State.mismatchFails (s : State) (k : Nat) : Bool :=
  let c := s.core k
  decide (2 ≤ c.group.attempts) || decide (15 ≤ (s.mismatchesNow k).length)
    || (c.role == .watch && (decide (1 ≤ c.group.attempts) || c.mismatches.any fun t => decide (c.watchEnd ≤ t + 10000000)))

/-- Corrected errors of a core's checkpoint array are counted (R199, R212). -/
def State.recordCorrected (s : State) (k n : Nat) : State := if n = 0 then s else s.bump (uCore k) Reg.CKW_CKPT.CORR n

/-- The last compared checkpoint is restored, and the group executes again (R196). -/
def State.restoreCkpt (s : State) (k : Nat) : State :=
  let c := s.core k
  s.setCore k { c with arch := c.ckpt.arch, group := { Group.empty with attempts := c.group.attempts + 1 } }

/-- A mismatch of some items (R194, R196); `read` tells what reading the checkpoint meets. One found in stage 2 leaves the group as
performed: the intermediate checkpoint with the response is what the core shows, and the next group runs. Any other restores the checkpoint
before the group. Single-bit errors of the record are corrected as it is read, and counted (R199). -/
def State.mismatch (s : State) (k : Nat) (kind : Nat) (read : RecordRead) : State :=
  let fails := s.mismatchFails k
  let s := s.noteMismatch k kind
  let s := if fails then s else s.recordCorrected k read.corr.toNat
  if fails then s.coreFail k []
  else if !read.readable then
    let c := s.core k
    (s.setCore k { c with ckpt := { c.ckpt with readable := false } }).coreFail k [Reg.CKW_STAT.CKPT_LOST]
  else if (s.core k).group.performed then s.retire k
  else
    let s := s.microcode k
    if (s.core k).wu.isSome then s.restoreCkpt k else s

/-- GROUP_COMPARE (R193): the checkweigher compares the group of a core. `kind` names the items that differ, in the order of CKW_LAST_KIND;
`disagree` says that its two verdicts differ (R192), `read` what reading the checkpoint meets, and `lane` names the lane
whose own checks found the error (R212). The group is the one in progress. An instruction that takes an exception, or that is performed
outside the core, belongs to it: a mismatch of its trap outcome (R117) or of its operands (stage 1 of R194) comes before its own command,
even where it is the first of its group, and a mismatch of its response (stage 2) after it. A compared group waits while the store buffer
has no room for its stores (R126). -/
def onGroupCompare (k : Fin 48) (kind : BitVec 9) (disagree : Bool) (read : RecordRead) (lane : Option (Fin 2)) (s : State) : State :=
  let c := s.core k.val
  if c.wu.isNone ∨ !c.active ∨ !s.operates (uCore k.val) then s
  else
    let s := match lane with
      | some l => s.wr ⟨.lane, 2 * k.val + l.val⟩ Reg.UNIT_STICKY.OWN 1
      | none => s
    if disagree then s.coreFail k.val [Reg.CKW_STAT.SELF_FAIL]
    else if kind = 0 then (if s.groupRoom k.val then s.compared k.val else s)
    else s.mismatch k.val kind.toNat read

/-- WATCH_END (R204): 10 ms after resume. -/
def onWatchEnd (k : Fin 48) (s : State) : State :=
  let c := s.core k.val
  if c.role = .watch ∧ c.watchEnd ≤ s.now then s.setCore k.val { c with role := .active } else s

/-! ### Bring-up and hand-over (R203, R205, R207) -/

/-- Slot `n` of tile `t` as a core instance. -/
def slotCore (t n : Nat) : Nat := 12 * t + n

/-- A pawn is powered, its caches are clear and its patch memory loaded (R203). -/
def State.bringUp (s : State) (k cause : Nat) : State :=
  let s := ({ s with patchDue := s.patchDue.put 0 k 0 } : State).coreOn k .run
  let s := s.setWord (uCore k) Reg.L2_LOCK.LOCKED.off (resetWord (uCore k) Reg.L2_LOCK.LOCKED.off)
  let s := (s.flushCore k).setCore k { (s.core k).clearTrackers with ckpt := Ckpt.none }
  s.patchLoad k cause 0

/-- A pawn that fails bring-up is fenced (R206). -/
def State.bringUpFails (s : State) (k : Nat) : State := (s.fence (uCore k)).fenceSlot k

/-- A core is active; without work it is clock-gated. -/
def State.becomesActive (s : State) (k : Nat) (watch : Bool) : State :=
  let s := s.setCore k { s.core k with
    role := if watch then .watch else .active, watchEnd := s.now + 10000000, idleSince := s.now }
  if (s.core k).wu.isNone then s.setPower (uCore k) .gated else s

/-- The work unit of a failed core, whose checkpoint cannot be read, is lost (R205). -/
def State.threadLost (s : State) (k num : Nat) : State :=
  let w := s.work num
  let s := s.wr (uCore k) Reg.CKW_STAT.CKPT_LOST 1
  let s := s.tallyEvent (some (uCore k)) 0x05 0x04 7 w.seam (payload8 0 (wordBytes (workId w.seam num)))
  s.endWork num 0x12

/-- Can the checkpoint record of a core be read? -/
def State.recordReads (s : State) (k : Nat) (unreadable : Bool) : Bool :=
  !unreadable && (s.core k).ckpt.readable && (s.core k).ckpt.valid

/-- The entries of a translation image without those that have an uncorrectable error (R199): bit `i` of `lost` stands for entry `i`. -/
def imageReads (l : List Translation) (lost : BitVec 127) : List Translation :=
  (l.zipIdx.filter fun e => !lost.getLsbD e.2).map Prod.fst

/-- The suspended work unit of core `src` goes on at its last compared checkpoint on core `dst` (R203). The sequence number of DST goes on
from the record (log entry 105). -/
def State.resumeOn (s : State) (src dst num : Nat) (lost : BitVec 127) : State :=
  let w := s.work num
  let a := s.core src
  let c := s.core dst
  let s := (s.setCore src { a with suspended := none }).setCore dst { c with
    arch := a.ckpt.arch, ckpt := a.ckpt, group := Group.empty, wu := some num, tlb := imageReads a.ckpt.image lost, prevSeam := some w.seam,
    recent := footDispatch num c.recent, dispatchedAt := s.now, ranSeams := [w.seam] }
  let s := s.trace 0x05 w.seam w.prio dst 0xFF 0xFF (workId w.seam num) (s.dispatchData num)
  s.setWork num { w with run := .running dst, since := s.now }

/-- The record of a failed core is written to the state area of its work unit, which goes to the head of its ready ring (R207). -/
def State.relocateWork (s : State) (src num : Nat) : State :=
  let w := s.work num
  let a := s.core src
  let words := (List.range 12).map fun i => Config.freeWord (s.free + i)
  let s : State := { s with free := s.free + 12 }
  let s := (s.agentWrite w.seam w.area (archImage a.ckpt.arch (workId w.seam num) words)).1
  let s := s.setCore src { s.core src with suspended := none }
  (s.enqueue num true).fmnEvent .ended

/-- The failed source of a command reads fenced from now on (R203, R207). -/
def State.sourceFenced (s : State) (k : Nat) : State := s.fenceSlot k

/-! ### The commands of a tile (R202-R209, R214) -/

/-- Do SRC and DST have the roles that an OP requires? -/
def State.rolesFit (s : State) (t op src dst : Nat) : Bool :=
  let role (n : Nat) : Role := (s.core (slotCore t n)).role
  decide (src < 12) && match op with
    | 1 => decide (dst < 12) && role src == .failed && role dst == .pawn
    | 2 => decide (dst < 12) && (s.core (slotCore t src)).active && role dst == .pawn
    | _ => role src == .failed

/-- CKW_CMD START (R203, R207, R209, R214): the command starts and acknowledges the canary interval of its source (R202). -/
def State.ckwStart (s : State) (t op : Nat) : State :=
  if (s.ckwRuns.look none t).isSome ∨ op = 0 then s
  else
    let src := s.rd (uTile t) Reg.CKW_CMD.SRC
    let dst := s.rd (uTile t) Reg.CKW_CMD.DST
    if !s.rolesFit t op src dst then s.wr (uTile t) Reg.CKW_CMD.RESULT 2
    else
      let s := if op = 2 then s.askOff (slotCore t src) 5 else s.ackCore (slotCore t src)
      let s := if op = 3 then s else s.setCore (slotCore t dst) { s.core (slotCore t dst) with role := .promoting }
      { s with ckwRuns := s.ckwRuns.put none t (some { op := op, src := src, dst := dst, started := s.now, result := 1 }) }

/-- A write of CKW_CMD with START. -/
def State.ckwCmd (s : State) (sender : Sender) (t op src dst : Nat) : State :=
  s.command sender (uTile t) 0x088 fun s =>
    let s := ((s.wr (uTile t) Reg.CKW_CMD.OP op).wr (uTile t) Reg.CKW_CMD.SRC src).wr (uTile t) Reg.CKW_CMD.DST dst
    s.ckwStart t op

def onPromote (sender : Sender) (tile : Fin 4) (src dst : BitVec 4) (s : State) : State :=
  s.ckwCmd sender tile.val 1 src.toNat dst.toNat
def onRotate (sender : Sender) (tile : Fin 4) (src dst : BitVec 4) (s : State) : State :=
  s.ckwCmd sender tile.val 2 src.toNat dst.toNat
def onRelocate (sender : Sender) (tile : Fin 4) (src dst : BitVec 4) (s : State) : State :=
  s.ckwCmd sender tile.val 3 src.toNat dst.toNat

/-- A U reset of the source that waited for the copy is performed (R206). -/
def State.heldResetNow (s : State) (k : Nat) : State :=
  let u := uCore k
  if (s.unit u).heldReset then (s.setUnit u { s.unit u with heldReset := false }).resetStart u else s

/-- The end of a PROMOTE, or of a ROTATE whose source has failed, with the RESULT it has where all goes well. -/
def State.promoteEnd (s : State) (t src dst : Nat) (ended : Bool) (good : Nat) (dstFails : Bool) (c : CopyRead) : State × Nat :=
  if dstFails then (s.bringUpFails dst, 5)
  else
    let s := s.bringUp dst (if good = 1 then 4 else 5)
    let r : State × Nat := match (s.core src).suspended with
      | none => (s.becomesActive dst false, if ended then 6 else good)
      | some num =>
        let s := s.recordCorrected src c.corr.toNat
        if s.recordReads src c.unreadable then ((s.resumeOn src dst num c.lost).becomesActive dst true, good)
        else ((s.threadLost src num).becomesActive dst false, 4)
    let s := (r.1.sourceFenced src).fmnEvent (.failure dst)
    (if good = 9 ∧ r.2 ≠ 9 then s else s.bump (uTile t) Reg.CKW_COUNT.PROMOTIONS, r.2)

/-- The end of a ROTATE (R209). -/
def State.rotateEnd (s : State) (t src dst : Nat) (dstFails : Bool) : State × Nat :=
  if dstFails then (s.bringUpFails dst, 5)
  else
    let s := (s.bringUp dst 5).becomesActive dst true
    let s := s.coreOff src
    let s := (s.setCore src { s.core src with role := .pawn, reserved := none }).fmnEvent (.failure dst)
    (s.bump (uTile t) Reg.CKW_COUNT.ROTATIONS, 1)

/-- The end of a RELOCATE (R207). -/
def State.relocateEnd (s : State) (t src : Nat) (ended : Bool) (c : CopyRead) : State × Nat :=
  match (s.core src).suspended with
  | none =>
    let s := s.sourceFenced src
    if ended then (s, 6) else (s.bump (uTile t) Reg.CKW_COUNT.RELOCATIONS, 1)
  | some num =>
    let s := s.recordCorrected src c.corr.toNat
    let r : State × Nat := if s.recordReads src c.unreadable then (s.relocateWork src num, 1) else (s.threadLost src num, 4)
    ((r.1.sourceFenced src).bump (uTile t) Reg.CKW_COUNT.RELOCATIONS, r.2)

/-- CKW_CMD_DONE (R214): the phases of the command have run. `dstFails` says that DST has failed power-up or its patch load, `copy` what
the copy of SRC's record met (R199). A ROTATE waits until its source holds no work unit. -/
def onCkwCmdDone (tile : Fin 4) (dstFails : Bool) (copy : CopyRead) (s : State) : State :=
  let t := tile.val
  match s.ckwRuns.look none t with
  | none => s
  | some r =>
    let src := slotCore t r.src
    let dst := slotCore t r.dst
    let failed := (s.core src).role == .failed
    let ended := r.result == 6
    if r.op = 2 ∧ !failed ∧ (s.core src).wu.isSome then s
    else
      let e : State × Nat :=
        if r.op = 1 then s.promoteEnd t src dst ended 1 dstFails copy
        else if r.op = 3 then s.relocateEnd t src ended copy
        else if failed then s.promoteEnd t src dst ended 9 dstFails copy
        else s.rotateEnd t src dst dstFails
      let s := e.1.ckwEnd t e.2
      let s := if failed ∧ r.op = 2 then s.ackCore src else s
      s.heldResetNow src

/-! ### Roles (R10, R210, R213) -/

/-- Bit `n` of a 12-bit field of CKW_SLOTS, for slot Cn. -/
def slotBit (v n : Nat) : Bool := v.testBit (11 - n)

/-- ASSIGN (R10): the ten lowest-numbered good, unfenced slots are active, the rest of them pawns. -/
def State.assign (s : State) (t : Nat) : State :=
  let cores := coresIn (uTile t)
  if cores.any fun k => (s.unit (uCore k)).power != .off || (s.core k).suspended.isSome then s.wr (uTile t) Reg.CKW_CMD.RESULT 8
  else
    let fenced := s.rd (uTile t) Reg.CKW_SLOTS.FENCED
    let usable := cores.filter fun k => slotBit (s.rd (uTile t) Reg.CKW_SLOTS.GOOD) (k % 12) && !slotBit fenced (k % 12)
    State.each cores (fun k s =>
      let role : Role := if (usable.take 10).contains k then .active else if usable.contains k then .pawn
        else if slotBit fenced (k % 12) then .fenced else .unassigned
      s.setCore k { s.core k with role := role, ckpt := if role = .active then Ckpt.none else (s.core k).ckpt }) s

/-- A write of FENCED (R210, R213): a 1 fences a slot that is a pawn or off. ROLE of a slot fenced before ASSIGN reads fenced at once (log
entry 105). -/
def State.fencedWrite (s : State) (t mask : Nat) : State :=
  if s.locked (uTile t) then s
  else State.each (coresIn (uTile t)) (fun k s =>
    if slotBit mask (k % 12) ∧ ((s.core k).role = .pawn ∨ (s.unit (uCore k)).power = .off) then (s.fence (uCore k)).fenceSlot k else s) s

/-- A write of CKW_SLOTS: FENCED, then ASSIGN. -/
def State.slotsWrite (s : State) (t mask : Nat) (assign : Bool) : State :=
  let s := s.fencedWrite t mask
  if assign then s.assign t else s

def onAssign (sender : Sender) (tile : Fin 4) (s : State) : State :=
  s.command sender (uTile tile.val) 0x080 fun s => s.slotsWrite tile.val 0 true
def onFencedWrite (sender : Sender) (tile : Fin 4) (mask : BitVec 12) (s : State) : State :=
  s.command sender (uTile tile.val) 0x080 fun s => s.slotsWrite tile.val mask.toNat false

/-! ### The commands as the queue gives them -/

def execGroupCompare (k : Fin 48) (kind : BitVec 9) (disagree : Bool) (read : RecordRead) (lane : Option (Fin 2)) (s : State) : Answer :=
  s.run (onGroupCompare k kind disagree read lane)
def execPromote (sender : Sender) (tile : Fin 4) (src dst : BitVec 4) (s : State) : Answer := s.run (onPromote sender tile src dst)
def execRotate (sender : Sender) (tile : Fin 4) (src dst : BitVec 4) (s : State) : Answer := s.run (onRotate sender tile src dst)
def execRelocate (sender : Sender) (tile : Fin 4) (src dst : BitVec 4) (s : State) : Answer := s.run (onRelocate sender tile src dst)
def execCkwCmdDone (tile : Fin 4) (dstFails : Bool) (copy : CopyRead) (s : State) : Answer :=
  s.run (onCkwCmdDone tile dstFails copy)
def execWatchEnd (k : Fin 48) (s : State) : Answer := s.run (onWatchEnd k)
def execAssign (sender : Sender) (tile : Fin 4) (s : State) : Answer := s.run (onAssign sender tile)
def execFencedWrite (sender : Sender) (tile : Fin 4) (mask : BitVec 12) (s : State) : Answer := s.run (onFencedWrite sender tile mask)

end Sys2Proof.Machine
end

