-- ==== Sys2Proof/Machine/Entropy.lean ====
section
/-! DEFINITION. The entropy source (R418, R419, R427) and the operations on DRBG instances (R420, R421). -/

namespace Sys2Proof.Machine

/-! ### Health tests -/

/-- The repetition count test on one bit: the run of equal bits; it fails at a run of 41 (R419). -/
def Entropy.rct (x : Entropy) (b : Bool) : Entropy × Bool :=
  let n := if x.runLen ≠ 0 ∧ x.lastBit = b then x.runLen + 1 else 1
  ({ x with lastBit := b, runLen := n }, decide (41 ≤ n))

/-- The adaptive proportion test on one bit: windows of 1,024 bits, which fail once the first bit has occurred 795 times (R419). -/
def Entropy.apt (x : Entropy) (b : Bool) : Entropy × Bool :=
  if x.winSeen = 0 then ({ x with winBit := b, winSeen := 1, winHits := 1 }, false)
  else
    let hits := if b = x.winBit then x.winHits + 1 else x.winHits
    ({ x with winSeen := (x.winSeen + 1) % 1024, winHits := hits }, decide (795 ≤ hits) && b == x.winBit)

/-- Both tests on raw bits, the most significant first: the history after them, and whether each failed. -/
def Entropy.health (x : Entropy) (bits : List Bool) : Entropy × Bool × Bool :=
  bits.foldl (fun (a : Entropy × Bool × Bool) b =>
    let r := a.1.rct b
    let q := r.1.apt b
    (q.1, a.2.1 || r.2, a.2.2 || q.2)) (x, false, false)

/-- The bits of a word of raw noise, the most significant first. -/
def rawBits {w : Nat} (v : BitVec w) : List Bool := (List.range w).map fun i => v.getLsbD (w - 1 - i)

/-- Start the health tests afresh. -/
def Entropy.fresh (x : Entropy) : Entropy :=
  { x with lastBit := false, runLen := 0, winBit := false, winSeen := 0, winHits := 0 }

/-- A health failure: STATE failed, the sticky bits, FAILS and the Tally record (R419). The record's payload names the failing test by
the number of its ENT_ERR bit (log entry 36). -/
def State.healthFail (s : State) (rct apt startup : Bool) : State :=
  let s := { s with entropy := { s.entropy with state := .failed } }
  let s := if rct then s.stick uEntropy Reg.ENT_ERR.RCT_FAIL else s
  let s := if apt then s.stick uEntropy Reg.ENT_ERR.APT_FAIL else s
  let s := if startup then s.stick uEntropy Reg.ENT_ERR.STARTUP_FAIL else s
  let s := s.bump uEntropy Reg.ENT_COUNT.FAILS
  s.tallyEvent (some uEntropy) 0x0C 0x02 7 0xFF (payload8 0 [if rct then 0 else 1])

/-- ENTROPY_BLOCK (R418, R419): 896 raw bits pass the health tests and are conditioned into a block; in raw mode they are what ENT_RAW
shows. While the source starts or has failed, nothing is made of them. -/
def onEntropyBlock (raw : BitVec 896) (s : State) : State :=
  match s.entropy.state with
  | .raw => { s with entropy := { s.entropy with raw := (raw >>> 832).setWidth 64 } }
  | .healthy =>
    let r := s.entropy.health (rawBits raw)
    let s := { s with entropy := r.1 }
    if r.2.1 || r.2.2 then s.healthFail r.2.1 r.2.2 false
    else
      let d := bytesNat (sha384 (natBytes 112 raw.toNat))
      ({ s with entropy := { s.entropy with blocks := s.entropy.blocks ++ [d] } } : State).bump uEntropy Reg.ENT_COUNT.BLOCKS
  | _ => s

/-- The start-up test runs: at P, M and RESTART (R419). -/
def State.entropyStart (s : State) : State :=
  { s with entropy := { s.entropy.fresh with state := .starting, blocks := [] } }

/-- ENT_CTL with an OP is started, unless a command is running (R427). -/
def State.entropyCommand (s : State) (op : Nat) : State :=
  let s := s.wr uEntropy Reg.ENT_CTL.OP op
  if s.entropy.busy.isSome then s
  else
    if op = 1 then
      let s := (s.bump uEntropy Reg.ENT_COUNT.RESTARTS).tallyEvent (some uEntropy) 0x0C 0x03 7 0xFF (payload8 0 [])
      let s := s.entropyStart
      { s with entropy := { s.entropy with busy := some 1 } }
    else if op = 2 then
      ({ s with entropy := { s.entropy with state := .raw, blocks := [] } } : State).wr uEntropy Reg.ENT_CTL.RESULT 4
    else s.wr uEntropy Reg.ENT_CTL.RESULT 3

/-- RESTART (R419, R427). -/
def onRestart (sender : Sender) (s : State) : State := s.command sender uEntropy 0x080 fun s => s.entropyCommand 1

/-- RAW (R427). -/
def onRaw (sender : Sender) (s : State) : State := s.command sender uEntropy 0x080 fun s => s.entropyCommand 2

/-- STARTUP_TEST_DONE (R419): the start-up test ends on 65,536 raw bits, which are discarded. After a RESTART that succeeds, each
instance is due for a reseed. -/
def onStartupTestDone (raw : BitVec 65536) (s : State) : State :=
  if s.entropy.state ≠ .starting then s
  else
    let restart := s.entropy.busy.isSome
    let r := s.entropy.health (rawBits raw)
    let s := { s with entropy := { r.1 with busy := none } }
    let bad := r.2.1 || r.2.2
    let s := if bad then s.healthFail r.2.1 r.2.2 true else { s with entropy := { s.entropy with state := .healthy } }
    if !restart then s
    else
      let s := s.wr uEntropy Reg.ENT_CTL.RESULT (if bad then 2 else 1)
      if bad then s
      else { s with drbg := s.drbg.map fun (e : Nat × Option Drbg) => (e.1, e.2.map fun d => { d with due := true }) }

/-! ### GENERATE and RESEED -/

/-- A DRBG instance is reseeded from a conditioned block (R420, R421). -/
def State.reseedInst (s : State) (seam inst : Nat) (d : Drbg) (add : List Byte) : State × Drbg :=
  let b := s.entropyBlock
  let d := d.reseed b.2 add
  (b.1.setDrbg seam inst (some d), d)

/-- The checks of R421 on a request: STATUS if it is refused. -/
def State.drbgStatus (s : State) (seam inst : Nat) : Option Nat :=
  if s.entropy.state ≠ .healthy then some 0x30
  else if s.rd uSeamCtl (Reg.SEAM_QUOTA.DRBG.ix seam) ≤ inst ∨ seam = 0 then some 0x31
  else none

/-- GENERATE (R421): output from an instance, reseeded first with PR, after 2^20 requests, or when due. -/
def onGenerate (seam : Fin 64) (s : State) : State :=
  match s.toPerform .entropy seam.val 0x40 with
  | none => s
  | some j =>
    let inst := j.optBits 0 2
    match s.drbgStatus seam.val inst, s.drbgOf seam.val inst with
    | some st, _ => let c := s.freeCheck; c.1.failJob .entropy seam.val j st c.2
    | none, none => let c := s.freeCheck; c.1.failJob .entropy seam.val j 0x31 c.2
    | none, some d =>
      let a := s.jobRead seam.val j.aux j.auxLen
      match a.2 with
      | .stays => a.1
      | .fails st => let c := a.1.freeCheck; c.1.failJob .entropy seam.val j st c.2
      | .bytes add =>
        let again := j.optBits 3 3 = 1 ∨ d.due = true ∨ 2 ^ 20 ≤ d.served
        let r := if again then a.1.reseedInst seam.val inst d add else (a.1, d)
        let g := r.2.generate j.dstLen (if again then [] else add)
        let s := (r.1.setDrbg seam.val inst (some g.1)).bump uEntropy (Reg.ENT_INST.GENERATES.ix seam.val)
        let c := s.freeCheck
        c.1.finishJob .entropy seam.val j 1 g.2 c.2

/-- RESEED (R421). -/
def onReseed (seam : Fin 64) (s : State) : State :=
  match s.toPerform .entropy seam.val 0x41 with
  | none => s
  | some j =>
    let inst := j.optBits 0 2
    match s.drbgStatus seam.val inst, s.drbgOf seam.val inst with
    | some st, _ => let c := s.freeCheck; c.1.failJob .entropy seam.val j st c.2
    | none, none => let c := s.freeCheck; c.1.failJob .entropy seam.val j 0x31 c.2
    | none, some d =>
      let a := s.jobRead seam.val j.aux j.auxLen
      match a.2 with
      | .stays => a.1
      | .fails st => let c := a.1.freeCheck; c.1.failJob .entropy seam.val j st c.2
      | .bytes add =>
        let r := a.1.reseedInst seam.val inst d add
        let c := r.1.freeCheck
        c.1.finishJob .entropy seam.val j 1 [] c.2

/-! ### The commands as the queue gives them -/

def execGenerate (seam : Fin 64) (s : State) : Answer := s.run (onGenerate seam)
def execReseed (seam : Fin 64) (s : State) : Answer := s.run (onReseed seam)
def execEntropyBlock (raw : BitVec 896) (s : State) : Answer := s.run (onEntropyBlock raw)
def execRestart (sender : Sender) (s : State) : Answer := s.run (onRestart sender)
def execRaw (sender : Sender) (s : State) : Answer := s.run (onRaw sender)
def execStartupTestDone (raw : BitVec 65536) (s : State) : Answer := s.run (onStartupTestDone raw)

end Sys2Proof.Machine
end

