-- ==== Sys2Proof/Machine/Tally.lean ====
section
/-! DEFINITION. The Tally's store, its committed operating time, and records of steward firmware (R464-R470, R473). -/

namespace Sys2Proof.Machine

/-- The records that the MRAM store holds (R464). -/
def tallySlots : Nat := 262144

/-- The 59 bytes of a record that its CRC covers (R464). -/
def TallyRec.front (r : TallyRec) : List Byte :=
  beBytes 8 r.seq ++ beBytes 4 r.pcycle ++ beBytes 5 (r.time / 65536) ++ beBytes 2 (r.time % 65536) ++ beBytes 2 r.srcType
    ++ beBytes 2 r.srcInst ++ beBytes 2 r.event ++ beBytes 1 r.flags ++ beBytes 1 r.seam ++ padTo 32 r.payload

/-- The 64 bytes of a record (R464). -/
def TallyRec.bytes (r : TallyRec) : List Byte :=
  r.front ++ beBytes 4 (crc32 r.front).toNat ++ beBytes 1 (if r.seq / tallySlots % 2 = 0 then 0x5A else 0xA5)

/-- A slot of the store; one never written is blank (R468). -/
def State.tallySlot (s : State) (i : Nat) : MramSlot := s.tallyStore.look .blank i

/-- The record of a sequence number, while the store holds it and it is valid (R464, R473). -/
def State.tallyRecord (s : State) (seq : Nat) : Option TallyRec :=
  match s.tallySlot (seq % tallySlots) with
  | .record r => if r.seq = seq then some r else none
  | _ => none

/-- TLY_OLDEST: the lowest SEQ of a valid record; with none, the SEQ of the next record (log entry 49). -/
def State.tallyOldest (s : State) : Nat :=
  s.tallyStore.foldl (fun (m : Nat) (e : Nat × MramSlot) => match e.2 with | .record r => min m r.seq | _ => m) s.tallySeq

/-- The newest valid SEQ plus 1: where the Tally continues after a scan (R468). -/
def State.tallyNewest (s : State) : Nat :=
  s.tallyStore.foldl (fun (m : Nat) (e : Nat × MramSlot) => match e.2 with | .record r => max m (r.seq + 1) | _ => m) 0

/-- The slots that are torn (R468). -/
def State.tornSlots (s : State) : List Nat :=
  (s.tallyStore.filter fun (e : Nat × MramSlot) => e.2 == .torn).map Prod.fst

/-- Write the oldest buffered record to MRAM. A write that does not verify leaves a torn slot and sets MRAM_FAIL (R468). When records
were lost, the next record carries their count (R465). -/
def State.tallyStep (s : State) (fails : Bool) : State :=
  match s.tallyBuf with
  | [] => s
  | r :: rest =>
    let s : State := { s with
      tallyBuf := rest, tallyStore := s.tallyStore.put .blank (r.seq % tallySlots) (if fails then .torn else .record r) }
    let s := if fails then s.stick uTally Reg.TLY_ERR.MRAM_FAIL else s.bump uTally Reg.TLY_COUNT.WRITTEN
    if s.lostPending = 0 then s
    else { s with lostPending := 0 }.tallyEvent (some uTally) 0x0F 0x02 7 0xFF (payload8 0 (beBytes 8 s.lostPending))

/-- TALLY_WRITE (R465): the Tally writes one record; `fails` says that the write does not verify. -/
def onTallyWrite (fails : Bool) (s : State) : State := s.tallyStep fails

/-- The operating time is committed to MRAM (R466). -/
def State.commitTime (s : State) : State := { s with opCommit := s.opTime }

/-- OPTIME_COMMIT (R466). -/
def onOptimeCommit (s : State) : State := s.commitTime

/-- Empty the buffer (R465, R490). `fuel` bounds the records, those that the writing itself adds among them. -/
def State.tallyFlush : Nat → State → State
  | 0, s => s
  | fuel + 1, s => if s.tallyBuf.isEmpty then s else (s.tallyStep false).tallyFlush fuel

/-- The steward in whose name a write of TLY_WRITE enters a record: the writer, or the holder (R470). -/
def State.recordWriter (s : State) (sender : Sender) : Option UnitId :=
  match sender with
  | .steward n => some (uSteward n.val)
  | _ => s.holder.map uSteward

/-- A GO of TLY_WRITE (R470, R473): the record of steward firmware with TLY_WRITE_DATA as its payload. -/
def State.tlyGo (s : State) (sender : Sender) : State :=
  let event := s.rd uTally Reg.TLY_WRITE.EVENT
  let cat := event / 256
  if !(decide (0x80 ≤ cat) || event == 0x0F01) then s.wr uTally Reg.TLY_WRITE.RESULT 2
  else if 256 ≤ s.tallyBuf.length then s.wr uTally Reg.TLY_WRITE.RESULT 3
  else
    let payload := (List.range 4).flatMap fun w => beBytes 8 (s.rd uTally (Reg.TLY_WRITE_DATA.DATA.ix w))
    let src := if event = 0x0F01 then some uTally else s.recordWriter sender
    let s := s.tallyEvent src cat (event % 256) 7 (s.rd uTally Reg.TLY_WRITE.SEAM) payload false true
    s.wr uTally Reg.TLY_WRITE.RESULT 1

/-- TLY_WRITE (R470): a write of EVENT and SEAM with GO. -/
def onTlyWrite (sender : Sender) (event : BitVec 16) (seam : BitVec 8) (s : State) : State :=
  s.command sender uTally 0x108 fun s =>
    ((s.wr uTally Reg.TLY_WRITE.EVENT event.toNat).wr uTally Reg.TLY_WRITE.SEAM seam.toNat).tlyGo sender

/-! ### The commands as the queue gives them -/

def execTallyWrite (fails : Bool) (s : State) : Answer := s.run (onTallyWrite fails)
def execOptimeCommit (s : State) : Answer := s.run onOptimeCommit
def execTlyWrite (sender : Sender) (event : BitVec 16) (seam : BitVec 8) (s : State) : Answer := s.run (onTlyWrite sender event seam)

end Sys2Proof.Machine
end

