-- ==== Sys2Proof/Machine/Power.lean ====
section
/-! DEFINITION. The power and environment unit: envelopes, P_CORE_W, clocks, the hold-up bank and the environmental monitor
(R474-R481, R485-R488, R491, R509). -/

namespace Sys2Proof.Machine

/-! ### P_AVAIL and P_CORE_W (R475, R476, R478) -/

/-- The good phases. -/
def Power.goodPhases (p : Power) : Nat := ((List.range 12).filter fun i => p.phases.getLsbD i).length

/-- P_AVAIL in mW: 1,100 W in the full envelope, 30 A × VAVG in the others, at most 1,100 W (R474), and 110 W for each good phase when fewer
than ten are good. -/
def Power.availMw (p : Power) : Nat :=
  let base := if p.envelope = 0 then 1100000 else min 1100000 (30 * p.vavg)
  if p.goodPhases < 10 then min base (110000 * p.goodPhases) else base

/-- P_BASE in W. -/
def State.baseW (s : State) : Nat :=
  s.rd uPower (if s.power.envelope = 2 then Reg.PWR_CFG.BASE_SURV else Reg.PWR_CFG.BASE_FULL)

/-- P_CORE_W: ⌊0.92 × P_AVAIL − P_BASE − P_CUT⌋, or 0 if that is negative. -/
def State.coreW (s : State) : Nat := (92 * s.power.availMw - 100000 * (s.baseW + s.power.pCut)) / 100000

/-- P_CORE_W is recomputed, and the Foreman keeps the powered cores within CAP (R245), which the envelope and the number of active cores
change too. -/
def State.newCoreW (s : State) : State :=
  ({ s with power := { s.power with pCore := s.coreW } } : State).applyCap

/-! ### The survival envelope (R475) -/

/-- Does the survival envelope put a tile into retention? -/
def State.survivalRetains (s : State) (t : Nat) : Bool :=
  let u := s.unit (uTile t)
  s.power.envelope == 2 && u.power == .run && !u.fenced && !u.resetting && (s.ckwRuns.look none t).isNone
    && (coresIn (uTile t)).all fun k =>
      let c := s.core k
      (match c.role with | .active | .watch | .promoting => false | _ => true) && c.suspended.isNone && c.wu.isNone

/-- Running tiles that the survival envelope does not need enter retention at once. -/
def State.survivalTiles (s : State) : State :=
  State.each [0, 1, 2, 3] (fun t s => if s.survivalRetains t then s.enterPower (uTile t) .retention else s) s

/-! ### Envelopes (R475, R476) -/

/-- Has a condition that began at a time held for 100 ms? -/
def State.held100 (s : State) (since : Option Nat) : Bool :=
  match since with | some t => decide (t + 100000000 ≤ s.now) | none => false

/-- The envelope after a new VAVG: a lower one as soon as VAVG falls below its upper boundary, a higher one after 100 ms at 1 V above the
boundary. -/
def State.envelopeFor (s : State) : Nat :=
  let p := s.power
  if p.vavg < 18000 then 2
  else if p.vavg < 37000 then (if p.envelope = 2 ∧ !s.held100 p.above19 then 2 else 1)
  else if p.envelope = 0 ∨ s.held100 p.above38 then 0
  else if p.envelope = 2 ∧ !s.held100 p.above19 then 2
  else 1

/-- A time since when a condition has held. -/
def sinceWhen (now : Nat) (holds : Bool) (old : Option Nat) : Option Nat :=
  if holds then (match old with | some t => some t | none => some now) else none

/-- VAVG takes a value, in mV. -/
def State.setVavg (s : State) (mv : Nat) : State :=
  { s with power := { s.power with
      vavg := mv, above19 := sinceWhen s.now (decide (19000 ≤ mv)) s.power.above19,
      above38 := sinceWhen s.now (decide (38000 ≤ mv)) s.power.above38 } }

/-- The module moves to an envelope: P_CORE_W is recomputed, the Tally and the placement trace record it, and the Foreman decides. -/
def State.moveEnvelope (s : State) (e : Nat) : State :=
  let s := ({ s with power := { s.power with envelope := e } } : State).newCoreW
  let data := beBytes 1 e ++ beBytes 2 s.power.pCore
  let s := s.tallyEvent (some uModule) 0x00 0x07 7 0xFF (payload8 0 data)
  let s := (s.trace 0x0C 0xFF 0xFF 0xFF 0xFF 0xFF 0 data).fmnEvent .envelope
  if e = 2 then s.survivalJobs.survivalTiles else s.survivalTiles

/-- ENVELOPE_CHANGE (R475): VAVG reads `vavg` mV. -/
def onEnvelopeChange (vavg : BitVec 16) (s : State) : State :=
  let s := s.setVavg vavg.toNat
  let e := s.envelopeFor
  if e = s.power.envelope then s else s.moveEnvelope e

/-! ### The recomputation every 10 µs, and P_CUT (R476, R477, R486) -/

/-- The bank voltage in mV. -/
def Power.holdMv (p : Power) : Nat := 4 * p.holdV

/-- The charging current in mA that the margin allows: none at 56 V and during a test, else up to 1.5 A (R486; log entry 51). -/
def Power.chargeMa (p : Power) : Nat :=
  if p.testing ∨ p.mode ≠ .on ∨ 56000 ≤ p.holdMv then 0
  else
    let margin := p.availMw - 1000 * p.inW
    if p.holdMv = 0 then (if margin = 0 then 0 else 1500) else min 1500 (margin * 1000 / p.holdMv)

/-- P_CORE_RECOMPUTE (R476): the measured input power reads `inW` W. -/
def onPCoreRecompute (inW : BitVec 16) (s : State) : State :=
  let s : State := { s with power := { s.power with
      inW := inW.toNat, overSince := sinceWhen s.now (decide (s.power.availMw < 1000 * inW.toNat)) s.power.overSince } }
  let s := s.newCoreW
  let ma := s.power.chargeMa
  let s : State := { s with power := { s.power with
      charging := ma, fullSince := if ma = 1500 ∧ s.power.charging ≠ 1500 then s.now else s.power.fullSince } }
  s.survivalTiles

/-- THROT_C: a value outside 60-100 is treated as 90 (R493). -/
def State.throtC (s : State) : Nat :=
  let t := s.rd uPower Reg.PWR_CFG.THROT_C
  if 60 ≤ t ∧ t ≤ 100 then t else 90

/-- The latest code of a channel. -/
def State.sample (s : State) (c : Nat) : Nat := s.power.samples.look 0 c

/-- The channels that measure die temperatures (R491). -/
def dieTemps : List Nat := [17, 18, 19, 20, 21, 22, 23]

/-- Does a die read above a temperature in °C? A code is (°C + 64) × 64. -/
def State.hotterThan (s : State) (c : Nat) : Bool := dieTemps.any fun i => decide (64 * (c + 64) < s.sample i)

/-- A sticky bit is set and reported when it is not set already. -/
def State.stickOnce (s : State) (f : Field) : State := if s.flag uPower f then s else s.stick uPower f

/-- P_CUT_STEP (R477): P_CUT rises while a condition holds, and falls once none has held for 100 ms. `limit` says that the input current
limit is engaged. -/
def onPCutStep (limit : Bool) (s : State) : State :=
  let excess := limit || (match s.power.overSince with | some t => decide (t + 1000000 < s.now) | none => false)
  let hot := s.hotterThan s.throtC
  let s := if excess then s.stickOnce Reg.PWR_ERR.OVERLOAD else s
  let s := if hot then s.stickOnce Reg.PWR_ERR.THERMAL else s
  if excess || hot then
    ({ s with power := { s.power with pCut := min (s.power.pCut + 16) 0xFFFF, lastStress := s.now } } : State).newCoreW
  else if s.power.lastStress + 100000000 ≤ s.now then
    ({ s with power := { s.power with pCut := s.power.pCut - 16 } } : State).newCoreW
  else s

/-! ### Single failures and clocks (R478, R479, R481) -/

/-- PHASE_FAIL: the phase's switch opens. -/
def onPhaseFail (phase : Fin 12) (s : State) : State :=
  if !s.power.phases.getLsbD phase.val then s
  else
    ({ s with power := { s.power with phases := s.power.phases &&& ~~~(BitVec.ofNat 12 (2 ^ phase.val)) } } : State).stick uPower
      Reg.PWR_ERR.PHASE_FAIL

/-- PHASE_CONTROLLER_FAIL: the other controller takes all phases; without one no phase runs (log entry 51). -/
def onPhaseControllerFail (which : Fin 2) (s : State) : State :=
  let left := s.power.controllers &&& ~~~(BitVec.ofNat 2 (2 ^ which.val))
  { s with power := { s.power with controllers := left, phases := if left = 0 then 0 else s.power.phases } }

/-- QUADRANT_SHORT: the quadrant's fuse opens and its three phases are lost. -/
def onQuadrantShort (quadrant : Fin 4) (s : State) : State :=
  { s with power := { s.power with
      fuses := s.power.fuses &&& ~~~(BitVec.ofNat 4 (2 ^ quadrant.val)),
      phases := s.power.phases &&& ~~~(BitVec.ofNat 12 (7 * 2 ^ (3 * quadrant.val))) } }

/-- AO_SUPPLY_LOSS: one of the two always-on regulators is lost. The loss of both is declared under R489. -/
def onAoSupplyLoss (which : Fin 2) (s : State) : State :=
  if !s.power.regulators.getLsbD which.val then s
  else
    ({ s with power := { s.power with regulators := s.power.regulators &&& ~~~(BitVec.ofNat 2 (2 ^ which.val)) } } : State).stick uPower
      Reg.PWR_ERR.AO_SUPPLY

/-- XTAL_FAIL (R481). -/
def onXtalFail (s : State) : State :=
  if s.power.xtalBad then s
  else ({ s with power := { s.power with xtalBad := true } } : State).stick uPower Reg.CLK_STAT.XTAL_FAIL

/-- REF_LOST (R481): every fast PLL loses lock, and the time base stands. -/
def onRefLost (s : State) : State :=
  if s.power.refLost.isSome then s
  else
    let t := s.now
    let s := s.stick uPower Reg.CLK_STAT.REF_LOST
    { s with power := { s.power with refLost := some t } }

/-! ### The hold-up bank (R486-R488) -/

/-- CHARGE_TIMEOUT (R486): not within 1 V of 56 V after 10 s of charging at full current. -/
def onChargeTimeout (s : State) : State :=
  if s.power.charging = 1500 ∧ s.power.fullSince + 10000000000 ≤ s.now ∧ s.power.holdMv < 55000 then s.stickOnce Reg.HLD_ERR.CHARGE_FAIL
  else s

/-- A test of the bank starts (R487). -/
def State.bankTestStart (s : State) : State :=
  if s.power.testing ∨ s.power.mode ≠ .on then s else { s with power := { s.power with testing := true, charging := 0 } }

/-- BANK_TEST (R487): a write of HLD_CFG with TEST. -/
def onBankTest (sender : Sender) (testEn : Bool) (hours : BitVec 8) (s : State) : State :=
  s.command sender uPower 0x0C0 fun s =>
    ((s.wrl uPower Reg.HLD_CFG.TEST_EN (if testEn then 1 else 0)).wrl uPower Reg.HLD_CFG.TEST_HOURS hours.toNat).bankTestStart

/-- Operating seconds since the last test. -/
def State.testAge (s : State) : Nat := (s.opTime - s.power.testedAt) / 65536

/-- TEST_HOURS; 0 is treated as 24 (R493). -/
def State.testHours (s : State) : Nat :=
  let h := s.rd uPower Reg.HLD_CFG.TEST_HOURS
  if h = 0 then 24 else h

/-- BANK_TEST_PERIODIC (R487): due at the end of the first full charge after P, and every TEST_HOURS after a test. -/
def onBankTestPeriodic (s : State) : State :=
  let due := if s.power.tested then s.flag uPower Reg.HLD_CFG.TEST_EN && decide (3600 * s.testHours ≤ s.testAge)
    else decide (55000 ≤ s.power.holdMv)
  if due then s.bankTestStart else s

/-- BANK_TEST_DONE (R487): the capacitance in µF and the ESR in mΩ that the test has found. -/
def onBankTestDone (c : BitVec 24) (esr : BitVec 16) (s : State) : State :=
  if !s.power.testing then s
  else
    let s := (s.wr uPower Reg.HLD_TEST.C_UF c.toNat).wr uPower Reg.HLD_TEST.ESR_MOHM esr.toNat
    let s : State := { s with power := { s.power with testing := false, tested := true, testedAt := s.opTime } }
    if c.toNat < 10000 ∨ 200 < esr.toNat then s.stick uPower Reg.HLD_ERR.TEST_FAIL else s

/-- E_USABLE in mJ: C / 2 × (V² − (20 V + ESR × 8 A)²), or 0 where that is negative (R488). -/
def usableMj (cUf esrMohm vMv : Nat) : Nat := cUf * (vMv ^ 2 - (20000 + 8 * esrMohm) ^ 2) / 2000000000

/-- ENERGY_RECOMPUTE (R488): VHOLD reads `v` in units of 4 mV. -/
def onEnergyRecompute (v : BitVec 16) (s : State) : State :=
  let e := usableMj (s.rd uPower Reg.HLD_TEST.C_UF) (s.rd uPower Reg.HLD_TEST.ESR_MOHM) (4 * v.toNat)
  { s with power := { s.power with
      holdV := v.toNat, eMj := e, enough := s.power.tested && decide (s.rd uPower Reg.HLD_MIN.MIN_MJ ≤ e) } }

/-! ### The environmental monitor (R491, R509) -/

/-- Channels that cannot be disabled. -/
def fixedChannel (c : Nat) : Bool := c == 0 || c == 1 || c == 3 || c == 4 || (decide (17 ≤ c) && decide (c ≤ 25))

/-- ENV_SAMPLE (R491): an enabled channel is sampled; outside its limits its ENV_ALARM bit is set, and a bit that becomes 1 is a corrected
report (R509). Codes are compared as unsigned numbers (log entry 51). -/
def onEnvSample (channel : Fin 32) (code : BitVec 14) (s : State) : State :=
  let c := channel.val
  if !(fixedChannel c || s.bitOf uPower Reg.ENV_EN.EN c) then s
  else
    let s : State := { s with power := { s.power with
        samples := s.power.samples.put 0 c code.toNat, holdV := if c = 3 then code.toNat else s.power.holdV } }
    let out := decide (code.toNat < s.rd uPower (Reg.ENV_LIMIT.LOW.ix c)) || decide (s.rd uPower (Reg.ENV_LIMIT.HIGH.ix c) < code.toNat)
    if out && !s.bitOf uPower Reg.ENV_ALARM.ALARM c then
      (s.setBit uPower Reg.ENV_ALARM.ALARM c true).raise uPower (sourceIndex uPower Reg.ENV_ALARM.ALARM) none code.toNat
    else s

/-! ### The commands as the queue gives them -/

def execEnvelopeChange (vavg : BitVec 16) (s : State) : Answer := s.run (onEnvelopeChange vavg)
def execPCoreRecompute (inW : BitVec 16) (s : State) : Answer := s.run (onPCoreRecompute inW)
def execPCutStep (limit : Bool) (s : State) : Answer := s.run (onPCutStep limit)
def execPhaseFail (phase : Fin 12) (s : State) : Answer := s.run (onPhaseFail phase)
def execAoSupplyLoss (which : Fin 2) (s : State) : Answer := s.run (onAoSupplyLoss which)
def execXtalFail (s : State) : Answer := s.run onXtalFail
def execRefLost (s : State) : Answer := s.run onRefLost
def execBankTest (sender : Sender) (testEn : Bool) (hours : BitVec 8) (s : State) : Answer := s.run (onBankTest sender testEn hours)
def execBankTestPeriodic (s : State) : Answer := s.run onBankTestPeriodic
def execBankTestDone (c : BitVec 24) (esr : BitVec 16) (s : State) : Answer := s.run (onBankTestDone c esr)
def execEnergyRecompute (v : BitVec 16) (s : State) : Answer := s.run (onEnergyRecompute v)
def execChargeTimeout (s : State) : Answer := s.run onChargeTimeout
def execEnvSample (channel : Fin 32) (code : BitVec 14) (s : State) : Answer := s.run (onEnvSample channel code)
def execPhaseControllerFail (which : Fin 2) (s : State) : Answer := s.run (onPhaseControllerFail which)
def execQuadrantShort (quadrant : Fin 4) (s : State) : Answer := s.run (onQuadrantShort quadrant)

end Sys2Proof.Machine
end

