-- ==== Sys2Proof/Machine/PageRead.lean ====
section
/-! DEFINITION. Reading the control window and the seam pages (R5-R8, R28, R44, R45): a stored field reads as it is stored, and the
fields with the Reset hw show the state of the hardware. -/

namespace Sys2Proof.Machine

/-- Bits of a register word as hardware shows them. -/
def showAt (f : Field) (v : Nat) (w : Word) : Word := w.setField f.lo f.hi v
def showBit (f : Field) (b : Bool) (w : Word) : Word := w.setField f.lo f.hi (if b then 1 else 0)

/-- Eight bits of a register, bit `i` from its most significant side, as a number of `n` bits. -/
def bitWord (n : Nat) (p : Nat → Bool) : Nat := (List.range n).foldl (fun a i => a * 2 + if p i then 1 else 0) 0

/-- Doubleword `i` of a list of bytes, zero past its end. -/
def doublewordOf (l : List Byte) (i : Nat) : Nat := beNat (padTo 8 (l.drop (8 * i)))

/-! ### State codes -/

/-- ROLE (R212). -/
def Role.code : Role → Nat
  | .active => 0 | .pawn => 1 | .promoting => 2 | .watch => 3 | .failed => 4 | .fenced => 5 | .unassigned => 6

/-- STATE of HLR_STAT (R379). -/
def HState.code : HState → Nat
  | .halted => 0 | .running => 1 | .wfe => 2 | .trapped => 3 | .faulted => 4 | .loading => 5 | .clearing => 6 | .march => 7

/-- STATE of ENT_STAT (R427). -/
def EntState.code : EntState → Nat
  | .starting => 0 | .healthy => 1 | .failed => 2 | .raw => 3

/-- PHASE of CKW_CMD (R203, R207, R213): drain while a rotation's source still holds its work, then by the time since START and the maximum
time of each phase (log entry 105). A rotation copies only where its source has failed, and a relocation does nothing else. -/
def State.ckwPhase (s : State) (t : Nat) : Nat :=
  match s.ckwRuns.look none t with
  | none => 0
  | some r =>
    let us := (s.now - r.started) / 1000
    let src := s.core (slotCore t r.src)
    if r.op = 3 then 5
    else if r.op = 2 ∧ src.wu.isSome ∧ src.role ≠ .failed then 1
    else if us < 25 then 2
    else if us < 105 then 3
    else if us < 305 then 4
    else if (r.op = 1 ∨ src.role = .failed) ∧ us < 330 then 5
    else 6

/-- PHASE of MEM_TRAIN (R295, R297), from the time since the start by the maximum time of each phase (log entry 55). -/
def State.trainPhase (s : State) (ch : Nat) : Nat :=
  match s.trainRun ch with
  | some (1, start) =>
    let us := (s.now - start) / 1000
    if us < 2000 then 1 else if us < 7000 then 2 else if us < 8000 then 3 else if us < 88000 then 4 else 5
  | _ => 0

/-- ROLE of STW_STAT (R447). -/
def State.stwRole (s : State) (n : Nat) : Nat :=
  match (s.stw n).boot with
  | .rom => 0
  | .halted => 3
  | .running => if s.holder = some n then 1 else 2

/-! ### Fields of the pages -/

/-- Core page (R165, R212). -/
def State.coreHw (s : State) (k off : Nat) (w : Word) : Word :=
  if off = Reg.L2_PRELOAD_CTL.BUSY.off then showBit Reg.L2_PRELOAD_CTL.BUSY (s.preloading (.l2 k)) w
  else if off = Reg.CKW_STAT.ROLE.off then showAt Reg.CKW_STAT.ROLE (s.core k).role.code w
  else if off = Reg.CKW_RETRY.IN_WINDOW.off then showAt Reg.CKW_RETRY.IN_WINDOW (min 16 (s.mismatchesNow k).length) w
  else if off = Reg.CKW_CKPT.SEQ.off then showAt Reg.CKW_CKPT.SEQ (s.core k).ckpt.seq w
  else w

/-- L3 slice page (R166). -/
def State.l3Hw (s : State) (i off : Nat) (w : Word) : Word :=
  if off = Reg.L3_PRELOAD_CTL.BUSY.off then showBit Reg.L3_PRELOAD_CTL.BUSY (s.preloading (.l3 i)) w
  else if off = Reg.L3_FLUSH.BUSY.off then showBit Reg.L3_FLUSH.BUSY (s.sweeping i) w
  else w

/-- The module granule in a local slot of a channel (R280, R281). -/
def State.granuleIn (s : State) (c slot : Nat) : Nat :=
  match s.remap.find? fun e => e.1 / 2048 == c && e.2.v && !e.2.flip && e.2.slot == slot with
  | some e => e.2.gran
  | none => s.granule (if s.mirrored then c % 8 else c) slot

/-- Home agent page (R188, R274, R298). -/
def State.homeHw (s : State) (c off : Nat) (w : Word) : Word :=
  let entries := (s.remap.filter fun e => e.1 / 2048 == c && e.2.v).map Prod.snd
  if off = Reg.HOME_QSTAT.OCC.off then
    showAt Reg.HOME_QSTAT.OCC (s.homeQueue.filter fun r => s.homeAgent r.line == some c).length w
  else if off = Reg.DIR_OCC.VALID.off then showAt Reg.DIR_OCC.VALID (s.dir.filter fun e => e.1 / 524288 == c).length w
  else if off = Reg.HOME_GRAN_OWNER.OWNER.off then
    showAt Reg.HOME_GRAN_OWNER.OWNER (s.ownerOf (s.granuleIn c (s.rd (uHome c) Reg.HOME_GRAN_SEL.SEL))) w
  else if off = Reg.MEM_REMAP.V.off then
    let e := s.remap.look Remap.none (c * 2048 + s.rd (uHome c) Reg.MEM_REMAP_SEL.IDX)
    if e.v then
      showBit Reg.MEM_REMAP.V true (showBit Reg.MEM_REMAP.KIND e.flip
        (showAt Reg.MEM_REMAP.MGRAN e.gran (showAt Reg.MEM_REMAP.SLOT (if e.flip then 0 else e.slot) w)))
    else w
  else if off = Reg.MEM_REMAP_CNT.GUEST_N.off then
    showAt Reg.MEM_REMAP_CNT.GUEST_N (entries.filter fun e => !e.flip).length
      (showAt Reg.MEM_REMAP_CNT.FLIP_N (entries.filter fun e => e.flip).length w)
  else w

/-- Tile page (R213). -/
def State.tileHw (s : State) (t off : Nat) (w : Word) : Word :=
  let role (n : Nat) : Role := (s.core (slotCore t n)).role
  if off = Reg.CKW_SLOTS.PAWN.off then
    showAt Reg.CKW_SLOTS.PAWN (bitWord 12 fun n => role n == .pawn)
      (showAt Reg.CKW_SLOTS.ACTIVE ((List.range 12).filter fun n => role n == .active || role n == .watch).length w)
  else if off = Reg.CKW_CMD.BUSY.off then
    showBit Reg.CKW_CMD.BUSY (s.ckwRuns.look none t).isSome (showAt Reg.CKW_CMD.PHASE (s.ckwPhase t) w)
  else w

/-- Microcode store page (R225). -/
def State.mcsHw (s : State) (k off : Nat) (w : Word) : Word :=
  if off = Reg.MCS_STAT.STALE.off then showBit Reg.MCS_STAT.STALE (s.patchDue.look 0 k != 0) w
  else if off = Reg.MCS_ROM.ROM_ID.off then showAt Reg.MCS_ROM.ROM_ID romId w
  else w

/-- The certificate and the public device key (R422, R428): Qx, then Qy. -/
def devicePublic : List Byte :=
  let q := p384.mul (Config.deviceKey % p384.n) p384.base
  natBytes 48 (p384.affineX q) ++ natBytes 48 (p384.affineY q)

/-- Service die page (R226, R428, R448). -/
def State.svcHw (s : State) (off : Nat) (w : Word) : Word :=
  let ix (f : Field) : Nat := (off - f.off) / 8
  if off = Reg.MCS_LDR_CTL.BUSY.off then
    showBit Reg.MCS_LDR_CTL.BUSY s.mcsRun.isSome (showAt Reg.MCS_LDR_CTL.PENDING s.mcsPending.length w)
  else if Reg.MCS_KEYHASH.KEYHASH.off ≤ off ∧ off < Reg.MCS_KEYHASH.KEYHASH.off + 48 then Config.mcsKeyHash (ix Reg.MCS_KEYHASH.KEYHASH)
  else if off = Reg.ATT_CTL.BUSY.off then showBit Reg.ATT_CTL.BUSY s.att.isSome w
  else if Reg.ATT_LOG.WORD.off ≤ off ∧ off < Reg.ATT_LOG.WORD.off + 128 then
    BitVec.ofNat 64 (doublewordOf (s.attLog.look [] (s.rd uSvcDie Reg.ATT_LOG_SEL.IDX)) (ix Reg.ATT_LOG.WORD))
  else if Reg.ATT_PUB.PUB.off ≤ off ∧ off < Reg.ATT_PUB.PUB.off + 96 then
    BitVec.ofNat 64 (doublewordOf devicePublic (ix Reg.ATT_PUB.PUB))
  else if off = Reg.ATT_CERT_LEN.LEN.off then showAt Reg.ATT_CERT_LEN.LEN certBytes.length w
  else if off = Reg.ATT_CERT_DATA.DATA.off then BitVec.ofNat 64 (doublewordOf certBytes (s.rd uSvcDie Reg.ATT_CERT_SEL.IDX))
  else if Reg.STW_FWKEYHASH.KEYHASH.off ≤ off ∧ off < Reg.STW_FWKEYHASH.KEYHASH.off + 48 then
    Config.fwKeyHash (ix Reg.STW_FWKEYHASH.KEYHASH)
  else w

/-- Foreman page (R253, R254). -/
def State.foremanHw (s : State) (off : Nat) (w : Word) : Word :=
  if off = Reg.FMN_ENV.ENVELOPE.off then
    showAt Reg.FMN_ENV.ENVELOPE s.power.envelope (showAt Reg.FMN_ENV.CAP s.capNow (showAt Reg.FMN_ENV.P_CORE_W s.power.pCore
      (showAt Reg.FMN_ENV.POWERED s.poweredCores
        (showAt Reg.FMN_ENV.BUSY_CORES (allCores.filter fun k => (s.core k).wu.isSome).length w))))
  else if off = Reg.FMN_LIVE.LIVE.off then
    showAt Reg.FMN_LIVE.LIVE s.wus.length (showAt Reg.FMN_LIVE.SPILL s.spilled.length w)
  else if off = Reg.FMN_EVICT.BUSY.off then showBit Reg.FMN_EVICT.BUSY s.evict.isSome w
  else if 0x400 ≤ off ∧ off < 0xC00 ∧ (off - 0x400) % 0x20 = 0x10 then
    let n := (off - 0x400) / 0x20
    showAt Reg.FMN_SEAM_STAT.RUNNING (allCores.filter fun k => s.coreSeam k == some n).length
      (showAt Reg.FMN_SEAM_STAT.LIVE (s.wus.filter fun e => e.2.seam == n).length
        (showAt Reg.FMN_SEAM_STAT.READY (s.readyOf n).length w))
  else w

/-- Bit `n` of a word that has one bit for each seam. -/
def seamBits (p : Nat → Bool) : Word := BitVec.ofNat 64 (bitWord 64 p)

/-- Exchange contexts that no seam is allotted (R272). -/
def State.freeContexts (s : State) : Nat := 262144 - sumOf programSeams fun n => s.rd uSeamCtl (Reg.SEAM_QUOTA.CTX.ix n)

/-- Seam controller page (R272, R273). Seam 0 reads as always built, with nothing else in force. -/
def State.seamCtlHw (s : State) (off : Nat) (w : Word) : Word :=
  if off = Reg.SEAM_CMD.BUSY.off then showBit Reg.SEAM_CMD.BUSY s.seamCmd.isSome w
  else if off = Reg.SEAM_FREE.FREE_GRAN.off then
    showAt Reg.SEAM_FREE.FREE_GRAN s.freeGranules (showAt Reg.SEAM_FREE.FREE_CTX s.freeContexts w)
  else if off = Reg.SEAM_SEALED.SEALED.off then seamBits fun n => s.sealed n
  else if off = Reg.SEAM_TIMING.TIMING_OK.off then seamBits fun n => s.timingOk.look false n
  else if off = Reg.SEAM_CHKSTOP.CHKSTOP.off then seamBits fun n => n != 0 && s.seamState n == 3
  else if 0x100 ≤ off ∧ off < 0xD00 ∧ (off - 0x100) % 0x30 = 0 then
    let n := (off - 0x100) / 0x30
    if n = 0 then s.seamStateWord 0 else showBit Reg.SEAM_STATE.TIMING_OK (s.timingOk.look false n) w
  else w

/-- Memory channel page (R297). -/
def State.memHw (s : State) (c off : Nat) (w : Word) : Word :=
  if off = Reg.MEM_TRAIN.BUSY.off then
    showBit Reg.MEM_TRAIN.BUSY (s.trainRun c).isSome (showAt Reg.MEM_TRAIN.PHASE (s.trainPhase c) w)
  else if off = Reg.MEM_LAT.READ_CLK.off then
    showAt Reg.MEM_LAT.READ_CLK (s.rd (uMem c) Reg.MEM_CFG.RL + 14) (showAt Reg.MEM_LAT.WRITE_CLK (s.rd (uMem c) Reg.MEM_CFG.WL + 12) w)
  else if off = Reg.MEM_CAP.SLOTS.off then
    showAt Reg.MEM_CAP.SLOTS (s.capacity c) (showAt Reg.MEM_CAP.MAPPED (s.mappedOn c)
      (showAt Reg.MEM_CAP.GUESTS (s.remap.filter fun e => e.1 / 2048 == c && e.2.v && !e.2.flip).length w))
  else w

/-- Is the personality group whose first lane is `lane` unusable (R324)? -/
def State.groupUnusable (s : State) (lane : Nat) : Bool := (s.widthAt lane).isSome && !(s.link lane).up

/-- Exchange context store page (R324). -/
def State.ctxHw (s : State) (d off : Nat) (w : Word) : Word :=
  if off = Reg.CHS_STAT.IN_USE.off then showAt Reg.CHS_STAT.IN_USE (s.heldIn d) w
  else if off = Reg.CHS_PEER.PEER.off then
    let unpaired := (s.exchanges.filter fun e => exDie e.1 == d && !e.2.paired).length
    showAt Reg.CHS_PEER.PEER (s.peers.filter fun e => e.1 / 262144 == d).length
      (showAt Reg.CHS_PEER.UNPAIRED unpaired w)
  else if off = Reg.CHS_PATH_DOWN.DOWN.off then seamBits fun n => s.groupUnusable (64 * d + n)
  else w

/-- The header that slot `i` of a bank holds; a slot that has held nothing reads 0 (R327, R344; log entry 55). -/
def State.entryHeader (s : State) (d i : Nat) : List Byte :=
  let e := s.jslot d i
  if e = JEntry.none then List.replicate 128 0 else e.bytes (s.payload d e)

/-- Journal bank page (R344). -/
def State.bankHw (s : State) (d off : Nat) (w : Word) : Word :=
  let mine := (s.jslots.filter fun e => e.1 / 16384 == d && e.2.used).map Prod.snd
  if off = Reg.JNL_STAT.ENTRIES.off then
    showAt Reg.JNL_STAT.ENTRIES (s.bankEntries d) (showAt Reg.JNL_STAT.PAGES (mine.flatMap fun e => e.pages).eraseDups.length
      (showAt Reg.JNL_STAT.HELD (mine.filter fun e => e.marked && e.held).length (showBit Reg.JNL_STAT.AVAIL (s.bankAvail d) w)))
  else if off = Reg.JNL_NEXT.NEXT.off then BitVec.ofNat 64 s.jnext
  else if off = Reg.JNL_CMD.BUSY.off then
    showBit Reg.JNL_CMD.BUSY (match s.jcmd with | some (_, _, b) => b == d | none => false) w
  else if Reg.JNL_ENT.WORD.off ≤ off ∧ off < Reg.JNL_ENT.WORD.off + 128 then
    BitVec.ofNat 64 (doublewordOf (s.entryHeader d (s.rd (uBank d) Reg.JNL_ENT_SEL.IDX)) ((off - Reg.JNL_ENT.WORD.off) / 8))
  else w

/-- Drain store page (R345). -/
def State.drainHw (s : State) (d off : Nat) (w : Word) : Word :=
  if off = Reg.DRN_STAT.IMAGE.off then
    let code := match s.images.look none d with | none => 0 | some m => if m.whole then 1 else 2
    let n := match s.images.look none d with | none => 0 | some m => m.entries.length
    showAt Reg.DRN_STAT.IMAGE code (showBit Reg.DRN_STAT.DRAINING (s.draining.look false d) (showAt Reg.DRN_STAT.ENTRIES n w))
  else if off = Reg.DRN_IMAGE.PCYCLE.off then
    match s.images.look none d with
    | none => w
    | some m => showAt Reg.DRN_IMAGE.PCYCLE m.pcycle (showAt Reg.DRN_IMAGE.BYTES m.size w)
  else w

/-- Hauler page (R379). -/
def State.haulerHw (s : State) (h off : Nat) (w : Word) : Word :=
  if off = Reg.HLR_STAT.STATE.off then
    showAt Reg.HLR_STAT.STATE (s.hauler h).mode.code (showAt Reg.HLR_STAT.PC (s.hauler h).pc.toNat w)
  else if off = Reg.PIT_DATA.DATA.off ∧ s.powered (uHauler h) then
    showAt Reg.PIT_DATA.DATA (s.pitWord h (s.rd (uHauler h) Reg.PIT_SEL.ADDR)).toNat w
  else w

/-- I/O die page (R380). -/
def State.iodieHw (s : State) (d off : Nat) (w : Word) : Word :=
  if off = Reg.MCH_CMD.BUSY.off then showBit Reg.MCH_CMD.BUSY (s.marchRuns.look none d).isSome w
  else if off = Reg.MCH_STAT.ELEMENT.off then showAt Reg.MCH_STAT.ELEMENT (s.marchElement d) w
  else if off = Reg.HLR_IMG_CTL.BUSY.off then showBit Reg.HLR_IMG_CTL.BUSY (s.loadRuns.look none d).isSome w
  else w

/-- Channel lane group page (R401). -/
def State.laneHw (s : State) (q off : Nat) (w : Word) : Word :=
  let f := Reg.LNK_STAT.UP
  if f.off ≤ off ∧ off < f.off + 32 then
    let l := s.link (4 * q + (off - f.off) / 8)
    showBit Reg.LNK_STAT.UP l.up (showBit Reg.LNK_STAT.DEGRADED (l.up && l.degraded)
      (showAt Reg.LNK_STAT.RATE (if l.up then l.rate else 0) w))
  else w

/-- Coupling lane group page (R402). -/
def State.cplHw (s : State) (g off : Nat) (w : Word) : Word :=
  let c := s.cpl g
  if off = Reg.CPL_LINK.UP.off then
    let peer := match s.memberAt g with | some m => m | none => 0
    showBit Reg.CPL_LINK.UP c.up (showBit Reg.CPL_LINK.DEGRADED c.halfRate (showAt Reg.CPL_LINK.PEER peer
      (showAt Reg.CPL_LINK.PEER_GROUP c.peerGroup (showAt Reg.CPL_LINK.PEER_LOT c.peerLot w))))
  else if off = Reg.CPL_CREDIT.CREDITS.off then
    BitVec.ofNat 64 ((List.range 4).foldl (fun a v => a * 65536 + min 65535 (c.credits.look 0 v)) 0)
  else w

/-- Module page (R403). -/
def State.moduleHw (s : State) (off : Nat) (w : Word) : Word :=
  if off = Reg.CPL_CX.INDEX.off then
    if s.present uComplex then
      showAt Reg.CPL_CX.INDEX (match s.ownIndex with | some i => i | none => 0)
        (showAt Reg.CPL_CX.MEMBERS s.complex.lots.length (showAt Reg.CPL_CX.SLOT (slotNumber uComplex) w))
    else w
  else if off = Reg.CPL_PEERCOPY.COPIES.off then
    BitVec.ofNat 64 ((List.range 4).foldl (fun a m => a * 65536 + (s.copiesOf m).length) 0)
  else w

/-- Pages of the engines (R426). -/
def State.engineHw (s : State) (e : EngineId) (off : Nat) (w : Word) : Word :=
  let x := s.engine e
  if off = Reg.ENG_STAT.SEAM_NOW.off then
    showAt Reg.ENG_STAT.SEAM_NOW (match x.seamNow with | some n => n | none => 0xFF) (showAt Reg.ENG_STAT.QUANTUM x.quantum w)
  else w

/-- Entropy source page (R427). -/
def State.entropyHw (s : State) (off : Nat) (w : Word) : Word :=
  if off = Reg.ENT_CTL.BUSY.off then showBit Reg.ENT_CTL.BUSY s.entropy.busy.isSome w
  else if off = Reg.ENT_STAT.STATE.off then showAt Reg.ENT_STAT.STATE s.entropy.state.code w
  else if off = Reg.ENT_RAW.RAW.off then (if s.entropy.state = .raw then s.entropy.raw else 0)
  else if Reg.ENT_INST.INST.off ≤ off ∧ off < Reg.ENT_INST.INST.off + 512 then
    let n := (off - Reg.ENT_INST.INST.off) / 8
    showAt Reg.ENT_INST.INST (bitWord 8 fun i => (s.drbgOf n i).isSome) w
  else w

/-- Steward page (R447). -/
def State.stewardHw (s : State) (n off : Nat) (w : Word) : Word :=
  let t := s.stw n
  if off = Reg.STW_STAT.ROLE.off then
    showAt Reg.STW_STAT.ROLE (s.stwRole n) (showBit Reg.STW_STAT.SLOT t.slotB (showBit Reg.STW_STAT.PEER_SYNC t.peerSync
      (showAt Reg.STW_STAT.BOOT_RESULT t.bootResult (showAt Reg.STW_STAT.FW_GEN t.fwGen w))))
  else if off = Reg.STW_REPL_CTL.BUSY.off then showBit Reg.STW_REPL_CTL.BUSY t.repl.isSome w
  else if off = Reg.STW_PEERSTORE.VALID0.off then s.peerStoreWord n
  else if Reg.STW_FWDIGEST.DIGEST.off ≤ off ∧ off < Reg.STW_FWDIGEST.DIGEST.off + 48 then
    BitVec.ofNat 64 (doublewordOf t.digest ((off - Reg.STW_FWDIGEST.DIGEST.off) / 8))
  else w

/-- Cube arbiter page (R448). -/
def State.cubeHw (s : State) (off : Nat) (w : Word) : Word :=
  if off = Reg.CUBE_STAT.PEND.off then showAt Reg.CUBE_STAT.PEND (bitWord 2 s.requestPends) w
  else if off = Reg.CUBE_REMAIN.REMAIN_US.off then showAt Reg.CUBE_REMAIN.REMAIN_US s.remainUs w
  else w

/-- Root page (R472): the oldest notice and the selected canary slot. A sealed part is never in test mode (R463). -/
def State.rootHw (s : State) (off : Nat) (w : Word) : Word :=
  if off = Reg.FLT_NOTICE.VALID.off then
    match s.notices.head? with
    | none => w
    | some n =>
      showBit Reg.FLT_NOTICE.VALID true (showAt Reg.FLT_NOTICE.CLASS n.cls (showAt Reg.FLT_NOTICE.SLOT n.slot
        (showAt Reg.FLT_NOTICE.TYPE n.type (showAt Reg.FLT_NOTICE.INST n.inst (showAt Reg.FLT_NOTICE.INDEX n.index
          (showAt Reg.FLT_NOTICE.SEAM n.seam w))))))
  else if off = Reg.FLT_NOTICE_SEQ.SEQ.off then
    match s.notices.head? with | none => w | some n => BitVec.ofNat 64 n.seq
  else if off = Reg.FLT_CANARY.PENDING.off then seamBits fun i => (s.canaries.look none i).isSome
  else if off = Reg.FLT_CANARY_STAT.CLASS.off then
    match s.canaries.look none (s.rd uRoot Reg.FLT_CANARY_SEL.SEL) with
    | none => w
    | some c =>
      showAt Reg.FLT_CANARY_STAT.CLASS c.cls (showAt Reg.FLT_CANARY_STAT.RUNG c.rung
        (showAt Reg.FLT_CANARY_STAT.TYPE c.src.type.code (showAt Reg.FLT_CANARY_STAT.INST c.src.inst
          (showAt Reg.FLT_CANARY_STAT.REMAIN_US ((c.expiry - s.now + 999) / 1000) w))))
  else w

/-- Tally page (R473). -/
def State.tallyHw (s : State) (off : Nat) (w : Word) : Word :=
  let rec_ := s.tallyRecord (s.rd uTally Reg.TLY_SEL.SEQ)
  if off = Reg.TLY_NEXT.NEXT.off then BitVec.ofNat 64 s.tallySeq
  else if off = Reg.TLY_OLDEST.OLDEST.off then BitVec.ofNat 64 s.tallyOldest
  else if off = Reg.TLY_PCYCLE.PCYCLE.off then showAt Reg.TLY_PCYCLE.PCYCLE s.pcycle w
  else if off = Reg.TLY_OPTIME.SECONDS.off then
    showAt Reg.TLY_OPTIME.SECONDS (s.opTime / 65536) (showAt Reg.TLY_OPTIME.FRACTION (s.opTime % 65536) w)
  else if off = Reg.TLY_COMMIT.SECONDS.off then showAt Reg.TLY_COMMIT.SECONDS (s.opCommit / 65536) w
  else if off = Reg.TLY_SEL_STAT.VALID.off then showBit Reg.TLY_SEL_STAT.VALID rec_.isSome w
  else if Reg.TLY_REC.WORD.off ≤ off ∧ off < Reg.TLY_REC.WORD.off + 64 then
    match rec_ with
    | some r => BitVec.ofNat 64 (doublewordOf r.bytes ((off - Reg.TLY_REC.WORD.off) / 8))
    | none => w
  else w

/-- Power and environment page (R493). -/
def State.powerHw (s : State) (off : Nat) (w : Word) : Word :=
  let p := s.power
  if off = Reg.PWR_STAT.ENVELOPE.off then
    showAt Reg.PWR_STAT.ENVELOPE p.envelope (showAt Reg.PWR_STAT.P_AVAIL_W (p.availMw / 1000)
      (showAt Reg.PWR_STAT.P_CORE_W p.pCore (showAt Reg.PWR_STAT.P_IN_W p.inW w)))
  else if off = Reg.PWR_PHASE.PHASE_OK.off then
    showAt Reg.PWR_PHASE.PHASE_OK (bitWord 12 fun k => p.phases.getLsbD k && p.controllers != 0) (showAt Reg.PWR_PHASE.P_CUT_W p.pCut w)
  else if off = Reg.PWR_CMD.BUSY.off then showBit Reg.PWR_CMD.BUSY p.cmdBusy w
  else if off = Reg.CLK_STAT.SOURCE.off then
    showAt Reg.CLK_STAT.SOURCE (if !p.xtalBad then 0 else if p.refLost.isNone then 1 else 2) w
  else if off = Reg.HLD_STAT.V_MV.off then
    showAt Reg.HLD_STAT.V_MV p.holdV (showAt Reg.HLD_STAT.E_MJ (min 65535 p.eMj) (showBit Reg.HLD_STAT.ENOUGH p.enough
      (showBit Reg.HLD_STAT.CHARGING (p.charging != 0) (showBit Reg.HLD_STAT.TESTING p.testing w))))
  else if off = Reg.HLD_TEST.AGE_S.off then showAt Reg.HLD_TEST.AGE_S s.testAge w
  else if off = Reg.ENV_EN.EN.off then w ||| showAt Reg.ENV_EN.EN (bitWord 32 fixedChannel) 0
  else if Reg.ENV_DATA.CODE.off ≤ off ∧ off < Reg.ENV_DATA.CODE.off + 256 then
    showAt Reg.ENV_DATA.CODE (s.sample ((off - Reg.ENV_DATA.CODE.off) / 8)) w
  else w

/-- The fields of a page at 0x080 and above that show hardware state, laid over the stored ones. -/
def State.hwFields (s : State) (u : UnitId) (off : Nat) (w : Word) : Word :=
  match u.type with
  | .module => s.moduleHw off w
  | .complex => if off = Reg.CPL_RA_CTL.BUSY.off then showBit Reg.CPL_RA_CTL.BUSY s.complex.access.isSome w else w
  | .tile => s.tileHw u.inst off w
  | .core => s.coreHw u.inst off w
  | .lane => w
  | .l3 => s.l3Hw u.inst off w
  | .mcs => s.mcsHw u.inst off w
  | .ring =>
    if off = Reg.SHF_TCC_STAT.OPEN.off then
      showAt Reg.SHF_TCC_STAT.OPEN (s.tileTrans.filter fun x => x.tile == u.inst).length w
    else w
  | .foreman => s.foremanHw off w
  | .iodie => s.iodieHw u.inst off w
  | .memch => s.memHw u.inst off w
  | .home => s.homeHw u.inst off w
  | .hauler => s.haulerHw u.inst off w
  | .lanegrp => s.laneHw u.inst off w
  | .cplgrp => s.cplHw u.inst off w
  | .jbank => s.bankHw u.inst off w
  | .crusher => if h : u.inst < 4 then s.engineHw (.crusher ⟨u.inst, h⟩) off w else w
  | .cipher => if h : u.inst < 8 then s.engineHw (.cipher ⟨u.inst, h⟩) off w else w
  | .ctxstore => s.ctxHw u.inst off w
  | .drain => s.drainHw u.inst off w
  | .svcdie => s.svcHw off w
  | .steward => s.stewardHw u.inst off w
  | .cube => s.cubeHw off w
  | .node => if u.inst = 6 then s.rootHw off w else w
  | .tally => s.tallyHw off w
  | .power => s.powerHw off w
  | .entropy => s.entropyHw off w
  | .seamctl => s.seamCtlHw off w

/-- A word of the page of a unit that reads off (R28): fields kept across O, sticky fields and hardware state as they are, every other
field at its Reset value. -/
def offWord (rows : List Row) (off : Nat) (w : Word) : Word :=
  (rowsAt rows off).foldl (fun a r =>
    if r.kept / codeO % 2 = 1 ∨ r.access = .rs ∨ r.kind = .hw then a else a.setField r.field.lo r.field.hi r.reset) w

/-- An entry of the child list of a unit's page (R38), at an offset. -/
def State.listWord (s : State) (u : UnitId) (off : Nat) : Option Word :=
  if u.type = .complex then
    if 0x100 ≤ off ∧ off < 0x100 + 8 * s.complex.lots.length then some (s.memberEntry ((off - 0x100) / 8)) else none
  else
    let at_ := childListAt u
    if at_ ≤ off ∧ off < at_ + 8 * u.children.length then (u.children[(off - at_) / 8]?).map s.childEntry else none

/-- The doubleword at an offset of a unit page as a read sees it (R28, R34, R38). -/
def State.readWord (s : State) (u : UnitId) (off : Nat) : Word :=
  if off < 0x80 then s.headerWord u off
  else match s.listWord u off with
    | some w => w
    | none =>
      let w := s.word u off
      s.hwFields u off (if s.powerCode u = 2 then offWord (pageRows u) off w else w)

/-- A read of an aligned doubleword of a unit page by a requester (R28, R29): the doubleword, or none with an error response. -/
def State.pageRead (s : State) (u : UnitId) (off : Nat) (who : Option UnitId := none) : State × Option Word :=
  if !s.present u ∨ 4096 ≤ off ∨ off % 8 ≠ 0 ∨ !pageDefines u off ∨ (0x80 ≤ off ∧ s.powerCode u = 6) then (s.accessError u off who, none)
  else (s, some (s.readWord u off))

/-! ### The seam page (R44, R45, R275) -/

/-- The doubleword at an offset of the page of seam `n`. -/
def State.seamPageWord (s : State) (n off : Nat) : Word :=
  let w := s.regs.look 0 (seamPageKey n off)
  if off = Reg.SP_ID.SEAM.off then showAt Reg.SP_ID.SEAM n (showAt Reg.SP_ID.GEN (s.seamGen n) w)
  else if off = Reg.SP_STATE.SEALED.off then
    showBit Reg.SP_STATE.SEALED (s.sealed n) (showBit Reg.SP_STATE.TIMING_OK (s.timingOk.look false n)
      (showAt Reg.SP_STATE.ENVELOPE s.power.envelope w))
  else if off = Reg.SP_GRAN.LIMIT.off then showAt Reg.SP_GRAN.LIMIT (s.seamLimit n) w
  else if off = Reg.SP_SCH.SCH.off then s.word uSeamCtl (Reg.SEAM_SCH.FIRST.ix n).off
  else if off = Reg.SP_QUOTA.QUOTA.off then s.word uSeamCtl (Reg.SEAM_QUOTA.CTX.ix n).off
  else if off = Reg.SP_CORES.MIN.off then showAt Reg.SP_CORES.MIN (s.seamMin n) (showAt Reg.SP_CORES.MAX (s.seamMax n) w)
  else if Reg.SP_READY_CNT.COUNT.off ≤ off ∧ off < Reg.SP_READY_CNT.COUNT.off + 64 then
    let p := (off - Reg.SP_READY_CNT.COUNT.off) / 8
    showAt Reg.SP_READY_CNT.COUNT ((s.readyOf n).filter fun e => e.2.prio == p).length w
  else w

end Sys2Proof.Machine
end

