-- ==== Sys2Proof/Machine/PowerFail.lean ====
section
/-! DEFINITION. P, M by MRST_N, module standby, hold-up drain and the test access port (R339, R340, R466, R468, R482-R484, R489, R490, R492,
R502, R503). -/

namespace Sys2Proof.Machine

/-! ### Hold-up drain (R484, R489, R490, R492) -/

/-- The units that are off 20 µs after a declaration: tiles with what they hold, lane groups, haulers, engines, and the memory channels
with their home agents. -/
def offInHoldup (u : UnitId) : Bool :=
  (UnitId.within u (uTile 0) || UnitId.within u (uTile 1) || UnitId.within u (uTile 2) || UnitId.within u (uTile 3))
    || u.type == .lanegrp || u.type == .cplgrp || u.type == .hauler || u.type == .crusher || u.type == .cipher || u.type == .memch
    || u.type == .home

/-- What the units that go off hold, and what is under way in them, is lost (R492, column H). -/
def State.loseVolatile (s : State) : State :=
  { s with
    cores := [], caches := [], plru := [], wbq := [], dir := [], homeTrans := [], homeQueue := [], dirReserve := [], tileTrans := [],
    msgs := [], ringWait := [], supplied := [], atmVals := [], ioData := [], isolated := [], cacheJobs := [], replays := [],
    mem := [], poison := [], badWords := [], remap := [], wus := [], rings := [],
    waiters := [], fmnEvents := [], migrations := [], missReports := [], evict := none, exchanges := [], cqPhase := [], peers := [],
    ethQueue := [], links := [], couplings := [], patches := [], patchRuns := [], patchDue := (List.range 48).map fun k => (k, 1),
    ckwRuns := [], trainRuns := [], loadRuns := [], mcsPending := [], engines := s.engines.filter fun (e : Nat × Engine) => e.1 == uEntropy.key }

/-- The sequence of R490 starts: resets end where they stand, commits not marked are refused, both banks drain, haulers halt and their
transfers abort, march runs abort, and the units of step 2 are off. Its first 20 µs are one step (log entry 52). -/
def State.holdup (s : State) : State :=
  let s := s.drainJournal.commitTime
  let s := State.each (List.range 64) (fun h s => s.dmaAbort h) s
  let s := (s.marchAbort 0).marchAbort 1
  let s := State.each UnitId.allUnits (fun v s =>
    let d := s.unit v
    let d := { d with resetting := false, resetRoot := false, heldReset := false, ended := [] }
    s.setUnit v (if offInHoldup v then { d with power := .off, transition := none } else d)) s
  let s := s.loseVolatile
  { s with
    haulers := s.haulers.map fun (e : Nat × Hauler) => (e.1, { e.2 with mode := .halted })
    power := { s.power with mode := .holdup, mResetting := false, testing := false, charging := 0, pwrgood := false } }

/-- Does the condition of a declaration hold: its cause, the VIN code and the code of its mean over 1 s (R489)? -/
def State.failing (s : State) (cause vin mean : Nat) : Bool :=
  match cause with
  | 1 => decide (100 * vin < 85 * mean)
  | 2 => decide (4 * vin < 8500)
  | 3 => dieTemps.any fun i => decide (64 * (105 + 64) ≤ s.sample i)
  | 4 => s.power.regulators == 0
  | _ => false

/-- Does the module run, or stand by, on its input? -/
def State.onInput (s : State) : Bool := match s.power.mode with | .on | .standby => true | _ => false

/-- POWER_FAIL_DECLARE (R489). -/
def onPowerFailDeclare (cause : BitVec 8) (vin mean : BitVec 16) (s : State) : State :=
  if !s.onInput ∨ !s.failing cause.toNat vin.toNat mean.toNat then s
  else
    let s : State := { s with power := { s.power with declared := cause.toNat } }
    let s := (s.wr uPower Reg.PWR_FAIL.CAUSE cause.toNat).wr uPower Reg.PWR_FAIL.VIN vin.toNat
    let s := s.wr uPower Reg.PWR_FAIL.VMEAN_1S mean.toNat
    let s := s.tallyEvent (some uModule) 0x00 0x03 7 0xFF
      (payload8 cause.toNat (beBytes 2 vin.toNat ++ beBytes 2 mean.toNat ++ beBytes 4 s.power.eMj))
    s.holdup

/-- HOLDUP_POWER_DOWN (R490): with both drains ended, the Tally empties its buffer, operating time is committed and the dies go off. -/
def onHoldupPowerDown (s : State) : State :=
  if s.power.mode ≠ .holdup ∨ s.draining.look false 0 = true ∨ s.draining.look false 1 = true then s
  else
    let s := (s.tallyFlush 1024).commitTime
    { s with power := { s.power with mode := .off } }

/-- HOLDUP_CUTOFF (R490): the bank reaches the cut-off. A drain that has not ended leaves its image incomplete, and buffered records are
lost; `writing` says that one was being written (R464). -/
def onHoldupCutoff (writing : Bool) (s : State) : State :=
  if s.power.mode ≠ .holdup then s
  else
    let s : State := match s.tallyBuf, writing with
      | r :: _, true => { s with tallyStore := s.tallyStore.put .blank (r.seq % tallySlots) .torn }
      | _, _ => s
    { s with tallyBuf := [], draining := [], power := { s.power with mode := .off } }

/-! ### P (R466, R468, R484, R492, R502) -/

/-- Each torn slot is recorded, one record for each; the scan waits for room in the buffer (R468). -/
def State.recordTorn (s : State) (slots : List Nat) : State :=
  State.each slots (fun i s =>
    let s := if s.tallyBuf.length < 128 then s else s.tallyStep false
    (s.wr uTally Reg.TLY_ERR.TORN 1).tallyEvent (some uTally) 0x0F 0x03 7 0xFF (payload8 0 (beBytes 4 i))) s

/-- The state in which P leaves the module: everything at its reset value but what P keeps (R492), operating time 60 s on (R466), and the
input stage as it is. -/
def State.afterP (s : State) (vin : Nat) : State :=
  let k := s.keepFields (fun _ => true) codeP
  let t := s.opCommit + 60 * 65536
  let fresh : State := { State.reset with
    pending := s.pending, now := s.now, free := s.free, tbStart := s.now, regs := k.regs, outbox := s.outbox
    tallyStore := s.tallyStore, tallySeq := s.tallyNewest, pcycle := s.pcycle + 1, opBase := t, opFrom := s.now, opCommit := t
    images := s.images
    power := { Power.reset with
      phases := s.power.phases, controllers := s.power.controllers, fuses := s.power.fuses, regulators := s.power.regulators,
      holdV := s.power.holdV, mrstLow := s.power.mrstLow, lastStress := s.now, fullSince := s.now } }
  let v := fresh.setVavg vin
  let e := if vin < 18000 then 2 else if vin < 37000 then 1 else 0
  let v : State := { v with power := { v.power with envelope := e } }
  { v with power := { v.power with pCore := v.coreW } }

/-- P: the Tally records the power-up and torn slots, the drain stores report incomplete images (R340), and MRST_N held low leads into M. -/
def State.powerUp (s : State) (vin : Nat) : State :=
  let before := s.opCommit / 65536
  let torn := s.tornSlots
  let s := s.afterP vin
  let s := s.tallyEvent (some uModule) 0x00 0x01 7 0xFF (payload8 0 (beBytes 5 before))
  let s := s.recordTorn torn
  let s := State.each [0, 1] (fun d s => match s.images.look none d with
    | some m => if m.whole then s else s.stick (uDrain d) Reg.DRN_ERR.INCOMPLETE
    | none => s) s
  if s.power.mrstLow then s.mStart else s

/-- POWER_ON (R474, R484): VIN, `vin` mV, has stayed above 9.5 V for 10 ms. After PWR_CMD OFF it must have been removed first, or MRST_N
must have fallen (R490). -/
def onPowerOn (vin : BitVec 16) (removed : Bool) (s : State) : State :=
  if s.power.mode ≠ .off ∨ vin.toNat ≤ 9500 ∨ (s.power.offUntilVin ∧ !removed) then s
  else s.powerUp vin.toNat

/-- MRST_N_LOW (R484, R502): low for 1 µs. During hold-up drain it is ignored; after PWR_CMD OFF it lets P follow. In standby
the M that it starts ends in standby, where one started by REQ ends running (R40, R502; log entry 122). EXTEST takes effect (R503). -/
def onMrstNLow (s : State) : State :=
  let s : State := { s with
    power := { s.power with mrstLow := true }, tap := if s.tap.ir = .extest then { s.tap with driving := true } else s.tap }
  match s.power.mode with
  | .off => { s with power := { s.power with offUntilVin := false } }
  | .holdup => s
  | .standby => let t := s.mStart; { t with power := { t.power with mode := .standby } }
  | .on => s.mStart

/-- MRST_N_HIGH (R484): M may complete. EXTEST no longer drives the lands (R503). -/
def onMrstNHigh (s : State) : State :=
  { s with power := { s.power with mrstLow := false }, tap := if s.tap.ir = .extest then { s.tap with driving := false } else s.tap }

/-! ### PWR_CMD (R483, R490, R493) -/

/-- May the module enter standby (R483)? -/
def State.mayStandby (s : State) : Bool :=
  programSeams.all (fun n => s.rd uSeamCtl (Reg.SEAM_STATE.STATE.ix n) == 0)
    && !s.flag uForeman Reg.FMN_CTL.ENABLE
    && [0, 1].all (fun d => !s.flag (uBank d) Reg.JNL_CFG.EN && !s.flag (uCtx d) Reg.CHS_CFG.EN)
    && s.jslots.all fun e => !e.2.used

/-- The units that standby powers down. -/
def offInStandby (u : UnitId) : Bool :=
  u.within (uTile 0) || u.within (uTile 1) || u.within (uTile 2) || u.within (uTile 3) || u.within (uIoDie 0) || u.within (uIoDie 1)

/-- Standby begins: tiles, I/O dies and their memory are off (R483, R492). -/
def State.enterStandby (s : State) : State :=
  let s := State.each (List.range 64) (fun h s => s.dmaAbort h) s
  let s := (s.marchAbort 0).marchAbort 1
  let s := State.each UnitId.allUnits (fun v s =>
    if offInStandby v then s.setUnit v { UnitDyn.reset v with last := (s.unit v).last } else s) s
  let s := s.loseVolatile
  let s : State := { s with
    jslots := [], jdata := [], jbad := [], commits := [], targetWrites := [], jcmd := none, jrecv := [], haulers := [], istore := [],
    pit := [], pitBad := [], power := { s.power with mode := .standby } }
  s.tallyEvent (some uModule) 0x00 0x08

/-- The units that WAKE powers again: the tiles, the I/O dies and their memory, with what follows their power (R483; log entry 52). -/
def wokenFromStandby (u : UnitId) : Bool :=
  offInStandby u && match (u :: u.ancestors).find? fun a => ownPower a.type with
    | some a => a.type == .tile || a.type == .iodie || a.type == .memch || a.type == .home
    | none => false

/-- The registers that standby reaches: those of the dies that it powers down, and those of the module page and the complex page above the
header, which lie on no die that stays powered (R8, R34). -/
def reachedByY (u : UnitId) (off : Nat) : Bool := offInStandby u || ((u.type == .module || u.type == .complex) && decide (0x80 ≤ off))

/-- Standby ends: the dies and their memory have power again, and what standby does not keep takes its Reset value (R8, R34, R483); with
CPL_CX the enumerated complex is gone. -/
def State.leaveStandby (s : State) : State :=
  let s : State := { s.keepRegs reachedByY codeY with complex := Complex.reset }
  let s := State.each UnitId.allUnits (fun v s => if wokenFromStandby v then s.setUnit v { s.unit v with power := .run } else s) s
  ({ s with power := { s.power with mode := .on } } : State).tallyEvent (some uModule) 0x00 0x09

/-- PWR_CMD START with an OP (R493). -/
def State.pwrStart (s : State) (op : Nat) : State :=
  let result (r : Nat) (s : State) : State := s.wr uPower Reg.PWR_CMD.RESULT r
  if s.power.cmdBusy ∨ !s.onInput then s
  else match op with
    | 1 =>
      if s.power.mode = .standby then result 1 s
      else if s.mayStandby then result 1 s.enterStandby else result 3 s
    | 2 => if s.power.mode = .standby then result 1 s.leaveStandby else result 4 s
    | 3 =>
      let s := s.tallyEvent (some uModule) 0x00 0x05
      ({ s with power := { s.power with cmdBusy := true, offCmd := true, offUntilVin := true } } : State).holdup
    | _ => result 2 s

/-- A write of PWR_CMD with START. -/
def State.pwrCmd (s : State) (sender : Sender) (op : Nat) : State :=
  s.command sender uPower 0x0A0 fun s => (s.wr uPower Reg.PWR_CMD.OP op).pwrStart op

def onStandby (sender : Sender) (s : State) : State := s.pwrCmd sender 1
def onWake (sender : Sender) (s : State) : State := s.pwrCmd sender 2
def onOff (sender : Sender) (s : State) : State := s.pwrCmd sender 3

/-! ### The test access port (R503) -/

/-- The value that IDCODE reads. -/
def idcodeValue : BitVec 3312 := 0x27240A5B

/-- BYPASS: a one-bit register is selected, and no land is driven. -/
def onBypass (s : State) : State := { s with tap := { s.tap with ir := .bypass, driving := false, dr := 0 } }

/-- SAMPLE/PRELOAD: the levels of the lands are captured, and new cell values are loaded; nothing is driven. -/
def onSamplePreload (lands cells : BitVec 3312) (s : State) : State :=
  { s with tap := { ir := .samplePreload, boundary := cells, driving := false, dr := lands } }

/-- EXTEST: the cells drive their lands while MRST_N is low; at any other time it acts as BYPASS. -/
def onExtest (lands cells : BitVec 3312) (s : State) : State :=
  if s.power.mrstLow then { s with tap := { ir := .extest, boundary := cells, driving := true, dr := lands } }
  else { s with tap := { s.tap with ir := .extest, driving := false, dr := 0 } }

/-- IDCODE. -/
def onIdcode (s : State) : State := { s with tap := { s.tap with ir := .idcode, driving := false, dr := idcodeValue } }

/-- TRST_N_LOW: the port is reset. -/
def onTrstNLow (s : State) : State := { s with tap := Tap.reset }

/-! ### The commands as the queue gives them -/

def execPowerOn (vin : BitVec 16) (removed : Bool) (s : State) : Answer := s.runAlways (onPowerOn vin removed)
def execMrstNLow (s : State) : Answer := s.runAlways onMrstNLow
def execMrstNHigh (s : State) : Answer := s.runAlways onMrstNHigh
def execStandby (sender : Sender) (s : State) : Answer := s.run (onStandby sender)
def execWake (sender : Sender) (s : State) : Answer := s.run (onWake sender)
def execOff (sender : Sender) (s : State) : Answer := s.run (onOff sender)
def execPowerFailDeclare (cause : BitVec 8) (vin mean : BitVec 16) (s : State) : Answer := s.run (onPowerFailDeclare cause vin mean)
def execHoldupPowerDown (s : State) : Answer := s.run onHoldupPowerDown
def execBypass (s : State) : Answer := s.runAlways onBypass
def execSamplePreload (lands cells : BitVec 3312) (s : State) : Answer := s.runAlways (onSamplePreload lands cells)
def execExtest (lands cells : BitVec 3312) (s : State) : Answer := s.runAlways (onExtest lands cells)
def execIdcode (s : State) : Answer := s.runAlways onIdcode
def execTrstNLow (s : State) : Answer := s.runAlways onTrstNLow
def execHoldupCutoff (writing : Bool) (s : State) : Answer := s.run (onHoldupCutoff writing)

end Sys2Proof.Machine
end

