-- ==== Sys2Proof/Machine/Pages.lean ====
section
/-! DEFINITION. Writing the control window and the seam pages (R5, R16, R25-R33, R44, R45, R131, R275, R400): each register's write with
the action that its fields describe, posted device stores, remote page accesses, and windows as haulers reach them. -/

namespace Sys2Proof.Machine

/-! ### UNIT_STICKY_CLR (R16, R38) -/

/-- Clear an RS field. -/
def State.clearRs (s : State) (u : UnitId) (f : Field) : State := s.wr u f 0

/-- CLR_OWN: every cause stored in OWN and every RS field of the page. -/
def State.clearOwn (s : State) (u : UnitId) : State :=
  State.each (rsFields u) (fun f s => s.clearRs u f) (s.wr u Reg.UNIT_STICKY.OWN 0)

/-- CLR_ONE with an index: 0 the causes stored in OWN, 1-253 one RS field; any other has no effect. -/
def State.clearOne (s : State) (u : UnitId) (index : Nat) : State :=
  if index = 0 then s.wr u Reg.UNIT_STICKY.OWN 0
  else match fieldOfIndex u index with
    | some f => if index ≤ 253 then s.clearRs u f else s
    | none => s

/-- CLR_OWN (R16). -/
def onClrOwn (sender : Sender) (u : UnitId) (s : State) : State := s.command sender u 0x030 fun s => s.clearOwn u

/-- CLR_ONE (R16). -/
def onClrOne (sender : Sender) (u : UnitId) (index : BitVec 8) (s : State) : State :=
  s.command sender u 0x030 fun s => s.clearOne u index.toNat

/-! ### One write of a register -/

/-- A write below 0x080 (R34-R43). What the members of a complex allow is nowhere to be read for a plain write: a free value. -/
def State.headerWrite (s : State) (sender : Sender) (u : UnitId) (off : Nat) (v : Word) : State :=
  if off = 0x030 then
    if v.bit 0 then s.clearOwn u else if v.bit 1 then s.clearOne u (v.field 56 63) else s
  else if off = 0x040 then
    if !v.bit 0 then s
    else if u.type = .complex then let r := s.freeValue; r.1.reqWrite sender u (r.2.bit 0)
    else s.reqWrite sender u false
  else if off = 0x048 then s.powerWrite u (v.field 4 5) (v.bit 6)
  else if off = 0x050 then s.ownerWrite sender u (v.field 0 7)
  else s.writeFields u off v

/-- Module page: CPL_CX, REENUM and CPL_ADOPT (R398, R403). -/
def State.moduleWrite (s : State) (off : Nat) (v : Word) : State :=
  let s := s.writeFields uModule off v
  if off = Reg.CPL_CX.EN.off then (if v.bit 16 && !s.locked uModule then s.enumerate else s)
  else if off = Reg.CPL_ENUM.REENUM.off then (if v.bit 8 then s.enumerate else s)
  else if off = Reg.CPL_ADOPT.START.off then (if v.bit 4 then s.adoptStart else s)
  else s

/-- Complex page: CPL_RA_CTL (R400, R403). A reserved OP does nothing. -/
def State.complexWrite (s : State) (sender : Sender) (off : Nat) (v : Word) : State :=
  let s := s.writeFields uComplex off v
  if off = Reg.CPL_RA_CTL.START.off ∧ v.bit 2 then
    match v.field 0 1 with
    | 1 => s.remoteStart sender 1
    | 2 => s.remoteStart sender 2
    | _ => s
  else s

/-- Tile page: CKW_SLOTS and CKW_CMD (R213). -/
def State.tileWrite (s : State) (sender : Sender) (t off : Nat) (v : Word) : State :=
  if off = Reg.CKW_SLOTS.GOOD.off then s.slotsWrite t (if s.locked (uTile t) then 0 else v.field 32 43) (v.bit 44)
  else if off = Reg.CKW_CMD.START.off ∧ v.bit 12 then s.ckwCmd sender t (v.field 0 1) (v.field 4 7) (v.field 8 11)
  else s.writeFields (uTile t) off v

/-- Core page: L2_PRELOAD_CTL (R165). -/
def State.coreWrite (s : State) (k off : Nat) (v : Word) : State :=
  if off = Reg.L2_PRELOAD_CTL.START.off ∧ v.bit 8 then
    s.startPreload (uCore k) (.l2 k) Reg.L2_PRELOAD_BASE.BASE l2Ctl Reg.L2_PRELOAD_MISSED.PRELOAD_MISSED (BitVec.ofNat 8 (v.field 0 7)) (v.field 16 39)
  else s.writeFields (uCore k) off v

/-- Slice page: L3_PRELOAD_CTL and L3_FLUSH, whose OP 0b00 does nothing (R166). -/
def State.l3Write (s : State) (i off : Nat) (v : Word) : State :=
  if off = Reg.L3_PRELOAD_CTL.START.off ∧ v.bit 8 then
    s.startPreload (uL3 i) (.l3 i) Reg.L3_PRELOAD_BASE.BASE l3Ctl Reg.L3_PRELOAD_MISSED.PRELOAD_MISSED (BitVec.ofNat 8 (v.field 0 7)) (v.field 16 39)
  else if off = Reg.L3_FLUSH.START.off ∧ v.bit 2 then
    match v.field 0 1 with
    | 1 => s.startFlush i .clean (v.bit 5)
    | 2 => s.startFlush i .inval (v.bit 5)
    | 3 => s.startFlush i .cleanInval (v.bit 5)
    | _ => s.writeFields (uL3 i) off v
  else s.writeFields (uL3 i) off v

/-- Foreman page: policy registers and FMN_EVICT (R250, R253). -/
def State.foremanWrite (s : State) (off : Nat) (v : Word) : State :=
  if isPolicy off then s.policyWrite off v
  else if off = Reg.FMN_EVICT.START.off ∧ v.bit 8 then s.evictStart (v.field 0 7)
  else s.writeFields uForeman off v

/-- I/O die page: MCH_CMD and HLR_IMG_CTL (R380). -/
def State.iodieWrite (s : State) (d off : Nat) (v : Word) : State :=
  let s := s.writeFields (uIoDie d) off v
  if off = Reg.MCH_CMD.START.off ∧ v.bit 3 then s.marchStart d
  else if off = Reg.HLR_IMG_CTL.START.off ∧ v.bit 32 then s.loadStart d
  else s

/-- Memory channel page: MEM_CFG stands while TRAINED reads 1, and MEM_TRAIN (R295, R297). -/
def State.memWrite (s : State) (c off : Nat) (v : Word) : State :=
  if off = Reg.MEM_CFG.DEVICES.off ∧ s.flag (uMem c) Reg.MEM_TRAIN.TRAINED then s
  else if off = Reg.MEM_TRAIN.START.off ∧ v.bit 2 then s.memTrain c (v.field 0 1)
  else s.writeFields (uMem c) off v

/-- Hauler page: HLR_CTL, PIT_DATA and HLR_MBOX_TO (R373, R379). -/
def State.haulerWrite (s : State) (sender : Sender) (h off : Nat) (v : Word) : State :=
  if off = Reg.HLR_CTL.RUN.off then (s.writeFields (uHauler h) off v).runWrite h
  else if off = Reg.PIT_DATA.DATA.off then s.pitData sender h (BitVec.ofNat 16 (v.field 48 63))
  else if off = Reg.HLR_MBOX_TO.TO.off then (s.writeFields (uHauler h) off v).mailboxEvent h
  else s.writeFields (uHauler h) off v

/-- Lane group page: LAYOUT, PERS, MAXRATE and FEC stand while ENABLE reads 1; enabling a quad judges its configuration, and a quad that
is no longer enabled loses its links (R382, R401). -/
def State.laneWrite (s : State) (q off : Nat) (v : Word) : State :=
  if off = Reg.LNK_CFG.ENABLE.off then
    let was := s.flag (uLane q) Reg.LNK_CFG.ENABLE
    let s := if was then s.wr (uLane q) Reg.LNK_CFG.ENABLE (v.field 3 3) else s.writeFields (uLane q) off v
    if v.bit 3 ∧ !was then s.quadEnabled q else if was ∧ !v.bit 3 then s.quadLost q else s
  else s.writeFields (uLane q) off v

/-- Coupling lane group page: a group that no longer trains goes down (R394, R402; log entry 55). -/
def State.cplWrite (s : State) (g off : Nat) (v : Word) : State :=
  let s := s.writeFields (uCpl g) off v
  if off = Reg.CPL_LINK.ENABLE.off ∧ !s.flag (uCpl g) Reg.CPL_LINK.ENABLE ∧ (s.cpl g).up then s.cplDown g else s

/-- Journal bank page: JNL_CMD (R344), and EN, whose writing to 1 is ignored until RESTORE has ended (R341). -/
def State.bankWrite (s : State) (d off : Nat) (v : Word) : State :=
  let v := if off = Reg.JNL_CFG.EN.off ∧ s.restored = false ∧ s.flag (uBank d) Reg.JNL_CFG.EN = false then v.setField 0 0 0 else v
  let s := s.writeFields (uBank d) off v
  if off = Reg.JNL_CMD.START.off ∧ v.bit 4 then s.jnlStart d else s

/-- Engine and entropy pages: ring registers wait for their quantum; ENT_CTL (R411, R427). -/
def State.engineWrite (s : State) (e : EngineId) (off : Nat) (v : Word) : State :=
  let ring := (e.ring 0).1.off
  if ring ≤ off ∧ off < ring + 512 then s.ringWrite e ((off - ring) / 8) v
  else if e = .entropy ∧ off = Reg.ENT_CTL.START.off ∧ v.bit 2 then s.entropyCommand (v.field 0 1)
  else s.writeFields e.unit off v

/-- Service die page: the loader, attestation and the firmware floor (R226, R428, R449). -/
def State.svcWrite (s : State) (sender : Sender) (off : Nat) (v : Word) : State :=
  if off = Reg.MCS_LDR_CTL.START.off ∧ v.bit 3 then
    match v.field 0 2 with
    | 1 => onVerify sender false s
    | 2 => onActivate sender s
    | 3 => onMcsLdrDiscard sender s
    | 4 => onRaiseFloor sender s
    | op => s.loaderCommand sender op fun s => s.loaderResult 2
  else if off = Reg.MCS_LDR_DATA.DATA.off then onMcsLdrData sender v s
  else if off = Reg.MCS_LDR_ADDR.ADDR.off ∧ s.mcsRun.isSome then s
  else if off = Reg.ATT_CTL.START.off ∧ v.bit 2 then
    let kind := v.field 16 23
    let subject := v.field 24 39
    match v.field 0 1 with
    | 1 => s.attCommand 1 kind subject fun s => s.attMeasure kind subject
    | 2 => s.attCommand 2 kind subject fun s => s.attDeclare kind subject
    | 3 => s.attCommand 3 kind subject fun s => s.attReport subject
    | op => s.attCommand op kind subject fun s => (s, attFails 2)
  else if off = Reg.STW_FWFLOOR.RAISE.off then (if v.bit 8 then s.doRaise else s)
  else s.writeFields uSvcDie off v

/-- Seam controller page: SEAM_CMD (R256), and SEAM_RSV, whose write is ignored in the cases of R508. -/
def State.seamCtlWrite (s : State) (sender : Sender) (off : Nat) (v : Word) : State :=
  if off = Reg.SEAM_CMD.START.off ∧ v.bit 4 then
    let n := BitVec.ofNat 8 (v.field 8 15)
    let run := match v.field 0 3 with
    | 1 => onCreate sender n s
    | 2 => onGrant sender n none s
    | 3 => onRevoke sender n s
    | 4 => onSet sender n (BitVec.ofNat 8 (v.field 24 31)) s
    | 5 => onSeal sender n s
    | 6 => onCheckstop sender n s
    | 7 => onReset sender n s
    | 8 => onDestroy sender n s
    | op => s.seamCommand sender op n.toNat (v.field 24 31) (fun _ => 2) fun s => (s, 2)
    run.writeFields uSeamCtl off v
  else if off = Reg.SEAM_RSV.SEAM_RSV.off then
    let mapped := if s.mirrored then 8 * s.capacity 0 else 16 * (s.capacity 0 - s.guests 0)
    if programSeams.any (fun n => s.seamState n != 0) ∨ mapped < v.field 0 19 then s else s.writeFields uSeamCtl off v
  else s.writeFields uSeamCtl off v

/-- Steward page: STW_REPL_CTL (R437-R439, R447). A plain write finds the source in the steward's SRAM; the STEP of a header that no
command gives is a free value. -/
def State.stewardWrite (s : State) (sender : Sender) (n off : Nat) (v : Word) : State :=
  if off = Reg.STW_REPL_CTL.START.off ∧ v.bit 2 then
    let len := v.field 32 53
    let src := s.rd (uSteward n) Reg.STW_REPL_SRC.SRC * 128
    if h : n < 2 then
      match v.field 0 1 with
      | 1 =>
        let f := s.freeValue
        onEpoch sender ⟨n, h⟩ (BitVec.ofNat 22 len) (BitVec.ofNat 8 f.2.toNat) (s.sramBytes n src len) false f.1
      | 2 => onJlog sender ⟨n, h⟩ (BitVec.ofNat 22 len) (s.sramBytes n (src + 0x10) 0x5C) false s
      | op => s.replReserved n op len
    else s
  else s.writeFields (uSteward n) off v

/-- Cube arbiter page: CUBE_OP acts for the steward that writes it (R431, R448). -/
def State.cubeWrite (s : State) (sender : Sender) (off : Nat) (v : Word) : State :=
  if off = Reg.CUBE_OP.OP.off then
    match sender, v.field 0 1 with
    | .steward n, 1 => onRequest n s
    | .steward n, 2 => onRenew n s
    | .steward n, 3 => onRelease n s
    | _, _ => s
  else s.writeFields uCube off v

/-- Node pages; at the root the notice queue and the canary slots (R471, R472). -/
def State.nodeWrite (s : State) (u : UnitId) (off : Nat) (v : Word) : State :=
  if u = uRoot ∧ off = Reg.FLT_NOTICE_POP.POP.off then (if v.bit 0 then { s with notices := s.notices.drop 1 } else s)
  else if u = uRoot ∧ off = Reg.FLT_ACK.SLOT.off then s.ackSlot (v.field 0 5)
  else s.writeFields u off v

/-- Tally page: TLY_READ and TLY_CFG, after which the backlog is judged, and TLY_WRITE (R470, R473). -/
def State.tallyRegWrite (s : State) (sender : Sender) (off : Nat) (v : Word) : State :=
  let s := s.writeFields uTally off v
  if off = Reg.TLY_READ.READ.off ∨ off = Reg.TLY_CFG.WARN.off then s.backlog
  else if off = Reg.TLY_WRITE.GO.off ∧ v.bit 24 then s.tlyGo sender
  else s

/-- Power and environment page: PWR_CMD, HLD_CFG, and ENV_ALARM, whose ones clear (R493, R509). -/
def State.powerRegWrite (s : State) (off : Nat) (v : Word) : State :=
  if off = Reg.ENV_ALARM.ALARM.off then
    s.setWord uPower off (s.word uPower off &&& ~~~(Word.setField 0 0 31 (v.field 0 31)))
  else
    let s := s.writeFields uPower off v
    if off = Reg.PWR_CMD.START.off ∧ v.bit 2 then s.pwrStart (v.field 0 1)
    else if off = Reg.HLD_CFG.TEST.off ∧ v.bit 16 then s.bankTestStart
    else s

/-- A write at 0x080 or above. -/
def State.pageWrite (s : State) (sender : Sender) (u : UnitId) (off : Nat) (v : Word) : State :=
  match u.type with
  | .module => s.moduleWrite off v
  | .complex => s.complexWrite sender off v
  | .tile => s.tileWrite sender u.inst off v
  | .core => s.coreWrite u.inst off v
  | .l3 => s.l3Write u.inst off v
  | .foreman => s.foremanWrite off v
  | .iodie => s.iodieWrite u.inst off v
  | .memch => s.memWrite u.inst off v
  | .hauler => s.haulerWrite sender u.inst off v
  | .lanegrp => s.laneWrite u.inst off v
  | .cplgrp => s.cplWrite u.inst off v
  | .jbank => s.bankWrite u.inst off v
  | .crusher => if h : u.inst < 4 then s.engineWrite (.crusher ⟨u.inst, h⟩) off v else s
  | .cipher => if h : u.inst < 8 then s.engineWrite (.cipher ⟨u.inst, h⟩) off v else s
  | .entropy => s.engineWrite .entropy off v
  | .svcdie => s.svcWrite sender off v
  | .seamctl => s.seamCtlWrite sender off v
  | .steward => s.stewardWrite sender u.inst off v
  | .cube => s.cubeWrite sender off v
  | .node => s.nodeWrite u off v
  | .tally => s.tallyRegWrite sender off v
  | .power => s.powerRegWrite off v
  | .lane | .mcs | .ring | .home | .ctxstore | .drain => s.writeFields u off v

/-- A write that has passed its checks is performed. -/
def State.performWrite (s : State) (sender : Sender) (u : UnitId) (off : Nat) (v : Word) : State :=
  if off < 0x80 then s.headerWrite sender u off v else s.pageWrite sender u off v

/-! ### The seam page (R44, R275) -/

/-- A write of an aligned doubleword of the page of seam `n`: the ready-queue and completion-queue bases and sizes unless the seam is
sealed, and HEAD. -/
def State.seamPageWrite (s : State) (n off : Nat) (v : Word) : State :=
  if off = Reg.SP_CQ_HEAD.HEAD.off then s.spWr n Reg.SP_CQ_HEAD.HEAD (v.field 44 63)
  else if s.sealed n then s
  else if Reg.SP_READY.BASE.off ≤ off ∧ off < Reg.SP_READY.BASE.off + 64 ∧ off % 8 = 0 then
    let p := (off - Reg.SP_READY.BASE.off) / 8
    (s.spWr n (Reg.SP_READY.BASE.ix p) (v.field 24 54)).spWr n (Reg.SP_READY.K.ix p) (v.field 59 63)
  else if off = Reg.SP_CQ_BASE.BASE.off then (s.spWr n Reg.SP_CQ_BASE.BASE (v.field 24 54)).spWr n Reg.SP_CQ_BASE.K (v.field 59 63)
  else s

/-- CQ_HEAD_WRITE (R275): a program write of SP_CQ_HEAD reaches the page of its seam. -/
def onCqHeadWrite (seam : Fin 64) (head : BitVec 20) (s : State) : State :=
  if seam.val = 0 then s else s.spWr seam.val Reg.SP_CQ_HEAD.HEAD head.toNat

/-- An error response at a seam page (R44): the seam controller records it. -/
def State.seamPageError (s : State) (off : Nat) (who : Option UnitId := none) : State :=
  (s.accessError uSeamCtl off who).wr uSeamCtl Reg.SEAM_ERR.SEAM_PAGE 1

/-! ### The windows (R25-R28) -/

/-- What an access of a module physical address outside main memory reaches: a page of the control window or the journal window. -/
def State.windowTarget (s : State) (addr : Nat) : Option DeviceTarget :=
  if 0x080000000000 ≤ addr ∧ addr < 0x080004000000 then some (.journal (addr - 0x080000000000))
  else if 0xF00000000000 ≤ addr ∧ addr < 0xF00001000000 then
    let slot := (addr - 0xF00000000000) / 4096
    match s.unitInSlot slot with
    | some u => some (.page u (addr % 4096))
    | none => some (.unoccupied slot (addr % 4096))
  else none

/-- The bytes of the journal window at an offset (R328). -/
def State.journalWord (s : State) (off n : Nat) : Nat := beNat ((List.range n).map fun i => s.journalByte (off + i))

/-- A read of an aligned doubleword of a window or seam page: none with an error response. -/
def State.deviceRead (s : State) (t : DeviceTarget) (who : Option UnitId := none) : State × Option Word :=
  match t with
  | .page u off => s.pageRead u off who
  | .seamPage n off => (s, some (s.seamPageWord n off))
  | .journal off => (s, some (BitVec.ofNat 64 (s.journalWord off 8)))
  | .unoccupied _ off => (s.accessError uModule off who, none)
  | .memory _ => (s, none)

/-- A write of an aligned doubleword of a window or seam page; true with an error response. -/
def State.deviceWrite (s : State) (sender : Sender) (t : DeviceTarget) (v : Word) : State × Bool :=
  match t with
  | .page u off =>
    match s.guardWrite sender u off with
    | (s, .pass) =>
      if u.type = .hauler ∧ off = Reg.PIT_DATA.DATA.off ∧ !s.haulerIdle u.inst then (s.pageError sender u off, true)
      else if off = 0x050 ∧ s.ownerRefused sender u (v.field 0 7) then (s.pageError sender u off, true)
      else (s.performWrite sender u off v, false)
    | (s, .rejected) => (s, false)
    | (s, .error) => (s, true)
  | .seamPage n off => (s.seamPageWrite n off v, false)
  | .journal _ => (s, true)
  | .unoccupied _ off =>
    if s.fencePasses sender uModule 0x080 then (s.accessError uModule off (some sender.unit), true) else (s.countRejected sender, false)
  | .memory _ => (s, true)

/-! ### REGISTER_WRITE -/

/-- The page slot that a unit operand names: its own, or for a unit that the module does not have the slot of that number. -/
def namedSlot (u : UnitId) : Nat := if u.valid then slotNumber u else u.inst % 4096

/-- A steward has read a doubleword; an error response is a bus error (R430). -/
def State.stewardReads (s : State) (n : Fin 2) (addr : Nat) (w : Option Word) : State :=
  match w with
  | some w => s.setStw n.val { s.stw n.val with lastRead := w }
  | none => s.busError n.val addr

/-- A sender reads a doubleword of a page: a steward receives it, or a bus error (R28, R430). Cores and haulers read by their own
instructions. -/
def State.registerRead (s : State) (sender : Sender) (t : DeviceTarget) (addr : Nat) : State :=
  let r := s.deviceRead t (some sender.unit)
  match sender with
  | .steward n => r.1.stewardReads n addr r.2
  | _ => r.1

/-- An access to an unoccupied slot (R28, R29): a write that the fence lets pass and a read get an error response. -/
def State.unoccupiedAccess (s : State) (sender : Sender) (slot off : Nat) (v : Option Word) : State :=
  let addr := 0xF00000000000 + slot * 4096 + off
  match v with
  | none => s.registerRead sender (.unoccupied slot off) addr
  | some v =>
    let r := s.deviceWrite sender (.unoccupied slot off) v
    if r.2 then r.1.errorTo sender addr else r.1

/-- An access to a page of the control window. -/
def State.pageAccess (s : State) (sender : Sender) (u : UnitId) (off : Nat) (v : Option Word) : State :=
  match v with
  | none => s.registerRead sender (.page u off) (pageAddr u off)
  | some v => s.command sender u off fun s => s.performWrite sender u off v

/-- REGISTER_WRITE (R5, R28, R430): an access to a doubleword of the control window. -/
def onRegisterWrite (sender : Sender) (u : UnitId) (off : BitVec 12) (v : Option Word) (s : State) : State :=
  if s.present u then s.pageAccess sender u off.toNat v
  else match s.unitInSlot (namedSlot u) with
    | some w => s.pageAccess sender w off.toNat v
    | none => s.unoccupiedAccess sender (namedSlot u) off.toNat v

/-! ### Posted device stores (R131, R132) -/

/-- The page that a device access reaches: stores of one core to one page are accepted in order (R132). -/
def DeviceTarget.samePage : DeviceTarget → DeviceTarget → Bool
  | .page u _, .page v _ => u == v
  | .seamPage n _, .seamPage m _ => n == m
  | .journal _, .journal _ => true
  | .unoccupied a _, .unoccupied b _ => a == b
  | .memory a, .memory b => a / 4096 == b / 4096
  | _, _ => false

/-- The posted stores of a core without the one at index `i`. -/
def State.dropPosted (s : State) (k i : Nat) : State := s.setCore k { s.core k with posted := (s.core k).posted.eraseIdx i }

/-- A device store to memory is performed at the memory channel (R71). -/
def State.deviceToMemory (s : State) (seam phys : Nat) (bytes : List Byte) : State :=
  if s.ownerAllows seam (phys / 128) then
    s.putMemLine (phys / 128) (maskRange (phys % 128) bytes.length) ⟨lineAtOffset (phys % 128) bytes, 0⟩
  else s.isolationFault seam

/-- The unit accepts the posted store at index `i`: it is performed. An error response at this point finds no instruction to end (log
entry 56). -/
def State.acceptPosted (s : State) (k : Nat) (kf : Fin 48) (i : Nat) : State :=
  match (s.core k).posted[i]? with
  | none => s
  | some p =>
    match p.target with
    | .memory phys => (s.dropPosted k i).deviceToMemory p.seam phys p.bytes
    | t => ((s.dropPosted k i).deviceWrite (.core kf) t (BitVec.ofNat 64 (beNat p.bytes))).1

/-- DEVICE_STORE_ACCEPT (R131): a unit accepts a posted device store of a core, the oldest of the core for its page. -/
def onDeviceStoreAccept (k : Fin 48) (i : BitVec 8) (s : State) : State :=
  match (s.core k).posted[i.toNat]? with
  | none => s
  | some p =>
    if ((s.core k).posted.take i.toNat).any fun q => q.target.samePage p.target then s else s.acceptPosted k k i.toNat

/-- Every posted device store of a core is accepted, oldest first, before an access that waits for them (R131). -/
def State.acceptAll (s : State) (k : Fin 48) : State :=
  State.each (s.core k).posted (fun _ s => s.acceptPosted k k 0) s

/-! ### Remote page accesses (R395, R400) -/

/-- Answer a remote access: RESULT as CPL_RA_CTL shows it, and the data (log entry 44). -/
def State.pageRsp (s : State) (g : Fin 4) (head : FrameHead) (result : Nat) (data : Word) : State :=
  s.cplSend g.val 0x22 head.tag.toNat (beBytes 1 result ++ wordBytes data)

/-- The page that a slot of this module holds, as a target. -/
def State.slotTarget (s : State) (slot off : Nat) : DeviceTarget :=
  match s.unitInSlot slot with
  | some u => .page u off
  | none => .unoccupied slot off

/-- PAGE_RD (R400): a remote page read is performed and answered. -/
def onPageRd (g : Fin 4) (head : FrameHead) (slot : BitVec 12) (off : BitVec 12) (s : State) : State :=
  s.cplFrame g.val head 3 4 fun s =>
    if off.toNat % 8 ≠ 0 then
      (match s.slotTarget slot.toNat off.toNat with
        | .page u o => s.accessError u o (some uComplex)
        | _ => s.accessError uModule off.toNat (some uComplex)).pageRsp g head 2 (BitVec.allOnes 64)
    else match s.deviceRead (s.slotTarget slot.toNat off.toNat) (some uComplex) with
      | (s, some w) => s.pageRsp g head 1 w
      | (s, none) => s.pageRsp g head 2 (BitVec.allOnes 64)

/-- PAGE_WR (R400): a remote page write is performed if its sender holds its cube and REMOTE_WR is 1, and answered. -/
def onPageWr (g : Fin 4) (head : FrameHead) (slot : BitVec 12) (off : BitVec 12) (data : Word) (holds : Bool) (s : State) : State :=
  s.cplFrame g.val head 3 13 fun s =>
    let sender : Sender := .remote holds
    if !s.fencePasses sender uModule 0x080 then s.pageRsp g head 3 0
    else match s.deviceWrite sender (s.slotTarget slot.toNat off.toNat) data with
      | (s, true) => s.pageRsp g head 2 0
      | (s, false) => s.pageRsp g head 1 0

/-! ### Haulers for seam 0 (R27, R369) -/

/-- An access of a window that is not of whole aligned doublewords gets an error response (R28, R29). -/
def State.windowMisplaced (s : State) (h : Fin 64) (addr : Nat) : State :=
  match s.windowTarget addr with
  | some (.page u off) => s.accessError u off (some (uHauler h.val))
  | some (.unoccupied _ off) => s.accessError uModule off (some (uHauler h.val))
  | _ => s

/-- A DMA source in a window: doublewords are read one by one; an address or length that is no multiple of 8 gets an error. -/
def State.windowIn (s : State) (h : Fin 64) (addr n : Nat) : State × List Byte × Bool :=
  if addr % 8 ≠ 0 ∨ n % 8 ≠ 0 then (s.windowMisplaced h addr, [], true)
  else (List.range (n / 8)).foldl (fun (a : State × List Byte × Bool) i =>
    if a.2.2 then a
    else match a.1.windowTarget (addr + 8 * i) with
      | none => (a.1, a.2.1, true)
      | some t => match a.1.deviceRead t (some (uHauler h.val)) with
        | (s, some w) => (s, a.2.1 ++ wordBytes w, false)
        | (s, none) => (s, a.2.1, true)) (s, [], false)

/-- A DMA target in a window. -/
def State.windowOut (s : State) (h : Fin 64) (addr : Nat) (l : List Byte) : State × Bool :=
  if addr % 8 ≠ 0 ∨ l.length % 8 ≠ 0 then
    (s.windowMisplaced h addr, true)
  else (List.range (l.length / 8)).foldl (fun (a : State × Bool) i =>
    if a.2 then a
    else match a.1.windowTarget (addr + 8 * i) with
      | none => (a.1, true)
      | some t => a.1.deviceWrite (.hauler h) t (BitVec.ofNat 64 (doublewordOf l i))) (s, false)

/-- DMA_DONE (R369): a transfer has been performed, and its channel ends. A memory address of seam 0 above main memory is one of a window
(R27). -/
def onDmaDone (h : Fin 64) (c : Fin 16) (s : State) : State :=
  let d := (s.hauler h.val).dmaAt c.val
  if !d.busy ∨ (s.hauler h.val).mode = .clearing then s
  else if hfield d.ctl 4 7 = 1 ∧ s.dmaTag h d = 0 ∧ 0x080000000000 ≤ d.src then
    match s.windowIn h d.src d.len with
    | (s, l, false) => ((s.putPitBytes h d.dst l).countWords h l.length).dmaEnd h c 0
    | (s, _, true) => s.dmaEnd h c 1
  else if hfield d.ctl 8 11 = 1 ∧ s.dmaTag h d = 0 ∧ 0x080000000000 ≤ d.dst then
    match (List.range (d.len / 2)).find? fun i => s.pitIsBad h (d.src + i) with
    | some i => (s.pitError h ((d.src + i) % 65536)).dmaEnd h c 1
    | none =>
      match s.windowOut h d.dst (s.pitBytes h d.src d.len) with
      | (s, false) => (s.countWords h d.len).dmaEnd h c 0
      | (s, true) => s.dmaEnd h c 1
  else if hfield d.ctl 4 7 = 0 then s.dmaOut h c d else s.dmaIn h c d

/-! ### The commands as the queue gives them -/

def execRegisterWrite (sender : Sender) (u : UnitId) (off : BitVec 12) (v : Option Word) (s : State) : Answer := s.run (onRegisterWrite sender u off v)
def execClrOwn (sender : Sender) (u : UnitId) (s : State) : Answer := s.run (onClrOwn sender u)
def execClrOne (sender : Sender) (u : UnitId) (index : BitVec 8) (s : State) : Answer := s.run (onClrOne sender u index)
def execCqHeadWrite (seam : Fin 64) (head : BitVec 20) (s : State) : Answer := s.run (onCqHeadWrite seam head)
def execDeviceStoreAccept (k : Fin 48) (n : BitVec 8) (s : State) : Answer := s.run (onDeviceStoreAccept k n)
def execDmaDone (h : Fin 64) (c : Fin 16) (s : State) : Answer := s.run (onDmaDone h c)
def execPageRd (g : Fin 4) (head : FrameHead) (slot : BitVec 12) (off : BitVec 12) (s : State) : Answer := s.run (onPageRd g head slot off)
def execPageWr (g : Fin 4) (head : FrameHead) (slot : BitVec 12) (off : BitVec 12) (data : Word) (holds : Bool) (s : State) : Answer :=
  s.run (onPageWr g head slot off data holds)

end Sys2Proof.Machine
end

