-- ==== Sys2Proof/Machine/Ops.lean ====
section
/-! DEFINITION. What the Ezxis instructions share: when a core executes, the retirement group (R79, R80), the fetch (R54, R66, R73),
taking an exception or interruption (R72-R76, R457) and returning from one (R77), and how an instruction ends. -/

namespace Sys2Proof.Machine

/-! ### When a core executes -/

/-- Does the core execute the instructions of its work unit (log entry 9)? -/
def State.coreRuns (s : State) (k : Nat) : Bool :=
  (s.core k).wu.isSome && (s.core k).active && s.operates (uCore k) && !s.stopped && !s.loadDue k

/-- Does the core still hold a work unit? -/
def State.holdsWork (s : State) (k : Nat) : Bool := (s.core k).wu.isSome

/-! ### Retirement groups (R80, R126, R193) -/

/-- The group in progress is compared equal and retires; a store buffer without room for its stores drains first (R126; log entry 58). -/
def State.retireGroup (s : State) (k : Nat) : State := (if s.groupRoom k then s else s.drainAll k).compared k

/-- A closed group retires before the next instruction executes. -/
def State.openGroup (s : State) (k : Nat) : State := if (s.core k).group.closed then s.retireGroup k else s

/-- The instructions of the group before one that is performed outside the core are compared: their results form an intermediate checkpoint,
and their stores enter the store buffer (R194 stage 1). The group goes on. -/
def State.stage1 (s : State) (k : Nat) : State :=
  let s := if s.groupRoom k then s else s.drainAll k
  let c := s.core k
  if c.group.count = 0 then s
  else (s.setCore k { c with storeBuf := c.storeBuf ++ c.group.stores, group := { c.group with stores := [] } }).formCkpt k

/-- The architectural state becomes the last compared checkpoint, with nothing after it. -/
def State.commit (s : State) (k : Nat) : State :=
  let c := s.core k
  s.setCore k { c with
    ckpt := { c.ckpt with arch := c.arch, seq := c.ckpt.seq + 1, valid := true, image := c.tlb.take 127 }, group := Group.empty }

/-- Retire every earlier group and drain the store buffer and the store-gather buffer (R79, R128). -/
def State.settleCore (s : State) (k : Nat) : State := (s.retireGroup k).drainAll k

/-- Compare what comes before an instruction of the group, and drain the store buffer and the store-gather buffer (R79, R128, R194). -/
def State.settleEarlier (s : State) (k : Nat) : State := (s.stage1 k).drainAll k

/-- No BARS of core `k` waits any more (R124). -/
def State.clearBars (s : State) (k : Nat) : State := s.setCore k { s.core k with bars := false }

/-- As `settleEarlier`, and every earlier device store has been accepted (R131). -/
def State.settleAll (s : State) (k : Fin 48) : State := ((s.settleEarlier k).acceptAll k).clearBars k

/-- What a BARS holds back comes when its wait has ended (R124): the store buffer is empty and earlier device stores are accepted. -/
def State.barsEnd (s : State) (k : Fin 48) : State :=
  if (s.core k).bars then ((s.drainAll k).acceptAll k).clearBars k else s

/-- An instruction belongs to the group in progress, whose first one it may be. -/
def State.counted (s : State) (k : Nat) : State :=
  let c := s.core k
  let g := c.group
  s.setCore k { c with group := { g with count := g.count + 1, first := if g.count = 0 then c.arch.ia else g.first } }

/-- An instruction has executed: IA takes its next value, and the group counts it and closes after 8, or at once. -/
def State.completed (s : State) (k : Nat) (ia : Word) (close : Bool) : State :=
  let s := s.counted k
  let c := s.core k
  s.setCore k { c with
    arch := { c.arch with ia := ia }, group := { c.group with closed := close || decide (8 ≤ c.group.count) } }

/-- An instruction that was performed outside the core ends its group (R194): with a response, stage 2 compares what follows from it;
without one stage 2 compares nothing. -/
def State.onceEnd (s : State) (k : Nat) : State := if (s.core k).group.performed then s.formCkpt k else s.retireGroup k

/-! ### Taking an exception or an interruption (R74-R76) -/

/-- IVBASE (R87). -/
def Arch.ivbase (a : Arch) : Word := a.c 8 &&& 0xFFFFFFFFFFFFF000#64

/-- The vector offset of a class, 1 to 5 (R74). -/
def vectorOffset (cls : Nat) : Word := BitVec.ofNat 64 ((cls - 1) * 0x100)

/-- SW as the handler starts with it: supervisor state, INH 1, MCK, EXT and IO 0; TR and CC are kept (R75). -/
def handlerSw (sw : Word) : Word := ((sw.setField 0 1 1).setField 3 3 1).setField 4 6 0

/-- Steps 2 to 4 of R75: `ia` goes to OLDIA, SW to OLDSW, the cause to c12 and c13. -/
def Arch.enter (a : Arch) (cls icode : Nat) (xaddr ia : Word) : Arch :=
  let b := (((a.setC 10 ia).setC 11 a.sw).setC 12 (BitVec.ofNat 64 (cls * 2 ^ 48 + icode % 2 ^ 48))).setC 13 xaddr
  { b with sw := handlerSw a.sw, ia := a.ivbase + vectorOffset cls }

/-- An interruption of a class is taken (R75): the buffers drain, and the handler starts. XADDR of a cause that has none is a free value
(log entry 59). -/
def State.enter (s : State) (k cls icode : Nat) (xaddr : Option Word) (ia : Word) : State :=
  let s := s.settleCore k
  if !s.holdsWork k then s
  else
    let x := match xaddr with
      | some w => (s, w)
      | none => s.freeValue
    (x.1.setArch k ((x.1.arch k).enter cls icode x.2 ia)).commit k

/-- The work unit of a core ends as failed by a double exception (R76): STATUS 0x11. -/
def State.doubleException (s : State) (k : Nat) : State :=
  let s := s.settleCore k
  match (s.core k).wu with
  | some num => (s.endWork num 0x11).coreFreed k
  | none => s

/-- A program exception or a supervisor call is taken, or is a double exception while INH is 1. Its instruction closes the group that it
belongs to, which compares equal first (R80, R117). -/
def State.enterSync (s : State) (k cls icode : Nat) (xaddr : Option Word) (ia : Word) : State :=
  let s := s.counted k
  if (s.arch k).sw.bit 3 then s.doubleException k else s.enter k cls icode xaddr ia

/-- Has the program-interruption code an XADDR (R73)? -/
def codeHasAddr (code : Nat) : Bool := decide (4 ≤ code) && decide (code ≤ 7)

/-- The specification, operation and privileged-operation exceptions. -/
def excOperation : Exc := .program 1 0
def excPrivileged : Exc := .program 2 0
def excSpec : Exc := .program 3 0

/-- An exception of the current instruction of core `k`, which is nullified: `s0` is the state before it. -/
def State.raiseExc (s0 s : State) (k : Nat) (x : Exc) : State :=
  let ia := (s.arch k).ia
  match x with
  | .wait => s0
  | .gone => s
  | .program code xaddr => s.enterSync k 2 code (if codeHasAddr code then some xaddr else none) ia
  | .machineCheck code icode xaddr =>
    let s := s.counted k
    if !(s.arch k).sw.bit 4 ∨ (s.arch k).sw.bit 3 then s.doubleException k
    else s.enter k 1 (icode * 65536 + code) (some xaddr) ia
  | .checkstop cause =>
    let seam := s.seamOf k
    if cause = 3 then s.isolationFault seam else if cause = 6 then s.mapFault seam else s.checkstopSeam seam cause

/-- RFI (R77): SW and IA come back from OLDSW and OLDIA; none for values that R52 or R49 refuses. -/
def Arch.returned (a : Arch) : Option Arch :=
  if swValid (a.c 11) && !(a.c 10).getLsbD 0 then some { a with sw := a.c 11, ia := a.c 10 } else none

/-! ### Fetching (R54, R66, R73) -/

/-- The length of an instruction by its first byte (R54). -/
def lengthOf (first : Byte) : Nat := if !first.getLsbD 7 then 4 else if !first.getLsbD 6 then 2 else 6

/-- The halfwords of an instruction whose fetch is translated and brings in a line: the first, and the first of a new line. -/
def fetchPoints (ia : Word) (len : Nat) : List Word :=
  ((List.range (len / 2)).map fun i => ia + BitVec.ofNat 64 (2 * i)).filter fun a => a == ia || a.toNat % 128 == 0

/-- The L1I prefetches the next two sequential lines on a miss, within the 4 KiB or 1 MiB page of the fetch (R146, R147). In a large page
of a program seam each 64 KiB granule is mapped by itself (R258). -/
def State.fetchAhead (s : State) (k seam : Nat) (r : Reached) (va : Word) : State :=
  if !s.flag (uCore k) Reg.L1_CFG.L1I_NL_EN then s
  else
    let page := if r.leaf.any Translation.big then 1048576 else 4096
    State.each [1, 2] (fun i s =>
      let ahead := r.abs / 128 * 128 + 128 * i
      if ahead / page ≠ r.abs / page ∨ s.missFull (k / 12) = true then s
      else match s.mapAbs seam ahead with
        | .ok phys => match s.getShared k (phys / 128) seam true (inWindow ((s.arch k).c 25) (va.toNat / 128 * 128 + 128 * i)) with
          | .ok t _ => t
          | _ => s
        | _ => s) s

/-- Bring in the halfwords of an instruction from `va` to the end of its line. -/
def State.fetchAt (s : State) (k : Nat) (va : Word) (left : Nat) : State × Option Exc :=
  match s.reach k va .fetch with
  | (s, .error x) => (s, some x)
  | (s, .ok r) =>
    let seam := s.seamOf k
    match r.place with
    | .device _ => (s, some (.program 5 va))
    | .memory phys mt =>
      let s := s.markReached k r .fetch
      if !s.holdsWork k then (s, some .gone) else
      let n := min left (128 - phys % 128)
      let line := phys / 128
      let check (s : State) (d : LineData) : State × Option Exc :=
        match (List.range (n / 2)).find? fun i => d.poisoned (phys % 128 + 2 * i) 2 with
        | some i => (s, some (.machineCheck 0x0102 0 (va + BitVec.ofNat 64 (2 * i))))
        | none => (s, none)
      if mt = .uncached then
        if !s.ownerAllows seam line then (s, some (.checkstop 3))
        else match s.memLine line with
          | some d => check (s.memTouch line) d
          | none => (s, some (.program 4 va))
      else
        let miss := (s.peek (.l1i k) line).isNone
        match s.getShared k line seam true (inWindow ((s.arch k).c 25) va.toNat) with
        | .ok t d => check (if miss then t.fetchAhead k seam r va else t) d
        | .wait => (s, some .wait)
        | .refused => (s, some (.checkstop 3))
        | .unmapped => (s, some (.program 4 va))

/-- Fetch an instruction of `len` bytes at IA (R66, R73): the exception of the first halfword that cannot be fetched. -/
def State.fetch (s : State) (k len : Nat) : State × Option Exc :=
  let ia := (s.arch k).ia
  if ia.getLsbD 0 then (s, some excSpec)
  else (fetchPoints ia len).foldl (fun (a : State × Option Exc) va =>
    match a.2 with
    | some _ => a
    | none => a.1.fetchAt k va (len - (va - ia).toNat)) (s, none)

/-! ### How an instruction ends -/

/-- How the body of an instruction ends: executed, with the next instruction following and its group open or closed; executed, with IA
a new address; the work unit has left the core or has entered a handler; or an exception. -/
inductive Done where
  | next
  | close
  | jump (ia : Word) (close : Bool)
  | left
  | exc (x : Exc)
  deriving DecidableEq, Repr

/-- An instruction of `len` bytes on core `k`: fetched, then its body. -/
def State.instr (s : State) (k len : Nat) (body : State → State × Done) : State :=
  if !s.coreRuns k then s
  else
    let s1 := s.openGroup k
    if !s1.holdsWork k then s1
    else match s1.fetch k len with
      | (s2, some x) => s1.raiseExc s2 k x
      | (s2, none) =>
        let ia := (s2.arch k).ia
        match body s2 with
        | (s3, .next) => s3.completed k (ia + BitVec.ofNat 64 len) false
        | (s3, .close) => s3.completed k (ia + BitVec.ofNat 64 len) true
        | (s3, .jump t close) => s3.completed k t close
        | (s3, .left) => s3
        | (s3, .exc x) => s1.raiseExc s3 k x

/-- An instruction that only changes the architectural state. -/
def State.simple (s : State) (k len : Nat) (f : Arch → Arch) : State :=
  s.instr k len fun s => (s.setArch k (f (s.arch k)), .next)

/-- An instruction with a required condition on its fields: a specification exception where it fails. -/
def State.checked (ok : Bool) (body : State → State × Done) (s : State) : State × Done :=
  if ok then body s else (s, .exc excSpec)

/-- A privileged instruction (R53): a privileged-operation exception in problem state. -/
def State.privileged (k : Nat) (body : State → State × Done) (s : State) : State × Done :=
  if (s.arch k).problem then (s, .exc excPrivileged) else body s

/-- An instruction that the core executes from microcode (R215): a microword handled as uncorrectable ends it with the failure of the core.
-/
def State.microThen (k : Nat) (body : State → State × Done) (s : State) : State × Done :=
  let s := s.microcode k
  if s.holdsWork k then body s else (s, .left)

/-- The part of a once-only instruction that is performed outside the core (R79, R194): what comes before it is compared, the buffers drain
and device stores are accepted; afterwards the checkpoint lies after the instruction. The core executes it from microcode (R215, R216). -/
def State.onceOnly (k : Fin 48) (len : Nat) (body : State → State × Done) (s : State) : State × Done :=
  let s := (s.microcode k).settleAll k
  if !s.holdsWork k then (s, .left)
  else
    let ia := (s.arch k).ia
    match body s with
    | (s, .next) | (s, .close) => ((s.completed k (ia + BitVec.ofNat 64 len) true).onceEnd k, .left)
    | r => r

/-- The response of a once-only instruction is kept in the response buffer (R194). -/
def State.response (s : State) (k : Nat) (l : List Word) : State :=
  let c := s.core k
  s.setCore k { c with ckpt := { c.ckpt with resp := l }, group := { c.group with performed := true } }

end Sys2Proof.Machine
end

