-- ==== Sys2Proof/Machine/Access.lean ====
section
/-! DEFINITION. Loads and stores of Ezxis cores (R58, R59, R71, R120, R121, R126, R127, R131): pieces, forwarding from buffered stores,
normal and uncached memory, and device accesses. -/

namespace Sys2Proof.Machine

/-! ### Pieces (R121) -/

/-- The pieces of `n` bytes from an address that is not aligned on `n`: offset and length, each within an aligned 8-byte granule. -/
def splitPieces : Nat → Nat → Nat → Nat → List (Nat × Nat)
  | 0, _, _, _ => []
  | fuel + 1, addr, off, n =>
    if n = 0 then []
    else
      let m := min n (8 - addr % 8)
      (off, m) :: splitPieces fuel (addr + m) (off + m) (n - m)

/-- The pieces of an access. -/
def accessPieces (ea : Word) (n : Nat) : List (Nat × Nat) :=
  if ea.toNat % n = 0 then [(0, n)] else splitPieces 3 ea.toNat 0 n

/-- A piece that has been translated. -/
structure Piece where
  off : Nat
  len : Nat
  va : Word
  r : Reached
  deriving DecidableEq, Repr

/-- An exception of an operand has the operand's address as XADDR (R73). -/
def Exc.atOperand (x : Exc) (ea : Word) : Exc :=
  match x with
  | .program c _ => .program c ea
  | x => x

/-- The exception that is reported of two (R73). -/
def worstOf (a : Option Exc) (x : Exc) : Option Exc :=
  match a with
  | none => some x
  | some y => if x.rank < y.rank then some x else some y

/-- Device accesses must be naturally aligned (R71). -/
def misplaced (r : Reached) (ea : Word) (n : Nat) : Bool :=
  match r.place with
  | .memory _ .device | .device _ => ea.toNat % n != 0
  | _ => false

/-- An access of a unit page or a seam page by core `k` that is no aligned doubleword gets an error response, which the page records (R28,
R29, R44). -/
def State.narrowAccess (s : State) (k : Nat) (t : DeviceTarget) : State :=
  match t with
  | .page u off => s.accessError u off (some (uCore k))
  | .seamPage _ off => s.seamPageError off (some (uCore k))
  | .unoccupied _ off => s.accessError uModule off (some (uCore k))
  | _ => s

/-- What a misaligned device access leaves at a page that it names: the error response of R28 and R44. The instruction raises the
specification exception of R71, whose code is lower than that of the access exception (R73; log entry 103). -/
def State.misplacedError (s : State) (k : Nat) (r : Reached) : State :=
  match r.place with
  | .device t => s.narrowAccess k t
  | .memory _ _ => s

/-- Translate and check every piece of an access before any is performed (R72); a piece that passes marks its leaf (R67). -/
def State.reachAll (s : State) (k : Nat) (ea : Word) (n : Nat) (acc : Acc) : State × Except Exc (List Piece) :=
  let r := (accessPieces ea n).foldl (fun (a : State × List Piece × Option Exc) p =>
    let va := ea + BitVec.ofNat 64 p.1
    match a.1.reach k va acc with
    | (s, .error x) =>
      let x := if ea.toNat % n ≠ 0 then s.lowerCode k va (· == .device) x else x
      (s, a.2.1, worstOf a.2.2 (x.atOperand ea))
    | (s, .ok r) =>
      if misplaced r ea n then (s.misplacedError k r, a.2.1, worstOf a.2.2 excSpec)
      else (s.markReached k r acc, a.2.1 ++ [⟨p.1, p.2, va, r⟩], a.2.2)) (s, [], none)
  match r.2.2 with
  | some x => (r.1, .error x)
  | none => if r.1.holdsWork k then (r.1, .ok r.2.1) else (r.1, .error .gone)

/-! ### Stores on their way to memory (R126, R127, R129) -/

/-- Do two byte ranges overlap? -/
def rangesMeet (a n b m : Nat) : Bool := decide (a < b + m) && decide (b < a + n)

/-- The stores of a core that a load may take its value from, youngest first: those of its group, then those of its store buffer. -/
def CoreSt.youngStores (c : CoreSt) : List BufStore := (c.storeBuf ++ c.group.stores).reverse

/-- The bytes that a load takes from the youngest store to them, where that holds them all (R127). -/
def CoreSt.forward (c : CoreSt) (phys n : Nat) : Option (List Byte) :=
  match c.youngStores.find? fun b => rangesMeet b.phys b.bytes.length phys n with
  | some b => if b.phys ≤ phys ∧ phys + n ≤ b.phys + b.bytes.length then some ((b.bytes.drop (phys - b.phys)).take n) else none
  | none => none

/-- Does a load meet stores of its core that it does not take its value from whole? Then it waits until they have left the buffers. -/
def CoreSt.meetsStores (c : CoreSt) (phys n : Nat) : Bool :=
  (c.forward phys n).isNone &&
    (c.youngStores.any (fun b => rangesMeet b.phys b.bytes.length phys n)
      || c.gather.any fun g => g.line == phys / 128 && (g.mask &&& maskRange (phys % 128) n) != 0)

/-- The physical addresses of the pieces of an access that lie in memory. -/
def memoryPieces (l : List Piece) : List (Nat × Nat) :=
  l.filterMap fun p => match p.r.place with
    | .memory phys _ => some (phys, p.len)
    | .device _ => none

/-! ### Loads -/

/-- The bytes of a line from an offset. -/
def LineData.bytesAt (d : LineData) (off n : Nat) : List Byte := (List.range n).map fun i => lineByte d.data (off + i)

/-- The bytes of an uncached read, which is performed at the memory channel (R71). -/
def State.uncachedRead (s : State) (seam phys n : Nat) (ea : Word) : State × Except Exc (List Byte) :=
  let line := phys / 128
  if !s.ownerAllows seam line then (s, .error (.checkstop 3))
  else match s.memLine line with
    | none => (s, .error (.program 4 ea))
    | some d =>
      if d.poisoned (phys % 128) n then (s.memTouch line, .error (.machineCheck 0x0101 0 ea))
      else (s.memTouch line, .ok (d.bytesAt (phys % 128) n))

/-- A read of normal cacheable memory through the core's caches. -/
def State.cachedRead (s : State) (k seam phys n : Nat) (ea va : Word) : State × Except Exc (List Byte) :=
  let stream := inWindow ((s.arch k).c 25) va.toNat
  match s.getShared k (phys / 128) seam false stream with
  | .ok s d =>
    if d.poisoned (phys % 128) n then (s, .error (.machineCheck 0x0101 0 ea)) else (s, .ok (d.bytesAt (phys % 128) n))
  | .wait => (s, .error .wait)
  | .refused => (s, .error (.checkstop 3))
  | .unmapped => (s, .error (.program 4 ea))

/-- A load of normal memory trains the trackers when its group retires (R146). -/
def State.noteLoad (s : State) (k : Nat) (p : Piece) : State :=
  let c := s.core k
  let l : LoadRec := { ia := c.arch.ia, virt := p.va.toNat, abs := p.r.abs, big := match p.r.leaf with | some t => t.big | none => false }
  s.setCore k { c with group := { c.group with loads := c.group.loads ++ [l] } }

/-- Read one piece of a load of memory. -/
def State.loadPiece (s : State) (k : Nat) (ea : Word) (p : Piece) : State × Except Exc (List Byte) :=
  match p.r.place with
  | .device _ => (s, .error (.program 4 ea))
  | .memory phys mt =>
    let seam := s.seamOf k
    match (s.core k).forward phys p.len, mt with
    | some l, .normal => (s.noteLoad k p, .ok l)
    | some l, _ => (s, .ok l)
    | none, .normal => (s.noteLoad k p).cachedRead k seam phys p.len ea p.va
    | none, _ => s.uncachedRead seam phys p.len ea

/-- Read the pieces of a load of memory: no store falls between them in one command, so their order shows nowhere (R121). -/
def State.loadPieces (s : State) (k : Nat) (ea : Word) (l : List Piece) : State × Except Exc (List Byte) :=
  l.foldl (fun (a : State × Except Exc (List Byte)) p =>
    match a.2 with
    | .error _ => a
    | .ok bytes => match a.1.loadPiece k ea p with
      | (s, .ok more) => (s, .ok (bytes ++ more))
      | (s, .error x) => (s, .error x)) (s, .ok [])

/-! ### Device accesses (R28, R44, R71, R131) -/

/-- A device load: the bytes, or the access exception of an error response. -/
def State.deviceLoad (s : State) (k : Nat) (ea : Word) (n : Nat) (place : Place) : State × Except Exc (List Byte) :=
  match place with
  | .memory phys _ => s.uncachedRead (s.seamOf k) phys n ea
  | .device (.journal off) => (s, .ok (beBytes n (s.journalWord off n)))
  | .device t =>
    if n ≠ 8 then (s.narrowAccess k t, .error (.program 4 ea))
    else match s.deviceRead t (some (uCore k)) with
      | (s, some w) => (s, .ok (wordBytes w))
      | (s, none) => (s, .error (.program 4 ea))

/-- The checks of R28 on a device store, made when it executes: an error response is a precise access exception. -/
def State.deviceStoreCheck (s : State) (k : Fin 48) (ea : Word) (n : Nat) (place : Place) : State × Option Exc :=
  match place with
  | .memory _ _ => (s, none)
  | .device t =>
    if n ≠ 8 then (s.narrowAccess k t, some (.program 4 ea))
    else match t with
      | .page u off =>
        match s.guardWrite (.core k) u off with
        | (s, .error) => (s, some (.program 4 ea))
        | (s, _) =>
          if u.type = .hauler ∧ off = Reg.PIT_DATA.DATA.off ∧ !s.haulerIdle u.inst then
            (s.accessError u off (some (uCore k)), some (.program 4 ea))
          else (s, none)
      | .journal _ => (s, some (.program 4 ea))
      | .unoccupied _ off => (s.accessError uModule off (some (uCore k)), some (.program 4 ea))
      | _ => (s, none)

/-- What a posted device store reaches. -/
def Place.target : Place → DeviceTarget
  | .device t => t
  | .memory phys _ => .memory phys

/-- A device store is posted (R131). -/
def State.post (s : State) (k : Nat) (t : DeviceTarget) (bytes : List Byte) : State :=
  let c := s.core k
  s.setCore k { c with posted := c.posted ++ [{ target := t, bytes := bytes, seam := s.seamOf k }] }

/-- Is a place device memory? -/
def Place.isDevice : Place → Bool
  | .device _ | .memory _ .device => true
  | _ => false

/-- The device place of an access, which has one piece. -/
def devicePlace (l : List Piece) : Option Place :=
  match l with
  | [p] => if p.r.place.isDevice then some p.r.place else none
  | _ => none

/-! ### Whole loads and stores -/

/-- The response of a device load in 64-bit words; a narrower one in a single word. -/
def responseWords (bytes : List Byte) : List Word :=
  if bytes.length < 8 then [BitVec.ofNat 64 (beNat bytes)] else (List.range (bytes.length / 8)).map fun i => wordOf bytes i

/-- A load of `n` bytes at `ea`: its bytes go to `use`, which may raise an exception. A load of device memory is once-only (R79). -/
def State.load (k : Fin 48) (len : Nat) (ea : Word) (n : Nat) (use : List Byte → Arch → Except Exc Arch) (s : State) : State × Done :=
  let apply (s : State) (bytes : List Byte) : State × Done :=
    match use bytes (s.arch k) with
    | .ok a => (s.setArch k a, .next)
    | .error x => (s, .exc x)
  match s.reachAll k ea n .load with
  | (s, .error x) => (s, .exc x)
  | (s, .ok ps) =>
    match devicePlace ps with
    | some place =>
      State.onceOnly k len (fun s =>
        match s.deviceLoad k ea n place with
        | (s, .error x) => (s, .exc x)
        | (s, .ok bytes) => apply (s.response k (responseWords bytes)) bytes) s
    | none =>
      let s := if (memoryPieces ps).any fun p => (s.core k).meetsStores p.1 p.2 then s.settleEarlier k else s
      if !s.holdsWork k then (s, .left)
      else match s.loadPieces k ea ps with
        | (s, .error x) => (s, .exc x)
        | (s, .ok bytes) => apply s bytes

/-- A list in one of its orders, which a number selects. -/
def inOrder {α : Type} : Nat → Nat → List α → List α
  | 0, _, l => l
  | _, _, [] => []
  | fuel + 1, n, x :: l =>
    let i := n % (l.length + 1)
    let y := (x :: l).getD i x
    y :: inOrder fuel (n / (l.length + 1)) ((x :: l).eraseIdx i)

/-- The order in which the pieces of a store are performed: any one (R121), a free value where there are several (log entry 111). -/
def State.pieceOrder (s : State) (ps : List Piece) : State × List Piece :=
  if ps.length ≤ 1 then (s, ps)
  else
    let v := s.freeValue
    (v.1, inOrder 3 v.2.toNat ps)

/-- The stores of the pieces of an access, in their order; `c25` gives the streaming window (R148). -/
def storesOf (seam : Nat) (c25 : Word) (ps : List Piece) (bytes : List Byte) : List BufStore :=
  ps.filterMap fun p => match p.r.place with
    | .memory phys mt =>
      some { phys := phys, mt := mt, bytes := (bytes.drop p.off).take p.len, seam := seam, stream := inWindow c25 p.va.toNat }
    | .device _ => none

/-- Add stores to the group of a core: they enter the store buffer when it retires (R126). -/
def State.groupStores (s : State) (k : Nat) (l : List BufStore) : State :=
  let c := s.core k
  s.setCore k { c with group := { c.group with stores := c.group.stores ++ l } }

/-- A store of `n` bytes at `ea`. Once its pieces have passed their checks, `make` gives the bytes and the architectural state after
the instruction, or an exception. A store of device memory is once-only and posted (R79, R131). An earlier BARS holds it back (R124). -/
def State.store (k : Fin 48) (len : Nat) (ea : Word) (n : Nat) (make : Arch → Except Exc (List Byte × Arch)) (s : State) :
    State × Done :=
  match (s.barsEnd k).reachAll k ea n .store with
  | (s, .error x) => (s, .exc x)
  | (s, .ok ps) =>
    match make (s.arch k) with
    | .error x => (s, .exc x)
    | .ok (bytes, a) =>
      match devicePlace ps with
      | some place =>
        match s.deviceStoreCheck k ea n place with
        | (s, some x) => (s, .exc x)
        | (s, none) =>
          let s := s.settleEarlier k
          if !s.holdsWork k then (s, .left)
          else
            let s := ((s.setArch k a).post k place.target bytes).completed k (a.ia + BitVec.ofNat 64 len) true
            (s.retireGroup k, .left)
      | none =>
        let o := s.pieceOrder ps
        ((o.1.setArch k a).groupStores k (storesOf (s.seamOf k) (a.c 25) o.2 bytes), .next)

/-- A load with an address form. -/
def State.loadForm (s : State) (k : Fin 48) (f : AddrForm) (even : Bool) (n : Nat) (use : List Byte → Arch → Except Exc Arch) : State :=
  s.instr k f.length fun s =>
    match (s.arch k).address f with
    | none => (s, .exc excSpec)
    | some ea => if even then s.load k f.length ea n use else (s, .exc excSpec)

/-- A store with an address form. -/
def State.storeForm (s : State) (k : Fin 48) (f : AddrForm) (even : Bool) (n : Nat)
    (make : Arch → Except Exc (List Byte × Arch)) : State :=
  s.instr k f.length fun s =>
    match (s.arch k).address f with
    | none => (s, .exc excSpec)
    | some ea => if even then s.store k f.length ea n make else (s, .exc excSpec)

end Sys2Proof.Machine
end

