-- ==== Sys2Proof/Machine/Atomics.lean ====
section
/-! DEFINITION. The atomic instructions of Ezxis cores (R122, R123, R182) and the timeout of a tile's transaction (R183). -/

namespace Sys2Proof.Machine

/-- How an atomic ends at the place that carries it out: the old value, or why the instruction is nullified. -/
abbrev AtomicEnd := State × Except Exc Nat

/-- An atomic on normal uncached memory is performed at the memory channel (R182). -/
def State.atomicUncached (s : State) (seam line : Nat) (a : AtomicReq) (ea : Word) : AtomicEnd :=
  if !s.ownerAllows seam line then (s, .error (.checkstop 3))
  else match s.memLine line with
    | none => (s, .error (.program 4 ea))
    | some d =>
      let s := s.memTouch line
      if d.poisoned a.off a.size then (s, .error (.machineCheck 0x0101 0 ea))
      else (s.putMemLine line maskAll (a.perform d), .ok (d.value a.off a.size))

/-- WA (R175, R182): the home agent of a line whose entry is HOT recalls every copy and performs the atomic. -/
def State.atomicAtHome (s : State) (t home line seam : Nat) (a : AtomicReq) (ea : Word) : AtomicEnd :=
  if !s.ownerAllows seam line then (s, .error (.checkstop 3))
  else
    let s := ((s.ringCount t false).l3Miss t line).homeTouch line
    let r := s.killTiles (s.dirEntry home line).holders line
    let d := match r.2 with
      | some d => d
      | none => r.1.memData line
    let s := r.1.setDir home line DirEntry.empty
    if d.poisoned a.off a.size then (s.putMemLine line maskAll d, .error (.machineCheck 0x0101 0 ea))
    else ((s.putMemLine line maskAll (a.perform d)).count (uHome home) Reg.HOME_ATOM.AT_HOME, .ok (d.value a.off a.size))

/-- An atomic in the core's L2, which holds the line in M (R182). -/
def State.atomicOwned (s : State) (k line seam : Nat) (a : AtomicReq) (ea : Word) : AtomicEnd :=
  match s.getOwned k line seam (inWindow ((s.arch k).c 25) ea.toNat) with
  | .wait => (s, .error .wait)
  | .refused => (s, .error (.checkstop 3))
  | .unmapped => (s, .error (.program 4 ea))
  | .ok s d =>
    if d.poisoned a.off a.size then (s, .error (.machineCheck 0x0101 0 ea))
    else (s.writeOwned k line (maskRange a.off a.size) (a.perform d).data, .ok (d.value a.off a.size))

/-- Is this the value of an atomic that a core has asked for? -/
def AtmVal.isFor (v : AtmVal) (k line : Nat) (a : AtomicReq) : Bool := v.core == k && v.line == line && v.req == a

/-- An atomic on normal cacheable memory (R172, R175, R182): RdX.A where the tile holds no copy, performed at home while the entry is HOT.
One that the core's ring request has had performed at the home has its value already (R123). -/
def State.atomicCached (s0 : State) (k line seam : Nat) (a : AtomicReq) (ea : Word) : AtomicEnd :=
  let t := k / 12
  let s := s0.awaitLine line
  match s.atmVals.find? fun v => v.isFor k line a with
  | some v =>
    let s : State := { s with atmVals := s.atmVals.erase v }
    if v.old.poisoned a.off a.size then (s, .error (.machineCheck 0x0101 0 ea)) else (s, .ok (v.old.value a.off a.size))
  | none =>
    if !s.quiet line then (s, .error .wait)
    else match s.homeAgent line with
      | none => (s, .error (.program 4 ea))
      | some home =>
        if s.tileState t line ≠ .i then s.atomicOwned k line seam a ea
        else if s.isHot home (s.dirEntry home line) then s.atomicAtHome t home line seam a ea
        else match s.atomicOwned k line seam a ea with
          | (s, .ok v) => (s.count (uHome home) Reg.HOME_ATOM.GRANTED, .ok v)
          | r => r

/-- CC after an atomic (R122). -/
def atomicCc (op : AtomicOp) (w : Bool) (old : Nat) (cmp val : Word) : Option Nat :=
  match op with
  | .cswp => some (if old = srcU w cmp then 0 else 1)
  | .swp => none
  | .ladd => some (ccArith w (srcS w (BitVec.ofNat 64 old) + srcS w val))

/-- The architectural state after an atomic that found `old` (R122). -/
def Arch.afterAtomic (a : Arch) (op : AtomicOp) (w : Bool) (r1 r3 : BitVec 5) (old : Nat) : Arch :=
  let b := a.setG r1 (resultOf w (Int.ofNat old))
  match atomicCc op w old (a.gr r1) (a.gr r3) with
  | some cc => b.setCc cc
  | none => b

/-- An atomic instruction: checked as a store, it sets A and D, and is once-only (R122, R123). -/
def State.atomic (s : State) (k : Fin 48) (op : AtomicOp) (w : Bool) (r1 r2 r3 : BitVec 5) : State :=
  s.instr k 4 fun s =>
    let ea := (s.arch k).gr r2
    let size := widthOf w / 8
    if ea.toNat % size ≠ 0 then (s, .exc excSpec)
    else match s.reach k ea .store with
      | (s, .error x) => (s, .exc (s.lowerCode k ea (· == .device) x))
      | (s, .ok r) =>
        match r.place with
        | .device _ | .memory _ .device => (s, .exc excSpec)
        | .memory phys mt =>
          State.onceOnly k 4 (fun s =>
            let a := s.arch k
            let req : AtomicReq := { op := op, off := phys % 128, size := size, cmp := a.gr r1, val := a.gr r3 }
            let q := if mt = .uncached then s.atomicUncached (s.seamOf k) (phys / 128) req ea
              else s.atomicCached k (phys / 128) (s.seamOf k) req ea
            match q with
            | (s, .error x) => (s, .exc x)
            | (s, .ok old) =>
              ((s.setArch k (a.afterAtomic op w r1 r3 old)).response k [resultOf w (Int.ofNat old)], .close)) (s.markReached k r .store)

def onCswp (k : Fin 48) (w : Bool) (r1 r2 r3 : BitVec 5) (s : State) : State := s.atomic k .cswp w r1 r2 r3
def onSwp (k : Fin 48) (w : Bool) (r1 r2 r3 : BitVec 5) (s : State) : State := s.atomic k .swp w r1 r2 r3
def onLadd (k : Fin 48) (w : Bool) (r1 r2 r3 : BitVec 5) (s : State) : State := s.atomic k .ladd w r1 r2 r3

/-! ### A tile transaction that does not complete (R183) -/

/-- Does a store of this core belong to a line? -/
def storeOfLine (line : Nat) (b : BufStore) : Bool := b.phys / 128 == line

/-- The stores of a core that wait for ownership of a line are discarded, and the owning seam is checkstopped, as in R138. -/
def State.loseStores (s : State) (k line seam : Nat) : State :=
  let c := s.core k
  (s.setCore k { c with
    storeBuf := c.storeBuf.filter fun b => !storeOfLine line b, gather := c.gather.filter fun g => g.line != line }).lostStore k seam

/-- A read or an atomic of a core receives poisoned data (R183, R457). The address that it waits for is not in the transaction: XADDR is a
free value (log entry 65). -/
def State.timedOutRead (s : State) (k : Nat) : State :=
  if !s.coreRuns k then s
  else
    let v := s.freeValue
    v.1.raiseExc v.1 k (.machineCheck 0x0101 0 v.2)

/-- TILE_TRANSACTION_TIMEOUT (R183): a transaction not completed 20 µs after the tile controller sent its request ends. TIMEOUTS
wraps (log entry 10). -/
def onTileTransactionTimeout (t : Fin 4) (line : BitVec 28) (s : State) : State :=
  let ln := line.toNat
  match s.tileTx t ln with
  | none => s
  | some x =>
    let request := x.tx == .is || x.tx == .im || x.tx == .sm || x.tx == .om
    if !request ∨ s.now < x.since + 20000 then s
    else
      let u : UnitId := ⟨.ring, t.val⟩
      let s := (s.closeTileTx t ln).stick u Reg.SHF_TCC_ERR.TIMEOUT none (BitVec.ofNat 64 ln)
      let s := (s.count u Reg.SHF_TCC_ERR.TIMEOUTS).wakeRing t.val
      if x.tx = .is ∨ x.atomic.isSome then s.timedOutRead x.core else s.loseStores x.core ln x.seam

/-! ### The commands as the queue gives them -/

def execCswp (k : Fin 48) (w : Bool) (r1 r2 r3 : BitVec 5) (s : State) : Answer := s.run (onCswp k w r1 r2 r3)
def execSwp (k : Fin 48) (w : Bool) (r1 r2 r3 : BitVec 5) (s : State) : Answer := s.run (onSwp k w r1 r2 r3)
def execLadd (k : Fin 48) (w : Bool) (r1 r2 r3 : BitVec 5) (s : State) : Answer := s.run (onLadd k w r1 r2 r3)
def execTileTransactionTimeout (t : Fin 4) (line : BitVec 28) (s : State) : Answer := s.run (onTileTransactionTimeout t line)

end Sys2Proof.Machine
end

