-- ==== Sys2Proof/Machine/Rounding.lean ====
section
/-! DEFINITION. Floating-point numbers as sign, coefficient and exponent in base 2 or 10, and the rounding that both bases share
(R100, R104, R105). -/

namespace Sys2Proof.Machine

/-- A floating-point datum: a number coefficient × base^exponent, an infinity, or a NaN with its payload. -/
inductive FVal where
  | num (neg : Bool) (coef : Nat) (exp : Int)
  | inf (neg : Bool)
  | nan (neg signal : Bool) (payload : Nat)
  deriving DecidableEq, Repr

/-- A format: base, digits of precision, smallest and largest exponent of a coefficient of full precision. -/
structure Format where
  base : Nat
  digits : Nat
  qmin : Int
  qmax : Int
  deriving DecidableEq, Repr

def binary64 : Format := { base := 2, digits := 53, qmin := -1074, qmax := 971 }
def binary32 : Format := { base := 2, digits := 24, qmin := -149, qmax := 104 }
def decimal64 : Format := { base := 10, digits := 16, qmin := -398, qmax := 369 }
def decimal128 : Format := { base := 10, digits := 34, qmin := -6176, qmax := 6111 }

/-- The number of decimal digits of a coefficient; 0 for 0. Three steps mend the estimate from its binary length. -/
def decDigits (n : Nat) : Nat :=
  if n = 0 then 0
  else (List.range 3).foldl (fun d _ => if 10 ^ d ≤ n then d + 1 else d) (Nat.log2 n * 30103 / 100000)

/-- The number of base-`b` digits of a coefficient; 0 for 0. -/
def digitsOf (b n : Nat) : Nat := if b = 2 then (if n = 0 then 0 else Nat.log2 n + 1) else decDigits n

/-- `n` digits dropped from a coefficient, with `sticky` for a non-zero part below it: the quotient, and how what is dropped compares with
one half of its last place (0 nothing, 1 below, 2 half, 3 above). -/
def dropDigits (b coef n : Nat) (sticky : Bool) : Nat × Nat :=
  let p := b ^ n
  let r := coef % p
  (coef / p,
    if r = 0 ∧ !sticky then 0
    else if 2 * r < p then 1
    else if 2 * r = p ∧ n ≠ 0 then (if sticky then 3 else 2)
    else if n = 0 then 1
    else 3)

/-- Does a rounding mode take the magnitude up (R100)? -/
def RMode.up (m : RMode) (neg odd : Bool) (rest : Nat) : Bool :=
  match m with
  | .rne => rest == 3 || (rest == 2 && odd)
  | .rtz => false
  | .rtp => rest != 0 && !neg
  | .rtn => rest != 0 && neg
  | .rna => rest == 3 || rest == 2

/-- A coefficient rounded to the exponent `q`, which is not below its own: the new coefficient, and whether it is inexact. -/
def roundAt (b : Nat) (m : RMode) (neg : Bool) (coef : Nat) (exp q : Int) (sticky : Bool) : Nat × Bool :=
  let d := dropDigits b coef (q - exp).toNat sticky
  (if m.up neg (d.1 % 2 = 1) d.2 then d.1 + 1 else d.1, d.2 != 0)

/-- The largest finite coefficient of a format. -/
def Format.maxCoef (f : Format) : Nat := f.base ^ f.digits - 1

/-- What an overflow delivers: infinity, or the largest finite value where the mode rounds toward zero (R111, R112). -/
def Format.overflow (f : Format) (m : RMode) (neg : Bool) : FVal :=
  let toMax := match m with
    | .rtz => true
    | .rtp => neg
    | .rtn => !neg
    | _ => false
  if toMax then .num neg f.maxCoef f.qmax else .inf neg

/-- A non-zero value rounded to a format: the datum and the exceptions O, U and X. Tininess is detected before rounding (R105). A value
with a part below its coefficient (`sticky`) has more digits than the format. An exact result keeps its coefficient and exponent as far
as the format allows. -/
def Format.round (f : Format) (m : RMode) (neg : Bool) (coef : Nat) (exp : Int) (sticky : Bool) : FVal × Raised :=
  let len : Int := digitsOf f.base coef
  let full : Int := max (if len ≤ f.digits then exp else exp + (len - f.digits)) f.qmin
  let r := if full ≤ exp then (coef, sticky) else roundAt f.base m neg coef exp full sticky
  -- a carry out of the last digit
  let carried := digitsOf f.base r.1 = f.digits + 1
  let c := if carried then r.1 / f.base else r.1
  let e := if carried then full + 1 else full
  let tiny := decide (exp + len ≤ f.qmin + f.digits - 1)
  if f.qmax + f.digits < e + digitsOf f.base c then (f.overflow m neg, raiseO ||| raiseX)
  else (.num neg c e, (if r.2 then raiseX else 0) ||| (if tiny && r.2 then raiseU else 0))

/-- The sign of a sum that is exactly zero: that of both terms where they agree, else minus under RTN alone (R110). -/
def zeroSign (m : RMode) (a b : Bool) : Bool := if a = b then a else m == .rtn

/-- The exact sum of two numbers: sign, coefficient and exponent, with the sign of a zero sum by the mode. -/
def exactAdd (base : Nat) (m : RMode) (n1 : Bool) (c1 : Nat) (e1 : Int) (n2 : Bool) (c2 : Nat) (e2 : Int) : Bool × Nat × Int :=
  let e := min e1 e2
  let a : Int := (c1 * base ^ (e1 - e).toNat : Nat)
  let b : Int := (c2 * base ^ (e2 - e).toNat : Nat)
  let v := (if n1 then -a else a) + (if n2 then -b else b)
  (if v = 0 then zeroSign m n1 n2 else decide (v < 0), v.natAbs, e)

/-- The integer square root of a number below 4^`fuel`. -/
def isqrt (fuel n : Nat) : Nat :=
  (List.range fuel).foldl (fun r i => let t := r + 2 ^ (fuel - 1 - i); if t * t ≤ n then t else r) 0

/-- The order of two numbers. -/
def numCompare (base : Nat) (n1 : Bool) (c1 : Nat) (e1 : Int) (n2 : Bool) (c2 : Nat) (e2 : Int) : Nat :=
  let e := min e1 e2
  let a : Int := (c1 * base ^ (e1 - e).toNat : Nat)
  let b : Int := (c2 * base ^ (e2 - e).toNat : Nat)
  ccCompare (if n1 then -a else a) (if n2 then -b else b)

/-! ### NaNs (R106) -/

def FVal.isNan : FVal → Bool
  | .nan .. => true
  | _ => false

def FVal.isSignal : FVal → Bool
  | .nan _ s _ => s
  | _ => false

def FVal.isInf : FVal → Bool
  | .inf _ => true
  | _ => false

/-- The default NaN. -/
def FVal.default : FVal := .nan false false 0

/-- The same NaN, quiet. -/
def FVal.quiet : FVal → FVal
  | .nan n _ p => .nan n false p
  | v => v

/-- The result of an operation with a NaN among its operands, in the order r2, r3, r1: the first signalling one made quiet, with V, or else
the first NaN. -/
def nanResult (l : List FVal) : Option (FVal × Raised) :=
  match l.find? FVal.isSignal with
  | some v => some (v.quiet, raiseV)
  | none => (l.find? FVal.isNan).map fun v => (v, 0)

/-- CC of a floating-point result: 0 zero, 1 negative, 2 positive, 3 NaN (R102). -/
def FVal.cc : FVal → Nat
  | .num neg c _ => if c = 0 then 0 else if neg then 1 else 2
  | .inf neg => if neg then 1 else 2
  | .nan .. => 3

/-- A compare: CC and V (R102, R106, R110). -/
def fpCompare (base : Nat) (signalling : Bool) (a b : FVal) : Nat × Raised :=
  if a.isNan || b.isNan then (3, if signalling || a.isSignal || b.isSignal then raiseV else 0)
  else match a, b with
    | .inf x, .inf y => (if x = y then 0 else if x then 1 else 2, 0)
    | .inf x, _ => (if x then 1 else 2, 0)
    | _, .inf y => (if y then 2 else 1, 0)
    | .num n1 c1 e1, .num n2 c2 e2 => (numCompare base n1 c1 e1 n2 c2 e2, 0)
    | _, _ => (3, 0)

/-- A number rounded to an integer: its magnitude, and whether it changed. -/
def roundInteger (base : Nat) (m : RMode) (neg : Bool) (coef : Nat) (exp : Int) : Nat × Bool :=
  if 0 ≤ exp then (coef * base ^ exp.toNat, false) else roundAt base m neg coef exp 0 false

/-- Conversion to a signed 64-bit integer (R107). -/
def toInt64 (base : Nat) (m : RMode) (v : FVal) : Word × Raised :=
  match v with
  | .nan .. => (0x8000000000000000#64, raiseV)
  | .inf neg => (if neg then 0x8000000000000000#64 else 0x7FFFFFFFFFFFFFFF#64, raiseV)
  | .num neg c e =>
    if c ≠ 0 ∧ (80 : Int) < e then (if neg then 0x8000000000000000#64 else 0x7FFFFFFFFFFFFFFF#64, raiseV)
    else
      let r := if c = 0 then (0, false) else roundInteger base m neg c e
      if neg then
        (if 2 ^ 63 < r.1 then (0x8000000000000000#64, raiseV) else (BitVec.ofInt 64 (-(r.1 : Int)), if r.2 then raiseX else 0))
      else if 2 ^ 63 ≤ r.1 then (0x7FFFFFFFFFFFFFFF#64, raiseV)
      else (BitVec.ofNat 64 r.1, if r.2 then raiseX else 0)

end Sys2Proof.Machine
end

