-- ==== Sys2Proof/Machine/Binary.lean ====
section
/-! DEFINITION. Binary floating-point data and operations (R98, R102, R105-R107, R110, R111): binary64, and binary32 in memory. -/

namespace Sys2Proof.Machine

/-! ### Encodings (R98, R106) -/

/-- The datum of an IEEE 754 binary encoding with `ew` exponent bits and `fw` fraction bits. -/
def binDecode (ew fw n : Nat) : FVal :=
  let neg := n / 2 ^ (ew + fw) % 2 == 1
  let be := n / 2 ^ fw % 2 ^ ew
  let fr := n % 2 ^ fw
  let bias : Int := 2 ^ (ew - 1) - 1
  if be = 2 ^ ew - 1 then
    (if fr = 0 then .inf neg else .nan neg (fr < 2 ^ (fw - 1)) (fr % 2 ^ (fw - 1)))
  else if be = 0 then .num neg fr (1 - bias - fw)
  else .num neg (fr + 2 ^ fw) (be - bias - fw)

/-- The encoding of a datum that the format holds. -/
def binEncode (ew fw : Nat) (v : FVal) : Nat :=
  let sign (neg : Bool) : Nat := if neg then 2 ^ (ew + fw) else 0
  let bias : Int := 2 ^ (ew - 1) - 1
  match v with
  | .inf neg => sign neg + (2 ^ ew - 1) * 2 ^ fw
  | .nan neg signal p => sign neg + (2 ^ ew - 1) * 2 ^ fw + (if signal then 0 else 2 ^ (fw - 1)) + p
  | .num neg c e =>
    if c = 0 then sign neg
    else
      let qmin : Int := 1 - bias - fw
      let q := max (e + (Nat.log2 c : Int) - fw) qmin
      let d := c * 2 ^ (e - q).toNat
      sign neg + (if d < 2 ^ fw then d else (q + bias + fw).toNat * 2 ^ fw + (d - 2 ^ fw))

def b64 (w : Word) : FVal := binDecode 11 52 w.toNat
def w64 (v : FVal) : Word := BitVec.ofNat 64 (binEncode 11 52 v)

/-- A binary32 operand converted exactly (R48, R59): a NaN comes quiet with its payload in the leading fraction bits (log entry 60), and a
signalling one raises V. -/
def fromB32 (n : Nat) : Word × Raised :=
  match binDecode 8 23 n with
  | .nan neg signal p => (w64 (.nan neg false (p * 2 ^ 29)), if signal then raiseV else 0)
  | v => (w64 v, 0)

/-- Conversion to binary32 under a mode (R59, R102): a NaN keeps its sign and the leading bits of its payload (log entry 60). -/
def toB32 (m : RMode) (w : Word) : Nat × Raised :=
  match b64 w with
  | .nan neg signal p => (binEncode 8 23 (.nan neg false (p / 2 ^ 29)), if signal then raiseV else 0)
  | .inf neg => (binEncode 8 23 (.inf neg), 0)
  | .num neg c e =>
    if c = 0 then (binEncode 8 23 (.num neg 0 0), 0)
    else
      let r := binary32.round m neg c e false
      (binEncode 8 23 r.1, r.2)

/-! ### Operations (R102, R110) -/

/-- A number of a sum, product or quotient delivered in binary64. -/
def finish64 (m : RMode) (neg : Bool) (coef : Nat) (exp : Int) (sticky : Bool := false) : FVal × Raised :=
  if coef = 0 then (.num neg 0 0, 0) else binary64.round m neg coef exp sticky

def fNeg : FVal → FVal
  | .num n c e => .num (!n) c e
  | .inf n => .inf (!n)
  | v => v

def fAdd (m : RMode) (a b : FVal) : FVal × Raised :=
  match nanResult [a, b] with
  | some r => r
  | none => match a, b with
    | .inf x, .inf y => if x = y then (.inf x, 0) else (.default, raiseV)
    | .inf x, _ => (.inf x, 0)
    | _, .inf y => (.inf y, 0)
    | .num n1 c1 e1, .num n2 c2 e2 => let s := exactAdd 2 m n1 c1 e1 n2 c2 e2; finish64 m s.1 s.2.1 s.2.2
    | _, _ => (.default, 0)

/-- a − b: a NaN operand keeps its sign (R106). -/
def fSub (m : RMode) (a b : FVal) : FVal × Raised := fAdd m a (if b.isNan then b else fNeg b)

def fMul (m : RMode) (a b : FVal) : FVal × Raised :=
  match nanResult [a, b] with
  | some r => r
  | none => match a, b with
    | .inf x, .inf y => (.inf (x != y), 0)
    | .inf x, .num y c _ | .num y c _, .inf x => if c = 0 then (.default, raiseV) else (.inf (x != y), 0)
    | .num n1 c1 e1, .num n2 c2 e2 => finish64 m (n1 != n2) (c1 * c2) (e1 + e2)
    | _, _ => (.default, 0)

def fDiv (m : RMode) (a b : FVal) : FVal × Raised :=
  match nanResult [a, b] with
  | some r => r
  | none => match a, b with
    | .inf _, .inf _ => (.default, raiseV)
    | .inf x, .num y _ _ => (.inf (x != y), 0)
    | .num x _ _, .inf y => (.num (x != y) 0 0, 0)
    | .num n1 c1 e1, .num n2 c2 e2 =>
      if c2 = 0 then (if c1 = 0 then (.default, raiseV) else (.inf (n1 != n2), raiseZ))
      else if c1 = 0 then (.num (n1 != n2) 0 0, 0)
      else finish64 m (n1 != n2) (c1 * 2 ^ 110 / c2) (e1 - e2 - 110) (c1 * 2 ^ 110 % c2 != 0)
    | _, _ => (.default, 0)

def fSqrt (m : RMode) (a : FVal) : FVal × Raised :=
  match nanResult [a] with
  | some r => r
  | none => match a with
    | .inf neg => if neg then (.default, raiseV) else (.inf false, 0)
    | .num neg c e =>
      if c = 0 then (.num neg 0 0, 0)
      else if neg then (.default, raiseV)
      else
        -- scale to an even exponent with at least 2 × 55 bits
        let k : Nat := if e % 2 = 0 then 112 else 113
        let n := c * 2 ^ k
        let r := isqrt 90 n
        finish64 m false r ((e - k) / 2) (r * r != n)
    | v => (v, 0)

/-- f(r2) × f(r3) + f(r1) with one rounding; 0 × ∞ raises V beside any addend but a signalling NaN (R110). -/
def fMa (m : RMode) (a b c : FVal) : FVal × Raised :=
  let bad := match a, b with
    | .inf _, .num _ 0 _ => true
    | .num _ 0 _, .inf _ => true
    | _, _ => false
  if bad && !c.isSignal then (.default, raiseV)
  else match nanResult [a, b, c] with
    | some r => r
    | none => match a, b, c with
      | .num n1 c1 e1, .num n2 c2 e2, .num n3 c3 e3 =>
        let s := exactAdd 2 m (n1 != n2) (c1 * c2) (e1 + e2) n3 c3 e3
        finish64 m s.1 s.2.1 s.2.2
      | .num .., .num .., d => (d, 0)
      | .inf x, .inf y, d | .inf x, .num y _ _, d | .num x _ _, .inf y, d =>
        match d with
        | .inf z => if (x != y) = z then (.inf z, 0) else (.default, raiseV)
        | _ => (.inf (x != y), 0)
      | _, _, _ => (.default, 0)

/-- Rounded to an integral value; X when the value changes (R102). -/
def fRound (m : RMode) (a : FVal) : FVal × Raised :=
  match nanResult [a] with
  | some r => r
  | none => match a with
    | .num neg c e =>
      if 0 ≤ e then (.num neg c e, 0)
      else let r := roundInteger 2 m neg c e; (.num neg r.1 0, if r.2 then raiseX else 0)
    | v => (v, 0)

/-- A signed integer as binary64. -/
def fOfInt (m : RMode) (w : Word) : FVal × Raised := finish64 m (decide (w.toInt < 0)) w.toInt.natAbs 0

end Sys2Proof.Machine
end

