-- ==== Sys2Proof/Machine/LoadStore.lean ====
section
/-! DEFINITION. The load, store and move instructions of R58, R59 and R61. -/

namespace Sys2Proof.Machine

/-! ### Loads of general registers (R58) -/

/-- A load of `n` bytes into g(r1), zero- or sign-extended. -/
def State.loadG (s : State) (k : Fin 48) (r1 : BitVec 5) (f : AddrForm) (n : Nat) (signed : Bool) : State :=
  s.loadForm k f true n fun bytes a =>
    let v := beNat bytes
    .ok (a.setG r1 (if signed ∧ 2 ^ (8 * n - 1) ≤ v then BitVec.ofNat 64 (v + (2 ^ 64 - 2 ^ (8 * n))) else BitVec.ofNat 64 v))

def onLb (k : Fin 48) (r1 : BitVec 5) (f : AddrForm) (s : State) : State := s.loadG k r1 f 1 true
def onLbu (k : Fin 48) (r1 : BitVec 5) (f : AddrForm) (s : State) : State := s.loadG k r1 f 1 false
def onLh (k : Fin 48) (r1 : BitVec 5) (f : AddrForm) (s : State) : State := s.loadG k r1 f 2 true
def onLhu (k : Fin 48) (r1 : BitVec 5) (f : AddrForm) (s : State) : State := s.loadG k r1 f 2 false
def onLw (k : Fin 48) (r1 : BitVec 5) (f : AddrForm) (s : State) : State := s.loadG k r1 f 4 true
def onLwu (k : Fin 48) (r1 : BitVec 5) (f : AddrForm) (s : State) : State := s.loadG k r1 f 4 false
def onLd (k : Fin 48) (r1 : BitVec 5) (f : AddrForm) (s : State) : State := s.loadG k r1 f 8 false

/-- LQ: g(r1) and g(r1 + 1), the high-order half in g(r1). -/
def onLq (k : Fin 48) (r1 : BitVec 5) (f : AddrForm) (s : State) : State :=
  s.loadForm k f (isEven r1) 16 fun bytes a => .ok ((a.setG r1 (wordOf bytes 0)).setG (pairOf r1) (wordOf bytes 1))

/-! ### Stores of general registers (R58) -/

/-- A store of the low `n` bytes of g(r1). -/
def State.storeG (s : State) (k : Fin 48) (r1 : BitVec 5) (f : AddrForm) (n : Nat) : State :=
  s.storeForm k f true n fun a => .ok (beBytes n (a.gr r1).toNat, a)

def onStb (k : Fin 48) (r1 : BitVec 5) (f : AddrForm) (s : State) : State := s.storeG k r1 f 1
def onSth (k : Fin 48) (r1 : BitVec 5) (f : AddrForm) (s : State) : State := s.storeG k r1 f 2
def onStw (k : Fin 48) (r1 : BitVec 5) (f : AddrForm) (s : State) : State := s.storeG k r1 f 4
def onStd (k : Fin 48) (r1 : BitVec 5) (f : AddrForm) (s : State) : State := s.storeG k r1 f 8

/-- STQ: g(r1) and g(r1 + 1). -/
def onStq (k : Fin 48) (r1 : BitVec 5) (f : AddrForm) (s : State) : State :=
  s.storeForm k f (isEven r1) 16 fun a => .ok (wordBytes (a.gr r1) ++ wordBytes (a.gr (pairOf r1)), a)

/-- LA: g(r1) := the operand address, with no access (R59). An x field that SC 0b00 requires to be 0 is a specification exception (R62). -/
def onLa (k : Fin 48) (r1 : BitVec 5) (f : AddrForm) (s : State) : State :=
  s.instr k f.length fun s =>
    match (s.arch k).address f with
    | none => (s, .exc excSpec)
    | some ea => (s.setArch k ((s.arch k).setG r1 ea), .next)

/-! ### Floating-point traps (R108, R109) -/

/-- An operation that raises exceptions: its result is delivered with every flag set, or the highest-priority enabled one traps. -/
def fpDeliver (r : Raised) (deliver : Arch → Arch) (a : Arch) : Except Exc Arch :=
  match trapCause a r with
  | some cause => .error (.program (8 + cause * 65536) 0)
  | none => .ok ((deliver a).setFlags r)

/-! ### Loads and stores of floating registers (R58, R59) -/

def onLf (k : Fin 48) (r1 : BitVec 5) (f : AddrForm) (s : State) : State :=
  s.loadForm k f true 8 fun bytes a => .ok (a.setF r1 (wordOf bytes 0))

/-- LF32: a binary32 operand converted exactly; V for a signalling NaN, delivered quiet. -/
def onLf32 (k : Fin 48) (r1 : BitVec 5) (f : AddrForm) (s : State) : State :=
  s.loadForm k f true 4 fun bytes a =>
    let v := fromB32 (beNat bytes)
    fpDeliver v.2 (fun a => a.setF r1 v.1) a

def onLfq (k : Fin 48) (r1 : BitVec 5) (f : AddrForm) (s : State) : State :=
  s.loadForm k f (isEven r1) 16 fun bytes a => .ok ((a.setF r1 (wordOf bytes 0)).setF (pairOf r1) (wordOf bytes 1))

def onStf (k : Fin 48) (r1 : BitVec 5) (f : AddrForm) (s : State) : State :=
  s.storeForm k f true 8 fun a => .ok (wordBytes (a.fr r1), a)

/-- STF32: f(r1) rounded to binary32 under BRM, with the flags and traps of that conversion. -/
def onStf32 (k : Fin 48) (r1 : BitVec 5) (f : AddrForm) (s : State) : State :=
  s.instr k f.length fun s =>
    match (s.arch k).address f, s.roundMode k false with
    | none, _ => (s, .exc excSpec)
    | some ea, (s, m) => s.store k f.length ea 4 fun a =>
      let v := toB32 m (a.fr r1)
      match fpDeliver v.2 id a with
      | .ok b => .ok (beBytes 4 v.1, b)
      | .error x => .error x

def onStfq (k : Fin 48) (r1 : BitVec 5) (f : AddrForm) (s : State) : State :=
  s.storeForm k f (isEven r1) 16 fun a => .ok (wordBytes (a.fr r1) ++ wordBytes (a.fr (pairOf r1)), a)

/-! ### Moves and wide immediates (R61) -/

def onMovr (k : Fin 48) (r1 r2 : BitVec 5) (s : State) : State := s.simple k 2 fun a => a.setG r1 (a.gr r2)
def onFmovr (k : Fin 48) (r1 r2 : BitVec 5) (s : State) : State := s.simple k 2 fun a => a.setF r1 (a.fr r2)

/-- FTOG: g(r1) := the bits of f(r2); r3 must be 0. -/
def onFtog (k : Fin 48) (r1 r2 r3 : BitVec 5) (s : State) : State :=
  s.instr k 4 (State.checked (r3 == 0) fun s => (s.setArch k ((s.arch k).setG r1 ((s.arch k).fr r2)), .next))

/-- GTOF: f(r1) := the bits of g(r2); r3 must be 0. -/
def onGtof (k : Fin 48) (r1 r2 r3 : BitVec 5) (s : State) : State :=
  s.instr k 4 (State.checked (r3 == 0) fun s => (s.setArch k ((s.arch k).setF r1 ((s.arch k).gr r2)), .next))

def onLil (k : Fin 48) (r1 : BitVec 5) (imm : BitVec 32) (s : State) : State :=
  s.simple k 6 fun a => a.setG r1 (imm.signExtend 64)

/-- LIH: bits 0:31 of g(r1) := the immediate. -/
def onLih (k : Fin 48) (r1 : BitVec 5) (imm : BitVec 32) (s : State) : State :=
  s.simple k 6 fun a => a.setG r1 ((a.gr r1).setField 0 31 imm.toNat)

/-- ADDIL: as ADD with the sign-extended immediate. -/
def onAddil (k : Fin 48) (r1 : BitVec 5) (imm : BitVec 32) (s : State) : State :=
  s.simple k 6 fun a =>
    let v := (a.gr r1).toInt + imm.toInt
    (a.setG r1 (resultOf false v)).setCc (ccArith false v)

/-- CMPIL: as CMP with the sign-extended immediate. -/
def onCmpil (k : Fin 48) (r1 : BitVec 5) (imm : BitVec 32) (s : State) : State :=
  s.simple k 6 fun a => a.setCc (ccCompare (a.gr r1).toInt imm.toInt)

/-! ### The commands as the queue gives them -/

def execLb (k : Fin 48) (r1 : BitVec 5) (f : AddrForm) (s : State) : Answer := s.run (onLb k r1 f)
def execLbu (k : Fin 48) (r1 : BitVec 5) (f : AddrForm) (s : State) : Answer := s.run (onLbu k r1 f)
def execLh (k : Fin 48) (r1 : BitVec 5) (f : AddrForm) (s : State) : Answer := s.run (onLh k r1 f)
def execLhu (k : Fin 48) (r1 : BitVec 5) (f : AddrForm) (s : State) : Answer := s.run (onLhu k r1 f)
def execLw (k : Fin 48) (r1 : BitVec 5) (f : AddrForm) (s : State) : Answer := s.run (onLw k r1 f)
def execLwu (k : Fin 48) (r1 : BitVec 5) (f : AddrForm) (s : State) : Answer := s.run (onLwu k r1 f)
def execLd (k : Fin 48) (r1 : BitVec 5) (f : AddrForm) (s : State) : Answer := s.run (onLd k r1 f)
def execLq (k : Fin 48) (r1 : BitVec 5) (f : AddrForm) (s : State) : Answer := s.run (onLq k r1 f)
def execStb (k : Fin 48) (r1 : BitVec 5) (f : AddrForm) (s : State) : Answer := s.run (onStb k r1 f)
def execSth (k : Fin 48) (r1 : BitVec 5) (f : AddrForm) (s : State) : Answer := s.run (onSth k r1 f)
def execStw (k : Fin 48) (r1 : BitVec 5) (f : AddrForm) (s : State) : Answer := s.run (onStw k r1 f)
def execStd (k : Fin 48) (r1 : BitVec 5) (f : AddrForm) (s : State) : Answer := s.run (onStd k r1 f)
def execStq (k : Fin 48) (r1 : BitVec 5) (f : AddrForm) (s : State) : Answer := s.run (onStq k r1 f)
def execLa (k : Fin 48) (r1 : BitVec 5) (f : AddrForm) (s : State) : Answer := s.run (onLa k r1 f)
def execLf (k : Fin 48) (r1 : BitVec 5) (f : AddrForm) (s : State) : Answer := s.run (onLf k r1 f)
def execLf32 (k : Fin 48) (r1 : BitVec 5) (f : AddrForm) (s : State) : Answer := s.run (onLf32 k r1 f)
def execLfq (k : Fin 48) (r1 : BitVec 5) (f : AddrForm) (s : State) : Answer := s.run (onLfq k r1 f)
def execStf (k : Fin 48) (r1 : BitVec 5) (f : AddrForm) (s : State) : Answer := s.run (onStf k r1 f)
def execStf32 (k : Fin 48) (r1 : BitVec 5) (f : AddrForm) (s : State) : Answer := s.run (onStf32 k r1 f)
def execStfq (k : Fin 48) (r1 : BitVec 5) (f : AddrForm) (s : State) : Answer := s.run (onStfq k r1 f)
def execMovr (k : Fin 48) (r1 r2 : BitVec 5) (s : State) : Answer := s.run (onMovr k r1 r2)
def execFmovr (k : Fin 48) (r1 r2 : BitVec 5) (s : State) : Answer := s.run (onFmovr k r1 r2)
def execFtog (k : Fin 48) (r1 r2 r3 : BitVec 5) (s : State) : Answer := s.run (onFtog k r1 r2 r3)
def execGtof (k : Fin 48) (r1 r2 r3 : BitVec 5) (s : State) : Answer := s.run (onGtof k r1 r2 r3)
def execLil (k : Fin 48) (r1 : BitVec 5) (imm : BitVec 32) (s : State) : Answer := s.run (onLil k r1 imm)
def execLih (k : Fin 48) (r1 : BitVec 5) (imm : BitVec 32) (s : State) : Answer := s.run (onLih k r1 imm)
def execAddil (k : Fin 48) (r1 : BitVec 5) (imm : BitVec 32) (s : State) : Answer := s.run (onAddil k r1 imm)
def execCmpil (k : Fin 48) (r1 : BitVec 5) (imm : BitVec 32) (s : State) : Answer := s.run (onCmpil k r1 imm)

end Sys2Proof.Machine
end

