-- ==== Sys2Proof/Machine/BinaryOps.lean ====
section
/-! DEFINITION. The instructions that set and read FPC (R101) and the binary floating-point instructions (R102, R105-R111). -/

namespace Sys2Proof.Machine

/-- The body of a floating-point instruction: it delivers its result unless an exception that it raises traps. -/
def State.fpBody (k : Fin 48) (decimal : Bool) (op : RMode → Arch → Raised × (Arch → Arch)) (s : State) : State × Done :=
  match s.roundMode k decimal with
  | (s, m) =>
    let r := op m (s.arch k)
    match fpDeliver r.1 r.2 (s.arch k) with
    | .ok a => (s.setArch k a, .next)
    | .error x => (s, .exc x)

/-- A floating-point instruction: from the rounding mode and the operands, the exceptions it raises and what it delivers if none traps. The
core executes decimal ones from microcode (R215). -/
def State.fpInstr (s : State) (k : Fin 48) (decimal ok : Bool) (op : RMode → Arch → Raised × (Arch → Arch)) : State :=
  s.instr k 4 (State.checked ok fun s => if decimal then State.microThen k (State.fpBody k true op) s else State.fpBody k false op s)

/-- A result with its CC in f(r1). -/
def putBinary (r1 : BitVec 5) (v : FVal × Raised) : Raised × (Arch → Arch) :=
  (v.2, fun a => (a.setF r1 (w64 v.1)).setCc v.1.cc)

/-- A binary64 operand. -/
def Arch.fb (a : Arch) (r : BitVec 5) : FVal := b64 (a.fr r)

/-! ### FPC (R101) -/

/-- LFPC: an invalid value raises a specification exception. No flag that it sets traps. -/
def onLfpc (k : Fin 48) (r1 : BitVec 5) (s : State) : State :=
  s.instr k 4 fun s =>
    if fpcValid ((s.arch k).gr r1) then (s.setArch k { s.arch k with fpc := (s.arch k).gr r1 }, .next) else (s, .exc excSpec)

def onStfpc (k : Fin 48) (r1 : BitVec 5) (s : State) : State := s.simple k 4 fun a => a.setG r1 a.fpc

/-! ### Arithmetic (R102) -/

def onFadd (k : Fin 48) (r1 r2 r3 : BitVec 5) (s : State) : State :=
  s.fpInstr k false true fun m a => putBinary r1 (fAdd m (a.fb r2) (a.fb r3))
def onFsub (k : Fin 48) (r1 r2 r3 : BitVec 5) (s : State) : State :=
  s.fpInstr k false true fun m a => putBinary r1 (fSub m (a.fb r2) (a.fb r3))
def onFmul (k : Fin 48) (r1 r2 r3 : BitVec 5) (s : State) : State :=
  s.fpInstr k false true fun m a => putBinary r1 (fMul m (a.fb r2) (a.fb r3))
def onFdiv (k : Fin 48) (r1 r2 r3 : BitVec 5) (s : State) : State :=
  s.fpInstr k false true fun m a => putBinary r1 (fDiv m (a.fb r2) (a.fb r3))

/-- FSQRT: r3 must be 0. -/
def onFsqrt (k : Fin 48) (r1 r2 r3 : BitVec 5) (s : State) : State :=
  s.fpInstr k false (r3 == 0) fun m a => putBinary r1 (fSqrt m (a.fb r2))
def onFma (k : Fin 48) (r1 r2 r3 : BitVec 5) (s : State) : State :=
  s.fpInstr k false true fun m a => putBinary r1 (fMa m (a.fb r2) (a.fb r3) (a.fb r1))

/-! ### Compares and conversions -/

/-- CC of a compare. -/
def putCompare (v : Nat × Raised) : Raised × (Arch → Arch) := (v.2, fun a => a.setCc v.1)

/-- A converted integer in g(r1): CC by its sign, or 3 where V is raised (R102). -/
def putInteger (r1 : BitVec 5) (v : Word × Raised) : Raised × (Arch → Arch) :=
  (v.2, fun a => (a.setG r1 v.1).setCc (if v.2 &&& raiseV = 0 then ccSign v.1.toInt else 3))

/-- FCMP: r1 must be 0. -/
def onFcmp (k : Fin 48) (r1 r2 r3 : BitVec 5) (s : State) : State :=
  s.fpInstr k false (r1 == 0) fun _ a => putCompare (fpCompare 2 false (a.fb r2) (a.fb r3))
def onFcmps (k : Fin 48) (r1 r2 r3 : BitVec 5) (s : State) : State :=
  s.fpInstr k false (r1 == 0) fun _ a => putCompare (fpCompare 2 true (a.fb r2) (a.fb r3))
def onFcvti (k : Fin 48) (r1 r2 : BitVec 5) (s : State) : State :=
  s.fpInstr k false true fun m a => putInteger r1 (toInt64 2 m (a.fb r2))
def onIcvtf (k : Fin 48) (r1 r2 : BitVec 5) (s : State) : State :=
  s.fpInstr k false true fun m a => putBinary r1 (fOfInt m (a.gr r2))
def onFrnd (k : Fin 48) (r1 r2 : BitVec 5) (s : State) : State :=
  s.fpInstr k false true fun m a => putBinary r1 (fRound m (a.fb r2))

/-- FNEG and FABS change the sign bit alone. -/
def onFneg (k : Fin 48) (r1 r2 : BitVec 5) (s : State) : State :=
  s.simple k 4 fun a => a.setF r1 (a.fr r2 ^^^ 0x8000000000000000#64)
def onFabs (k : Fin 48) (r1 r2 : BitVec 5) (s : State) : State :=
  s.simple k 4 fun a => a.setF r1 (a.fr r2 &&& 0x7FFFFFFFFFFFFFFF#64)

/-! ### The commands as the queue gives them -/

def execLfpc (k : Fin 48) (r1 : BitVec 5) (s : State) : Answer := s.run (onLfpc k r1)
def execStfpc (k : Fin 48) (r1 : BitVec 5) (s : State) : Answer := s.run (onStfpc k r1)
def execFadd (k : Fin 48) (r1 r2 r3 : BitVec 5) (s : State) : Answer := s.run (onFadd k r1 r2 r3)
def execFsub (k : Fin 48) (r1 r2 r3 : BitVec 5) (s : State) : Answer := s.run (onFsub k r1 r2 r3)
def execFmul (k : Fin 48) (r1 r2 r3 : BitVec 5) (s : State) : Answer := s.run (onFmul k r1 r2 r3)
def execFdiv (k : Fin 48) (r1 r2 r3 : BitVec 5) (s : State) : Answer := s.run (onFdiv k r1 r2 r3)
def execFsqrt (k : Fin 48) (r1 r2 r3 : BitVec 5) (s : State) : Answer := s.run (onFsqrt k r1 r2 r3)
def execFma (k : Fin 48) (r1 r2 r3 : BitVec 5) (s : State) : Answer := s.run (onFma k r1 r2 r3)
def execFcmp (k : Fin 48) (r1 r2 r3 : BitVec 5) (s : State) : Answer := s.run (onFcmp k r1 r2 r3)
def execFcmps (k : Fin 48) (r1 r2 r3 : BitVec 5) (s : State) : Answer := s.run (onFcmps k r1 r2 r3)
def execFcvti (k : Fin 48) (r1 r2 : BitVec 5) (s : State) : Answer := s.run (onFcvti k r1 r2)
def execIcvtf (k : Fin 48) (r1 r2 : BitVec 5) (s : State) : Answer := s.run (onIcvtf k r1 r2)
def execFrnd (k : Fin 48) (r1 r2 : BitVec 5) (s : State) : Answer := s.run (onFrnd k r1 r2)
def execFneg (k : Fin 48) (r1 r2 : BitVec 5) (s : State) : Answer := s.run (onFneg k r1 r2)
def execFabs (k : Fin 48) (r1 r2 : BitVec 5) (s : State) : Answer := s.run (onFabs k r1 r2)

end Sys2Proof.Machine
end

