-- ==== Sys2Proof/Machine/Branch.lean ====
section
/-! DEFINITION. The branch instructions (R55, R60). -/

namespace Sys2Proof.Machine

/-- A jump: a target with bit 63 set raises a specification exception (R49). -/
def jumpTo (t : Word) (s : State) : State × Done := if t.getLsbD 0 then (s, .exc excSpec) else (s, .jump t false)

/-- BC and BCL: branch when the mask selects CC. -/
def State.branchOn (s : State) (k : Fin 48) (len : Nat) (mask : BitVec 4) (target : Word → Word) : State :=
  s.instr k len fun s =>
    if maskTakes mask (s.arch k).cc then jumpTo (target (s.arch k).ia) s else (s, .next)

def onBc (k : Fin 48) (mask : BitVec 4) (off : BitVec 16) (s : State) : State := s.branchOn k 4 mask fun ia => branchTarget ia off
def onBcl (k : Fin 48) (mask : BitVec 4) (off : BitVec 32) (s : State) : State := s.branchOn k 6 mask fun ia => branchTarget ia off

/-- BAL and BALL: g31 := the address of the next instruction; the mask must be 0b1111. -/
def State.branchLink (s : State) (k : Fin 48) (len : Nat) (mask : BitVec 4) (target : Word → Word) : State :=
  s.instr k len (State.checked (mask == 0xF) fun s =>
    let a := s.arch k
    (s.setArch k (a.setG 31 (a.ia + BitVec.ofNat 64 len)), .jump (target a.ia) false))

def onBal (k : Fin 48) (mask : BitVec 4) (off : BitVec 16) (s : State) : State := s.branchLink k 4 mask fun ia => branchTarget ia off
def onBall (k : Fin 48) (mask : BitVec 4) (off : BitVec 32) (s : State) : State := s.branchLink k 6 mask fun ia => branchTarget ia off

/-- BRR: branch to g(r2) when the mask selects CC; bit 6 of the instruction must be 0. -/
def onBrr (k : Fin 48) (bit6 : Bool) (mask : BitVec 4) (r2 : BitVec 5) (s : State) : State :=
  s.instr k 2 (State.checked (!bit6) fun s =>
    if maskTakes mask (s.arch k).cc then jumpTo ((s.arch k).gr r2) s else (s, .next))

/-- BALR: g(r1) := the address of the next instruction, and IA := g(r2), read first. -/
def onBalr (k : Fin 48) (r1 r2 : BitVec 5) (s : State) : State :=
  s.instr k 2 fun s =>
    let a := s.arch k
    let t := a.gr r2
    if t.getLsbD 0 then (s, .exc excSpec) else (s.setArch k (a.setG r1 (a.ia + 2)), .jump t false)

/-! ### The commands as the queue gives them -/

def execBc (k : Fin 48) (mask : BitVec 4) (off : BitVec 16) (s : State) : Answer := s.run (onBc k mask off)
def execBal (k : Fin 48) (mask : BitVec 4) (off : BitVec 16) (s : State) : Answer := s.run (onBal k mask off)
def execBcl (k : Fin 48) (mask : BitVec 4) (off : BitVec 32) (s : State) : Answer := s.run (onBcl k mask off)
def execBall (k : Fin 48) (mask : BitVec 4) (off : BitVec 32) (s : State) : Answer := s.run (onBall k mask off)
def execBrr (k : Fin 48) (bit6 : Bool) (mask : BitVec 4) (r2 : BitVec 5) (s : State) : Answer := s.run (onBrr k bit6 mask r2)
def execBalr (k : Fin 48) (r1 r2 : BitVec 5) (s : State) : Answer := s.run (onBalr k r1 r2)

end Sys2Proof.Machine
end

