-- ==== Sys2Proof/Machine/Cipher.lean ====
section
/-! DEFINITION. The operations of the cipher engines (R416). CHECK of these jobs is stated nowhere: it is a free value. -/

namespace Sys2Proof.Machine

/-- What an operation computes: STATUS and output. -/
abbrev CipherEnd := Nat × List Byte

/-- The key length that OPT selects. -/
def keyBytes (opt : Nat) : Nat := if opt = 0 then 16 else 32

/-- AES-GCM encryption from a parameter block, additional data and a source. -/
def gcmEnc (opt : Nat) (aux aad src : List Byte) : CipherEnd :=
  let r := gcmEncrypt (aux.take (keyBytes opt)) ((aux.drop 32).take 12) aad src
  (1, r.1 ++ r.2)

/-- AES-GCM decryption; on a tag mismatch the output is zeros (R408). -/
def gcmDec (opt : Nat) (aux aad src : List Byte) : CipherEnd :=
  let n := src.length - 16
  match gcmDecrypt (aux.take (keyBytes opt)) ((aux.drop 32).take 12) aad (src.take n) (src.drop n) with
  | some p => (1, p)
  | none => (0x15, List.replicate n 0)

/-- AES-XTS of one data unit. -/
def xtsOp (enc : Bool) (opt : Nat) (aux src : List Byte) : CipherEnd :=
  (1, xts enc (aux.take (keyBytes opt)) ((aux.drop 32).take (keyBytes opt)) ((aux.drop 64).take 16) src)

/-- AES-CBC without padding. -/
def cbcOp (enc : Bool) (opt : Nat) (aux src : List Byte) : CipherEnd :=
  let key := aux.take (keyBytes opt)
  let iv := (aux.drop 32).take 16
  (1, if enc then cbcEncrypt key iv src else cbcDecrypt key iv src)

/-- A digest. -/
def hashOp (opt : Nat) (src : List Byte) : CipherEnd :=
  (1, match opt with
    | 0 => sha256 src
    | 1 => sha384 src
    | 2 => sha3 32 src
    | _ => sha3 48 src)

/-- The curve that OPT selects. -/
def curveOf (opt : Nat) : Curve := if opt = 0 then p256 else p384

/-- The digest of a 48-byte field, right-aligned for the curve. -/
def digestIn (c : Curve) (field : List Byte) : List Byte := field.drop (48 - c.size)

/-- ECDSA signing: r, then s, each of the curve's size. -/
def ecdsaSignOp (opt : Nat) (aux : List Byte) : CipherEnd :=
  let c := curveOf opt
  let d := bytesNat (aux.take 48)
  if d = 0 ∨ c.n ≤ d then (0x17, [])
  else match c.sign d (digestIn c (aux.drop 48)) with
    | some (r, s) => (1, natBytes c.size r ++ natBytes c.size s)
    | none => (0x17, [])

/-- ECDSA verification. -/
def ecdsaVerifyOp (opt : Nat) (aux : List Byte) : CipherEnd :=
  let c := curveOf opt
  let f (i : Nat) : List Byte := (aux.drop (48 * i)).take 48
  let qx := bytesNat (f 0)
  let qy := bytesNat (f 1)
  if !c.onCurve qx qy then (0x17, [])
  else if c.verify qx qy (digestIn c (f 2)) (bytesNat (f 3)) (bytesNat (f 4)) then (1, []) else (0x16, [])

def edSignOp (aux src : List Byte) : CipherEnd := (1, edSign (aux.take 32) (aux.drop 32) src)

def edVerifyOp (aux src : List Byte) : CipherEnd :=
  match edVerify (aux.take 32) src (aux.drop 32) with
  | none => (0x17, [])
  | some ok => (if ok then 1 else 0x16, [])

/-- RSA verification. -/
def rsaOp (j : Job) (aux src : List Byte) : CipherEnd :=
  let bits := j.optBits 16 31
  let e := bytesNat (aux.take 8)
  let n := bytesNat ((aux.drop 8).take 512)
  let wide := j.optBits 1 1 = 1
  let digest := (aux.drop 520).drop (if wide then 0 else 16)
  if (e ≠ 3 ∧ e ≠ 65537) ∨ n % 2 = 0 ∨ n < 2 ^ (bits - 1) ∨ 2 ^ bits ≤ n then (0x17, [])
  else if rsaVerify (j.optBits 0 0 == 1) wide bits e n digest src then (1, []) else (0x16, [])

/-- A cipher job with operation OP: its parameter block and source are read, and its result is stored. A cipher may have stored some output
when its source cannot be read on; a digest or signature has not. -/
def State.cipherJob (s : State) (n : Fin 8) (seam op : Nat) (useSrc : Bool) (f : Job → List Byte → List Byte → CipherEnd) : State :=
  let e := EngineId.cipher n
  match s.toPerform e seam op with
  | none => s
  | some j =>
    let a := s.jobRead seam j.aux j.auxLen
    let r := if useSrc then a.1.jobRead seam j.src j.srcLen else (a.1, .bytes [])
    match a.2, r.2 with
    | .bytes aux, .bytes src =>
      let c := r.1.freeCheck
      let out := f j aux src
      c.1.finishJob e seam j out.1 out.2 c.2
    | .fails st, _ => let c := r.1.freeCheck; c.1.failJob e seam j st c.2
    | _, .fails st =>
      let c := r.1.freeCheck
      if op < 0x20 then c.1.partJob e seam j st c.2 else c.1.failJob e seam j st c.2
    | _, _ => r.1

/-- An AES-GCM job: the additional data are read besides, and the zero fields of the block must be zero (log entry 35). -/
def State.gcmJob (s : State) (n : Fin 8) (seam op : Nat) (f : Nat → List Byte → List Byte → List Byte → CipherEnd) : State :=
  let e := EngineId.cipher n
  match s.toPerform e seam op with
  | none => s
  | some j =>
    let a := s.jobRead seam j.aux j.auxLen
    match a.2 with
    | .bytes aux =>
      if fieldAt aux 44 4 ≠ 0 ∨ fieldAt aux 60 4 ≠ 0 then (let c := a.1.freeCheck; c.1.failJob e seam j 0x17 c.2)
      else
        let d := a.1.jobRead seam (fieldAt aux 48 8) (fieldAt aux 56 4)
        let r := d.1.jobRead seam j.src j.srcLen
        match d.2, r.2 with
        | .bytes aad, .bytes src =>
          let c := r.1.freeCheck
          let out := f (j.optBits 0 1) aux aad src
          c.1.finishJob e seam j out.1 out.2 c.2
        | .fails st, _ => let c := r.1.freeCheck; c.1.failJob e seam j st c.2
        | _, .fails st => let c := r.1.freeCheck; c.1.partJob e seam j st c.2
        | _, _ => r.1
    | .fails st => let c := a.1.freeCheck; c.1.failJob e seam j st c.2
    | .stays => a.1

/-- AES_GCM_ENCRYPT (R416). -/
def onAesGcmEncrypt (n : Fin 8) (seam : Fin 64) (s : State) : State := s.gcmJob n seam.val 0x10 gcmEnc
/-- AES_GCM_DECRYPT (R416). -/
def onAesGcmDecrypt (n : Fin 8) (seam : Fin 64) (s : State) : State := s.gcmJob n seam.val 0x11 gcmDec
/-- AES_XTS_ENCRYPT (R416). -/
def onAesXtsEncrypt (n : Fin 8) (seam : Fin 64) (s : State) : State :=
  s.cipherJob n seam.val 0x12 true fun j aux src => xtsOp true (j.optBits 0 1) aux src
/-- AES_XTS_DECRYPT (R416). -/
def onAesXtsDecrypt (n : Fin 8) (seam : Fin 64) (s : State) : State :=
  s.cipherJob n seam.val 0x13 true fun j aux src => xtsOp false (j.optBits 0 1) aux src
/-- AES_CBC_ENCRYPT (R416). -/
def onAesCbcEncrypt (n : Fin 8) (seam : Fin 64) (s : State) : State :=
  s.cipherJob n seam.val 0x14 true fun j aux src => cbcOp true (j.optBits 0 1) aux src
/-- AES_CBC_DECRYPT (R416). -/
def onAesCbcDecrypt (n : Fin 8) (seam : Fin 64) (s : State) : State :=
  s.cipherJob n seam.val 0x15 true fun j aux src => cbcOp false (j.optBits 0 1) aux src
/-- HASH (R416). -/
def onHash (n : Fin 8) (seam : Fin 64) (s : State) : State :=
  s.cipherJob n seam.val 0x20 true fun j _ src => hashOp (j.optBits 0 1) src
/-- ECDSA_SIGN (R416). -/
def onEcdsaSign (n : Fin 8) (seam : Fin 64) (s : State) : State :=
  s.cipherJob n seam.val 0x30 false fun j aux _ => ecdsaSignOp (j.optBits 0 1) aux
/-- ECDSA_VERIFY (R416). -/
def onEcdsaVerify (n : Fin 8) (seam : Fin 64) (s : State) : State :=
  s.cipherJob n seam.val 0x31 false fun j aux _ => ecdsaVerifyOp (j.optBits 0 1) aux
/-- ED25519_SIGN (R416). -/
def onEd25519Sign (n : Fin 8) (seam : Fin 64) (s : State) : State :=
  s.cipherJob n seam.val 0x32 true fun _ aux src => edSignOp aux src
/-- ED25519_VERIFY (R416). -/
def onEd25519Verify (n : Fin 8) (seam : Fin 64) (s : State) : State :=
  s.cipherJob n seam.val 0x33 true fun _ aux src => edVerifyOp aux src
/-- RSA_VERIFY (R416). -/
def onRsaVerify (n : Fin 8) (seam : Fin 64) (s : State) : State :=
  s.cipherJob n seam.val 0x34 true fun j aux src => rsaOp j aux src

/-! ### The commands as the queue gives them -/

def execAesGcmEncrypt (n : Fin 8) (seam : Fin 64) (s : State) : Answer := s.run (onAesGcmEncrypt n seam)
def execAesGcmDecrypt (n : Fin 8) (seam : Fin 64) (s : State) : Answer := s.run (onAesGcmDecrypt n seam)
def execAesXtsEncrypt (n : Fin 8) (seam : Fin 64) (s : State) : Answer := s.run (onAesXtsEncrypt n seam)
def execAesXtsDecrypt (n : Fin 8) (seam : Fin 64) (s : State) : Answer := s.run (onAesXtsDecrypt n seam)
def execAesCbcEncrypt (n : Fin 8) (seam : Fin 64) (s : State) : Answer := s.run (onAesCbcEncrypt n seam)
def execAesCbcDecrypt (n : Fin 8) (seam : Fin 64) (s : State) : Answer := s.run (onAesCbcDecrypt n seam)
def execHash (n : Fin 8) (seam : Fin 64) (s : State) : Answer := s.run (onHash n seam)
def execEcdsaSign (n : Fin 8) (seam : Fin 64) (s : State) : Answer := s.run (onEcdsaSign n seam)
def execEcdsaVerify (n : Fin 8) (seam : Fin 64) (s : State) : Answer := s.run (onEcdsaVerify n seam)
def execEd25519Sign (n : Fin 8) (seam : Fin 64) (s : State) : Answer := s.run (onEd25519Sign n seam)
def execEd25519Verify (n : Fin 8) (seam : Fin 64) (s : State) : Answer := s.run (onEd25519Verify n seam)
def execRsaVerify (n : Fin 8) (seam : Fin 64) (s : State) : Answer := s.run (onRsaVerify n seam)

end Sys2Proof.Machine
end

