-- ==== Sys2Proof/Machine/Crusher.lean ====
section
/-! DEFINITION. The operations of the Crusher engines (R412-R415). -/

namespace Sys2Proof.Machine

/-- The check value of a container: Adler-32 for zlib, CRC-32 for raw and gzip (R414). -/
def containerCheck (container : Nat) (l : List Byte) : Nat := if container = 1 then adler32 l else (crc32 l).toNat

/-- The longest output that a compression may have (R414). -/
def deflateBound (n : Nat) : Nat := n + 5 * ((n + 65535) / 65536) + 18

/-- Does a body inflate to the input, and does its stream keep the bound? -/
def bodyGood (container : Nat) (dict : Option (List Byte)) (src body : List Byte) : Bool :=
  decide ((deflateWrap container dict src body).length ≤ deflateBound src.length) &&
    (match inflateRaw (dict.getD []) body src.length with
     | .ok (o, n) => o == src && n == body.length
     | .error _ => false)

/-- The compressed stream (R414): the match search is the implementation's, so its body is a free value among the bodies that inflate to
the input within the bound; where the free value is none, and for CODING stored, the input goes in stored blocks (log entry 14). -/
def deflateStream (container coding : Nat) (dict : Option (List Byte)) (src : List Byte) : List Byte :=
  let stored := storedBody (src.length / 65535 + 1) src
  let chosen := Config.deflateBody coding (dict.getD []) src
  let body := if coding = 0 then stored else if bodyGood container dict src chosen then chosen else stored
  deflateWrap container dict src body

/-- The dictionary of a job, if DICT is 1. -/
def State.jobDict (s : State) (seam : Nat) (j : Job) : State × Option JobRead :=
  if j.optBits 4 4 = 1 then (let r := s.jobRead seam j.aux j.auxLen; (r.1, some r.2)) else (s, none)

/-- COMPRESS (R414). -/
def onCompress (n : Fin 4) (seam : Fin 64) (s : State) : State :=
  let e := EngineId.crusher n
  match s.toPerform e seam.val 1 with
  | none => s
  | some j =>
    let r := s.jobRead seam.val j.src j.srcLen
    let d := r.1.jobDict seam.val j
    match r.2, d.2 with
    | .stays, _ | _, some .stays => d.1
    | _, some (.fails st) => d.1.failJob e seam.val j st j.check
    | .fails st, _ => d.1.partJob e seam.val j st j.check
    | .bytes src, dict =>
      let dict := match dict with | some (.bytes l) => some l | _ => none
      let c := j.optBits 0 1
      d.1.finishJob e seam.val j 1 (deflateStream c (j.optBits 2 3) dict src) (checkWord (containerCheck c src) src.length)

/-- DECOMPRESS (R415). -/
def onDecompress (n : Fin 4) (seam : Fin 64) (s : State) : State :=
  let e := EngineId.crusher n
  match s.toPerform e seam.val 2 with
  | none => s
  | some j =>
    let r := s.jobRead seam.val j.src j.srcLen
    let d := r.1.jobDict seam.val j
    match r.2, d.2 with
    | .stays, _ | _, some .stays => d.1
    | _, some (.fails st) => d.1.failJob e seam.val j st j.check
    | .fails st, _ => d.1.partJob e seam.val j st j.check
    | .bytes src, dict =>
      let dict := match dict with | some (.bytes l) => some l | _ => none
      let c := j.optBits 0 1
      let out := if c = 0 then inflateRaw (dict.getD []) src j.dstLen
        else if c = 1 then inflateZlib dict src j.dstLen else inflateGzip src j.dstLen
      match out with
      | .ok (o, used) => d.1.finishJob e seam.val j 1 o (checkWord (containerCheck c o) used)
      | .error err =>
        let st := match err with | .bad => 0x13 | .full => 0x12 | .check => 0x14
        let f := d.1.freeCheck
        f.1.partJob e seam.val j st f.2

/-! ### The commands as the queue gives them -/

def execCompress (n : Fin 4) (seam : Fin 64) (s : State) : Answer := s.run (onCompress n seam)
def execDecompress (n : Fin 4) (seam : Fin 64) (s : State) : Answer := s.run (onDecompress n seam)

end Sys2Proof.Machine
end

