-- ==== Sys2Proof/Machine/Decimal.lean ====
section
/-! DEFINITION. Decimal floating-point data and operations (R98, R103-R107, R110, R112, R113): decimal64 and decimal128 with the densely
packed decimal encoding of IEEE 754. -/

namespace Sys2Proof.Machine

/-! ### Densely packed decimal -/

/-- The three digits that a declet encodes, as a number below 1,000; every declet encodes one. -/
def declet (n : Nat) : Nat :=
  let b (i : Nat) : Nat := n / 2 ^ i % 2
  let hi := 4 * b 9 + 2 * b 8 + b 7
  let mid := 4 * b 6 + 2 * b 5 + b 4
  let pq := 4 * b 9 + 2 * b 8
  let st := 4 * b 6 + 2 * b 5
  if b 3 = 0 then hi * 100 + mid * 10 + n % 8
  else match b 2, b 1 with
    | 0, 0 => hi * 100 + mid * 10 + (8 + b 0)
    | 0, _ => hi * 100 + (8 + b 4) * 10 + (st + b 0)
    | _, 0 => (8 + b 7) * 100 + mid * 10 + (pq + b 0)
    | _, _ => match b 6, b 5 with
      | 0, 0 => (8 + b 7) * 100 + (8 + b 4) * 10 + (pq + b 0)
      | 0, _ => (8 + b 7) * 100 + (pq + b 4) * 10 + (8 + b 0)
      | _, 0 => hi * 100 + (8 + b 4) * 10 + (8 + b 0)
      | _, _ => (8 + b 7) * 100 + (8 + b 4) * 10 + (8 + b 0)

/-- The canonical declet of a number below 1,000. -/
def toDeclet (n : Nat) : Nat :=
  let x := n / 100 % 10
  let y := n / 10 % 10
  let z := n % 10
  match decide (8 ≤ x), decide (8 ≤ y), decide (8 ≤ z) with
  | false, false, false => x * 128 + y * 16 + z
  | false, false, true => x * 128 + y * 16 + 8 + z % 2
  | false, true, false => x * 128 + (z / 2) * 32 + (y % 2) * 16 + 10 + z % 2
  | true, false, false => (z / 2) * 256 + (x % 2) * 128 + y * 16 + 12 + z % 2
  | true, true, false => (z / 2) * 256 + (x % 2) * 128 + (y % 2) * 16 + 14 + z % 2
  | true, false, true => (y / 2) * 256 + (x % 2) * 128 + 32 + (y % 2) * 16 + 14 + z % 2
  | false, true, true => x * 128 + 64 + (y % 2) * 16 + 14 + z % 2
  | true, true, true => (x % 2) * 128 + 96 + (y % 2) * 16 + 14 + z % 2

/-- The digits of `n` declets. -/
def decletsOf (n v : Nat) : Nat :=
  (List.range n).foldl (fun a i => a * 1000 + declet (v / 2 ^ (10 * (n - 1 - i)) % 1024)) 0

/-- A number below 1000^n as `n` canonical declets. -/
def toDeclets (n v : Nat) : Nat :=
  (List.range n).foldl (fun a i => a * 1024 + toDeclet (v / 1000 ^ (n - 1 - i) % 1000)) 0

/-! ### Encodings -/

/-- The two widths of R98. -/
inductive DWidth where
  | d64 | d128
  deriving DecidableEq, Repr

def DWidth.format : DWidth → Format
  | .d64 => decimal64
  | .d128 => decimal128

/-- Bits of the exponent continuation, and declets. -/
def DWidth.ecb : DWidth → Nat
  | .d64 => 8
  | .d128 => 12
def DWidth.declets : DWidth → Nat
  | .d64 => 5
  | .d128 => 11

/-- The datum of an encoding, canonical or not. -/
def decDecode (w : DWidth) (v : Nat) : FVal :=
  let cw := 10 * w.declets
  let cont := v % 2 ^ cw
  let ec := v / 2 ^ cw % 2 ^ w.ecb
  let g := v / 2 ^ (cw + w.ecb) % 32
  let neg := v / 2 ^ (cw + w.ecb + 5) % 2 == 1
  if g = 31 then .nan neg (ec / 2 ^ (w.ecb - 1) % 2 == 1) (decletsOf w.declets cont)
  else if g = 30 then .inf neg
  else
    let msb := if 24 ≤ g then g / 2 % 4 else g / 8
    let lead := if 24 ≤ g then 8 + g % 2 else g % 8
    .num neg (lead * 1000 ^ w.declets + decletsOf w.declets cont) ((msb * 2 ^ w.ecb + ec : Nat) + w.format.qmin)

/-- The canonical encoding of a datum that the format holds. -/
def decEncode (w : DWidth) (v : FVal) : Nat :=
  let cw := 10 * w.declets
  let sign (neg : Bool) : Nat := if neg then 2 ^ (cw + w.ecb + 5) else 0
  match v with
  | .inf neg => sign neg + 30 * 2 ^ (cw + w.ecb)
  | .nan neg signal p =>
    sign neg + 31 * 2 ^ (cw + w.ecb) + (if signal then 2 ^ (cw + w.ecb - 1) else 0) + toDeclets w.declets p
  | .num neg c e =>
    let be := (e - w.format.qmin).toNat
    let lead := c / 1000 ^ w.declets
    let msb := be / 2 ^ w.ecb
    let g := if 8 ≤ lead then 24 + msb * 2 + lead % 2 else msb * 8 + lead
    sign neg + g * 2 ^ (cw + w.ecb) + be % 2 ^ w.ecb * 2 ^ cw + toDeclets w.declets (c % 1000 ^ w.declets)

/-! ### Results (R104) -/

/-- A coefficient without its trailing zeros, at most `n` of them, and their number. -/
def stripZeros : Nat → Nat → Nat × Nat
  | 0, c => (c, 0)
  | n + 1, c => if c % 10 = 0 then (fun (r : Nat × Nat) => (r.1, r.2 + 1)) (stripZeros n (c / 10)) else (c, 0)

/-- An exponent brought into the range of a format. -/
def Format.clamp (f : Format) (e : Int) : Int := max f.qmin (min e f.qmax)

/-- A result of a decimal operation with its preferred exponent (R104): an exact one takes the exponent nearest to it, an inexact one keeps
the full precision. -/
def decFinish (f : Format) (m : RMode) (neg : Bool) (coef : Nat) (exp : Int) (sticky : Bool) (pref : Int) : FVal × Raised :=
  if coef = 0 ∧ !sticky then (.num neg 0 (f.clamp pref), 0)
  else
    let z := if sticky then (coef, 0) else stripZeros (decDigits coef) coef
    let c0 := z.1
    let e0 : Int := exp + z.2
    let n0 : Int := decDigits c0
    if !sticky ∧ n0 ≤ f.digits ∧ f.qmin ≤ e0 ∧ e0 + n0 ≤ f.qmax + f.digits then
      let low := max (e0 - (f.digits - n0)) f.qmin
      let e := min (max (min e0 pref) low) f.qmax
      (.num neg (c0 * 10 ^ (e0 - e).toNat) e, 0)
    else
      let r := f.round m neg c0 e0 sticky
      match r.1 with
      | .num n c e =>
        -- full precision for an inexact result; the fold-down of a large exponent is exact
        let room : Int := f.digits - decDigits c
        let pad := if c = 0 then 0 else if f.qmax < e then e - f.qmax else if r.2 &&& raiseX = 0 then 0 else min room (e - f.qmin)
        (.num n (c * 10 ^ pad.toNat) (e - pad), r.2)
      | _ => r

/-! ### Operations (R103, R110) -/

/-- A sum of numbers: the preferred exponent is the smaller of theirs. -/
def dAddNum (f : Format) (m : RMode) (n1 : Bool) (c1 : Nat) (e1 : Int) (n2 : Bool) (c2 : Nat) (e2 : Int) : FVal × Raised :=
  let s := exactAdd 10 m n1 c1 e1 n2 c2 e2
  decFinish f m s.1 s.2.1 s.2.2 false (min e1 e2)

def dAdd (f : Format) (m : RMode) (a b : FVal) : FVal × Raised :=
  match nanResult [a, b] with
  | some r => r
  | none => match a, b with
    | .inf x, .inf y => if x = y then (.inf x, 0) else (.default, raiseV)
    | .inf x, _ => (.inf x, 0)
    | _, .inf y => (.inf y, 0)
    | .num n1 c1 e1, .num n2 c2 e2 => dAddNum f m n1 c1 e1 n2 c2 e2
    | _, _ => (.default, 0)

def dNeg : FVal → FVal
  | .num n c e => .num (!n) c e
  | .inf n => .inf (!n)
  | v => v

def dSub (f : Format) (m : RMode) (a b : FVal) : FVal × Raised := dAdd f m a (dNeg b)

def dMul (f : Format) (m : RMode) (a b : FVal) : FVal × Raised :=
  match nanResult [a, b] with
  | some r => r
  | none => match a, b with
    | .inf x, .inf y => (.inf (x != y), 0)
    | .inf x, .num y c _ | .num y c _, .inf x => if c = 0 then (.default, raiseV) else (.inf (x != y), 0)
    | .num n1 c1 e1, .num n2 c2 e2 => decFinish f m (n1 != n2) (c1 * c2) (e1 + e2) false (e1 + e2)
    | _, _ => (.default, 0)

def dDiv (f : Format) (m : RMode) (a b : FVal) : FVal × Raised :=
  match nanResult [a, b] with
  | some r => r
  | none => match a, b with
    | .inf _, .inf _ => (.default, raiseV)
    | .inf x, .num y _ _ => (.inf (x != y), 0)
    | .num x _ _, .inf y => (.num (x != y) 0 f.qmin, 0)
    | .num n1 c1 e1, .num n2 c2 e2 =>
      if c2 = 0 then (if c1 = 0 then (.default, raiseV) else (.inf (n1 != n2), raiseZ))
      else
        let k := 2 * f.digits + 2
        decFinish f m (n1 != n2) (c1 * 10 ^ k / c2) (e1 - e2 - k) (c1 * 10 ^ k % c2 != 0) (e1 - e2)
    | _, _ => (.default, 0)

def dSqrt (f : Format) (m : RMode) (a : FVal) : FVal × Raised :=
  match nanResult [a] with
  | some r => r
  | none => match a with
    | .inf neg => if neg then (.default, raiseV) else (.inf false, 0)
    | .num neg c e =>
      if c = 0 then (.num neg 0 (e / 2), 0)
      else if neg then (.default, raiseV)
      else
        let k : Nat := 2 * f.digits + 4 + (if e % 2 = 0 then 0 else 1)
        let n := c * 10 ^ k
        let r := isqrt 200 n
        decFinish f m false r ((e - k) / 2) (r * r != n) (e / 2)
    | v => (v, 0)

/-- f(r2) rounded to the exponent of f(r3) (R103, R104). X is the only exception of a result that fits. -/
def dQua (f : Format) (m : RMode) (a b : FVal) : FVal × Raised :=
  match nanResult [a, b] with
  | some r => r
  | none => match a, b with
    | .inf x, .inf _ => (.inf x, 0)
    | .num n c e, .num _ _ q =>
      if q ≤ e then
        (if c = 0 then (.num n 0 q, 0)
        else if f.digits < decDigits c + (e - q).toNat then (.default, raiseV)
        else (.num n (c * 10 ^ (e - q).toNat) q, 0))
      else
        let r := roundAt 10 m n c e q false
        if f.digits < decDigits r.1 then (.default, raiseV) else (.num n r.1 q, if r.2 then raiseX else 0)
    | _, _ => (.default, raiseV)

/-- Rounded to an integral value; X when the value changes (R103). -/
def dRound (f : Format) (m : RMode) (a : FVal) : FVal × Raised :=
  match nanResult [a] with
  | some r => r
  | none => match a with
    | .num neg c e =>
      if 0 ≤ e then (.num neg c e, 0)
      else let r := roundInteger 10 m neg c e; (.num neg r.1 (f.clamp 0), if r.2 then raiseX else 0)
    | v => (v, 0)

/-- A signed integer in decimal (R103, R107). -/
def dOfInt (f : Format) (m : RMode) (w : Word) : FVal × Raised :=
  decFinish f m (decide (w.toInt < 0)) w.toInt.natAbs 0 false 0

end Sys2Proof.Machine
end

