-- ==== Sys2Proof/Machine/DecimalOps.lean ====
section
/-! DEFINITION. The decimal floating-point instructions (R103-R107, R110, R112, R113). `q` selects the decimal128 form, whose floating
operands are even/odd pairs (R48). -/

namespace Sys2Proof.Machine

def dwidth (q : Bool) : DWidth := if q then .d128 else .d64

/-- A decimal operand. -/
def Arch.fd (a : Arch) (q : Bool) (r : BitVec 5) : FVal :=
  if q then decDecode .d128 ((a.fr r).toNat * 2 ^ 64 + (a.fr (pairOf r)).toNat) else decDecode .d64 (a.fr r).toNat

/-- f(r1) := a decimal datum. -/
def Arch.setFd (a : Arch) (q : Bool) (r : BitVec 5) (v : FVal) : Arch :=
  if q then
    let n := decEncode .d128 v
    (a.setF r (BitVec.ofNat 64 (n / 2 ^ 64))).setF (pairOf r) (BitVec.ofNat 64 n)
  else a.setF r (BitVec.ofNat 64 (decEncode .d64 v))

/-- Do the registers of a decimal128 operand name pairs (R48)? -/
def pairsOk (q : Bool) (l : List (BitVec 5)) : Bool := !q || l.all isEven

/-- A result with its CC in f(r1). -/
def putDecimal (q : Bool) (r1 : BitVec 5) (v : FVal × Raised) : Raised × (Arch → Arch) :=
  (v.2, fun a => (a.setFd q r1 v.1).setCc v.1.cc)

/-- A decimal operation of two operands. -/
def State.dec2 (s : State) (k : Fin 48) (q : Bool) (r1 r2 r3 : BitVec 5) (op : Format → RMode → FVal → FVal → FVal × Raised) : State :=
  s.fpInstr k true (pairsOk q [r1, r2, r3]) fun m a => putDecimal q r1 (op (dwidth q).format m (a.fd q r2) (a.fd q r3))

def onDadd (k : Fin 48) (q : Bool) (r1 r2 r3 : BitVec 5) (s : State) : State := s.dec2 k q r1 r2 r3 dAdd
def onDsub (k : Fin 48) (q : Bool) (r1 r2 r3 : BitVec 5) (s : State) : State := s.dec2 k q r1 r2 r3 dSub
def onDmul (k : Fin 48) (q : Bool) (r1 r2 r3 : BitVec 5) (s : State) : State := s.dec2 k q r1 r2 r3 dMul
def onDdiv (k : Fin 48) (q : Bool) (r1 r2 r3 : BitVec 5) (s : State) : State := s.dec2 k q r1 r2 r3 dDiv
def onDqua (k : Fin 48) (q : Bool) (r1 r2 r3 : BitVec 5) (s : State) : State := s.dec2 k q r1 r2 r3 dQua

/-- DSQRT: r3 must be 0. -/
def onDsqrt (k : Fin 48) (q : Bool) (r1 r2 r3 : BitVec 5) (s : State) : State :=
  s.fpInstr k true (pairsOk q [r1, r2] && r3 == 0) fun m a => putDecimal q r1 (dSqrt (dwidth q).format m (a.fd q r2))

/-- DCMP and DCMPS: no target, and r1 must be 0 as for FCMP (log entry 61). -/
def onDcmp (k : Fin 48) (q : Bool) (r1 r2 r3 : BitVec 5) (s : State) : State :=
  s.fpInstr k true (pairsOk q [r2, r3] && r1 == 0) fun _ a => putCompare (fpCompare 10 false (a.fd q r2) (a.fd q r3))
def onDcmps (k : Fin 48) (q : Bool) (r1 r2 r3 : BitVec 5) (s : State) : State :=
  s.fpInstr k true (pairsOk q [r2, r3] && r1 == 0) fun _ a => putCompare (fpCompare 10 true (a.fd q r2) (a.fd q r3))

def onDcvti (k : Fin 48) (q : Bool) (r1 r2 : BitVec 5) (s : State) : State :=
  s.fpInstr k true (pairsOk q [r2]) fun m a => putInteger r1 (toInt64 10 m (a.fd q r2))
def onIcvtd (k : Fin 48) (q : Bool) (r1 r2 : BitVec 5) (s : State) : State :=
  s.fpInstr k true (pairsOk q [r1]) fun m a => putDecimal q r1 (dOfInt (dwidth q).format m (a.gr r2))
def onDrnd (k : Fin 48) (q : Bool) (r1 r2 : BitVec 5) (s : State) : State :=
  s.fpInstr k true (pairsOk q [r1, r2]) fun m a => putDecimal q r1 (dRound (dwidth q).format m (a.fd q r2))

/-! ### The commands as the queue gives them -/

def execDadd (k : Fin 48) (q : Bool) (r1 r2 r3 : BitVec 5) (s : State) : Answer := s.run (onDadd k q r1 r2 r3)
def execDsub (k : Fin 48) (q : Bool) (r1 r2 r3 : BitVec 5) (s : State) : Answer := s.run (onDsub k q r1 r2 r3)
def execDmul (k : Fin 48) (q : Bool) (r1 r2 r3 : BitVec 5) (s : State) : Answer := s.run (onDmul k q r1 r2 r3)
def execDdiv (k : Fin 48) (q : Bool) (r1 r2 r3 : BitVec 5) (s : State) : Answer := s.run (onDdiv k q r1 r2 r3)
def execDsqrt (k : Fin 48) (q : Bool) (r1 r2 r3 : BitVec 5) (s : State) : Answer := s.run (onDsqrt k q r1 r2 r3)
def execDqua (k : Fin 48) (q : Bool) (r1 r2 r3 : BitVec 5) (s : State) : Answer := s.run (onDqua k q r1 r2 r3)
def execDcmp (k : Fin 48) (q : Bool) (r1 r2 r3 : BitVec 5) (s : State) : Answer := s.run (onDcmp k q r1 r2 r3)
def execDcmps (k : Fin 48) (q : Bool) (r1 r2 r3 : BitVec 5) (s : State) : Answer := s.run (onDcmps k q r1 r2 r3)
def execDcvti (k : Fin 48) (q : Bool) (r1 r2 : BitVec 5) (s : State) : Answer := s.run (onDcvti k q r1 r2)
def execIcvtd (k : Fin 48) (q : Bool) (r1 r2 : BitVec 5) (s : State) : Answer := s.run (onIcvtd k q r1 r2)
def execDrnd (k : Fin 48) (q : Bool) (r1 r2 : BitVec 5) (s : State) : Answer := s.run (onDrnd k q r1 r2)

end Sys2Proof.Machine
end

