-- ==== Sys2Proof/Machine/GrecelFormats.lean ====
section
/-! DEFINITION. Instruction formats and opcodes of the haulers (R350-R354): the form, opcode and operands that the bytes at PC spell, none
where the encoding is reserved, and those of each instruction. -/

namespace Sys2Proof.Machine

/-- The six bytes from PC on, the first one the most significant. An instruction has one to six of them (R350). -/
abbrev GrecelBytes := BitVec 48

/-- Byte `i` of six. -/
def GrecelBytes.byte (w : GrecelBytes) (i : Nat) : Byte := (w >>> (40 - 8 * i)).setWidth 8

/-- The two bytes from byte `i` on. -/
def GrecelBytes.half (w : GrecelBytes) (i : Nat) : Half := (w >>> (32 - 8 * i)).setWidth 16

/-- The COND prefix, bytes 0xE0 to 0xED (R350, R353). -/
def condOf (b : Byte) : Option (Fin 14) :=
  if h : 0xE0 ≤ b.toNat ∧ b.toNat < 0xEE then some ⟨b.toNat - 0xE0, by omega⟩ else none

/-- Is the byte an XPFX prefix, 0xF1 to 0xF7 (R350)? -/
def isXpfx (b : Byte) : Bool := decide (0xF1 ≤ b.toNat) && decide (b.toNat ≤ 0xF7)

/-- The opcode byte and the operands of an instruction, by its form (R351). -/
inductive GrecelForm where
  | n (op : Nat)
  | r (op : Nat) (rd rs : Fin 16)
  | i (op : Nat) (rd : Fin 16) (wide : Bool) (imm : Half)
  | m (op : Nat) (rd rs : Fin 16) (mode : Fin 3) (wide : Bool) (disp : Half)
  | a (op : Nat) (rd : Fin 16) (addr : Half)
  | b (op : Nat) (target : Half)
  | s (op : Nat) (rd : Fin 16) (num : Byte)
  | l (level : Fin 4) (stop count : Half)
  deriving DecidableEq, Repr

/-! ### The bytes of an instruction -/

/-- An instruction after its COND prefix: the bits W, D and S of XPFX with whether there was one, and the bytes from the opcode on. -/
structure GrecelParts where
  prefixed : Bool
  w : Bool
  d : Bool
  s : Bool
  rest : GrecelBytes

/-- XPFX, then the opcode (R350). -/
def grecelParts (b : GrecelBytes) : GrecelParts :=
  let x := GrecelBytes.byte b 0
  if isXpfx x then ⟨true, x.getLsbD 2, x.getLsbD 1, x.getLsbD 0, b <<< 8⟩ else ⟨false, false, false, false, b⟩

/-- Byte and half after the opcode. -/
def GrecelParts.byte (p : GrecelParts) (i : Nat) : Byte := GrecelBytes.byte p.rest i
def GrecelParts.half (p : GrecelParts) (i : Nat) : Half := GrecelBytes.half p.rest i

/-- A register field of the operand byte, with the prefix bit that makes it name h8-h15 (R350, R351). -/
def grecelReg (high : Bool) (f : BitVec 3) : Fin 16 := ⟨f.toNat + (if high then 8 else 0), by have := f.isLt; split <;> omega⟩

/-- RD, RS and MODE of the operand byte, which follows the opcode (R351). -/
def GrecelParts.rdField (p : GrecelParts) : BitVec 3 := (p.byte 1 >>> 5).setWidth 3
def GrecelParts.rsField (p : GrecelParts) : BitVec 3 := (p.byte 1 >>> 2).setWidth 3
def GrecelParts.mode (p : GrecelParts) : BitVec 2 := (p.byte 1).setWidth 2
def GrecelParts.rd (p : GrecelParts) : Fin 16 := grecelReg p.d p.rdField
def GrecelParts.rs (p : GrecelParts) : Fin 16 := grecelReg p.s p.rsField

/-- Form R: MODE must be 0, and RD for JR; XPFX without W. -/
def GrecelParts.formR (p : GrecelParts) (op : Nat) : Option GrecelForm :=
  if p.w ∨ p.mode ≠ 0 ∨ (op = 0x42 ∧ p.rdField ≠ 0) then none else some (.r op p.rd p.rs)

/-- Form I: RS and MODE must be 0; XPFX without S, and for a shift without W. -/
def GrecelParts.formI (p : GrecelParts) (op : Nat) : Option GrecelForm :=
  if p.s ∨ p.rsField ≠ 0 ∨ p.mode ≠ 0 ∨ (p.w = true ∧ 0x2A ≤ op) then none
  else some (.i op p.rd p.w (if p.w then p.half 2 else (p.byte 2).setWidth 16))

/-- Form M: MODE 0b11 is reserved. -/
def GrecelParts.formM (p : GrecelParts) (op : Nat) : Option GrecelForm :=
  if h : p.mode.toNat < 3 then
    some (.m op p.rd p.rs ⟨p.mode.toNat, h⟩ p.w (if p.w then p.half 2 else (p.byte 2).setWidth 16))
  else none

/-- Do forms A and S take the prefix and the operand byte: D only, RS and MODE 0? -/
def GrecelParts.plainRd (p : GrecelParts) : Bool := !p.w && !p.s && p.rsField == 0 && p.mode == 0

/-- Form L: no prefix; the level stands in bits 0:1 of the level byte, whose other bits must be 0 (R351, R360). -/
def GrecelParts.formL (p : GrecelParts) (cond : Bool) : Option GrecelForm :=
  if p.prefixed ∨ cond ∨ (p.byte 1).setWidth 6 ≠ (0 : BitVec 6) then none
  else some (.l ⟨(p.byte 1 >>> 6).toNat % 4, by omega⟩ (p.half 2) (p.half 4))

/-- The form of an opcode, with its operands; none for a reserved one (R352, R354). -/
def GrecelParts.form (p : GrecelParts) (cond : Bool) : Option GrecelForm :=
  let op := (p.byte 0).toNat
  if op < 5 then (if p.prefixed then none else some (.n op))
  else if (0x10 ≤ op ∧ op < 0x20) ∨ op = 0x3A ∨ op = 0x3B ∨ op = 0x42 ∨ op = 0x53 then p.formR op
  else if op = 0x20 ∨ op = 0x21 ∨ op = 0x23 ∨ (0x25 ≤ op ∧ op < 0x2E) then p.formI op
  else if op = 0x30 ∨ op = 0x31 then p.formM op
  else if op = 0x32 ∨ op = 0x33 ∨ op = 0x38 ∨ op = 0x39 then (if p.plainRd then some (.a op p.rd (p.half 2)) else none)
  else if op = 0x40 ∨ op = 0x41 then (if p.prefixed then none else some (.b op (p.half 1)))
  else if op = 0x50 ∨ op = 0x51 then (if p.plainRd then some (.s op p.rd (p.byte 2)) else none)
  else if op = 0x52 then p.formL cond
  else none

/-- What the bytes at PC spell: the condition and the form; none for a reserved encoding (R350-R354). -/
def grecelAt (b : GrecelBytes) : Option (Option (Fin 14) × GrecelForm) :=
  let c := condOf (GrecelBytes.byte b 0)
  ((grecelParts (if c.isSome then b <<< 8 else b)).form c.isSome).map fun f => (c, f)

/-! ### The instructions by their opcodes (R352) -/

/-- The condition and the form of an instruction of a hauler; none for another command. -/
def grecelForm : Instr → Option (Option (Fin 14) × GrecelForm)
  | .grecelNop _ c => some (c, .n 0x00)
  | .grecelHalt _ c => some (c, .n 0x01)
  | .rtt _ c => some (c, .n 0x02)
  | .ret _ c => some (c, .n 0x03)
  | .wfe _ c => some (c, .n 0x04)
  | .mov _ c d s => some (c, .r 0x10 d s)
  | .grecelAdd _ c d s => some (c, .r 0x11 d s)
  | .adc _ c d s => some (c, .r 0x12 d s)
  | .grecelSub _ c d s => some (c, .r 0x13 d s)
  | .sbc _ c d s => some (c, .r 0x14 d s)
  | .grecelAnd _ c d s => some (c, .r 0x15 d s)
  | .grecelOr _ c d s => some (c, .r 0x16 d s)
  | .grecelXor _ c d s => some (c, .r 0x17 d s)
  | .grecelCmp _ c d s => some (c, .r 0x18 d s)
  | .tst _ c d s => some (c, .r 0x19 d s)
  | .shl _ c d s => some (c, .r 0x1A d s)
  | .shr _ c d s => some (c, .r 0x1B d s)
  | .sar _ c d s => some (c, .r 0x1C d s)
  | .rol _ c d s => some (c, .r 0x1D d s)
  | .grecelMul _ c d s => some (c, .r 0x1E d s)
  | .grecelMulh _ c d s => some (c, .r 0x1F d s)
  | .inr _ c d s => some (c, .r 0x3A d s)
  | .outr _ c d s => some (c, .r 0x3B d s)
  | .oca _ c d s => some (c, .r 0x53 d s)
  | .jr _ c s => some (c, .r 0x42 0 s)
  | .movi _ c d w v => some (c, .i 0x20 d w v)
  | .grecelAddi _ c d w v => some (c, .i 0x21 d w v)
  | .subi _ c d w v => some (c, .i 0x23 d w v)
  | .grecelAndi _ c d w v => some (c, .i 0x25 d w v)
  | .grecelOri _ c d w v => some (c, .i 0x26 d w v)
  | .grecelXori _ c d w v => some (c, .i 0x27 d w v)
  | .grecelCmpi _ c d w v => some (c, .i 0x28 d w v)
  | .tsti _ c d w v => some (c, .i 0x29 d w v)
  | .shli _ c d v => some (c, .i 0x2A d false (v.setWidth 16))
  | .shri _ c d v => some (c, .i 0x2B d false (v.setWidth 16))
  | .sari _ c d v => some (c, .i 0x2C d false (v.setWidth 16))
  | .roli _ c d v => some (c, .i 0x2D d false (v.setWidth 16))
  | .grecelLd _ c d s m w v => some (c, .m 0x30 d s m w v)
  | .st _ c d s m w v => some (c, .m 0x31 d s m w v)
  | .lda _ c d a => some (c, .a 0x32 d a)
  | .sta _ c d a => some (c, .a 0x33 d a)
  | .portIn _ c d a => some (c, .a 0x38 d a)
  | .portOut _ c d a => some (c, .a 0x39 d a)
  | .jmp _ c t => some (c, .b 0x40 t)
  | .call _ c t => some (c, .b 0x41 t)
  | .mts _ c d n => some (c, .s 0x50 d n)
  | .mfs _ c d n => some (c, .s 0x51 d n)
  | .lset _ l e n => some (none, .l l e n)
  | _ => none

end Sys2Proof.Machine
end

