-- ==== Sys2Proof/Machine/Grecel.lean ====
section
/-! DEFINITION. The instructions of the haulers (R352): one definition per instruction over the shared operations of Machine/Hauler.lean. -/

namespace Sys2Proof.Machine

/-! ### Shared forms -/

/-- An R-form operation (R351, R352). -/
def State.formR (s : State) (h : Fin 64) (cond : Option (Fin 14)) (op : HOp) (rd rs : Fin 16) : State :=
  s.hexec h.val cond (2 + xpfx (decide (8 ≤ rd.val) || decide (8 ≤ rs.val))) .plain fun s =>
    let x := s.hauler h.val
    (s, hopWrites op rd.val (x.reg rd.val) (x.reg rs.val) x.flags, .next)

/-- An I-form operation (R351, R352): `zero` marks the immediates that are zero-extended. -/
def State.formI (s : State) (h : Fin 64) (cond : Option (Fin 14)) (op : HOp) (rd : Fin 16) (wide : Bool) (imm : Half)
    (zero : Bool) : State :=
  s.hexec h.val cond ((if wide then 4 else 3) + xpfx (decide (8 ≤ rd.val) || wide)) .plain fun s =>
    let x := s.hauler h.val
    (s, hopWrites op rd.val (x.reg rd.val) (extended wide (!zero) imm) x.flags, .next)

/-- A shift by a register or by an immediate count. -/
def shiftWrites (kind : Nat) (rd : Nat) (x : Hauler) (n : Nat) : List Late :=
  let r := hshift kind (x.reg rd) n x.flags
  [lateReg rd r.1 1, lateSpec 0x10 r.2.word 1]

def State.shiftR (s : State) (h : Fin 64) (cond : Option (Fin 14)) (kind : Nat) (rd rs : Fin 16) : State :=
  s.hexec h.val cond (2 + xpfx (decide (8 ≤ rd.val) || decide (8 ≤ rs.val))) .plain fun s =>
    let x := s.hauler h.val
    (s, shiftWrites kind rd.val x (hfield (x.reg rs.val) 11 15), .next)

def State.shiftI (s : State) (h : Fin 64) (cond : Option (Fin 14)) (kind : Nat) (rd : Fin 16) (imm : Byte) : State :=
  s.hexec h.val cond (3 + xpfx (decide (8 ≤ rd.val))) .plain fun s =>
    let x := s.hauler h.val
    (s, shiftWrites kind rd.val x (imm.toNat % 32), .next)

/-- A load of a pit word: distance 2, or a trap with cause 0x06 on an uncorrectable word (R352, R366). -/
def State.pitLoad (s : State) (h : Nat) (addr : Half) (rd : Nat) (also : List Late) : State × List Late × HNext :=
  if s.pitIsBad h addr.toNat then (s.pitError h addr.toNat, [], .trap 6)
  else (s, also ++ [lateReg rd (s.pitWord h addr.toNat) 2], .next)

/-- The update of RS by MODE 0b01 or 0b10 (R351). -/
def rsUpdate (mode : Fin 3) (rs : Nat) (v : Half) : List Late :=
  match mode with
  | 0 => []
  | 1 => [lateReg rs (v + 1) 1]
  | 2 => [lateReg rs (v - 1) 1]

/-- The length of an M-form instruction. -/
def lenM (rd rs : Fin 16) (wide : Bool) : Nat :=
  (if wide then 4 else 3) + xpfx (wide || decide (8 ≤ rd.val) || decide (8 ≤ rs.val))

/-- A read of a port: distance 2, or a trap with cause 0x04 (R352, R368). -/
def State.inPort (s : State) (h : Nat) (port rd : Nat) : State × List Late × HNext :=
  match s.portRead h port with
  | (s, some v) => (s, [lateReg rd v 2], .next)
  | (_, none) => (s, [], .trap 4)

def State.outPort (s : State) (h : Nat) (port : Nat) (v : Half) : State × List Late × HNext :=
  match s.portWrite h port v with
  | (s, true) => (s, [], .next)
  | (_, false) => (s, [], .trap 4)

/-- The write distance of a special register that MTS may write (R347). -/
def mtsDistance (n : Nat) : Option Nat :=
  if n < 4 then some 1 else if n < 12 then some 3
  else if n = 0x10 ∨ n = 0x11 ∨ n = 0x12 ∨ n = 0x15 then some 1 else none

/-- The value of a special register for MFS (R347); none for a number that is not in the table. -/
def State.specRead (s : State) (h n : Nat) : Option Half :=
  if n < 12 ∨ (0x10 ≤ n ∧ n < 0x19) then some ((s.hauler h).spec n)
  else if n = 0x20 then some (BitVec.ofNat 16 h)
  else if n = 0x21 then some (BitVec.ofNat 16 (s.ownerOfUnit (uHauler h)))
  else none

/-- What MTS stores: FLAGS keeps only its defined bits (R347). -/
def mtsValue (n : Nat) (v : Half) : Half := if n = 0x10 then v &&& 0x000F#16 else v

/-! ### Form N -/

/-- NOP. -/
def onGrecelNop (h : Fin 64) (cond : Option (Fin 14)) (s : State) : State :=
  s.hexec h.val cond 1 .plain fun s => (s, [], .next)

/-- HALT. -/
def onGrecelHalt (h : Fin 64) (cond : Option (Fin 14)) (s : State) : State :=
  s.hexec h.val cond 1 .plain fun s => (s, [], .halt)

/-- RTT (R364), which takes 2 cycles (log entry 117). Writes in flight keep their distance across it. -/
def onRtt (h : Fin 64) (cond : Option (Fin 14)) (s : State) : State :=
  s.hexec h.val cond 1 .plain fun s =>
    let x := s.hauler h.val
    let y := (x.setSpec 0x10 (mtsValue 0x10 (x.spec 0x15))).setSpec 0x14 (x.spec 0x14 &&& ~~~(hbit 0))
    let (y, back) := y.loopBack (x.spec 0x11)
    let pc := match back with | some t => t | none => x.spec 0x12
    ((s.setHauler h.val { y.boundary [] with pc := pc, delay := none, lsetLeft := x.lsetLeft - 1, mode := .running }).count
      (uHauler h.val) Reg.HLR_CYCLES.CYCLES, [], .resume)

/-- RET. -/
def onRet (h : Fin 64) (cond : Option (Fin 14)) (s : State) : State :=
  s.hexec h.val cond 1 .branch fun s => (s, [], .branch ((s.hauler h.val).reg 15))

/-- WFE. -/
def onWfe (h : Fin 64) (cond : Option (Fin 14)) (s : State) : State :=
  s.hexec h.val cond 1 .plain fun s => (s, [], .wait)

/-- WFE_RESUME: an unmasked event is pending, and the hauler goes on. -/
def onWfeResume (h : Fin 64) (s : State) : State :=
  let x := s.hauler h.val
  if x.mode = .wfe ∧ ¬((x.evtDma &&& x.maskDma) = 0 ∧ (x.evtMisc &&& x.maskMisc) = 0) then
    (s.setHauler h.val { x with mode := x.runMode }).haltAsked h.val
  else s

/-! ### Form R -/

def onMov (h : Fin 64) (cond : Option (Fin 14)) (rd rs : Fin 16) (s : State) : State := s.formR h cond .mov rd rs
def onGrecelAdd (h : Fin 64) (cond : Option (Fin 14)) (rd rs : Fin 16) (s : State) : State := s.formR h cond .add rd rs
def onAdc (h : Fin 64) (cond : Option (Fin 14)) (rd rs : Fin 16) (s : State) : State := s.formR h cond .adc rd rs
def onGrecelSub (h : Fin 64) (cond : Option (Fin 14)) (rd rs : Fin 16) (s : State) : State := s.formR h cond .sub rd rs
def onSbc (h : Fin 64) (cond : Option (Fin 14)) (rd rs : Fin 16) (s : State) : State := s.formR h cond .sbc rd rs
def onGrecelAnd (h : Fin 64) (cond : Option (Fin 14)) (rd rs : Fin 16) (s : State) : State := s.formR h cond .and rd rs
def onGrecelOr (h : Fin 64) (cond : Option (Fin 14)) (rd rs : Fin 16) (s : State) : State := s.formR h cond .or rd rs
def onGrecelXor (h : Fin 64) (cond : Option (Fin 14)) (rd rs : Fin 16) (s : State) : State := s.formR h cond .xor rd rs
def onGrecelCmp (h : Fin 64) (cond : Option (Fin 14)) (rd rs : Fin 16) (s : State) : State := s.formR h cond .cmp rd rs
def onTst (h : Fin 64) (cond : Option (Fin 14)) (rd rs : Fin 16) (s : State) : State := s.formR h cond .tst rd rs
def onOca (h : Fin 64) (cond : Option (Fin 14)) (rd rs : Fin 16) (s : State) : State := s.formR h cond .oca rd rs
def onShl (h : Fin 64) (cond : Option (Fin 14)) (rd rs : Fin 16) (s : State) : State := s.shiftR h cond 0 rd rs
def onShr (h : Fin 64) (cond : Option (Fin 14)) (rd rs : Fin 16) (s : State) : State := s.shiftR h cond 1 rd rs
def onSar (h : Fin 64) (cond : Option (Fin 14)) (rd rs : Fin 16) (s : State) : State := s.shiftR h cond 2 rd rs
def onRol (h : Fin 64) (cond : Option (Fin 14)) (rd rs : Fin 16) (s : State) : State := s.shiftR h cond 3 rd rs

/-- MUL and MULH: distance 2. -/
def onGrecelMul (h : Fin 64) (cond : Option (Fin 14)) (rd rs : Fin 16) (s : State) : State :=
  s.hexec h.val cond (2 + xpfx (decide (8 ≤ rd.val) || decide (8 ≤ rs.val))) .plain fun s =>
    let x := s.hauler h.val
    (s, [lateReg rd.val (x.reg rd.val * x.reg rs.val) 2], .next)

def onGrecelMulh (h : Fin 64) (cond : Option (Fin 14)) (rd rs : Fin 16) (s : State) : State :=
  s.hexec h.val cond (2 + xpfx (decide (8 ≤ rd.val) || decide (8 ≤ rs.val))) .plain fun s =>
    let x := s.hauler h.val
    (s, [lateReg rd.val (BitVec.ofNat 16 ((x.reg rd.val).toNat * (x.reg rs.val).toNat / 65536)) 2], .next)

/-- INR and OUTR: the port number is in rs. -/
def onInr (h : Fin 64) (cond : Option (Fin 14)) (rd rs : Fin 16) (s : State) : State :=
  s.hexec h.val cond (2 + xpfx (decide (8 ≤ rd.val) || decide (8 ≤ rs.val))) .plain fun s =>
    s.inPort h.val ((s.hauler h.val).reg rs.val).toNat rd.val

def onOutr (h : Fin 64) (cond : Option (Fin 14)) (rd rs : Fin 16) (s : State) : State :=
  s.hexec h.val cond (2 + xpfx (decide (8 ≤ rd.val) || decide (8 ≤ rs.val))) .plain fun s =>
    let x := s.hauler h.val
    s.outPort h.val (x.reg rs.val).toNat (x.reg rd.val)

/-- JR. -/
def onJr (h : Fin 64) (cond : Option (Fin 14)) (rs : Fin 16) (s : State) : State :=
  s.hexec h.val cond (2 + xpfx (decide (8 ≤ rs.val))) .branch fun s => (s, [], .branch ((s.hauler h.val).reg rs.val))

/-! ### Form I -/

def onMovi (h : Fin 64) (cond : Option (Fin 14)) (rd : Fin 16) (wide : Bool) (imm : Half) (s : State) : State :=
  s.formI h cond .mov rd wide imm false
def onGrecelAddi (h : Fin 64) (cond : Option (Fin 14)) (rd : Fin 16) (wide : Bool) (imm : Half) (s : State) : State :=
  s.formI h cond .add rd wide imm false
def onSubi (h : Fin 64) (cond : Option (Fin 14)) (rd : Fin 16) (wide : Bool) (imm : Half) (s : State) : State :=
  s.formI h cond .sub rd wide imm false
def onGrecelAndi (h : Fin 64) (cond : Option (Fin 14)) (rd : Fin 16) (wide : Bool) (imm : Half) (s : State) : State :=
  s.formI h cond .and rd wide imm true
def onGrecelOri (h : Fin 64) (cond : Option (Fin 14)) (rd : Fin 16) (wide : Bool) (imm : Half) (s : State) : State :=
  s.formI h cond .or rd wide imm true
def onGrecelXori (h : Fin 64) (cond : Option (Fin 14)) (rd : Fin 16) (wide : Bool) (imm : Half) (s : State) : State :=
  s.formI h cond .xor rd wide imm true
def onGrecelCmpi (h : Fin 64) (cond : Option (Fin 14)) (rd : Fin 16) (wide : Bool) (imm : Half) (s : State) : State :=
  s.formI h cond .cmp rd wide imm false
def onTsti (h : Fin 64) (cond : Option (Fin 14)) (rd : Fin 16) (wide : Bool) (imm : Half) (s : State) : State :=
  s.formI h cond .tst rd wide imm true
def onShli (h : Fin 64) (cond : Option (Fin 14)) (rd : Fin 16) (imm : Byte) (s : State) : State := s.shiftI h cond 0 rd imm
def onShri (h : Fin 64) (cond : Option (Fin 14)) (rd : Fin 16) (imm : Byte) (s : State) : State := s.shiftI h cond 1 rd imm
def onSari (h : Fin 64) (cond : Option (Fin 14)) (rd : Fin 16) (imm : Byte) (s : State) : State := s.shiftI h cond 2 rd imm
def onRoli (h : Fin 64) (cond : Option (Fin 14)) (rd : Fin 16) (imm : Byte) (s : State) : State := s.shiftI h cond 3 rd imm

/-! ### Forms M and A -/

/-- LD. -/
def onGrecelLd (h : Fin 64) (cond : Option (Fin 14)) (rd rs : Fin 16) (mode : Fin 3) (wide : Bool) (disp : Half) (s : State) :
    State :=
  s.hexec h.val cond (lenM rd rs wide) .plain fun s =>
    let a := (s.hauler h.val).reg rs.val
    s.pitLoad h.val (a + extended wide true disp) rd.val (rsUpdate mode rs.val a)

/-- ST. -/
def onSt (h : Fin 64) (cond : Option (Fin 14)) (rd rs : Fin 16) (mode : Fin 3) (wide : Bool) (disp : Half) (s : State) : State :=
  s.hexec h.val cond (lenM rd rs wide) .plain fun s =>
    let x := s.hauler h.val
    let a := x.reg rs.val
    (s.setPit h.val (a + extended wide true disp).toNat (x.reg rd.val), rsUpdate mode rs.val a, .next)

/-- LDA. -/
def onLda (h : Fin 64) (cond : Option (Fin 14)) (rd : Fin 16) (addr : Half) (s : State) : State :=
  s.hexec h.val cond (4 + xpfx (decide (8 ≤ rd.val))) .plain fun s => s.pitLoad h.val addr rd.val []

/-- STA. -/
def onSta (h : Fin 64) (cond : Option (Fin 14)) (rd : Fin 16) (addr : Half) (s : State) : State :=
  s.hexec h.val cond (4 + xpfx (decide (8 ≤ rd.val))) .plain fun s =>
    (s.setPit h.val addr.toNat ((s.hauler h.val).reg rd.val), [], .next)

/-- IN. -/
def onIn (h : Fin 64) (cond : Option (Fin 14)) (rd : Fin 16) (port : Half) (s : State) : State :=
  s.hexec h.val cond (4 + xpfx (decide (8 ≤ rd.val))) .plain fun s => s.inPort h.val port.toNat rd.val

/-- OUT. -/
def onOut (h : Fin 64) (cond : Option (Fin 14)) (rd : Fin 16) (port : Half) (s : State) : State :=
  s.hexec h.val cond (4 + xpfx (decide (8 ≤ rd.val))) .plain fun s =>
    s.outPort h.val port.toNat ((s.hauler h.val).reg rd.val)

/-! ### Forms B, S and L -/

/-- JMP. -/
def onJmp (h : Fin 64) (cond : Option (Fin 14)) (target : Half) (s : State) : State :=
  s.hexec h.val cond 3 .branch fun s => (s, [], .branch target)

/-- CALL: h15 takes the address after the delay slot. -/
def onCall (h : Fin 64) (cond : Option (Fin 14)) (target : Half) (s : State) : State :=
  s.hexec h.val cond 3 .branch fun s =>
    let slot := (s.hauler h.val).pc.toNat + (if cond.isSome then 4 else 3)
    (s, [lateReg 15 (BitVec.ofNat 16 (slot + s.lengthAt h.val slot)) 1], .branch target)

/-- MTS (R347): an RO register or an unknown number traps with cause 0x05. -/
def onMts (h : Fin 64) (cond : Option (Fin 14)) (rd : Fin 16) (n : Byte) (s : State) : State :=
  s.hexec h.val cond (3 + xpfx (decide (8 ≤ rd.val))) .plain fun s =>
    match mtsDistance n.toNat with
    | none => (s, [], .trap 5)
    | some d => (s, [lateSpec n.toNat (mtsValue n.toNat ((s.hauler h.val).reg rd.val)) d], .next)

/-- MFS (R347). -/
def onMfs (h : Fin 64) (cond : Option (Fin 14)) (rd : Fin 16) (n : Byte) (s : State) : State :=
  s.hexec h.val cond (3 + xpfx (decide (8 ≤ rd.val))) .plain fun s =>
    match s.specRead h.val n.toNat with
    | none => (s, [], .trap 5)
    | some v => (s, [lateReg rd.val v 1], .next)

/-- LSET (R360): LEl and LCl at distance 3, and LSl the address of the third instruction after the LSET, past the two that follow. -/
def onLset (h : Fin 64) (level : Fin 4) (stop count : Half) (s : State) : State :=
  s.hexec h.val none 6 .lset fun s =>
    let first := (s.hauler h.val).pc.toNat + 6
    let second := first + s.lengthAt h.val first
    (s, [lateSpec level.val (BitVec.ofNat 16 (second + s.lengthAt h.val second)) 1, lateSpec (4 + level.val) stop 3,
         lateSpec (8 + level.val) count 3], .next)

/-- The six bytes of the instruction store from PC on. -/
def State.grecelBytes (s : State) (h : Nat) : GrecelBytes :=
  let pc := (s.hauler h).pc.toNat
  BitVec.ofNat 48 (beNat ((List.range 6).map fun i => s.istoreByte h (pc + i)))

/-- RESERVED_ENCODING (R354, R362): the bytes at PC spell no instruction. -/
def onReservedEncoding (h : Fin 64) (s : State) : State :=
  if s.haulerRuns h.val && (grecelAt (s.grecelBytes h.val)).isNone then
    (s.count (uHauler h.val) Reg.HLR_CYCLES.CYCLES).trapHauler h.val 1 1
  else s

/-! ### The commands as the queue gives them -/

def execGrecelNop (h : Fin 64) (cond : Option (Fin 14)) (s : State) : Answer := s.run (onGrecelNop h cond)
def execGrecelHalt (h : Fin 64) (cond : Option (Fin 14)) (s : State) : Answer := s.run (onGrecelHalt h cond)
def execRtt (h : Fin 64) (cond : Option (Fin 14)) (s : State) : Answer := s.run (onRtt h cond)
def execRet (h : Fin 64) (cond : Option (Fin 14)) (s : State) : Answer := s.run (onRet h cond)
def execWfe (h : Fin 64) (cond : Option (Fin 14)) (s : State) : Answer := s.run (onWfe h cond)
def execWfeResume (h : Fin 64) (s : State) : Answer := s.run (onWfeResume h)
def execMov (h : Fin 64) (cond : Option (Fin 14)) (rd rs : Fin 16) (s : State) : Answer := s.run (onMov h cond rd rs)
def execGrecelAdd (h : Fin 64) (cond : Option (Fin 14)) (rd rs : Fin 16) (s : State) : Answer := s.run (onGrecelAdd h cond rd rs)
def execAdc (h : Fin 64) (cond : Option (Fin 14)) (rd rs : Fin 16) (s : State) : Answer := s.run (onAdc h cond rd rs)
def execGrecelSub (h : Fin 64) (cond : Option (Fin 14)) (rd rs : Fin 16) (s : State) : Answer := s.run (onGrecelSub h cond rd rs)
def execSbc (h : Fin 64) (cond : Option (Fin 14)) (rd rs : Fin 16) (s : State) : Answer := s.run (onSbc h cond rd rs)
def execGrecelAnd (h : Fin 64) (cond : Option (Fin 14)) (rd rs : Fin 16) (s : State) : Answer := s.run (onGrecelAnd h cond rd rs)
def execGrecelOr (h : Fin 64) (cond : Option (Fin 14)) (rd rs : Fin 16) (s : State) : Answer := s.run (onGrecelOr h cond rd rs)
def execGrecelXor (h : Fin 64) (cond : Option (Fin 14)) (rd rs : Fin 16) (s : State) : Answer := s.run (onGrecelXor h cond rd rs)
def execGrecelCmp (h : Fin 64) (cond : Option (Fin 14)) (rd rs : Fin 16) (s : State) : Answer := s.run (onGrecelCmp h cond rd rs)
def execTst (h : Fin 64) (cond : Option (Fin 14)) (rd rs : Fin 16) (s : State) : Answer := s.run (onTst h cond rd rs)
def execShl (h : Fin 64) (cond : Option (Fin 14)) (rd rs : Fin 16) (s : State) : Answer := s.run (onShl h cond rd rs)
def execShr (h : Fin 64) (cond : Option (Fin 14)) (rd rs : Fin 16) (s : State) : Answer := s.run (onShr h cond rd rs)
def execSar (h : Fin 64) (cond : Option (Fin 14)) (rd rs : Fin 16) (s : State) : Answer := s.run (onSar h cond rd rs)
def execRol (h : Fin 64) (cond : Option (Fin 14)) (rd rs : Fin 16) (s : State) : Answer := s.run (onRol h cond rd rs)
def execGrecelMul (h : Fin 64) (cond : Option (Fin 14)) (rd rs : Fin 16) (s : State) : Answer := s.run (onGrecelMul h cond rd rs)
def execGrecelMulh (h : Fin 64) (cond : Option (Fin 14)) (rd rs : Fin 16) (s : State) : Answer := s.run (onGrecelMulh h cond rd rs)
def execMovi (h : Fin 64) (cond : Option (Fin 14)) (rd : Fin 16) (wide : Bool) (imm : Half) (s : State) : Answer := s.run (onMovi h cond rd wide imm)
def execGrecelAddi (h : Fin 64) (cond : Option (Fin 14)) (rd : Fin 16) (wide : Bool) (imm : Half) (s : State) : Answer :=
  s.run (onGrecelAddi h cond rd wide imm)
def execSubi (h : Fin 64) (cond : Option (Fin 14)) (rd : Fin 16) (wide : Bool) (imm : Half) (s : State) : Answer := s.run (onSubi h cond rd wide imm)
def execGrecelAndi (h : Fin 64) (cond : Option (Fin 14)) (rd : Fin 16) (wide : Bool) (imm : Half) (s : State) : Answer :=
  s.run (onGrecelAndi h cond rd wide imm)
def execGrecelOri (h : Fin 64) (cond : Option (Fin 14)) (rd : Fin 16) (wide : Bool) (imm : Half) (s : State) : Answer :=
  s.run (onGrecelOri h cond rd wide imm)
def execGrecelXori (h : Fin 64) (cond : Option (Fin 14)) (rd : Fin 16) (wide : Bool) (imm : Half) (s : State) : Answer :=
  s.run (onGrecelXori h cond rd wide imm)
def execGrecelCmpi (h : Fin 64) (cond : Option (Fin 14)) (rd : Fin 16) (wide : Bool) (imm : Half) (s : State) : Answer :=
  s.run (onGrecelCmpi h cond rd wide imm)
def execTsti (h : Fin 64) (cond : Option (Fin 14)) (rd : Fin 16) (wide : Bool) (imm : Half) (s : State) : Answer := s.run (onTsti h cond rd wide imm)
def execShli (h : Fin 64) (cond : Option (Fin 14)) (rd : Fin 16) (imm : Byte) (s : State) : Answer := s.run (onShli h cond rd imm)
def execShri (h : Fin 64) (cond : Option (Fin 14)) (rd : Fin 16) (imm : Byte) (s : State) : Answer := s.run (onShri h cond rd imm)
def execSari (h : Fin 64) (cond : Option (Fin 14)) (rd : Fin 16) (imm : Byte) (s : State) : Answer := s.run (onSari h cond rd imm)
def execRoli (h : Fin 64) (cond : Option (Fin 14)) (rd : Fin 16) (imm : Byte) (s : State) : Answer := s.run (onRoli h cond rd imm)
def execGrecelLd (h : Fin 64) (cond : Option (Fin 14)) (rd rs : Fin 16) (mode : Fin 3) (wide : Bool) (disp : Half) (s : State) : Answer :=
  s.run (onGrecelLd h cond rd rs mode wide disp)
def execSt (h : Fin 64) (cond : Option (Fin 14)) (rd rs : Fin 16) (mode : Fin 3) (wide : Bool) (disp : Half) (s : State) : Answer :=
  s.run (onSt h cond rd rs mode wide disp)
def execLda (h : Fin 64) (cond : Option (Fin 14)) (rd : Fin 16) (addr : Half) (s : State) : Answer := s.run (onLda h cond rd addr)
def execSta (h : Fin 64) (cond : Option (Fin 14)) (rd : Fin 16) (addr : Half) (s : State) : Answer := s.run (onSta h cond rd addr)
def execIn (h : Fin 64) (cond : Option (Fin 14)) (rd : Fin 16) (port : Half) (s : State) : Answer := s.run (onIn h cond rd port)
def execOut (h : Fin 64) (cond : Option (Fin 14)) (rd : Fin 16) (port : Half) (s : State) : Answer := s.run (onOut h cond rd port)
def execInr (h : Fin 64) (cond : Option (Fin 14)) (rd rs : Fin 16) (s : State) : Answer := s.run (onInr h cond rd rs)
def execOutr (h : Fin 64) (cond : Option (Fin 14)) (rd rs : Fin 16) (s : State) : Answer := s.run (onOutr h cond rd rs)
def execJmp (h : Fin 64) (cond : Option (Fin 14)) (target : Half) (s : State) : Answer := s.run (onJmp h cond target)
def execCall (h : Fin 64) (cond : Option (Fin 14)) (target : Half) (s : State) : Answer := s.run (onCall h cond target)
def execJr (h : Fin 64) (cond : Option (Fin 14)) (rs : Fin 16) (s : State) : Answer := s.run (onJr h cond rs)
def execMts (h : Fin 64) (cond : Option (Fin 14)) (rd : Fin 16) (n : Byte) (s : State) : Answer := s.run (onMts h cond rd n)
def execMfs (h : Fin 64) (cond : Option (Fin 14)) (rd : Fin 16) (n : Byte) (s : State) : Answer := s.run (onMfs h cond rd n)
def execLset (h : Fin 64) (level : Fin 4) (stop count : Half) (s : State) : Answer := s.run (onLset h level stop count)
def execOca (h : Fin 64) (cond : Option (Fin 14)) (rd rs : Fin 16) (s : State) : Answer := s.run (onOca h cond rd rs)
def execReservedEncoding (h : Fin 64) (s : State) : Answer := s.run (onReservedEncoding h)

end Sys2Proof.Machine
end

