-- ==== Sys2Proof/Machine/Integer.lean ====
section
/-! DEFINITION. The integer instructions of R92-R97. `w` selects the W form (R92). -/

namespace Sys2Proof.Machine

/-- A result with the CC of ADD, from its exact value. -/
def Arch.putArith (a : Arch) (w : Bool) (r1 : BitVec 5) (v : Int) : Arch := (a.setG r1 (resultOf w v)).setCc (ccArith w v)

/-- The operands g(r2) and g(r3). -/
def Arch.s2 (a : Arch) (w : Bool) (r : BitVec 5) : Int := srcS w (a.gr r)
def Arch.u2 (a : Arch) (w : Bool) (r : BitVec 5) : Nat := srcU w (a.gr r)

/-! ### Sums and products (R93, R95) -/

def onAdd (k : Fin 48) (w : Bool) (r1 r2 r3 : BitVec 5) (s : State) : State :=
  s.simple k 4 fun a => a.putArith w r1 (a.s2 w r2 + a.s2 w r3)

def onAddl (k : Fin 48) (w : Bool) (r1 r2 r3 : BitVec 5) (s : State) : State :=
  s.simple k 4 fun a =>
    let v := a.u2 w r2 + a.u2 w r3
    (a.setG r1 (resultOf w v)).setCc (ccAddL w v)

def onSub (k : Fin 48) (w : Bool) (r1 r2 r3 : BitVec 5) (s : State) : State :=
  s.simple k 4 fun a => a.putArith w r1 (a.s2 w r2 - a.s2 w r3)

def onSubl (k : Fin 48) (w : Bool) (r1 r2 r3 : BitVec 5) (s : State) : State :=
  s.simple k 4 fun a =>
    (a.setG r1 (resultOf w ((a.u2 w r2 : Int) - a.u2 w r3))).setCc (ccSubL (a.u2 w r2) (a.u2 w r3))

def onMul (k : Fin 48) (w : Bool) (r1 r2 r3 : BitVec 5) (s : State) : State :=
  s.simple k 4 fun a =>
    let v := a.s2 w r2 * a.s2 w r3
    (a.setG r1 (resultOf w v)).setCc (if fitsS w v then ccSign v else 3)

def onMulh (k : Fin 48) (w : Bool) (r1 r2 r3 : BitVec 5) (s : State) : State :=
  s.simple k 4 fun a => a.setG r1 (resultOf w (a.s2 w r2 * a.s2 w r3 / 2 ^ widthOf w))

def onMulhu (k : Fin 48) (w : Bool) (r1 r2 r3 : BitVec 5) (s : State) : State :=
  s.simple k 4 fun a => a.setG r1 (resultOf w (a.u2 w r2 * a.u2 w r3 / 2 ^ widthOf w : Nat))

/-- NEG: 0 − g(r2); r3 must be 0. -/
def onNeg (k : Fin 48) (w : Bool) (r1 r2 r3 : BitVec 5) (s : State) : State :=
  s.instr k 4 (State.checked (r3 == 0) fun s => (s.setArch k ((s.arch k).putArith w r1 (0 - (s.arch k).s2 w r2)), .next))

/-! ### Division (R94) -/

/-- Quotient, remainder and CC of DIV. -/
def divSigned (w : Bool) (x y : Int) : Int × Int × Nat :=
  if y = 0 then (-1, x, 3)
  else if x = -(2 ^ (widthOf w - 1) : Int) ∧ y = -1 then (x, 0, 3)
  else (x.tdiv y, x.tmod y, ccSign (x.tdiv y))

/-- Quotient, remainder and CC of DIVU. -/
def divUnsigned (x y : Nat) : Int × Int × Nat :=
  if y = 0 then (-1, x, 3) else ((x / y : Nat), (x % y : Nat), if x / y = 0 then 0 else 2)

/-- The quotient goes to g(r1) and the remainder to g(r1 + 1). -/
def Arch.putDiv (a : Arch) (w : Bool) (r1 : BitVec 5) (d : Int × Int × Nat) : Arch :=
  ((a.setG r1 (resultOf w d.1)).setG (pairOf r1) (resultOf w d.2.1)).setCc d.2.2

def onDiv (k : Fin 48) (w : Bool) (r1 r2 r3 : BitVec 5) (s : State) : State :=
  s.instr k 4 (State.checked (isEven r1) fun s =>
    (s.setArch k ((s.arch k).putDiv w r1 (divSigned w ((s.arch k).s2 w r2) ((s.arch k).s2 w r3))), .next))

def onDivu (k : Fin 48) (w : Bool) (r1 r2 r3 : BitVec 5) (s : State) : State :=
  s.instr k 4 (State.checked (isEven r1) fun s =>
    (s.setArch k ((s.arch k).putDiv w r1 (divUnsigned ((s.arch k).u2 w r2) ((s.arch k).u2 w r3))), .next))

/-! ### Bitwise operations (R93) -/

/-- A bitwise result: in a W form its low half, extended. -/
def Arch.putLogic (a : Arch) (w : Bool) (r1 : BitVec 5) (v : Word) : Arch :=
  let x := resultOf w v.toNat
  (a.setG r1 x).setCc (ccLogic x)

def onAnd (k : Fin 48) (w : Bool) (r1 r2 r3 : BitVec 5) (s : State) : State :=
  s.simple k 4 fun a => a.putLogic w r1 (a.gr r2 &&& a.gr r3)
def onOr (k : Fin 48) (w : Bool) (r1 r2 r3 : BitVec 5) (s : State) : State :=
  s.simple k 4 fun a => a.putLogic w r1 (a.gr r2 ||| a.gr r3)
def onXor (k : Fin 48) (w : Bool) (r1 r2 r3 : BitVec 5) (s : State) : State :=
  s.simple k 4 fun a => a.putLogic w r1 (a.gr r2 ^^^ a.gr r3)

/-! ### Shifts and rotates (R96) -/

/-- The count: bits 56:63 of g(r3). -/
def shiftCount (x : Word) : Nat := x.field 56 63

def shiftLeft (w : Bool) (x n : Nat) : Int := if widthOf w ≤ n then 0 else (x * 2 ^ n : Nat)
def shiftRight (w : Bool) (x n : Nat) : Int := if widthOf w ≤ n then 0 else (x / 2 ^ n : Nat)
def shiftArith (w : Bool) (x : Int) (n : Nat) : Int := x / 2 ^ min n (widthOf w)
def rotateLeft (w : Bool) (x n : Nat) : Int :=
  let m := n % widthOf w
  (x * 2 ^ m + x / 2 ^ (widthOf w - m) : Nat)

def onSll (k : Fin 48) (w : Bool) (r1 r2 r3 : BitVec 5) (s : State) : State :=
  s.simple k 4 fun a => a.setG r1 (resultOf w (shiftLeft w (a.u2 w r2) (shiftCount (a.gr r3))))
def onSrl (k : Fin 48) (w : Bool) (r1 r2 r3 : BitVec 5) (s : State) : State :=
  s.simple k 4 fun a => a.setG r1 (resultOf w (shiftRight w (a.u2 w r2) (shiftCount (a.gr r3))))

/-- SRA sets CC by the sign of its result. -/
def onSra (k : Fin 48) (w : Bool) (r1 r2 r3 : BitVec 5) (s : State) : State :=
  s.simple k 4 fun a =>
    let v := shiftArith w (a.s2 w r2) (shiftCount (a.gr r3))
    (a.setG r1 (resultOf w v)).setCc (ccSign v)
def onRotl (k : Fin 48) (w : Bool) (r1 r2 r3 : BitVec 5) (s : State) : State :=
  s.simple k 4 fun a => a.setG r1 (resultOf w (rotateLeft w (a.u2 w r2) (shiftCount (a.gr r3))))

/-! ### Compares (R93): no target, and r1 must be 0 -/

def onCmp (k : Fin 48) (w : Bool) (r1 r2 r3 : BitVec 5) (s : State) : State :=
  s.instr k 4 (State.checked (r1 == 0) fun s =>
    (s.setArch k ((s.arch k).setCc (ccCompare ((s.arch k).s2 w r2) ((s.arch k).s2 w r3))), .next))
def onCmpl (k : Fin 48) (w : Bool) (r1 r2 r3 : BitVec 5) (s : State) : State :=
  s.instr k 4 (State.checked (r1 == 0) fun s =>
    (s.setArch k ((s.arch k).setCc (ccCompare ((s.arch k).u2 w r2) ((s.arch k).u2 w r3))), .next))

/-! ### Immediate forms (R97) -/

def onAddi (k : Fin 48) (r1 : BitVec 5) (imm : BitVec 16) (s : State) : State :=
  s.simple k 4 fun a => a.putArith false r1 ((a.gr r1).toInt + imm.toInt)
def onCmpi (k : Fin 48) (r1 : BitVec 5) (imm : BitVec 16) (s : State) : State :=
  s.simple k 4 fun a => a.setCc (ccCompare (a.gr r1).toInt imm.toInt)
def onAndi (k : Fin 48) (r1 : BitVec 5) (imm : BitVec 16) (s : State) : State :=
  s.simple k 4 fun a => a.putLogic false r1 (a.gr r1 &&& imm.setWidth 64)
def onOri (k : Fin 48) (r1 : BitVec 5) (imm : BitVec 16) (s : State) : State :=
  s.simple k 4 fun a => a.putLogic false r1 (a.gr r1 ||| imm.setWidth 64)
def onXori (k : Fin 48) (r1 : BitVec 5) (imm : BitVec 16) (s : State) : State :=
  s.simple k 4 fun a => a.putLogic false r1 (a.gr r1 ^^^ imm.setWidth 64)
def onLi (k : Fin 48) (r1 : BitVec 5) (imm : BitVec 16) (s : State) : State :=
  s.simple k 4 fun a => a.setG r1 (imm.signExtend 64)

/-! ### The commands as the queue gives them -/

def execAdd (k : Fin 48) (w : Bool) (r1 r2 r3 : BitVec 5) (s : State) : Answer := s.run (onAdd k w r1 r2 r3)
def execAddl (k : Fin 48) (w : Bool) (r1 r2 r3 : BitVec 5) (s : State) : Answer := s.run (onAddl k w r1 r2 r3)
def execSub (k : Fin 48) (w : Bool) (r1 r2 r3 : BitVec 5) (s : State) : Answer := s.run (onSub k w r1 r2 r3)
def execSubl (k : Fin 48) (w : Bool) (r1 r2 r3 : BitVec 5) (s : State) : Answer := s.run (onSubl k w r1 r2 r3)
def execMul (k : Fin 48) (w : Bool) (r1 r2 r3 : BitVec 5) (s : State) : Answer := s.run (onMul k w r1 r2 r3)
def execMulh (k : Fin 48) (w : Bool) (r1 r2 r3 : BitVec 5) (s : State) : Answer := s.run (onMulh k w r1 r2 r3)
def execMulhu (k : Fin 48) (w : Bool) (r1 r2 r3 : BitVec 5) (s : State) : Answer := s.run (onMulhu k w r1 r2 r3)
def execDiv (k : Fin 48) (w : Bool) (r1 r2 r3 : BitVec 5) (s : State) : Answer := s.run (onDiv k w r1 r2 r3)
def execDivu (k : Fin 48) (w : Bool) (r1 r2 r3 : BitVec 5) (s : State) : Answer := s.run (onDivu k w r1 r2 r3)
def execNeg (k : Fin 48) (w : Bool) (r1 r2 r3 : BitVec 5) (s : State) : Answer := s.run (onNeg k w r1 r2 r3)
def execAnd (k : Fin 48) (w : Bool) (r1 r2 r3 : BitVec 5) (s : State) : Answer := s.run (onAnd k w r1 r2 r3)
def execOr (k : Fin 48) (w : Bool) (r1 r2 r3 : BitVec 5) (s : State) : Answer := s.run (onOr k w r1 r2 r3)
def execXor (k : Fin 48) (w : Bool) (r1 r2 r3 : BitVec 5) (s : State) : Answer := s.run (onXor k w r1 r2 r3)
def execSll (k : Fin 48) (w : Bool) (r1 r2 r3 : BitVec 5) (s : State) : Answer := s.run (onSll k w r1 r2 r3)
def execSrl (k : Fin 48) (w : Bool) (r1 r2 r3 : BitVec 5) (s : State) : Answer := s.run (onSrl k w r1 r2 r3)
def execSra (k : Fin 48) (w : Bool) (r1 r2 r3 : BitVec 5) (s : State) : Answer := s.run (onSra k w r1 r2 r3)
def execRotl (k : Fin 48) (w : Bool) (r1 r2 r3 : BitVec 5) (s : State) : Answer := s.run (onRotl k w r1 r2 r3)
def execCmp (k : Fin 48) (w : Bool) (r1 r2 r3 : BitVec 5) (s : State) : Answer := s.run (onCmp k w r1 r2 r3)
def execCmpl (k : Fin 48) (w : Bool) (r1 r2 r3 : BitVec 5) (s : State) : Answer := s.run (onCmpl k w r1 r2 r3)
def execAddi (k : Fin 48) (r1 : BitVec 5) (imm : BitVec 16) (s : State) : Answer := s.run (onAddi k r1 imm)
def execCmpi (k : Fin 48) (r1 : BitVec 5) (imm : BitVec 16) (s : State) : Answer := s.run (onCmpi k r1 imm)
def execAndi (k : Fin 48) (r1 : BitVec 5) (imm : BitVec 16) (s : State) : Answer := s.run (onAndi k r1 imm)
def execOri (k : Fin 48) (r1 : BitVec 5) (imm : BitVec 16) (s : State) : Answer := s.run (onOri k r1 imm)
def execXori (k : Fin 48) (r1 : BitVec 5) (imm : BitVec 16) (s : State) : Answer := s.run (onXori k r1 imm)
def execLi (k : Fin 48) (r1 : BitVec 5) (imm : BitVec 16) (s : State) : Answer := s.run (onLi k r1 imm)

end Sys2Proof.Machine
end

