-- ==== Sys2Proof/Machine/Formats.lean ====
section
/-! DEFINITION. Instruction formats and opcodes of Ezxis (R54-R58, R60, R61, R92, R93, R97, R101-R103, R122, R154): which instruction the
bytes at IA spell, or none where an opcode is undefined (R56). -/

namespace Sys2Proof.Machine

/-! ### Formats (R54, R55) -/

/-- The six bytes from IA on, the first one the most significant. An instruction has two, four or six of them. -/
abbrev Fetched := BitVec 48

/-- `n` bits of a fetched instruction from bit `lo` on, counted from its most significant bit (R4). -/
def Fetched.bits (w : Fetched) (lo n : Nat) : BitVec n := (w >>> (48 - lo - n)).setWidth n

/-- The first byte, which is the primary opcode (R54). -/
def Fetched.first (w : Fetched) : Byte := w.bits 0 8

/-- The 5-bit register field at bit `lo`. -/
def Fetched.reg (w : Fetched) (lo : Nat) : BitVec 5 := w.bits lo 5

/-- The address operand of D4: base and 14-bit displacement. -/
def Fetched.d4 (w : Fetched) : AddrForm := .d4 (w.reg 13) (w.bits 18 14)

/-- The address operand of X6: index, base, scale and 17-bit displacement. -/
def Fetched.x6 (w : Fetched) : AddrForm := .x6 (w.reg 13) (w.reg 18) (w.bits 23 2) (w.bits 25 17)

/-! ### Opcodes -/

/-- The loads and stores of R58 by number: the D4 opcode is 0x40 and the X6 extended opcode 0x00 above it. -/
def loadStoreAt (k : Fin 48) (n : Nat) (r1 : BitVec 5) (f : AddrForm) : Option Instr :=
  match n with
  | 0x00 => some (.lb k r1 f) | 0x01 => some (.lbu k r1 f) | 0x02 => some (.lh k r1 f) | 0x03 => some (.lhu k r1 f)
  | 0x04 => some (.lw k r1 f) | 0x05 => some (.lwu k r1 f) | 0x06 => some (.ld k r1 f) | 0x07 => some (.lq k r1 f)
  | 0x08 => some (.stb k r1 f) | 0x09 => some (.sth k r1 f) | 0x0A => some (.stw k r1 f) | 0x0B => some (.std k r1 f)
  | 0x0C => some (.stq k r1 f) | 0x0D => some (.la k r1 f) | 0x10 => some (.lf k r1 f) | 0x11 => some (.lf32 k r1 f)
  | 0x12 => some (.lfq k r1 f) | 0x13 => some (.stf k r1 f) | 0x14 => some (.stf32 k r1 f) | 0x15 => some (.stfq k r1 f)
  | _ => none

/-- Primary 0x32: the system instructions (R57). -/
def systemAt (k : Fin 48) (ext : Nat) (r1 r2 r3 : BitVec 5) : Option Instr :=
  match ext with
  | 0x010 => some (.issue k r1 r2 r3) | 0x011 => some (.test k r1 r2 r3) | 0x012 => some (.halt k r1 r2 r3)
  | 0x020 => some (.enqw k r1 r2 r3) | 0x021 => some (.yield k r1 r2 r3) | 0x022 => some (.wait k r1 r2 r3)
  | 0x030 => some (.barl k r1 r2 r3) | 0x031 => some (.bars k r1 r2 r3) | 0x032 => some (.barf k r1 r2 r3)
  | 0x033 => some (.isync k r1 r2 r3) | 0x040 => some (.lsw k r1 r2 r3) | 0x041 => some (.rfi k r1 r2 r3)
  | 0x042 => some (.lctl k r1 r2 r3) | 0x043 => some (.stctl k r1 r2 r3) | 0x044 => some (.ptlb k r1 r2 r3)
  | 0x050 => some (.rdtb k r1 r2 r3) | _ => none

/-- Primary 0x33: integer operations (R93); a W form has 0x100 added (R92). -/
def integerAt (k : Fin 48) (w : Bool) (ext : Nat) (r1 r2 r3 : BitVec 5) : Option Instr :=
  match ext with
  | 0x000 => some (.add k w r1 r2 r3) | 0x001 => some (.addl k w r1 r2 r3) | 0x002 => some (.sub k w r1 r2 r3)
  | 0x003 => some (.subl k w r1 r2 r3) | 0x004 => some (.mul k w r1 r2 r3) | 0x005 => some (.mulh k w r1 r2 r3)
  | 0x006 => some (.mulhu k w r1 r2 r3) | 0x008 => some (.div k w r1 r2 r3) | 0x009 => some (.divu k w r1 r2 r3)
  | 0x00C => some (.neg k w r1 r2 r3) | 0x010 => some (.and k w r1 r2 r3) | 0x011 => some (.or k w r1 r2 r3)
  | 0x012 => some (.xor k w r1 r2 r3) | 0x018 => some (.sll k w r1 r2 r3) | 0x019 => some (.srl k w r1 r2 r3)
  | 0x01A => some (.sra k w r1 r2 r3) | 0x01B => some (.rotl k w r1 r2 r3) | 0x020 => some (.cmp k w r1 r2 r3)
  | 0x021 => some (.cmpl k w r1 r2 r3) | _ => none

/-- Primary 0x34: FPC, moves between register files and binary floating point (R61, R101, R102). -/
def binaryAt (k : Fin 48) (ext : Nat) (r1 r2 r3 : BitVec 5) : Option Instr :=
  match ext with
  | 0x000 => some (.fadd k r1 r2 r3) | 0x001 => some (.fsub k r1 r2 r3) | 0x002 => some (.fmul k r1 r2 r3)
  | 0x003 => some (.fdiv k r1 r2 r3) | 0x004 => some (.fsqrt k r1 r2 r3) | 0x005 => some (.fma k r1 r2 r3)
  | 0x008 => some (.fcmp k r1 r2 r3) | 0x009 => some (.fcmps k r1 r2 r3) | 0x010 => some (.fcvti k r1 r2)
  | 0x012 => some (.icvtf k r1 r2) | 0x014 => some (.frnd k r1 r2) | 0x018 => some (.fneg k r1 r2)
  | 0x019 => some (.fabs k r1 r2) | 0x020 => some (.lfpc k r1) | 0x021 => some (.stfpc k r1)
  | 0x030 => some (.ftog k r1 r2 r3) | 0x031 => some (.gtof k r1 r2 r3) | _ => none

/-- Primary 0x35: decimal floating point; a decimal128 form has 0x080 added (R103). -/
def decimalAt (k : Fin 48) (q : Bool) (ext : Nat) (r1 r2 r3 : BitVec 5) : Option Instr :=
  match ext with
  | 0x000 => some (.dadd k q r1 r2 r3) | 0x001 => some (.dsub k q r1 r2 r3) | 0x002 => some (.dmul k q r1 r2 r3)
  | 0x003 => some (.ddiv k q r1 r2 r3) | 0x004 => some (.dsqrt k q r1 r2 r3) | 0x006 => some (.dqua k q r1 r2 r3)
  | 0x008 => some (.dcmp k q r1 r2 r3) | 0x009 => some (.dcmps k q r1 r2 r3) | 0x010 => some (.dcvti k q r1 r2)
  | 0x012 => some (.icvtd k q r1 r2) | 0x014 => some (.drnd k q r1 r2) | _ => none

/-- Primary 0x36: atomics; a W form has 0x100 added (R122). -/
def atomicAt (k : Fin 48) (w : Bool) (ext : Nat) (r1 r2 r3 : BitVec 5) : Option Instr :=
  match ext with
  | 0x000 => some (.cswp k w r1 r2 r3) | 0x001 => some (.swp k w r1 r2 r3) | 0x002 => some (.ladd k w r1 r2 r3) | _ => none

/-- Primary 0x37: cache maintenance (R154). What may end a range form early is no part of its encoding. -/
def maintAt (k : Fin 48) (ext : Nat) (r1 r2 r3 : BitVec 5) : Option Instr :=
  match ext with
  | 0x000 => some (.clna k r1 r2 r3) | 0x001 => some (.inva k r1 r2 r3) | 0x002 => some (.clia k r1 r2 r3)
  | 0x010 => some (.clnr k r1 r2 r3 none) | 0x011 => some (.invr k r1 r2 r3 none) | 0x012 => some (.clir k r1 r2 r3 none)
  | 0x020 => some (.clns k r1 r2 r3) | 0x021 => some (.invs k r1 r2 r3) | 0x022 => some (.clis k r1 r2 r3) | _ => none

/-- Primary 0x70: the immediate forms (R97). -/
def immediateAt (k : Fin 48) (ext : Nat) (r1 : BitVec 5) (imm : BitVec 16) : Option Instr :=
  match ext with
  | 0 => some (.addi k r1 imm) | 1 => some (.cmpi k r1 imm) | 2 => some (.andi k r1 imm) | 3 => some (.ori k r1 imm)
  | 4 => some (.xori k r1 imm) | 5 => some (.li k r1 imm) | _ => none

/-- Primary 0xC8: the wide immediates (R61). -/
def wideAt (k : Fin 48) (ext : Nat) (r1 : BitVec 5) (imm : BitVec 32) : Option Instr :=
  match ext with
  | 0 => some (.lil k r1 imm) | 1 => some (.lih k r1 imm) | 2 => some (.addil k r1 imm) | 3 => some (.cmpil k r1 imm) | _ => none

/-- The 2-byte instructions, by their opcode in bits 0:5 (R57, R60, R61). -/
def insn2At (k : Fin 48) (w : Fetched) : Option Instr :=
  let r1 := w.reg 6
  let r2 := w.reg 11
  match (w.bits 0 6).toNat with
  | 0x21 => some (.svc k (w.bits 6 10)) | 0x22 => some (.movr k r1 r2) | 0x23 => some (.fmovr k r1 r2)
  | 0x24 => some (.brr k (w.bits 6 1 == 1) (w.bits 7 4) r2) | 0x25 => some (.balr k r1 r2) | _ => none

/-- The operation that a T4 primary opcode has for an extended opcode. A form bit added to the extended opcode is taken off first. -/
def t4At (k : Fin 48) (primary ext : Nat) (r1 r2 r3 : BitVec 5) : Option Instr :=
  match primary with
  | 0x32 => systemAt k ext r1 r2 r3
  | 0x33 => integerAt k (decide (0x100 ≤ ext)) (ext % 0x100) r1 r2 r3
  | 0x34 => binaryAt k ext r1 r2 r3
  | 0x35 => if ext < 0x100 then decimalAt k (decide (0x080 ≤ ext)) (ext % 0x080) r1 r2 r3 else none
  | 0x36 => atomicAt k (decide (0x100 ≤ ext)) (ext % 0x100) r1 r2 r3
  | 0x37 => maintAt k ext r1 r2 r3
  | _ => none

/-- The 4-byte instructions. -/
def insn4At (k : Fin 48) (w : Fetched) : Option Instr :=
  let p := w.first.toNat
  let r1 := w.reg 8
  if 0x40 ≤ p ∧ p < 0x60 then loadStoreAt k (p - 0x40) r1 w.d4
  else if p = 0x60 then
    match (w.bits 12 4).toNat with
    | 0 => some (.bc k (w.bits 8 4) (w.bits 16 16))
    | 1 => some (.bal k (w.bits 8 4) (w.bits 16 16))
    | _ => none
  else if p = 0x70 then immediateAt k (w.bits 13 3).toNat r1 (w.bits 16 16)
  else t4At k p (w.bits 23 9).toNat r1 (w.reg 13) (w.reg 18)

/-- The 6-byte instructions. -/
def insn6At (k : Fin 48) (w : Fetched) : Option Instr :=
  match w.first.toNat with
  | 0xC0 => loadStoreAt k (w.bits 42 6).toNat (w.reg 8) w.x6
  | 0xC4 => match (w.bits 12 4).toNat with
    | 0 => some (.bcl k (w.bits 8 4) (w.bits 16 32))
    | 1 => some (.ball k (w.bits 8 4) (w.bits 16 32))
    | _ => none
  | 0xC8 => wideAt k (w.bits 13 3).toNat (w.reg 8) (w.bits 16 32)
  | _ => none

/-- The instruction that the bytes at IA spell for core `k`; none where its primary or extended opcode is undefined (R54-R56). -/
def ezxisAt (k : Fin 48) (w : Fetched) : Option Instr :=
  if w.bits 0 1 = 0 then insn4At k w else if w.bits 0 2 = 2 then insn2At k w else insn6At k w

end Sys2Proof.Machine
end

