-- ==== Sys2Proof/Machine/System.lean ====
section
/-! DEFINITION. The system instructions of R57: control registers, SW and the return from an interruption (R52, R77, R87), supervisor
calls and undefined opcodes (R56), barriers (R91, R124), purging translations (R68), I/O instructions (R81-R83) and work-unit
instructions (R84-R86, R230, R238-R240); and pending interruptions as a core takes them (R74, R75, R87). -/

namespace Sys2Proof.Machine

/-! ### Pending interruptions (R74, R87) -/

/-- Is external interruption 0x1001 pending for the work unit of a core (R87 DEADLINE)? -/
def State.deadlineDue (s : State) (k : Nat) : Bool :=
  (s.arch k).c 16 != 0 && decide (((s.arch k).c 16).toNat ≤ s.timeBase)

/-- The enabled interruption that core `k` takes next, with its index among those that pend for its seam (none for DEADLINE): by class, then
the oldest (R74, R240; log entry 62). -/
def State.pendingFor (s : State) (k : Nat) : Option (PendInt × Option Nat) :=
  let seam := s.seamOf k
  let l := (s.seamPend.look [] seam).zipIdx.filter fun e =>
    (s.arch k).sw.bit (maskBitOf e.1.cls) && s.chosenCore seam e.1.cls == some k
  let d := if s.deadlineDue k ∧ (s.arch k).sw.bit (maskBitOf 4) then
    [(({ cls := 4, code := 0x1001, xaddr := 0 } : PendInt), (none : Option Nat))] else []
  bestBy (fun a b => decide (a.1.cls < b.1.cls)) ((l.map fun e => (e.1, some e.2)) ++ d)

/-- XADDR of a pending interruption: I/O interruptions and 0x1001 have none (R78, R87, R230, R458). -/
def PendInt.addr (p : PendInt) : Option Word := if p.cls = 5 ∨ p.code = 0x1001 then none else some p.xaddr

/-- Take a pending interruption at the instruction boundary where the core stands (R75). -/
def State.takePending (s : State) (k : Nat) (p : PendInt) (i : Option Nat) : State :=
  let s := s.settleCore k
  if !s.holdsWork k then s
  else
    let seam := s.seamOf k
    let s := match i with
      | some j => { s with seamPend := s.seamPend.put [] seam ((s.seamPend.look [] seam).eraseIdx j) }
      | none => s
    s.enter k p.cls p.code p.addr (s.arch k).ia

/-- INTERRUPTION (R74, R75): a core takes the enabled pending interruption of the highest priority at an instruction boundary. None is taken
between a mismatch and the end of the re-executed group (R196). -/
def onInterruption (k : Fin 48) (s : State) : State :=
  if !s.coreRuns k ∨ ((s.core k).group.attempts ≠ 0 ∧ !(s.core k).group.closed) then s
  else match s.pendingFor k with
    | some (p, i) => s.takePending k p i
    | none => s

/-- DEADLINE_MATCH (R87): the time base has reached DEADLINE, and 0x1001 is pending: the DEADLINE match state of the checkpoint record
(R199). -/
def onDeadlineMatch (k : Fin 48) (s : State) : State :=
  let c := s.core k
  if c.wu.isSome ∧ s.deadlineDue k then s.setCore k { c with ckpt := { c.ckpt with deadlineMatch := true } } else s

/-! ### SW and control registers (R52, R77, R87, R88, R148) -/

/-- A field that R57 marks 0. -/
def zeroRegs (l : List (BitVec 5)) : Bool := l.all fun r => r == 0

def onLsw (k : Fin 48) (r1 r2 r3 : BitVec 5) (s : State) : State :=
  s.instr k 4 (State.privileged k (State.checked (zeroRegs [r2, r3]) fun s =>
    let a := s.arch k
    if swValid (a.gr r1) then (s.setArch k { a with sw := a.gr r1 }, .close) else (s, .exc excSpec)))

def onRfi (k : Fin 48) (r1 r2 r3 : BitVec 5) (s : State) : State :=
  s.instr k 4 (State.privileged k (State.checked (zeroRegs [r1, r2, r3]) fun s =>
    match (s.arch k).returned with
    | some a => (s.setArch k a, .jump a.ia true)
    | none => (s, .exc excSpec)))

/-- c(n) := v, as its fields take it. -/
def Arch.writeC (a : Arch) (n : Nat) (v : Word) : Arch := a.setC n ((a.c n &&& ~~~(crMask n)) ||| (v &&& crMask n))

/-- LCTL: c(r1) := g(r2); c16 is once-only (R79), and its condition is tested against the new value (R87). -/
def onLctl (k : Fin 48) (r1 r2 r3 : BitVec 5) (s : State) : State :=
  s.instr k 4 (State.privileged k (State.checked (zeroRegs [r3]) fun s =>
    let v := (s.arch k).gr r2
    let n := r1.toNat
    if !crNamed n || (v &&& crMustZero n) != 0 then (s, .exc excSpec)
    else if n = 16 then
      State.onceOnly k 4 (fun s =>
        let s := s.setArch k ((s.arch k).writeC 16 v)
        (s.setCore k { s.core k with ckpt := { (s.core k).ckpt with deadlineMatch := s.deadlineDue k } }, .close)) s
    else (s.setArch k ((s.arch k).writeC n v), .close)))

/-- The value of a control register: c0 names the seam and the work unit (R87). -/
def State.readC (s : State) (k n : Nat) : Word :=
  if n = 0 then (match (s.core k).wu with | some num => workId (s.work num).seam num | none => 0) else (s.arch k).c n

def onStctl (k : Fin 48) (r1 r2 r3 : BitVec 5) (s : State) : State :=
  s.instr k 4 (State.privileged k (State.checked (zeroRegs [r3] && crNamed r2.toNat) fun s =>
    (s.setArch k ((s.arch k).setG r1 (s.readC k r2.toNat)), .next)))

def onRdtb (k : Fin 48) (r1 r2 r3 : BitVec 5) (s : State) : State :=
  s.instr k 4 (State.checked (zeroRegs [r2, r3]) fun s0 =>
    let s := s0.barsEnd k
    if s.holdsWork k then (s.setArch k ((s.arch k).setG r1 (BitVec.ofNat 64 s.timeBase)), .next) else (s, .left))

/-! ### Supervisor calls and undefined opcodes (R56, R72, R74) -/

/-- SVC: it completes, and OLDIA points at the next instruction. ICODE holds its code (log entry 63). -/
def onSvc (k : Fin 48) (code : BitVec 10) (s : State) : State :=
  s.instr k 2 fun s =>
    let ia := (s.arch k).ia + 2
    ((s.completed k ia true).enterSync k 3 code.toNat none ia, .left)

/-- OPERATION_EXCEPTION (R56): the bytes at IA have a primary or extended opcode that is undefined. Bytes that spell an instruction raise no
such exception: that instruction is a command of its own. -/
def onOperationException (k : Fin 48) (w : BitVec 48) (s : State) : State :=
  if (ezxisAt k w).isSome then s else s.instr k (lengthOf (Fetched.first w)) fun s => (s, .exc excOperation)

/-! ### Barriers and ISYNC (R91, R124) -/

/-- BARL: every earlier load has been performed, since loads are performed as they execute. -/
def onBarl (k : Fin 48) (r1 r2 r3 : BitVec 5) (s : State) : State :=
  s.instr k 4 (State.checked (zeroRegs [r1, r2, r3]) fun s => (s, .next))

/-- BARS and BARF close no group (R124): what comes before them in their group is compared, as the first stage of R194 compares it, and its
stores enter the store buffer (log entry 110). -/
def State.storeBarrier (k : Fin 48) (wait : State → State) (s : State) : State × Done :=
  let s := wait (s.stage1 k)
  if s.holdsWork k then (s, .next) else (s, .left)

/-- BARS completes when the store buffer is empty and every earlier device store is accepted: its wait holds back stores and RDTB, and
later loads may be performed before it ends. -/
def onBars (k : Fin 48) (r1 r2 r3 : BitVec 5) (s : State) : State :=
  s.instr k 4 (State.checked (zeroRegs [r1, r2, r3]) (State.storeBarrier k fun s => s.setCore k { s.core k with bars := true }))

/-- BARF holds back every later access: its wait ends before the next instruction. -/
def onBarf (k : Fin 48) (r1 r2 r3 : BitVec 5) (s : State) : State :=
  s.instr k 4 (State.checked (zeroRegs [r1, r2, r3]) (State.storeBarrier k fun s => s.settleAll k))

/-- ISYNC: the model holds no instruction fetched ahead; the group closes (R80). The fetches that follow come after an earlier BARS (R91,
R124). -/
def onIsync (k : Fin 48) (r1 r2 r3 : BitVec 5) (s : State) : State :=
  s.instr k 4 (State.checked (zeroRegs [r1, r2, r3]) fun s0 =>
    let s := s0.barsEnd k
    if s.holdsWork k then (s, .close) else (s, .left))

/-! ### PTLB (R68) -/

/-- Does a purge remove a translation: form 0 the one page, form 1 those of the address space that are not global, form 2 all? -/
def purges (form asn seam : Nat) (va : Word) (t : Translation) : Bool :=
  t.seam == seam && (if form = 0 then t.covers seam asn va else if form = 1 then !t.glob && t.asn == asn else true)

/-- Purge translations on every core. -/
def State.purge (s : State) (p : Translation → Bool) : State :=
  { s with cores := s.cores.map fun (e : Nat × CoreSt) =>
      (e.1, { e.2 with tlb := e.2.tlb.filter fun t => !p t,
                       ckpt := { e.2.ckpt with image := e.2.ckpt.image.filter fun t => !p t } }) }

def onPtlb (k : Fin 48) (r1 r2 r3 : BitVec 5) (s : State) : State :=
  s.instr k 4 (State.privileged k fun s =>
    let g1 := (s.arch k).gr r1
    let va := (s.arch k).gr r2
    State.checked (zeroRegs [r3] && (g1.field 62 63 != 3)) (State.onceOnly k 4 fun s =>
      (s.purge (purges (g1.field 62 63) (g1.field 48 59) (s.seamOf k) va), .close)) s)

/-! ### I/O instructions (R81-R83) -/

/-- An I/O instruction: privileged and once-only; g(r1) names the subchannel, and its bits 0:45 must be 0. `op` answers CC and, for TEST,
the status. -/
def State.ioInstr (s : State) (k : Fin 48) (r1 : BitVec 5) (zero : Bool) (op : Nat → State → State × Nat × Option (BitVec 5 × Word)) : State :=
  s.instr k 4 (State.privileged k fun s =>
    let sch := ((s.arch k).gr r1).field 46 63
    State.checked (zero && ((s.arch k).gr r1).field 0 45 == 0) (State.onceOnly k 4 fun s =>
      let r := op sch s
      let a := (r.1.arch k).setCc r.2.1
      match r.2.2 with
      | some (t, w) => ((r.1.setArch k (a.setG t w)).response k [BitVec.ofNat 64 r.2.1, w], .close)
      | none => ((r.1.setArch k a).response k [BitVec.ofNat 64 r.2.1], .close)) s)

/-- The address of the first channel command entry, which must be aligned on 16 bytes, is translated before ISSUE is performed (R81). -/
def onIssue (k : Fin 48) (r1 r2 r3 : BitVec 5) (s : State) : State :=
  s.instr k 4 (State.privileged k fun s => State.checked
    (zeroRegs [r3] && ((s.arch k).gr r1).field 0 45 == 0 && ((s.arch k).gr r2).toNat % 16 == 0) (fun s =>
    let sch := ((s.arch k).gr r1).field 46 63
    match s.reach k ((s.arch k).gr r2) .load with
    | (s, .error x) => (s, .exc x)
    | (s, .ok r) =>
      State.onceOnly k 4 (fun s =>
        let seam := s.seamOf k
        let num := ((s.core k).wu).getD 0
        let hint := s.hintFor num (s.schDie seam sch)
        let q := s.issue seam sch r.abs hint
        let s := if q.2 = 0 then q.1.traceHint num sch hint else q.1
        ((s.setArch k ((s.arch k).setCc q.2)).response k [BitVec.ofNat 64 q.2], .close)) (s.markReached k r .load)) s)

def onTest (k : Fin 48) (r1 r2 r3 : BitVec 5) (s : State) : State :=
  s.ioInstr k r1 (zeroRegs [r3]) fun sch s =>
    let q := s.testSch (s.seamOf k) sch
    (q.1, q.2.1, if q.2.1 = 0 then some (r2, q.2.2) else none)

def onHalt (k : Fin 48) (r1 r2 r3 : BitVec 5) (s : State) : State :=
  s.ioInstr k r1 (zeroRegs [r2, r3]) fun sch s =>
    let q := s.haltSch (s.seamOf k) sch
    (q.1, q.2, none)

/-! ### ENQW (R84, R228-R230) -/

/-- Are FORMAT and the reserved bytes of a descriptor valid (R228)? -/
def descSound (d : List Byte) : Bool :=
  let zero (off n : Nat) : Bool := ((d.drop off).take n).all fun b => b == 0
  recNum d 0 2 == 1 && recNum d 2 1 % 128 == 0 && zero 0x003 1 && zero 0x018 40 && zero 0x080 64 && zero 0x0C9 7 && zero 0x0E0 32

/-- Does STATE lie, aligned, in a granule of the seam's allotment? -/
def State.areaSound (s : State) (seam area : Nat) : Bool :=
  decide (area < 2 ^ 40) && area % 1024 == 0 &&
    match s.mapAbs seam area with
    | .ok phys => (s.homeOf (phys / 65536)).isSome
    | _ => false

/-- What the Foreman finds wrong with a descriptor (R230). -/
def State.enqwFault (s : State) (seam desc prio : Nat) (d : List Byte) : Option Nat :=
  if !descSound d then some 0x81
  else if !s.areaSound seam (recNum d 8 8) then some 0x82
  else if (s.workAt seam desc).isSome then some 0x83
  else if s.rd uForeman (Reg.FMN_SEAM_ALLOT.MAX_WU.ix seam) ≤ s.liveOf seam ∨ 65536 ≤ s.live then some 0x84
  else if s.ringK seam prio = 0 then some 0x85
  else none

/-- The Foreman takes a descriptor (R230): CC. Where the ring is full and another check fails too, the other check sets CC 2 and STATUS (log
entry 115). -/
def State.enqw (s : State) (k seam desc prio : Nat) : State × Nat :=
  let r := s.agentRead seam desc 256
  let s := r.1
  match s.enqwFault seam desc prio r.2.1 with
  | some status => ((s.descWrite seam desc 0x0C8 (beBytes 1 status)).count uForeman (Reg.FMN_SEAM_COUNT.REJECTS.ix seam), 2)
  | none =>
    if !s.ringRoom seam prio then (s, 1)
    else
      let num := s.nextWork
      let d := r.2.1
      let s := (s.descWrite seam desc 0x0C0 (wordBytes (workId seam num))).descWrite seam desc 0x0C8 [1]
      let s := ({ s with nextWork := num + 1 } : State).setWork num
        { WorkUnit.none with
          seam := seam, desc := desc, area := recNum d 8 8, prio := prio, group := recNum d 4 4,
          noHint := decide (128 ≤ recNum d 2 1), run := .ready }
      let s := s.traceWork 0x01 num k (beBytes 8 desc)
      ((s.enqueue num false).fmnEvent (.enqw k), 0)

/-- ENQW: the descriptor must be aligned on 256 bytes and mapped normal cacheable. -/
def onEnqw (k : Fin 48) (r1 r2 r3 : BitVec 5) (s : State) : State :=
  s.instr k 4 fun s => State.checked
    (zeroRegs [r3] && ((s.arch k).gr r1).toNat % 256 == 0 && ((s.arch k).gr r2).field 0 60 == 0) (fun s =>
    let prio := ((s.arch k).gr r2).field 61 63
    match s.reach k ((s.arch k).gr r1) .load with
    | (s, .error x) => (s, .exc (s.lowerCode k ((s.arch k).gr r1) (· != .normal) x))
    | (s, .ok r) =>
      match r.place with
      | .memory _ .normal =>
        if !s.operates uForeman then (s, .exc .wait)
        else State.onceOnly k 4 (fun s =>
          let q := s.enqw k (s.seamOf k) r.abs prio
          ((q.1.setArch k ((q.1.arch k).setCc q.2)).response k [BitVec.ofNat 64 q.2], .close)) (s.markReached k r .load)
      | _ => (s, .exc excSpec)) s

/-! ### YIELD and WAIT (R85, R86, R238-R240) -/

/-- YIELD: the state is saved and the work unit goes to the tail of its ring; it resumes with CC 0. -/
def onYield (k : Fin 48) (r1 r2 r3 : BitVec 5) (s : State) : State :=
  s.instr k 4 (State.checked (zeroRegs [r1, r2, r3]) fun s =>
    if !s.operates uForeman then (s, .exc .wait)
    else
      let s := (s.microcode k).settleAll k
      match (s.core k).wu with
      | none => (s, .left)
      | some num =>
        let a := s.arch k
        let s := s.traceWork 0x02 num k (beBytes 8 (s.work num).desc)
        let s := ((s.setArch k (a.setCc 0)).completed k (a.ia + 4) true).retireGroup k
        let r := s.saveOff k num
        let s := r.1.losses r.2.2
        let s := if r.2.1 then (s.enqueue num false).fmnEvent (.yield k) else s
        (s.coreFreed k, .left))

/-- What a WAIT finds at its test (R86): status pending, the subchannel not operational, the deadline reached, or none of them (log entry
64). -/
def State.waitTest (s : State) (seam kind sch : Nat) (until_ : Word) : State × Option Nat :=
  let onSch := kind != 2
  let pending := s.schInRange seam sch && ((s.peerPending sch).isSome ||
    (match s.exOf sch with | some key => (s.exch key).st == .pending | none => false))
  let o := s.operational seam sch
  if onSch && pending then (s, some 0)
  else if onSch && (s.exOf sch).isNone && !o.2 then (o.1, some 3)
  else if kind != 1 && decide (until_.toNat ≤ s.timeBase) then (s, some 1)
  else (s, none)

/-- The work unit joins the waiter chain of its subchannel. The form of the link in WAIT_NEXT is not given: a free value (log entry 64). -/
def State.joinChain (s : State) (num sch : Nat) : State :=
  let w := s.work num
  let f := s.freeValue
  let s := f.1.descWrite w.seam w.desc 0x0D8 (wordBytes f.2)
  { s with waiters := s.waiters.put [] sch (s.waiters.look [] sch ++ [num]) }

/-- The work unit of a core is suspended until its condition holds. -/
def State.suspend (s : State) (k num kind sch : Nat) (until_ : Word) : State :=
  let a := s.arch k
  let s := (s.completed k (a.ia + 4) true).retireGroup k
  let s := s.setWork num { s.work num with waitKind := kind, waitSch := sch, waitUntil := until_.toNat }
  let s := if kind = 2 then s else s.joinChain num sch
  let r := s.saveOff k num
  let s := r.1.losses r.2.2
  let s := if r.2.1 then
      let s := s.setWork num { s.work num with run := .waiting, since := s.now }
      (if kind = 2 then s else s.reserveFor num sch).fmnEvent (.wait k)
    else s
  s.coreFreed k

/-- WAIT. An enabled interruption that is pending is taken first. -/
def onWait (k : Fin 48) (r1 r2 r3 : BitVec 5) (s : State) : State :=
  s.instr k 4 fun s => State.checked (zeroRegs [r3] && (let kind := ((s.arch k).gr r1).field 0 7; kind == 1 || kind == 2 || kind == 3)) (fun s =>
    let cond := (s.arch k).gr r1
    let until_ := (s.arch k).gr r2
    match s.pendingFor k with
    | some (p, i) => (s.takePending k p i, .left)
    | none =>
      if !s.operates uForeman then (s, .exc .wait)
      else
        let s := (s.microcode k).settleAll k
        match (s.core k).wu with
        | none => (s, .left)
        | some num =>
          let s := s.traceWork 0x03 num k (beBytes 8 (s.work num).desc ++ wordBytes cond ++ wordBytes until_)
          match s.waitTest (s.seamOf k) (cond.field 0 7) (cond.field 46 63) until_ with
          | (s, some cc) =>
            let a := (s.arch k).setCc cc
            (((s.setArch k a).response k [BitVec.ofNat 64 cc]).completed k (a.ia + 4) true |>.onceEnd k, .left)
          | (s, none) => (s.suspend k num (cond.field 0 7) (cond.field 46 63) until_, .left)) s

/-! ### The commands as the queue gives them -/

def execIssue (k : Fin 48) (r1 r2 r3 : BitVec 5) (s : State) : Answer := s.run (onIssue k r1 r2 r3)
def execTest (k : Fin 48) (r1 r2 r3 : BitVec 5) (s : State) : Answer := s.run (onTest k r1 r2 r3)
def execHalt (k : Fin 48) (r1 r2 r3 : BitVec 5) (s : State) : Answer := s.run (onHalt k r1 r2 r3)
def execEnqw (k : Fin 48) (r1 r2 r3 : BitVec 5) (s : State) : Answer := s.run (onEnqw k r1 r2 r3)
def execYield (k : Fin 48) (r1 r2 r3 : BitVec 5) (s : State) : Answer := s.run (onYield k r1 r2 r3)
def execWait (k : Fin 48) (r1 r2 r3 : BitVec 5) (s : State) : Answer := s.run (onWait k r1 r2 r3)
def execBarl (k : Fin 48) (r1 r2 r3 : BitVec 5) (s : State) : Answer := s.run (onBarl k r1 r2 r3)
def execBars (k : Fin 48) (r1 r2 r3 : BitVec 5) (s : State) : Answer := s.run (onBars k r1 r2 r3)
def execBarf (k : Fin 48) (r1 r2 r3 : BitVec 5) (s : State) : Answer := s.run (onBarf k r1 r2 r3)
def execIsync (k : Fin 48) (r1 r2 r3 : BitVec 5) (s : State) : Answer := s.run (onIsync k r1 r2 r3)
def execLsw (k : Fin 48) (r1 r2 r3 : BitVec 5) (s : State) : Answer := s.run (onLsw k r1 r2 r3)
def execRfi (k : Fin 48) (r1 r2 r3 : BitVec 5) (s : State) : Answer := s.run (onRfi k r1 r2 r3)
def execLctl (k : Fin 48) (r1 r2 r3 : BitVec 5) (s : State) : Answer := s.run (onLctl k r1 r2 r3)
def execStctl (k : Fin 48) (r1 r2 r3 : BitVec 5) (s : State) : Answer := s.run (onStctl k r1 r2 r3)
def execPtlb (k : Fin 48) (r1 r2 r3 : BitVec 5) (s : State) : Answer := s.run (onPtlb k r1 r2 r3)
def execRdtb (k : Fin 48) (r1 r2 r3 : BitVec 5) (s : State) : Answer := s.run (onRdtb k r1 r2 r3)
def execSvc (k : Fin 48) (code : BitVec 10) (s : State) : Answer := s.run (onSvc k code)
def execInterruption (k : Fin 48) (s : State) : Answer := s.run (onInterruption k)
def execDeadlineMatch (k : Fin 48) (s : State) : Answer := s.run (onDeadlineMatch k)
def execOperationException (k : Fin 48) (w : BitVec 48) (s : State) : Answer := s.run (onOperationException k w)

end Sys2Proof.Machine
end

