-- ==== Sys2Proof/Machine/Maintenance.lean ====
section
/-! DEFINITION. The cache maintenance instructions of Ezxis cores (R154-R157, R160). -/

namespace Sys2Proof.Machine

/-- A maintenance instruction is performed as the oldest one, with the buffers drained, and closes its group (R154). -/
def State.maintOnce (k : Fin 48) (body : State → State × Done) (s : State) : State × Done :=
  let s := s.settleEarlier k
  if !s.holdsWork k then (s, .left)
  else
    let ia := (s.arch k).ia
    match body s with
    | (s, .close) => ((s.completed k (ia + 4) true).onceEnd k, .left)
    | r => r

/-- The access that a maintenance operation is checked as (R155). -/
def MaintOp.acc : MaintOp → Acc
  | .clean => .maint
  | _ => .maintWrite

/-- Maintain one line for a seam: refused by its home where the seam does not own it (R262), and waiting behind a transaction of the line.
The number of locked copies that were skipped. -/
def State.maintainFor (s : State) (seam line : Nat) (op : MaintOp) (skip : Bool) : State × Except Exc Nat :=
  if !s.ownerAllows seam line then (s, .error (.checkstop 3))
  else if !(s.awaitLine line).quiet line then (s, .error .wait)
  else
    let r := s.maintain line op skip
    (r.1, .ok r.2)

/-! ### Address forms (R155) -/

def State.maintAddress (s : State) (k : Fin 48) (op : MaintOp) (r1 r2 r3 : BitVec 5) : State :=
  s.instr k 4 (State.privileged k (State.checked (zeroRegs [r1, r3]) fun s =>
    match s.reach k ((s.arch k).gr r2) op.acc with
    | (s, .error x) => (s, .exc x)
    | (s, .ok r) =>
      State.maintOnce k (fun s =>
        match r.place with
        | .device _ => (s, .close)
        | .memory phys _ =>
          match s.maintainFor (s.seamOf k) (phys / 128) op false with
          | (s, .ok _) => (s, .close)
          | (s, .error x) => (s, .exc x)) s))

def onClna (k : Fin 48) (r1 r2 r3 : BitVec 5) (s : State) : State := s.maintAddress k .clean r1 r2 r3
def onInva (k : Fin 48) (r1 r2 r3 : BitVec 5) (s : State) : State := s.maintAddress k .inval r1 r2 r3
def onClia (k : Fin 48) (r1 r2 r3 : BitVec 5) (s : State) : State := s.maintAddress k .cleanInval r1 r2 r3

/-! ### Range forms (R156, R160) -/

/-- A range operation under way: the next byte, the bytes that remain, and what has been skipped. -/
structure RangeRun where
  addr : Word
  left : Nat
  page : Bool
  locked : Bool
  deriving DecidableEq, Repr

/-- The run after the line that holds its next byte. -/
def RangeRun.nextLine (r : RangeRun) (n : Nat) : RangeRun :=
  let step := 128 - r.addr.toNat % 128
  { r with addr := r.addr + BitVec.ofNat 64 step, left := r.left - step, locked := r.locked || n != 0 }

/-- The run after the 4 KiB page that holds its next byte, which is skipped. -/
def RangeRun.nextPage (r : RangeRun) : RangeRun :=
  let step := 4096 - r.addr.toNat % 4096
  { r with addr := r.addr + BitVec.ofNat 64 step, left := r.left - step, page := true }

/-- A range operation goes on for at most `n` lines and skipped pages. -/
def State.maintRun (k : Nat) (op : MaintOp) (skip : Bool) : Nat → State → RangeRun → State × Except Exc RangeRun
  | 0, s, r => (s, .ok r)
  | n + 1, s, r =>
    if r.left = 0 then (s, .ok r)
    else match s.reach k r.addr op.acc with
      | (s, .error (.program _ _)) => State.maintRun k op skip n s r.nextPage
      | (s, .error x) => (s, .error x)
      | (s, .ok q) =>
        match q.place with
        | .device _ => State.maintRun k op skip n s (r.nextLine 0)
        | .memory phys _ =>
          match s.maintainFor (s.seamOf k) (phys / 128) op skip with
          | (s, .ok m) => State.maintRun k op skip n s (r.nextLine m)
          | (s, .error x) => (s, .error x)

/-- g(r1) with the bits that the instruction sets. -/
def rangeFlags (g1 : Word) (r : RangeRun) : Word :=
  g1 ||| (if r.page then 4 else 0) ||| (if r.locked then 2 else 0)

/-- CC at the end of a range operation. -/
def rangeCc (g1 : Word) : Nat := (if g1.bit 62 then 1 else 0) + (if g1.bit 61 then 2 else 0)

/-- A range form. `stop` is the number of lines and skipped pages after which an enabled interruption becomes pending: it has a meaning only
while one pends (log entry 66). -/
def State.maintRange (s : State) (k : Fin 48) (op : MaintOp) (r1 r2 r3 : BitVec 5) (stop : Option Nat) : State :=
  s.instr k 4 (State.privileged k fun s =>
    let g1 := (s.arch k).gr r1
    State.checked (g1.field 0 60 == 0) (State.maintOnce k fun s =>
      let a := s.arch k
      let len := (a.gr r3).toNat
      let pend := s.pendingFor k
      let limit := match stop, pend with
        | some n, some _ => min n (len / 128 + 2)
        | _, _ => len / 128 + 2
      match State.maintRun k op (!g1.bit 63) limit s { addr := a.gr r2, left := len, page := false, locked := false } with
      | (s, .error x) => (s, .exc x)
      | (s, .ok r) =>
        let g := rangeFlags g1 r
        let a := (s.arch k).setG r1 g
        if r.left = 0 then
          let b := (a.setG r3 0).setCc (rangeCc g)
          ((s.setArch k b).response k [g, BitVec.ofNat 64 (rangeCc g)], .close)
        else
          let s := s.setArch k ((a.setG r2 r.addr).setG r3 (BitVec.ofNat 64 r.left))
          match pend with
          | some (p, i) => (s.takePending k p i, .left)
          | none => (s, .left)) s)

def onClnr (k : Fin 48) (r1 r2 r3 : BitVec 5) (stop : Option Nat) (s : State) : State := s.maintRange k .clean r1 r2 r3 stop
def onInvr (k : Fin 48) (r1 r2 r3 : BitVec 5) (stop : Option Nat) (s : State) : State := s.maintRange k .inval r1 r2 r3 stop
def onClir (k : Fin 48) (r1 r2 r3 : BitVec 5) (stop : Option Nat) (s : State) : State := s.maintRange k .cleanInval r1 r2 r3 stop

/-! ### Set-way forms (R157) -/

/-- The cache, set and way that g(r2) names; none for a value that R157 does not list. -/
def setWayOf (k : Nat) (g : Word) : Option (CacheId × Nat × Nat) :=
  let level := g.field 0 7
  let set := g.field 32 47
  let way := g.field 56 63
  if g.field 8 31 ≠ 0 ∨ g.field 48 55 ≠ 0 then none
  else if level = 1 ∧ set < 128 ∧ way < 8 then some (.l1i k, set, way)
  else if level = 2 ∧ set < 128 ∧ way < 8 then some (.l1d k, set, way)
  else if level = 3 ∧ set < 4096 ∧ way < 16 then some (.l2 k, set, way)
  else none

/-- Maintain one way of a cache, which acts there alone (R157). Every store is written into the L2 (R129): a dirty L1D line is cleaned with
the L2's copy, and an L1 line that is invalidated leaves the L2's copy. The L1 copies go with a line that leaves the L2 (R141). -/
def State.maintWay (s : State) (k : Nat) (c : CacheId) (l : CLine) (op : MaintOp) : State :=
  let l2 := CacheId.l2 k
  let cleanL1d (s : State) : State :=
    if !l.st.dirty then s
    else (match s.peek l2 l.line with
      | some x => s.cleanAt l2 x
      | none => s).cleanL1 k l.line
  match c, op with
  | .l2 _, .clean => s.cleanAt c l
  | .l2 _, .inval => s.removeAt c l
  | .l2 _, .cleanInval => s.cleanRemoveAt c l
  | _, .clean => cleanL1d s
  | _, .inval => s.drop c l.line
  | _, .cleanInval => (cleanL1d s).drop c l.line

/-- A set-way form: of seam 0 alone, in either state. -/
def State.maintSetWay (s : State) (k : Fin 48) (op : MaintOp) (r1 r2 r3 : BitVec 5) : State :=
  s.instr k 4 (State.privileged k fun s =>
    if s.seamOf k ≠ 0 then (s, .exc excPrivileged)
    else match setWayOf k ((s.arch k).gr r2), zeroRegs [r1, r3] with
      | some (c, set, way), true =>
        State.maintOnce k (fun s =>
          let line := (s.way c set way).line
          let s := if (s.way c set way).st = .i then s else s.awaitLine line
          let l := s.way c set way
          if l.st = .i then (s, .close)
          else if !s.quiet l.line then (s, .exc .wait)
          else (s.maintWay k c l op, .close)) s
      | _, _ => (s, .exc excSpec))

def onClns (k : Fin 48) (r1 r2 r3 : BitVec 5) (s : State) : State := s.maintSetWay k .clean r1 r2 r3
def onInvs (k : Fin 48) (r1 r2 r3 : BitVec 5) (s : State) : State := s.maintSetWay k .inval r1 r2 r3
def onClis (k : Fin 48) (r1 r2 r3 : BitVec 5) (s : State) : State := s.maintSetWay k .cleanInval r1 r2 r3

/-! ### The commands as the queue gives them -/

def execClna (k : Fin 48) (r1 r2 r3 : BitVec 5) (s : State) : Answer := s.run (onClna k r1 r2 r3)
def execInva (k : Fin 48) (r1 r2 r3 : BitVec 5) (s : State) : Answer := s.run (onInva k r1 r2 r3)
def execClia (k : Fin 48) (r1 r2 r3 : BitVec 5) (s : State) : Answer := s.run (onClia k r1 r2 r3)
def execClnr (k : Fin 48) (r1 r2 r3 : BitVec 5) (stop : Option Nat) (s : State) : Answer := s.run (onClnr k r1 r2 r3 stop)
def execInvr (k : Fin 48) (r1 r2 r3 : BitVec 5) (stop : Option Nat) (s : State) : Answer := s.run (onInvr k r1 r2 r3 stop)
def execClir (k : Fin 48) (r1 r2 r3 : BitVec 5) (stop : Option Nat) (s : State) : Answer := s.run (onClir k r1 r2 r3 stop)
def execClns (k : Fin 48) (r1 r2 r3 : BitVec 5) (s : State) : Answer := s.run (onClns k r1 r2 r3)
def execInvs (k : Fin 48) (r1 r2 r3 : BitVec 5) (s : State) : Answer := s.run (onInvs k r1 r2 r3)
def execClis (k : Fin 48) (r1 r2 r3 : BitVec 5) (s : State) : Answer := s.run (onClis k r1 r2 r3)

end Sys2Proof.Machine
end

