-- ==== Sys2Proof/Machine/Dispatch.lean ====
section
/-! DEFINITION. The meaning of every command: one arm for each constructor of Instr, one direct call each. -/

namespace Sys2Proof.Machine

def exec (i : Instr) (s : State) : Host.Outcome State Fault Refusal :=
  match i with
  | .registerWrite sender u off v => Sys2Proof.Machine.execRegisterWrite sender u off v s
  | .clrOwn sender u => Sys2Proof.Machine.execClrOwn sender u s
  | .clrOne sender u index => Sys2Proof.Machine.execClrOne sender u index s
  | .uResetRequest sender u allow => Sys2Proof.Machine.execUResetRequest sender u allow s
  | .uResetComplete u persist => Sys2Proof.Machine.execUResetComplete u persist s
  | .unitPowerWrite sender u req pin => Sys2Proof.Machine.execUnitPowerWrite sender u req pin s
  | .powerTransitionDone u => Sys2Proof.Machine.execPowerTransitionDone u s
  | .unitOwnerWrite sender u owner => Sys2Proof.Machine.execUnitOwnerWrite sender u owner s
  | .pitClearDone h => Sys2Proof.Machine.execPitClearDone h s
  | .cqHeadWrite seam head => Sys2Proof.Machine.execCqHeadWrite seam head s
  | .deviceStoreAccept k n => Sys2Proof.Machine.execDeviceStoreAccept k n s
  | .lb k r1 f => Sys2Proof.Machine.execLb k r1 f s
  | .lbu k r1 f => Sys2Proof.Machine.execLbu k r1 f s
  | .lh k r1 f => Sys2Proof.Machine.execLh k r1 f s
  | .lhu k r1 f => Sys2Proof.Machine.execLhu k r1 f s
  | .lw k r1 f => Sys2Proof.Machine.execLw k r1 f s
  | .lwu k r1 f => Sys2Proof.Machine.execLwu k r1 f s
  | .ld k r1 f => Sys2Proof.Machine.execLd k r1 f s
  | .lq k r1 f => Sys2Proof.Machine.execLq k r1 f s
  | .stb k r1 f => Sys2Proof.Machine.execStb k r1 f s
  | .sth k r1 f => Sys2Proof.Machine.execSth k r1 f s
  | .stw k r1 f => Sys2Proof.Machine.execStw k r1 f s
  | .std k r1 f => Sys2Proof.Machine.execStd k r1 f s
  | .stq k r1 f => Sys2Proof.Machine.execStq k r1 f s
  | .la k r1 f => Sys2Proof.Machine.execLa k r1 f s
  | .lf k r1 f => Sys2Proof.Machine.execLf k r1 f s
  | .lf32 k r1 f => Sys2Proof.Machine.execLf32 k r1 f s
  | .lfq k r1 f => Sys2Proof.Machine.execLfq k r1 f s
  | .stf k r1 f => Sys2Proof.Machine.execStf k r1 f s
  | .stf32 k r1 f => Sys2Proof.Machine.execStf32 k r1 f s
  | .stfq k r1 f => Sys2Proof.Machine.execStfq k r1 f s
  | .bc k mask off => Sys2Proof.Machine.execBc k mask off s
  | .bal k mask off => Sys2Proof.Machine.execBal k mask off s
  | .bcl k mask off => Sys2Proof.Machine.execBcl k mask off s
  | .ball k mask off => Sys2Proof.Machine.execBall k mask off s
  | .brr k bit6 mask r2 => Sys2Proof.Machine.execBrr k bit6 mask r2 s
  | .balr k r1 r2 => Sys2Proof.Machine.execBalr k r1 r2 s
  | .movr k r1 r2 => Sys2Proof.Machine.execMovr k r1 r2 s
  | .fmovr k r1 r2 => Sys2Proof.Machine.execFmovr k r1 r2 s
  | .ftog k r1 r2 r3 => Sys2Proof.Machine.execFtog k r1 r2 r3 s
  | .gtof k r1 r2 r3 => Sys2Proof.Machine.execGtof k r1 r2 r3 s
  | .lil k r1 imm => Sys2Proof.Machine.execLil k r1 imm s
  | .lih k r1 imm => Sys2Proof.Machine.execLih k r1 imm s
  | .addil k r1 imm => Sys2Proof.Machine.execAddil k r1 imm s
  | .cmpil k r1 imm => Sys2Proof.Machine.execCmpil k r1 imm s
  | .issue k r1 r2 r3 => Sys2Proof.Machine.execIssue k r1 r2 r3 s
  | .test k r1 r2 r3 => Sys2Proof.Machine.execTest k r1 r2 r3 s
  | .halt k r1 r2 r3 => Sys2Proof.Machine.execHalt k r1 r2 r3 s
  | .enqw k r1 r2 r3 => Sys2Proof.Machine.execEnqw k r1 r2 r3 s
  | .yield k r1 r2 r3 => Sys2Proof.Machine.execYield k r1 r2 r3 s
  | .wait k r1 r2 r3 => Sys2Proof.Machine.execWait k r1 r2 r3 s
  | .barl k r1 r2 r3 => Sys2Proof.Machine.execBarl k r1 r2 r3 s
  | .bars k r1 r2 r3 => Sys2Proof.Machine.execBars k r1 r2 r3 s
  | .barf k r1 r2 r3 => Sys2Proof.Machine.execBarf k r1 r2 r3 s
  | .isync k r1 r2 r3 => Sys2Proof.Machine.execIsync k r1 r2 r3 s
  | .lsw k r1 r2 r3 => Sys2Proof.Machine.execLsw k r1 r2 r3 s
  | .rfi k r1 r2 r3 => Sys2Proof.Machine.execRfi k r1 r2 r3 s
  | .lctl k r1 r2 r3 => Sys2Proof.Machine.execLctl k r1 r2 r3 s
  | .stctl k r1 r2 r3 => Sys2Proof.Machine.execStctl k r1 r2 r3 s
  | .ptlb k r1 r2 r3 => Sys2Proof.Machine.execPtlb k r1 r2 r3 s
  | .rdtb k r1 r2 r3 => Sys2Proof.Machine.execRdtb k r1 r2 r3 s
  | .svc k code => Sys2Proof.Machine.execSvc k code s
  | .add k w r1 r2 r3 => Sys2Proof.Machine.execAdd k w r1 r2 r3 s
  | .addl k w r1 r2 r3 => Sys2Proof.Machine.execAddl k w r1 r2 r3 s
  | .sub k w r1 r2 r3 => Sys2Proof.Machine.execSub k w r1 r2 r3 s
  | .subl k w r1 r2 r3 => Sys2Proof.Machine.execSubl k w r1 r2 r3 s
  | .mul k w r1 r2 r3 => Sys2Proof.Machine.execMul k w r1 r2 r3 s
  | .mulh k w r1 r2 r3 => Sys2Proof.Machine.execMulh k w r1 r2 r3 s
  | .mulhu k w r1 r2 r3 => Sys2Proof.Machine.execMulhu k w r1 r2 r3 s
  | .div k w r1 r2 r3 => Sys2Proof.Machine.execDiv k w r1 r2 r3 s
  | .divu k w r1 r2 r3 => Sys2Proof.Machine.execDivu k w r1 r2 r3 s
  | .neg k w r1 r2 r3 => Sys2Proof.Machine.execNeg k w r1 r2 r3 s
  | .and k w r1 r2 r3 => Sys2Proof.Machine.execAnd k w r1 r2 r3 s
  | .or k w r1 r2 r3 => Sys2Proof.Machine.execOr k w r1 r2 r3 s
  | .xor k w r1 r2 r3 => Sys2Proof.Machine.execXor k w r1 r2 r3 s
  | .sll k w r1 r2 r3 => Sys2Proof.Machine.execSll k w r1 r2 r3 s
  | .srl k w r1 r2 r3 => Sys2Proof.Machine.execSrl k w r1 r2 r3 s
  | .sra k w r1 r2 r3 => Sys2Proof.Machine.execSra k w r1 r2 r3 s
  | .rotl k w r1 r2 r3 => Sys2Proof.Machine.execRotl k w r1 r2 r3 s
  | .cmp k w r1 r2 r3 => Sys2Proof.Machine.execCmp k w r1 r2 r3 s
  | .cmpl k w r1 r2 r3 => Sys2Proof.Machine.execCmpl k w r1 r2 r3 s
  | .addi k r1 imm => Sys2Proof.Machine.execAddi k r1 imm s
  | .cmpi k r1 imm => Sys2Proof.Machine.execCmpi k r1 imm s
  | .andi k r1 imm => Sys2Proof.Machine.execAndi k r1 imm s
  | .ori k r1 imm => Sys2Proof.Machine.execOri k r1 imm s
  | .xori k r1 imm => Sys2Proof.Machine.execXori k r1 imm s
  | .li k r1 imm => Sys2Proof.Machine.execLi k r1 imm s
  | .lfpc k r1 => Sys2Proof.Machine.execLfpc k r1 s
  | .stfpc k r1 => Sys2Proof.Machine.execStfpc k r1 s
  | .fadd k r1 r2 r3 => Sys2Proof.Machine.execFadd k r1 r2 r3 s
  | .fsub k r1 r2 r3 => Sys2Proof.Machine.execFsub k r1 r2 r3 s
  | .fmul k r1 r2 r3 => Sys2Proof.Machine.execFmul k r1 r2 r3 s
  | .fdiv k r1 r2 r3 => Sys2Proof.Machine.execFdiv k r1 r2 r3 s
  | .fsqrt k r1 r2 r3 => Sys2Proof.Machine.execFsqrt k r1 r2 r3 s
  | .fma k r1 r2 r3 => Sys2Proof.Machine.execFma k r1 r2 r3 s
  | .fcmp k r1 r2 r3 => Sys2Proof.Machine.execFcmp k r1 r2 r3 s
  | .fcmps k r1 r2 r3 => Sys2Proof.Machine.execFcmps k r1 r2 r3 s
  | .fcvti k r1 r2 => Sys2Proof.Machine.execFcvti k r1 r2 s
  | .icvtf k r1 r2 => Sys2Proof.Machine.execIcvtf k r1 r2 s
  | .frnd k r1 r2 => Sys2Proof.Machine.execFrnd k r1 r2 s
  | .fneg k r1 r2 => Sys2Proof.Machine.execFneg k r1 r2 s
  | .fabs k r1 r2 => Sys2Proof.Machine.execFabs k r1 r2 s
  | .dadd k q r1 r2 r3 => Sys2Proof.Machine.execDadd k q r1 r2 r3 s
  | .dsub k q r1 r2 r3 => Sys2Proof.Machine.execDsub k q r1 r2 r3 s
  | .dmul k q r1 r2 r3 => Sys2Proof.Machine.execDmul k q r1 r2 r3 s
  | .ddiv k q r1 r2 r3 => Sys2Proof.Machine.execDdiv k q r1 r2 r3 s
  | .dsqrt k q r1 r2 r3 => Sys2Proof.Machine.execDsqrt k q r1 r2 r3 s
  | .dqua k q r1 r2 r3 => Sys2Proof.Machine.execDqua k q r1 r2 r3 s
  | .dcmp k q r1 r2 r3 => Sys2Proof.Machine.execDcmp k q r1 r2 r3 s
  | .dcmps k q r1 r2 r3 => Sys2Proof.Machine.execDcmps k q r1 r2 r3 s
  | .dcvti k q r1 r2 => Sys2Proof.Machine.execDcvti k q r1 r2 s
  | .icvtd k q r1 r2 => Sys2Proof.Machine.execIcvtd k q r1 r2 s
  | .drnd k q r1 r2 => Sys2Proof.Machine.execDrnd k q r1 r2 s
  | .cswp k w r1 r2 r3 => Sys2Proof.Machine.execCswp k w r1 r2 r3 s
  | .swp k w r1 r2 r3 => Sys2Proof.Machine.execSwp k w r1 r2 r3 s
  | .ladd k w r1 r2 r3 => Sys2Proof.Machine.execLadd k w r1 r2 r3 s
  | .clna k r1 r2 r3 => Sys2Proof.Machine.execClna k r1 r2 r3 s
  | .inva k r1 r2 r3 => Sys2Proof.Machine.execInva k r1 r2 r3 s
  | .clia k r1 r2 r3 => Sys2Proof.Machine.execClia k r1 r2 r3 s
  | .clnr k r1 r2 r3 stop => Sys2Proof.Machine.execClnr k r1 r2 r3 stop s
  | .invr k r1 r2 r3 stop => Sys2Proof.Machine.execInvr k r1 r2 r3 stop s
  | .clir k r1 r2 r3 stop => Sys2Proof.Machine.execClir k r1 r2 r3 stop s
  | .clns k r1 r2 r3 => Sys2Proof.Machine.execClns k r1 r2 r3 s
  | .invs k r1 r2 r3 => Sys2Proof.Machine.execInvs k r1 r2 r3 s
  | .clis k r1 r2 r3 => Sys2Proof.Machine.execClis k r1 r2 r3 s
  | .groupCompare k kind disagree read lane => Sys2Proof.Machine.execGroupCompare k kind disagree read lane s
  | .interruption k => Sys2Proof.Machine.execInterruption k s
  | .deadlineMatch k => Sys2Proof.Machine.execDeadlineMatch k s
  | .waitDeadline num => Sys2Proof.Machine.execWaitDeadline num s
  | .gatherEntryTimeout k => Sys2Proof.Machine.execGatherEntryTimeout k s
  | .l2Preload sender k ways lines => Sys2Proof.Machine.execL2Preload sender k ways lines s
  | .l3Preload sender n ways lines => Sys2Proof.Machine.execL3Preload sender n ways lines s
  | .preloadDone u => Sys2Proof.Machine.execPreloadDone u s
  | .lockRelease sender u ways => Sys2Proof.Machine.execLockRelease sender u ways s
  | .l3FlushClean sender n incl => Sys2Proof.Machine.execL3FlushClean sender n incl s
  | .l3FlushInvalidate sender n incl => Sys2Proof.Machine.execL3FlushInvalidate sender n incl s
  | .l3FlushCleanInvalidate sender n incl => Sys2Proof.Machine.execL3FlushCleanInvalidate sender n incl s
  | .l3FlushDone n => Sys2Proof.Machine.execL3FlushDone n s
  | .trd k line seam => Sys2Proof.Machine.execTrd k line seam s
  | .trdx k line seam atomic => Sys2Proof.Machine.execTrdx k line seam atomic s
  | .tdown t line clean => Sys2Proof.Machine.execTdown t line clean s
  | .tkill t line => Sys2Proof.Machine.execTkill t line s
  | .rds t line seam => Sys2Proof.Machine.execRds t line seam s
  | .rdx t line seam => Sys2Proof.Machine.execRdx t line seam s
  | .rdxA t line seam a => Sys2Proof.Machine.execRdxA t line seam a s
  | .upg t line seam => Sys2Proof.Machine.execUpg t line seam s
  | .mnt t line seam op skip => Sys2Proof.Machine.execMnt t line seam op skip s
  | .ior u line seam => Sys2Proof.Machine.execIor u line seam s
  | .iow u line seam mask data hint => Sys2Proof.Machine.execIow u line seam mask data hint s
  | .inv t line skip => Sys2Proof.Machine.execInv t line skip s
  | .snps t line clean => Sys2Proof.Machine.execSnpS t line clean s
  | .snpx t line skip => Sys2Proof.Machine.execSnpX t line skip s
  | .hint target line seam dirty data => Sys2Proof.Machine.execHint target line seam dirty data s
  | .invack t line kept => Sys2Proof.Machine.execInvAck t line kept s
  | .snpack t line kept => Sys2Proof.Machine.execSnpAck t line kept s
  | .snpd t line data kept => Sys2Proof.Machine.execSnpD t line data kept s
  | .hintack t line => Sys2Proof.Machine.execHintAck t line s
  | .hintdecl t line => Sys2Proof.Machine.execHintDecl t line s
  | .done t line => Sys2Proof.Machine.execDone t line s
  | .datas t line data => Sys2Proof.Machine.execDataS t line data s
  | .datae t line data => Sys2Proof.Machine.execDataE t line data s
  | .datam t line data => Sys2Proof.Machine.execDataM t line data s
  | .gntx t line => Sys2Proof.Machine.execGntX t line s
  | .atmr t line => Sys2Proof.Machine.execAtmR t line s
  | .wback t line => Sys2Proof.Machine.execWbAck t line s
  | .retry t line => Sys2Proof.Machine.execRetry t line s
  | .retryResend t line => Sys2Proof.Machine.execRetryResend t line s
  | .ioCmp u line => Sys2Proof.Machine.execIoCmp u line s
  | .iodata u line => Sys2Proof.Machine.execIoData u line s
  | .wb t line data => Sys2Proof.Machine.execWb t line data s
  | .evc t line => Sys2Proof.Machine.execEvc t line s
  | .hotWindowExpiry line => Sys2Proof.Machine.execHotWindowExpiry line s
  | .tileTransactionTimeout t line => Sys2Proof.Machine.execTileTransactionTimeout t line s
  | .homeTransactionTimeout line => Sys2Proof.Machine.execHomeTransactionTimeout line s
  | .slotReplay stop against => Sys2Proof.Machine.execSlotReplay stop against s
  | .channelRead ch line single double => Sys2Proof.Machine.execChannelRead ch line single double s
  | .channelWrite ch line mask data poison => Sys2Proof.Machine.execChannelWrite ch line mask data poison s
  | .promote sender tile src dst => Sys2Proof.Machine.execPromote sender tile src dst s
  | .rotate sender tile src dst => Sys2Proof.Machine.execRotate sender tile src dst s
  | .relocate sender tile src dst => Sys2Proof.Machine.execRelocate sender tile src dst s
  | .ckwCmdDone tile dstFails copy => Sys2Proof.Machine.execCkwCmdDone tile dstFails copy s
  | .watchEnd k => Sys2Proof.Machine.execWatchEnd k s
  | .assign sender tile => Sys2Proof.Machine.execAssign sender tile s
  | .fencedWrite sender tile mask => Sys2Proof.Machine.execFencedWrite sender tile mask s
  | .mcsLdrData sender data => Sys2Proof.Machine.execMcsLdrData sender data s
  | .verify sender ecc => Sys2Proof.Machine.execVerify sender ecc s
  | .activate sender => Sys2Proof.Machine.execActivate sender s
  | .mcsLdrDiscard sender => Sys2Proof.Machine.execMcsLdrDiscard sender s
  | .raiseFloor sender => Sys2Proof.Machine.execRaiseFloor sender s
  | .patchLoad k => Sys2Proof.Machine.execPatchLoad k s
  | .patchLoadDone k => Sys2Proof.Machine.execPatchLoadDone k s
  | .foremanDecision => Sys2Proof.Machine.execForemanDecision s
  | .foremanTick => Sys2Proof.Machine.execForemanTick s
  | .takeOff k => Sys2Proof.Machine.execTakeOff k s
  | .missReport => Sys2Proof.Machine.execMissReport s
  | .epochEnd => Sys2Proof.Machine.execEpochEnd s
  | .migrationSwitch gran => Sys2Proof.Machine.execMigrationSwitch gran s
  | .corePark k => Sys2Proof.Machine.execCorePark k s
  | .tileRetention t => Sys2Proof.Machine.execTileRetention t s
  | .fmnPolicyWrite sender off v => Sys2Proof.Machine.execFmnPolicyWrite sender off v s
  | .fmnEvict sender core => Sys2Proof.Machine.execFmnEvict sender core s
  | .create sender n => Sys2Proof.Machine.execCreate sender n s
  | .grant sender seam stop => Sys2Proof.Machine.execGrant sender seam stop s
  | .revoke sender seam => Sys2Proof.Machine.execRevoke sender seam s
  | .set sender seam field => Sys2Proof.Machine.execSet sender seam field s
  | .seal sender seam => Sys2Proof.Machine.execSeal sender seam s
  | .checkstop sender seam => Sys2Proof.Machine.execCheckstop sender seam s
  | .reset sender seam => Sys2Proof.Machine.execReset sender seam s
  | .destroy sender seam => Sys2Proof.Machine.execDestroy sender seam s
  | .seamCmdDone => Sys2Proof.Machine.execSeamCmdDone s
  | .train sender ch => Sys2Proof.Machine.execTrain sender ch s
  | .resync sender ch => Sys2Proof.Machine.execResync sender ch s
  | .memTrainDone ch found lane => Sys2Proof.Machine.execMemTrainDone ch found lane s
  | .scrubAccess ch single double => Sys2Proof.Machine.execScrubAccess ch single double s
  | .zqCalibration ch code => Sys2Proof.Machine.execZqCalibration ch code s
  | .channelDown ch => Sys2Proof.Machine.execChannelDown ch s
  | .entryFetch die ctx => Sys2Proof.Machine.execEntryFetch die ctx s
  | .write die ctx => Sys2Proof.Machine.execWrite die ctx s
  | .read die ctx data => Sys2Proof.Machine.execRead die ctx data s
  | .flush die ctx => Sys2Proof.Machine.execFlush die ctx s
  | .locate die ctx => Sys2Proof.Machine.execLocate die ctx s
  | .nop die ctx => Sys2Proof.Machine.execNop die ctx s
  | .target die ctx => Sys2Proof.Machine.execTarget die ctx s
  | .send die ctx => Sys2Proof.Machine.execSend die ctx s
  | .receive die ctx => Sys2Proof.Machine.execReceive die ctx s
  | .entryEnd die ctx result => Sys2Proof.Machine.execEntryEnd die ctx result s
  | .pathFailure user => Sys2Proof.Machine.execPathFailure user s
  | .entryTimeout user => Sys2Proof.Machine.execEntryTimeout user s
  | .haltingTimeout die ctx => Sys2Proof.Machine.execHaltingTimeout die ctx s
  | .abortConfirmed die ctx => Sys2Proof.Machine.execAbortConfirmed die ctx s
  | .lateDiscard die => Sys2Proof.Machine.execLateDiscard die s
  | .orphaning die ctx => Sys2Proof.Machine.execOrphaning die ctx s
  | .unpairedRepair die => Sys2Proof.Machine.execUnpairedRepair die s
  | .linkDown lane => Sys2Proof.Machine.execLinkDown lane s
  | .retrainAttempt lane => Sys2Proof.Machine.execRetrainAttempt lane s
  | .linkUp lane width rate => Sys2Proof.Machine.execLinkUp lane width rate s
  | .inboundRequest lane addr req => Sys2Proof.Machine.execInboundRequest lane addr req s
  | .frameReceive lane frame => Sys2Proof.Machine.execFrameReceive lane frame s
  | .journalCommit die ctx => Sys2Proof.Machine.execJournalCommit die ctx s
  | .commitPoint die ctx => Sys2Proof.Machine.execCommitPoint die ctx s
  | .targetWriteDone slot second result => Sys2Proof.Machine.execTargetWriteDone slot second result s
  | .restore sender bank => Sys2Proof.Machine.execRestore sender bank s
  | .redrive sender bank => Sys2Proof.Machine.execRedrive sender bank s
  | .discard sender bank => Sys2Proof.Machine.execDiscard sender bank s
  | .jnlCmdDone => Sys2Proof.Machine.execJnlCmdDone s
  | .peerAckTimeout die ctx => Sys2Proof.Machine.execPeerAckTimeout die ctx s
  | .drainDone die => Sys2Proof.Machine.execDrainDone die s
  | .grecelNop h cond => Sys2Proof.Machine.execGrecelNop h cond s
  | .grecelHalt h cond => Sys2Proof.Machine.execGrecelHalt h cond s
  | .rtt h cond => Sys2Proof.Machine.execRtt h cond s
  | .ret h cond => Sys2Proof.Machine.execRet h cond s
  | .wfe h cond => Sys2Proof.Machine.execWfe h cond s
  | .wfeResume h => Sys2Proof.Machine.execWfeResume h s
  | .mov h cond rd rs => Sys2Proof.Machine.execMov h cond rd rs s
  | .grecelAdd h cond rd rs => Sys2Proof.Machine.execGrecelAdd h cond rd rs s
  | .adc h cond rd rs => Sys2Proof.Machine.execAdc h cond rd rs s
  | .grecelSub h cond rd rs => Sys2Proof.Machine.execGrecelSub h cond rd rs s
  | .sbc h cond rd rs => Sys2Proof.Machine.execSbc h cond rd rs s
  | .grecelAnd h cond rd rs => Sys2Proof.Machine.execGrecelAnd h cond rd rs s
  | .grecelOr h cond rd rs => Sys2Proof.Machine.execGrecelOr h cond rd rs s
  | .grecelXor h cond rd rs => Sys2Proof.Machine.execGrecelXor h cond rd rs s
  | .grecelCmp h cond rd rs => Sys2Proof.Machine.execGrecelCmp h cond rd rs s
  | .tst h cond rd rs => Sys2Proof.Machine.execTst h cond rd rs s
  | .shl h cond rd rs => Sys2Proof.Machine.execShl h cond rd rs s
  | .shr h cond rd rs => Sys2Proof.Machine.execShr h cond rd rs s
  | .sar h cond rd rs => Sys2Proof.Machine.execSar h cond rd rs s
  | .rol h cond rd rs => Sys2Proof.Machine.execRol h cond rd rs s
  | .grecelMul h cond rd rs => Sys2Proof.Machine.execGrecelMul h cond rd rs s
  | .grecelMulh h cond rd rs => Sys2Proof.Machine.execGrecelMulh h cond rd rs s
  | .movi h cond rd wide imm => Sys2Proof.Machine.execMovi h cond rd wide imm s
  | .grecelAddi h cond rd wide imm => Sys2Proof.Machine.execGrecelAddi h cond rd wide imm s
  | .subi h cond rd wide imm => Sys2Proof.Machine.execSubi h cond rd wide imm s
  | .grecelAndi h cond rd wide imm => Sys2Proof.Machine.execGrecelAndi h cond rd wide imm s
  | .grecelOri h cond rd wide imm => Sys2Proof.Machine.execGrecelOri h cond rd wide imm s
  | .grecelXori h cond rd wide imm => Sys2Proof.Machine.execGrecelXori h cond rd wide imm s
  | .grecelCmpi h cond rd wide imm => Sys2Proof.Machine.execGrecelCmpi h cond rd wide imm s
  | .tsti h cond rd wide imm => Sys2Proof.Machine.execTsti h cond rd wide imm s
  | .shli h cond rd imm => Sys2Proof.Machine.execShli h cond rd imm s
  | .shri h cond rd imm => Sys2Proof.Machine.execShri h cond rd imm s
  | .sari h cond rd imm => Sys2Proof.Machine.execSari h cond rd imm s
  | .roli h cond rd imm => Sys2Proof.Machine.execRoli h cond rd imm s
  | .grecelLd h cond rd rs mode wide disp => Sys2Proof.Machine.execGrecelLd h cond rd rs mode wide disp s
  | .st h cond rd rs mode wide disp => Sys2Proof.Machine.execSt h cond rd rs mode wide disp s
  | .lda h cond rd addr => Sys2Proof.Machine.execLda h cond rd addr s
  | .sta h cond rd addr => Sys2Proof.Machine.execSta h cond rd addr s
  | .portIn h cond rd port => Sys2Proof.Machine.execIn h cond rd port s
  | .portOut h cond rd port => Sys2Proof.Machine.execOut h cond rd port s
  | .inr h cond rd rs => Sys2Proof.Machine.execInr h cond rd rs s
  | .outr h cond rd rs => Sys2Proof.Machine.execOutr h cond rd rs s
  | .jmp h cond target => Sys2Proof.Machine.execJmp h cond target s
  | .call h cond target => Sys2Proof.Machine.execCall h cond target s
  | .jr h cond rs => Sys2Proof.Machine.execJr h cond rs s
  | .mts h cond rd n => Sys2Proof.Machine.execMts h cond rd n s
  | .mfs h cond rd n => Sys2Proof.Machine.execMfs h cond rd n s
  | .lset h level stop count => Sys2Proof.Machine.execLset h level stop count s
  | .oca h cond rd rs => Sys2Proof.Machine.execOca h cond rd rs s
  | .dmaDone h c => Sys2Proof.Machine.execDmaDone h c s
  | .outboundDone h result data => Sys2Proof.Machine.execOutboundDone h result data s
  | .timerCompare h => Sys2Proof.Machine.execTimerCompare h s
  | .hlrMboxTo sender h v => Sys2Proof.Machine.execHlrMboxTo sender h v s
  | .run sender h run autorun => Sys2Proof.Machine.execRun sender h run autorun s
  | .pitData sender h v => Sys2Proof.Machine.execPitData sender h v s
  | .load sender d targets => Sys2Proof.Machine.execLoad sender d targets s
  | .loadDone d => Sys2Proof.Machine.execLoadDone d s
  | .march sender d form kind index => Sys2Proof.Machine.execMarch sender d form kind index s
  | .sweep sender d form kind index => Sys2Proof.Machine.execSweep sender d form kind index s
  | .marchDone d found => Sys2Proof.Machine.execMarchDone d found s
  | .idle g head => Sys2Proof.Machine.execIdle g head s
  | .nak g head => Sys2Proof.Machine.execNak g head s
  | .init g c0 c1 c2 c3 => Sys2Proof.Machine.execInit g c0 c1 c2 c3 s
  | .hello g head lot cxid group lots => Sys2Proof.Machine.execHello g head lot cxid group lots s
  | .roster g head l0 l1 l2 l3 => Sys2Proof.Machine.execRoster g head l0 l1 l2 l3 s
  | .status g head sticky live => Sys2Proof.Machine.execStatus g head sticky live s
  | .statusPeriod => Sys2Proof.Machine.execStatusPeriod s
  | .pageRd g head slot off => Sys2Proof.Machine.execPageRd g head slot off s
  | .pageWr g head slot off data holds => Sys2Proof.Machine.execPageWr g head slot off data holds s
  | .pageRsp g head result => Sys2Proof.Machine.execPageRsp g head result s
  | .jmHdr g head header => Sys2Proof.Machine.execJmHdr g head header s
  | .jmData g head payload => Sys2Proof.Machine.execJmData g head payload s
  | .jmAck g head num => Sys2Proof.Machine.execJmAck g head num s
  | .jmNack g head num => Sys2Proof.Machine.execJmNack g head num s
  | .jmRetire g head num => Sys2Proof.Machine.execJmRetire g head num s
  | .jmQuery g head nums => Sys2Proof.Machine.execJmQuery g head nums s
  | .couplingSilence g => Sys2Proof.Machine.execCouplingSilence g s
  | .reenum sender => Sys2Proof.Machine.execReenum sender s
  | .adopt sender member => Sys2Proof.Machine.execAdopt sender member s
  | .cplAdoptDiscard sender member => Sys2Proof.Machine.execCplAdoptDiscard sender member s
  | .cplRaRead sender => Sys2Proof.Machine.execCplRaRead sender s
  | .cplRaWrite sender => Sys2Proof.Machine.execCplRaWrite sender s
  | .ringPoll e seam => Sys2Proof.Machine.execRingPoll e seam s
  | .jobPickup e seam => Sys2Proof.Machine.execJobPickup e seam s
  | .jobEnd e seam => Sys2Proof.Machine.execJobEnd e seam s
  | .quantumEnd e => Sys2Proof.Machine.execQuantumEnd e s
  | .compress n seam => Sys2Proof.Machine.execCompress n seam s
  | .decompress n seam => Sys2Proof.Machine.execDecompress n seam s
  | .aesGcmEncrypt n seam => Sys2Proof.Machine.execAesGcmEncrypt n seam s
  | .aesGcmDecrypt n seam => Sys2Proof.Machine.execAesGcmDecrypt n seam s
  | .aesXtsEncrypt n seam => Sys2Proof.Machine.execAesXtsEncrypt n seam s
  | .aesXtsDecrypt n seam => Sys2Proof.Machine.execAesXtsDecrypt n seam s
  | .aesCbcEncrypt n seam => Sys2Proof.Machine.execAesCbcEncrypt n seam s
  | .aesCbcDecrypt n seam => Sys2Proof.Machine.execAesCbcDecrypt n seam s
  | .hash n seam => Sys2Proof.Machine.execHash n seam s
  | .ecdsaSign n seam => Sys2Proof.Machine.execEcdsaSign n seam s
  | .ecdsaVerify n seam => Sys2Proof.Machine.execEcdsaVerify n seam s
  | .ed25519Sign n seam => Sys2Proof.Machine.execEd25519Sign n seam s
  | .ed25519Verify n seam => Sys2Proof.Machine.execEd25519Verify n seam s
  | .rsaVerify n seam => Sys2Proof.Machine.execRsaVerify n seam s
  | .generate seam => Sys2Proof.Machine.execGenerate seam s
  | .reseed seam => Sys2Proof.Machine.execReseed seam s
  | .entropyBlock raw => Sys2Proof.Machine.execEntropyBlock raw s
  | .restart sender => Sys2Proof.Machine.execRestart sender s
  | .raw sender => Sys2Proof.Machine.execRaw sender s
  | .measure sender kind subject => Sys2Proof.Machine.execMeasure sender kind subject s
  | .declare sender kind subject => Sys2Proof.Machine.execDeclare sender kind subject s
  | .report sender kind subject => Sys2Proof.Machine.execReport sender kind subject s
  | .attDone => Sys2Proof.Machine.execAttDone s
  | .request n => Sys2Proof.Machine.execRequest n s
  | .renew n => Sys2Proof.Machine.execRenew n s
  | .release n => Sys2Proof.Machine.execRelease n s
  | .cubeGrant => Sys2Proof.Machine.execCubeGrant s
  | .leaseExpiry => Sys2Proof.Machine.execLeaseExpiry s
  | .epoch sender n len step source bad => Sys2Proof.Machine.execEpoch sender n len step source bad s
  | .jlog sender n len source bad => Sys2Proof.Machine.execJlog sender n len source bad s
  | .replDone n => Sys2Proof.Machine.execReplDone n s
  | .bootRom n flash a b => Sys2Proof.Machine.execBootRom n flash a b s
  | .raise sender => Sys2Proof.Machine.execRaise sender s
  | .faultReport u index peer syndrome held => Sys2Proof.Machine.execFaultReport u index peer syndrome held s
  | .wireFault u => Sys2Proof.Machine.execWireFault u s
  | .nodeQueueEntry node => Sys2Proof.Machine.execNodeQueueEntry node s
  | .fltAck sender slot => Sys2Proof.Machine.execFltAck sender slot s
  | .fltNoticePop sender => Sys2Proof.Machine.execFltNoticePop sender s
  | .canaryExpiry slot => Sys2Proof.Machine.execCanaryExpiry slot s
  | .rung2 slot => Sys2Proof.Machine.execRung2 slot s
  | .ladderCheck slot => Sys2Proof.Machine.execLadderCheck slot s
  | .conseqWindowClose u => Sys2Proof.Machine.execConseqWindowClose u s
  | .tallyWrite fails => Sys2Proof.Machine.execTallyWrite fails s
  | .optimeCommit => Sys2Proof.Machine.execOptimeCommit s
  | .tlyWrite sender event seam => Sys2Proof.Machine.execTlyWrite sender event seam s
  | .powerOn vin removed => Sys2Proof.Machine.execPowerOn vin removed s
  | .mrstNLow => Sys2Proof.Machine.execMrstNLow s
  | .mrstNHigh => Sys2Proof.Machine.execMrstNHigh s
  | .envelopeChange vavg => Sys2Proof.Machine.execEnvelopeChange vavg s
  | .pCoreRecompute inW => Sys2Proof.Machine.execPCoreRecompute inW s
  | .pCutStep limit => Sys2Proof.Machine.execPCutStep limit s
  | .phaseFail phase => Sys2Proof.Machine.execPhaseFail phase s
  | .aoSupplyLoss which => Sys2Proof.Machine.execAoSupplyLoss which s
  | .xtalFail => Sys2Proof.Machine.execXtalFail s
  | .refLost => Sys2Proof.Machine.execRefLost s
  | .standby sender => Sys2Proof.Machine.execStandby sender s
  | .wake sender => Sys2Proof.Machine.execWake sender s
  | .off sender => Sys2Proof.Machine.execOff sender s
  | .powerFailDeclare cause vin mean => Sys2Proof.Machine.execPowerFailDeclare cause vin mean s
  | .holdupPowerDown => Sys2Proof.Machine.execHoldupPowerDown s
  | .bankTest sender testEn hours => Sys2Proof.Machine.execBankTest sender testEn hours s
  | .bankTestPeriodic => Sys2Proof.Machine.execBankTestPeriodic s
  | .bankTestDone c esr => Sys2Proof.Machine.execBankTestDone c esr s
  | .energyRecompute v => Sys2Proof.Machine.execEnergyRecompute v s
  | .chargeTimeout => Sys2Proof.Machine.execChargeTimeout s
  | .envSample channel code => Sys2Proof.Machine.execEnvSample channel code s
  | .bypass => Sys2Proof.Machine.execBypass s
  | .samplePreload lands cells => Sys2Proof.Machine.execSamplePreload lands cells s
  | .extest lands cells => Sys2Proof.Machine.execExtest lands cells s
  | .idcode => Sys2Proof.Machine.execIdcode s
  | .trstNLow => Sys2Proof.Machine.execTrstNLow s
  | .storeBufferEntryLeave k => Sys2Proof.Machine.execStoreBufferEntryLeave k s
  | .holdupCutoff writing => Sys2Proof.Machine.execHoldupCutoff writing s
  | .couplingFrameCrcError g => Sys2Proof.Machine.execCouplingFrameCrcError g s
  | .reservedFrameType g type => Sys2Proof.Machine.execReservedFrameType g type s
  | .couplingLaneFail g lane => Sys2Proof.Machine.execCouplingLaneFail g lane s
  | .phaseControllerFail which => Sys2Proof.Machine.execPhaseControllerFail which s
  | .quadrantShort quadrant => Sys2Proof.Machine.execQuadrantShort quadrant s
  | .mcsLdrDone => Sys2Proof.Machine.execMcsLdrDone s
  | .startupTestDone raw => Sys2Proof.Machine.execStartupTestDone raw s
  | .cplRaTimeout => Sys2Proof.Machine.execCplRaTimeout s
  | .ladderResetTimeout slot => Sys2Proof.Machine.execLadderResetTimeout slot s
  | .operationException k w => Sys2Proof.Machine.execOperationException k w s
  | .reservedEncoding h => Sys2Proof.Machine.execReservedEncoding h s

end Sys2Proof.Machine
end

