-- ==== Sys2Proof/Machine/Idle.lean ====
section
/-! DEFINITION. What the module does while no command waits (log entry 6). -/

namespace Sys2Proof.Machine

/-- Ten nanoseconds pass, one period of the 100 MHz reference (R480), the sweeps of L3 slices go on (R158), the
seam controller brings TIMING_OK up to date (R269), and a change of the module's summaries is told to the coupled modules (R395). -/
def State.idle (s : State) : State :=
  let s : State := { s with now := s.now + 10 }
  if s.power.mode = .off then s else { s.sweepTick.refreshTiming.statusChange with pending := s.pending, now := s.now }

end Sys2Proof.Machine
end

