-- ==== Sys2Proof/Safety.lean ====
section
/-! DEFINITION. The terms in which statements speak of steps, of commands that complete, and of instructions that a core is ready to
execute. -/

namespace Sys2Proof.Machine

/-! ### Steps -/

/-- A step that answers a next state. -/
def Steps (s t : State) : Prop := step s = .next t

/-- A state reached in `n` steps, none of which stops. -/
def Reaches : Nat → State → State → Prop
  | 0, s, t => t = s
  | n + 1, s, t => ∃ u, Steps s u ∧ Reaches n u t

/-- Main memory is in its canonical form. -/
def MemoryCanonical (s : State) : Prop := Memory.wf s.mem = true

/-! ### Commands that complete -/

/-- The module has power. -/
def State.hasPower (s : State) : Prop := s.power.mode ≠ .off

/-- The command completes, and leaves everything but the queue and the clock as it is in `t`. -/
def Completes (c : Instr) (s t : State) : Prop := exec c s = .next (s.after fun _ => t)

/-- The command stops with a fault. -/
def Stops (c : Instr) (s : State) (e : Fault) : Prop := exec c s = .fault e

/-- A write of the doubleword at `off` of a unit's page passes the fence and the checks of R28. -/
def Admits (s : State) (sender : Sender) (u : UnitId) (off : Nat) : Prop := s.guardWrite sender u off = (s, .pass)

/-- The arrivals of coherence messages, which the tables of R172 and R175 mark as ones that cannot occur in some states: the only commands
that can stop. -/
def isArrival : Instr → Bool
  | .inv _ _ _ | .snps _ _ _ | .snpx _ _ _ | .hint _ _ _ _ _ | .invack _ _ _ => true
  | .snpack _ _ _ | .snpd _ _ _ _ | .hintack _ _ | .hintdecl _ _ => true
  | .done _ _ | .datas _ _ _ | .datae _ _ _ | .datam _ _ _ => true
  | .gntx _ _ | .atmr _ _ | .wback _ _ | .retry _ _ => true
  | .evc _ _ => true
  | _ => false

/-- The commands that act on a module without power (R474, R484, R503; log entry 67). -/
def isAlways : Instr → Bool
  | .powerOn _ _ | .mrstNLow | .mrstNHigh | .bypass | .samplePreload _ _ | .extest _ _ | .idcode | .trstNLow => true
  | _ => false

/-- The module has no power, and no POWER_ON waits. -/
def WithoutPower (s : State) : Prop := s.power.mode = .off ∧ ∀ vin removed, Instr.powerOn vin removed ∉ s.pending

/-! ### Instructions of a core -/

/-- The state in which an instruction of `len` bytes has been fetched, an earlier closed group having retired. -/
def State.fetched (s : State) (k len : Nat) : State := ((s.openGroup k).fetch k len).1

/-- Core `k` is ready to execute an instruction of `len` bytes: it runs, holds a work unit, and its fetch raises no exception. -/
def Ready (s : State) (k len : Nat) : Prop :=
  s.hasPower ∧ s.coreRuns k = true ∧ (s.openGroup k).holdsWork k = true ∧ ((s.openGroup k).fetch k len).2 = none

/-- The architectural state that an instruction of `len` bytes finds. -/
def State.found (s : State) (k len : Nat) : Arch := (s.fetched k len).arch k

/-- The instruction has executed: the architectural state is `a` with IA at the next instruction, and the group counts it. Nothing else
has changed since it was fetched. -/
def State.executed (s : State) (k len : Nat) (a : Arch) (close : Bool := false) : State :=
  ((s.fetched k len).setArch k a).completed k ((s.found k len).ia + BitVec.ofNat 64 len) close

/-- An instruction that changes nothing but IA has executed. -/
def State.stepped (s : State) (k len : Nat) (close : Bool := false) : State :=
  (s.fetched k len).completed k ((s.found k len).ia + BitVec.ofNat 64 len) close

/-- A branch has been taken to `t`, and nothing but IA has changed. -/
def State.jumped (s : State) (k len : Nat) (t : Word) : State := (s.fetched k len).completed k t false

/-- A branch that also writes the architectural state has been taken to `t`. -/
def State.branched (s : State) (k len : Nat) (a : Arch) (t : Word) : State := ((s.fetched k len).setArch k a).completed k t false

/-- The instruction is nullified by an exception that its body raised in state `u`. -/
def State.nullified (s : State) (k : Nat) (u : State) (x : Exc) : State := (s.openGroup k).raiseExc u k x

/-! ### Instructions performed outside the core (R79, R194) -/

/-- In `w` the instruction is about to be performed outside the core: in `u` the microcode runs, what came before the instruction has been
compared, the buffers have drained and device stores have been accepted, and the core still holds its work unit. -/
def PerformsFrom (w u : State) (k : Fin 48) : Prop := (w.microcode k).settleAll k = u ∧ u.holdsWork k = true

/-- The instruction has been performed, leaving `v`: its group closes, and the checkpoint lies after it, so that it is not executed again.
-/
def State.performed (u v : State) (k len : Nat) : State :=
  (v.completed k ((u.arch k).ia + BitVec.ofNat 64 len) true).onceEnd k

/-- Every microword that core `k` would fetch now, by its ROM or by its patch memory, is delivered (R216, R217). -/
def MicrocodeSound (s : State) (k : Nat) : Prop :=
  s.flag (uMcs k) Reg.MCS_STAT.VALID = false ∨ ∀ ua ∈ (Config.microPath s.free).map (· % 2 ^ 18), (s.microFetch k ua).isSome = true

/-! ### Loads and stores of memory -/

/-- A load of `n` bytes with an address form finds memory: every piece passes its checks, no piece raises an exception, and `bytes` is what
it reads, in state `v`. Stores of the core that it does not take its value from whole have left the buffers first (R127). -/
def LoadReads (s : State) (k : Nat) (f : AddrForm) (n : Nat) (v : State) (bytes : List Byte) : Prop :=
  Ready s k f.length ∧ ∃ ea u ps,
    (s.found k f.length).address f = some ea ∧
    (s.fetched k f.length).reachAll k ea n .load = (u, .ok ps) ∧ devicePlace ps = none ∧
    (let w := if (memoryPieces ps).any fun p => (u.core k).meetsStores p.1 p.2 then u.settleEarlier k else u
     w.holdsWork k = true ∧ w.loadPieces k ea ps = (v, .ok bytes))

/-- The operand of a load is readable (R64, R66, R69, R71): the core is ready, the address form gives an address, each piece translates, is
permitted and lies in memory, and no piece is refused, waits for a line or meets poison. -/
def Readable (s : State) (k : Nat) (f : AddrForm) (n : Nat) : Prop := ∃ v bytes, LoadReads s k f n v bytes

/-- The load has executed and delivered `a`. -/
def State.loaded (s v : State) (k len : Nat) (a : Arch) : State :=
  (v.setArch k a).completed k ((s.found k len).ia + BitVec.ofNat 64 len) false

/-- A store of `n` bytes with an address form finds memory: what an earlier BARS holds back has come, and every piece passes its checks, in
state `u`, at `ea`, with the pieces `ps`. -/
def StoreReaches (s : State) (k : Fin 48) (f : AddrForm) (n : Nat) (u : State) (ps : List Piece) : Prop :=
  Ready s k f.length ∧ ∃ ea,
    (s.found k f.length).address f = some ea ∧
    ((s.fetched k f.length).barsEnd k).reachAll k ea n .store = (u, .ok ps) ∧ devicePlace ps = none

/-- The store has executed: its bytes have joined the stores of the group, at the addresses of its pieces, in an order that is a free value
(R121), and nothing else has been written. -/
def State.stored (s u : State) (k len : Nat) (ps : List Piece) (a : Arch) (bytes : List Byte) : State :=
  let o := u.pieceOrder ps
  ((o.1.setArch k a).groupStores k (storesOf (u.seamOf k) (a.c 25) o.2 bytes)).completed k ((s.found k len).ia + BitVec.ofNat 64 len) false

/-! ### Instructions of a hauler -/

/-- Hauler `h` executes the instruction at PC: it runs, no rule of R358 or R361 is broken, and the condition of the COND prefix, if there
is one, holds. -/
def HaulerReady (s : State) (h : Nat) (cond : Option (Fin 14)) (kind : HKind) : Prop :=
  s.hasPower ∧ s.haulerRuns h = true ∧ (s.hauler h).ruleBroken kind = none ∧
  (match cond with | some c => condHolds (s.hauler h).flags c.val = true | none => True)

/-- The instruction's cycle has been counted. -/
def State.cycled (s : State) (h : Nat) : State := s.count (uHauler h) Reg.HLR_CYCLES.CYCLES

/-- The bytes of an instruction with its COND prefix. -/
def withCond (cond : Option (Fin 14)) (len : Nat) : Nat := if cond.isSome then len + 1 else len

/-- The boundary after the instruction: execution goes on as R355, R358 and R359 say, the writes `ws` join those in flight, and the ones
that are due land. -/
def State.bound (s : State) (h len : Nat) (kind : HKind) (target : Option Half) (ws : List Late) : State :=
  let x := s.hauler h
  s.setHauler h { (x.advance len (kind == .branch) target).boundary ws with lsetLeft := if kind == .lset then 2 else x.lsetLeft - 1 }

/-- The instruction has executed with the writes `ws` and no other effect than to go on; a halt that is asked for takes effect. -/
def State.hdone (s : State) (h : Nat) (cond : Option (Fin 14)) (len : Nat) (ws : List Late) : State :=
  (s.bound h (withCond cond len) .plain none ws).haltAsked h

/-- A branch has executed. -/
def State.hjumped (s : State) (h : Nat) (cond : Option (Fin 14)) (len : Nat) (target : Half) (ws : List Late) : State :=
  (s.bound h (withCond cond len) .branch (some target) ws).haltAsked h

end Sys2Proof.Machine
end

