-- ==== Sys2Proof/Certificates/Slice0/Obligations.lean ====
section
/-! DEFINITION. The statements about the model: the block's queue and clock, the commands family by family with the states they leave, and rules
of the spec. -/

open Sys2Proof Sys2Proof.Machine

/-- The step of the block (log entries 1 and 6). -/
def Obligations.StepRunsTheFrontCommand : Prop :=
  (∀ (c : Instr) (s : State), step { s with pending := c :: s.pending } = exec c s) ∧
  (∀ s : State, s.pending = [] → ∃ t, Steps s t ∧ t.pending = [] ∧ t.now = s.now + 10)

/-- What every run does to the queue and the clock (log entries 1 and 6). -/
def Obligations.RunsTakeCommandsInOrder : Prop :=
  (∀ (n : Nat) (s t : State), Reaches n s t →
    t.pending = s.pending.drop n ∧ t.now = s.now + 10 * (n - s.pending.length)) ∧
  (∀ s : State, (∀ c ∈ s.pending, isArrival c = false) →
    ∃ t, Reaches s.pending.length s t ∧ t.pending = [] ∧ t.now = s.now) ∧
  (∀ (c : Instr) (s : State) (e : Fault), Stops c s e → isArrival c = true ∧ s.hasPower) ∧
  (∀ (c : Instr) (s : State), isArrival c = false → ∃ t, exec c s = .next t)

/-- R474, R484, R490, R503: a module without power. That its commands have no effect is the model's reading (log entry 67). -/
def Obligations.AModuleWithoutPowerIsInert : Prop :=
  (∀ (c : Instr) (s : State), s.power.mode = .off → isAlways c = false → exec c s = .next s) ∧
  (∀ s t : State, WithoutPower s → Steps s t → WithoutPower t) ∧
  (∀ (n : Nat) (s t : State), WithoutPower s → Reaches n s t →
    WithoutPower t ∧ { t with pending := s.pending, now := s.now, power := s.power, tap := s.tap } = s ∧
      { t.power with mrstLow := s.power.mrstLow, offUntilVin := s.power.offUntilVin } = s.power)

/-- R7, R40, R88, R431: the state after reset. -/
def Obligations.ResetLeavesTheResetColumn : Prop :=
  (∀ (u : UnitId) (r : Row) (i : Nat), r ∈ pageRows u → r.kind = .value → i < r.count → State.reset.rd u (r.field.ix i) = r.reset) ∧
  State.reset.present uComplex = false ∧
  (∀ u : UnitId, u.valid = true → u.type ≠ .complex →
    let on := u.type = .module ∨ u.within uSvcDie
    (on → State.reset.rd u Reg.UNIT_POWER.REQ = 0 ∧ State.reset.powerCode u = 0) ∧
    (¬ on → State.reset.rd u Reg.UNIT_POWER.REQ = 2 ∧ State.reset.powerCode u = 2)) ∧
  State.reset.holder = none ∧ State.reset.timeBase = 0 ∧ State.reset.pending = [] ∧ MemoryCanonical State.reset

/-- R92–R97: the integer instructions, in both widths. -/
def Obligations.IntegerInstructionsDeliverResults : Prop :=
  ∀ (s : State) (k : Fin 48) (w : Bool) (r1 r2 r3 : BitVec 5), Ready s k 4 →
    let a := s.found k 4
    let x := srcS w (a.gr r2)
    let y := srcS w (a.gr r3)
    let m := srcU w (a.gr r2)
    let n := srcU w (a.gr r3)
    let c := shiftCount (a.gr r3)
    let logic (v : Word) : Arch := (a.setG r1 (resultOf w v.toNat)).setCc (if resultOf w v.toNat = 0 then 0 else 1)
    let put (q r : Int) (cc : Nat) : Arch := ((a.setG r1 (resultOf w q)).setG (r1 + 1) (resultOf w r)).setCc cc
    let least : Int := -(2 ^ (widthOf w - 1) : Int)
    let spec := s.nullified k (s.fetched k 4) (.program 3 0)
    Completes (.add k w r1 r2 r3) s (s.executed k 4 ((a.setG r1 (resultOf w (x + y))).setCc (ccArith w (x + y)))) ∧
    Completes (.addl k w r1 r2 r3) s (s.executed k 4 ((a.setG r1 (resultOf w (m + n))).setCc (ccAddL w (m + n)))) ∧
    Completes (.sub k w r1 r2 r3) s (s.executed k 4 ((a.setG r1 (resultOf w (x - y))).setCc (ccArith w (x - y)))) ∧
    Completes (.subl k w r1 r2 r3) s (s.executed k 4 ((a.setG r1 (resultOf w ((m : Int) - n))).setCc (ccSubL m n))) ∧
    Completes (.mul k w r1 r2 r3) s
      (s.executed k 4 ((a.setG r1 (resultOf w (x * y))).setCc (if fitsS w (x * y) then ccSign (x * y) else 3))) ∧
    Completes (.mulh k w r1 r2 r3) s (s.executed k 4 (a.setG r1 (resultOf w (x * y / 2 ^ widthOf w)))) ∧
    Completes (.mulhu k w r1 r2 r3) s (s.executed k 4 (a.setG r1 (resultOf w (m * n / 2 ^ widthOf w : Nat)))) ∧
    (r3 = 0 → Completes (.neg k w r1 r2 r3) s (s.executed k 4 ((a.setG r1 (resultOf w (0 - x))).setCc (ccArith w (0 - x))))) ∧
    (r3 ≠ 0 → Completes (.neg k w r1 r2 r3) s spec) ∧
    Completes (.and k w r1 r2 r3) s (s.executed k 4 (logic (a.gr r2 &&& a.gr r3))) ∧
    Completes (.or k w r1 r2 r3) s (s.executed k 4 (logic (a.gr r2 ||| a.gr r3))) ∧
    Completes (.xor k w r1 r2 r3) s (s.executed k 4 (logic (a.gr r2 ^^^ a.gr r3))) ∧
    Completes (.sll k w r1 r2 r3) s (s.executed k 4 (a.setG r1 (resultOf w (shiftLeft w m c)))) ∧
    Completes (.srl k w r1 r2 r3) s (s.executed k 4 (a.setG r1 (resultOf w (shiftRight w m c)))) ∧
    Completes (.sra k w r1 r2 r3) s
      (s.executed k 4 ((a.setG r1 (resultOf w (shiftArith w x c))).setCc (ccSign (shiftArith w x c)))) ∧
    Completes (.rotl k w r1 r2 r3) s (s.executed k 4 (a.setG r1 (resultOf w (rotateLeft w m c)))) ∧
    (r1 = 0 → Completes (.cmp k w r1 r2 r3) s (s.executed k 4 (a.setCc (ccCompare x y)))) ∧
    (r1 ≠ 0 → Completes (.cmp k w r1 r2 r3) s spec) ∧
    (r1 = 0 → Completes (.cmpl k w r1 r2 r3) s (s.executed k 4 (a.setCc (ccCompare m n)))) ∧
    (r1 ≠ 0 → Completes (.cmpl k w r1 r2 r3) s spec) ∧
    (isEven r1 = true → y = 0 → Completes (.div k w r1 r2 r3) s (s.executed k 4 (put (-1) x 3))) ∧
    (isEven r1 = true → x = least → y = -1 → Completes (.div k w r1 r2 r3) s (s.executed k 4 (put x 0 3))) ∧
    (isEven r1 = true → y ≠ 0 → ¬(x = least ∧ y = -1) →
      Completes (.div k w r1 r2 r3) s (s.executed k 4 (put (x.tdiv y) (x.tmod y) (ccSign (x.tdiv y))))) ∧
    (isEven r1 = true → n = 0 → Completes (.divu k w r1 r2 r3) s (s.executed k 4 (put (-1) m 3))) ∧
    (isEven r1 = true → n ≠ 0 →
      Completes (.divu k w r1 r2 r3) s (s.executed k 4 (put (m / n : Nat) (m % n : Nat) (if m / n = 0 then 0 else 2)))) ∧
    (isEven r1 = false → Completes (.div k w r1 r2 r3) s (s.nullified k (s.fetched k 4) (.program 3 0))) ∧
    (isEven r1 = false → Completes (.divu k w r1 r2 r3) s (s.nullified k (s.fetched k 4) (.program 3 0)))

/-- R59, R61, R97: immediates, moves and LA. -/
def Obligations.ImmediatesAndMovesDeliverResults : Prop :=
  ∀ (s : State) (k : Fin 48) (r1 r2 r3 : BitVec 5) (h : BitVec 16) (v : BitVec 32) (f : AddrForm),
    (Ready s k 2 →
      let a := s.found k 2
      Completes (.movr k r1 r2) s (s.executed k 2 (a.setG r1 (a.gr r2))) ∧
      Completes (.fmovr k r1 r2) s (s.executed k 2 (a.setF r1 (a.fr r2)))) ∧
    (Ready s k 4 →
      let a := s.found k 4
      let x := (a.gr r1).toInt
      let logic (z : Word) : Arch := (a.setG r1 z).setCc (if z = 0 then 0 else 1)
      Completes (.addi k r1 h) s (s.executed k 4 ((a.setG r1 (a.gr r1 + h.signExtend 64)).setCc (ccArith false (x + h.toInt)))) ∧
      Completes (.cmpi k r1 h) s (s.executed k 4 (a.setCc (ccCompare x h.toInt))) ∧
      Completes (.andi k r1 h) s (s.executed k 4 (logic (a.gr r1 &&& h.setWidth 64))) ∧
      Completes (.ori k r1 h) s (s.executed k 4 (logic (a.gr r1 ||| h.setWidth 64))) ∧
      Completes (.xori k r1 h) s (s.executed k 4 (logic (a.gr r1 ^^^ h.setWidth 64))) ∧
      Completes (.li k r1 h) s (s.executed k 4 (a.setG r1 (h.signExtend 64))) ∧
      (r3 = 0 → Completes (.ftog k r1 r2 r3) s (s.executed k 4 (a.setG r1 (a.fr r2)))) ∧
      (r3 = 0 → Completes (.gtof k r1 r2 r3) s (s.executed k 4 (a.setF r1 (a.gr r2)))) ∧
      (r3 ≠ 0 → Completes (.ftog k r1 r2 r3) s (s.nullified k (s.fetched k 4) (.program 3 0))) ∧
      (r3 ≠ 0 → Completes (.gtof k r1 r2 r3) s (s.nullified k (s.fetched k 4) (.program 3 0)))) ∧
    (Ready s k 6 →
      let a := s.found k 6
      let x := (a.gr r1).toInt
      Completes (.lil k r1 v) s (s.executed k 6 (a.setG r1 (v.signExtend 64))) ∧
      Completes (.lih k r1 v) s (s.executed k 6 (a.setG r1 ((a.gr r1).setField 0 31 v.toNat))) ∧
      Completes (.addil k r1 v) s (s.executed k 6 ((a.setG r1 (a.gr r1 + v.signExtend 64)).setCc (ccArith false (x + v.toInt)))) ∧
      Completes (.cmpil k r1 v) s (s.executed k 6 (a.setCc (ccCompare x v.toInt)))) ∧
    (Ready s k f.length →
      let a := s.found k f.length
      (∀ ea, a.address f = some ea → Completes (.la k r1 f) s (s.executed k f.length (a.setG r1 ea))) ∧
      (a.address f = none → Completes (.la k r1 f) s (s.nullified k (s.fetched k f.length) (.program 3 0))))

/-- R55, R60: branches. -/
def Obligations.BranchesGoToTheirTargets : Prop :=
  ∀ (s : State) (k : Fin 48) (mask : BitVec 4) (h : BitVec 16) (v : BitVec 32) (r1 r2 : BitVec 5) (b : Bool),
    (Ready s k 4 →
      let a := s.found k 4
      (maskTakes mask a.cc = true → (branchTarget a.ia h).getLsbD 0 = false →
        Completes (.bc k mask h) s (s.jumped k 4 (branchTarget a.ia h))) ∧
      (maskTakes mask a.cc = false → Completes (.bc k mask h) s (s.stepped k 4)) ∧
      (mask = 0xF → Completes (.bal k mask h) s (s.branched k 4 (a.setG 31 (a.ia + 4)) (branchTarget a.ia h))) ∧
      (mask ≠ 0xF → Completes (.bal k mask h) s (s.nullified k (s.fetched k 4) (.program 3 0)))) ∧
    (Ready s k 6 →
      let a := s.found k 6
      (maskTakes mask a.cc = true → (branchTarget a.ia v).getLsbD 0 = false →
        Completes (.bcl k mask v) s (s.jumped k 6 (branchTarget a.ia v))) ∧
      (maskTakes mask a.cc = false → Completes (.bcl k mask v) s (s.stepped k 6)) ∧
      (mask = 0xF → Completes (.ball k mask v) s (s.branched k 6 (a.setG 31 (a.ia + 6)) (branchTarget a.ia v))) ∧
      (mask ≠ 0xF → Completes (.ball k mask v) s (s.nullified k (s.fetched k 6) (.program 3 0)))) ∧
    (Ready s k 2 →
      let a := s.found k 2
      (b = false → maskTakes mask a.cc = true → (a.gr r2).getLsbD 0 = false →
        Completes (.brr k b mask r2) s (s.jumped k 2 (a.gr r2))) ∧
      (b = false → maskTakes mask a.cc = true → (a.gr r2).getLsbD 0 = true →
        Completes (.brr k b mask r2) s (s.nullified k (s.fetched k 2) (.program 3 0))) ∧
      (b = false → maskTakes mask a.cc = false → Completes (.brr k b mask r2) s (s.stepped k 2)) ∧
      (b = true → Completes (.brr k b mask r2) s (s.nullified k (s.fetched k 2) (.program 3 0))) ∧
      ((a.gr r2).getLsbD 0 = false → Completes (.balr k r1 r2) s (s.branched k 2 (a.setG r1 (a.ia + 2)) (a.gr r2))) ∧
      ((a.gr r2).getLsbD 0 = true → Completes (.balr k r1 r2) s (s.nullified k (s.fetched k 2) (.program 3 0))))

/-- R58, R59: loads of normal and uncached memory. -/
def Obligations.LoadsDeliverTheBytesRead : Prop :=
  (∀ (s v : State) (k : Fin 48) (r1 : BitVec 5) (f : AddrForm) (bytes : List Byte),
    let a := v.arch k
    let n := beNat bytes
    let len := f.length
    let signed (bits : Nat) : Word := if 2 ^ (bits - 1) ≤ n then BitVec.ofNat 64 (n + (2 ^ 64 - 2 ^ bits)) else BitVec.ofNat 64 n
    (LoadReads s k f 1 v bytes →
      Completes (.lb k r1 f) s (s.loaded v k len (a.setG r1 (signed 8))) ∧
      Completes (.lbu k r1 f) s (s.loaded v k len (a.setG r1 (BitVec.ofNat 64 n)))) ∧
    (LoadReads s k f 2 v bytes →
      Completes (.lh k r1 f) s (s.loaded v k len (a.setG r1 (signed 16))) ∧
      Completes (.lhu k r1 f) s (s.loaded v k len (a.setG r1 (BitVec.ofNat 64 n)))) ∧
    (LoadReads s k f 4 v bytes →
      Completes (.lw k r1 f) s (s.loaded v k len (a.setG r1 (signed 32))) ∧
      Completes (.lwu k r1 f) s (s.loaded v k len (a.setG r1 (BitVec.ofNat 64 n))) ∧
      (trapCause a (fromB32 n).2 = none →
        Completes (.lf32 k r1 f) s (s.loaded v k len ((a.setF r1 (fromB32 n).1).setFlags (fromB32 n).2)))) ∧
    (LoadReads s k f 8 v bytes →
      Completes (.ld k r1 f) s (s.loaded v k len (a.setG r1 (BitVec.ofNat 64 n))) ∧
      Completes (.lf k r1 f) s (s.loaded v k len (a.setF r1 (wordOf bytes 0)))) ∧
    (LoadReads s k f 16 v bytes → isEven r1 = true →
      Completes (.lq k r1 f) s (s.loaded v k len ((a.setG r1 (wordOf bytes 0)).setG (r1 + 1) (wordOf bytes 1))) ∧
      Completes (.lfq k r1 f) s (s.loaded v k len ((a.setF r1 (wordOf bytes 0)).setF (r1 + 1) (wordOf bytes 1)))) ∧
    (Ready s k len → ∀ ea, (s.found k len).address f = some ea → isEven r1 = false →
      Completes (.lq k r1 f) s (s.nullified k (s.fetched k len) (.program 3 0)) ∧
      Completes (.lfq k r1 f) s (s.nullified k (s.fetched k len) (.program 3 0)))) ∧
  ∀ (s : State) (k : Fin 48) (r1 : BitVec 5) (f : AddrForm),
    let delivers (c : Instr) (n : Nat) (put : Arch → List Byte → Arch) : Prop :=
      ∃ v bytes, LoadReads s k f n v bytes ∧ exec c s = .next (s.after fun _ => s.loaded v k f.length (put (v.arch k) bytes))
    let zeros (a : Arch) (l : List Byte) : Arch := a.setG r1 (BitVec.ofNat 64 (beNat l))
    let signs (bits : Nat) (a : Arch) (l : List Byte) : Arch :=
      a.setG r1 (BitVec.ofNat 64 (if 2 ^ (bits - 1) ≤ beNat l then beNat l + (2 ^ 64 - 2 ^ bits) else beNat l))
    (Readable s k f 1 → delivers (.lb k r1 f) 1 (signs 8) ∧ delivers (.lbu k r1 f) 1 zeros) ∧
    (Readable s k f 2 → delivers (.lh k r1 f) 2 (signs 16) ∧ delivers (.lhu k r1 f) 2 zeros) ∧
    (Readable s k f 4 → delivers (.lw k r1 f) 4 (signs 32) ∧ delivers (.lwu k r1 f) 4 zeros) ∧
    (Readable s k f 4 → (∀ v bytes, LoadReads s k f 4 v bytes → trapCause (v.arch k) (fromB32 (beNat bytes)).2 = none) →
      delivers (.lf32 k r1 f) 4 (fun a l => (a.setF r1 (fromB32 (beNat l)).1).setFlags (fromB32 (beNat l)).2)) ∧
    (Readable s k f 8 →
      delivers (.ld k r1 f) 8 zeros ∧ delivers (.lf k r1 f) 8 (fun a l => a.setF r1 (wordOf l 0))) ∧
    (Readable s k f 16 → isEven r1 = true →
      delivers (.lq k r1 f) 16 (fun a l => (a.setG r1 (wordOf l 0)).setG (r1 + 1) (wordOf l 1)) ∧
      delivers (.lfq k r1 f) 16 (fun a l => (a.setF r1 (wordOf l 0)).setF (r1 + 1) (wordOf l 1)))

/-- R58, R59, R126: stores of normal and uncached memory. -/
def Obligations.StoresAddTheirBytes : Prop :=
  ∀ (s u : State) (k : Fin 48) (r1 : BitVec 5) (f : AddrForm) (ps : List Piece),
    let a := u.arch k
    let len := f.length
    (StoreReaches s k f 1 u ps → Completes (.stb k r1 f) s (s.stored u k len ps a (beBytes 1 (a.gr r1).toNat))) ∧
    (StoreReaches s k f 2 u ps → Completes (.sth k r1 f) s (s.stored u k len ps a (beBytes 2 (a.gr r1).toNat))) ∧
    (StoreReaches s k f 4 u ps → Completes (.stw k r1 f) s (s.stored u k len ps a (beBytes 4 (a.gr r1).toNat))) ∧
    (StoreReaches s k f 8 u ps →
      Completes (.std k r1 f) s (s.stored u k len ps a (beBytes 8 (a.gr r1).toNat)) ∧
      Completes (.stf k r1 f) s (s.stored u k len ps a (wordBytes (a.fr r1)))) ∧
    (StoreReaches s k f 16 u ps → isEven r1 = true →
      Completes (.stq k r1 f) s (s.stored u k len ps a (wordBytes (a.gr r1) ++ wordBytes (a.gr (r1 + 1)))) ∧
      Completes (.stfq k r1 f) s (s.stored u k len ps a (wordBytes (a.fr r1) ++ wordBytes (a.fr (r1 + 1))))) ∧
    (StoreReaches s k f 4 u ps → (s.found k len).roundCode false ≤ 4 →
      let v := toB32 (RMode.ofCode ((s.found k len).roundCode false)) (a.fr r1)
      trapCause a v.2 = none →
      Completes (.stf32 k r1 f) s (s.stored u k len ps (a.setFlags v.2) (beBytes 4 v.1)))

/-- R101, R102, R106–R109: binary floating point. -/
def Obligations.BinaryFloatingInstructionsDeliver : Prop :=
  ∀ (s : State) (k : Fin 48) (r1 r2 r3 : BitVec 5), Ready s k 4 →
    let q := (s.fetched k 4).roundMode k false
    let a := q.1.arch k
    let m := q.2
    let x := b64 (a.fr r2)
    let y := b64 (a.fr r3)
    let ia := (s.found k 4).ia
    let fp (c : Instr) (r : Raised) (b : Arch) : Prop :=
      (trapCause a r = none → Completes c s ((q.1.setArch k (b.setFlags r)).completed k (ia + 4) false)) ∧
      (∀ cause, trapCause a r = some cause → Completes c s (s.nullified k q.1 (.program (8 + cause * 65536) 0)))
    let put (c : Instr) (v : FVal × Raised) : Prop := fp c v.2 ((a.setF r1 (w64 v.1)).setCc v.1.cc)
    put (.fadd k r1 r2 r3) (fAdd m x y) ∧ put (.fsub k r1 r2 r3) (fSub m x y) ∧ put (.fmul k r1 r2 r3) (fMul m x y) ∧
    put (.fdiv k r1 r2 r3) (fDiv m x y) ∧ put (.fma k r1 r2 r3) (fMa m x y (b64 (a.fr r1))) ∧
    (r3 = 0 → put (.fsqrt k r1 r2 r3) (fSqrt m x)) ∧ put (.frnd k r1 r2) (fRound m x) ∧
    put (.icvtf k r1 r2) (fOfInt m (a.gr r2)) ∧
    (r1 = 0 → fp (.fcmp k r1 r2 r3) (fpCompare 2 false x y).2 (a.setCc (fpCompare 2 false x y).1)) ∧
    (r1 = 0 → fp (.fcmps k r1 r2 r3) (fpCompare 2 true x y).2 (a.setCc (fpCompare 2 true x y).1)) ∧
    (let v := toInt64 2 m x
     fp (.fcvti k r1 r2) v.2 ((a.setG r1 v.1).setCc (if v.2 &&& raiseV = 0 then ccSign v.1.toInt else 3))) ∧
    (r3 ≠ 0 → Completes (.fsqrt k r1 r2 r3) s (s.nullified k (s.fetched k 4) (.program 3 0))) ∧
    (r1 ≠ 0 → Completes (.fcmp k r1 r2 r3) s (s.nullified k (s.fetched k 4) (.program 3 0))) ∧
    (r1 ≠ 0 → Completes (.fcmps k r1 r2 r3) s (s.nullified k (s.fetched k 4) (.program 3 0))) ∧
    (let b := s.found k 4
     Completes (.fneg k r1 r2) s (s.executed k 4 (b.setF r1 (b.fr r2 ^^^ 0x8000000000000000#64))) ∧
     Completes (.fabs k r1 r2) s (s.executed k 4 (b.setF r1 (b.fr r2 &&& 0x7FFFFFFFFFFFFFFF#64))) ∧
     Completes (.stfpc k r1) s (s.executed k 4 (b.setG r1 b.fpc)) ∧
     (fpcValid (b.gr r1) = true → Completes (.lfpc k r1) s (s.executed k 4 { b with fpc := b.gr r1 })) ∧
     (fpcValid (b.gr r1) = false → Completes (.lfpc k r1) s (s.nullified k (s.fetched k 4) (.program 3 0))))

/-- R103–R110: decimal floating point. -/
def Obligations.DecimalFloatingInstructionsDeliver : Prop :=
  ∀ (s : State) (k : Fin 48) (w : Bool) (r1 r2 r3 : BitVec 5), Ready s k 4 →
    let u := (s.fetched k 4).microcode k
    let q := u.roundMode k true
    let a := q.1.arch k
    let m := q.2
    let n := (dwidth w).format
    let x := a.fd w r2
    let y := a.fd w r3
    let ia := (s.found k 4).ia
    let fp (c : Instr) (r : Raised) (b : Arch) : Prop :=
      (u.holdsWork k = true → trapCause a r = none → Completes c s ((q.1.setArch k (b.setFlags r)).completed k (ia + 4) false)) ∧
      (∀ cause, u.holdsWork k = true → trapCause a r = some cause → Completes c s (s.nullified k q.1 (.program (8 + cause * 65536) 0))) ∧
      (u.holdsWork k = false → Completes c s u)
    let put (c : Instr) (v : FVal × Raised) : Prop := fp c v.2 ((a.setFd w r1 v.1).setCc v.1.cc)
    let spec (c : Instr) : Prop := Completes c s (s.nullified k (s.fetched k 4) (.program 3 0))
    let three := pairsOk w [r1, r2, r3]
    (three = true →
      put (.dadd k w r1 r2 r3) (dAdd n m x y) ∧ put (.dsub k w r1 r2 r3) (dSub n m x y) ∧
      put (.dmul k w r1 r2 r3) (dMul n m x y) ∧ put (.ddiv k w r1 r2 r3) (dDiv n m x y) ∧
      put (.dqua k w r1 r2 r3) (dQua n m x y)) ∧
    (three = false →
      spec (.dadd k w r1 r2 r3) ∧ spec (.dsub k w r1 r2 r3) ∧ spec (.dmul k w r1 r2 r3) ∧ spec (.ddiv k w r1 r2 r3) ∧
      spec (.dqua k w r1 r2 r3)) ∧
    (pairsOk w [r1, r2] = true → r3 = 0 → put (.dsqrt k w r1 r2 r3) (dSqrt n m x)) ∧
    (pairsOk w [r1, r2] = false ∨ r3 ≠ 0 → spec (.dsqrt k w r1 r2 r3)) ∧
    (pairsOk w [r1, r2] = true → put (.drnd k w r1 r2) (dRound n m x)) ∧
    (pairsOk w [r1, r2] = false → spec (.drnd k w r1 r2)) ∧
    (pairsOk w [r2, r3] = true → r1 = 0 →
      fp (.dcmp k w r1 r2 r3) (fpCompare 10 false x y).2 (a.setCc (fpCompare 10 false x y).1) ∧
      fp (.dcmps k w r1 r2 r3) (fpCompare 10 true x y).2 (a.setCc (fpCompare 10 true x y).1)) ∧
    (pairsOk w [r2, r3] = false ∨ r1 ≠ 0 → spec (.dcmp k w r1 r2 r3) ∧ spec (.dcmps k w r1 r2 r3)) ∧
    (pairsOk w [r2] = true →
      (let v := toInt64 10 m x
       fp (.dcvti k w r1 r2) v.2 ((a.setG r1 v.1).setCc (if v.2 &&& raiseV = 0 then ccSign v.1.toInt else 3)))) ∧
    (pairsOk w [r2] = false → spec (.dcvti k w r1 r2)) ∧
    (pairsOk w [r1] = true → put (.icvtd k w r1 r2) (dOfInt n m (a.gr r2))) ∧
    (pairsOk w [r1] = false → spec (.icvtd k w r1 r2))

/-- R52, R57, R68, R72, R77, R87, R88, R91, R124: system instructions. -/
def Obligations.SystemInstructionsHaveTheirEffects : Prop :=
  ∀ (s : State) (k : Fin 48) (r1 r2 : BitVec 5) (code : BitVec 10) (bytes : BitVec 48),
    (Ready s k 4 →
      let a := s.found k 4
      let w := s.fetched k 4
      let ia := a.ia
      let spec := s.nullified k w (.program 3 0)
      let held := w.barsEnd k
      let early := w.stage1 k
      Completes (.barl k 0 0 0) s (s.stepped k 4) ∧
      (held.holdsWork k = true →
        Completes (.rdtb k r1 0 0) s
          ((held.setArch k ((held.arch k).setG r1 (BitVec.ofNat 64 held.timeBase))).completed k (ia + 4) false) ∧
        Completes (.isync k 0 0 0) s (held.completed k (ia + 4) true)) ∧
      (held.holdsWork k = false → Completes (.rdtb k r1 0 0) s held ∧ Completes (.isync k 0 0 0) s held) ∧
      (early.holdsWork k = true →
        Completes (.bars k 0 0 0) s ((early.setCore k { early.core k with bars := true }).completed k (ia + 4) false)) ∧
      ((early.settleAll k).holdsWork k = true → Completes (.barf k 0 0 0) s ((early.settleAll k).completed k (ia + 4) false)) ∧
      ((early.settleAll k).holdsWork k = false → Completes (.barf k 0 0 0) s (early.settleAll k)) ∧
      (a.problem = false →
        (swValid (a.gr r1) = true → Completes (.lsw k r1 0 0) s (s.executed k 4 { a with sw := a.gr r1 } true)) ∧
        (swValid (a.gr r1) = false → Completes (.lsw k r1 0 0) s spec) ∧
        (∀ b, a.returned = some b → Completes (.rfi k 0 0 0) s ((w.setArch k b).completed k b.ia true)) ∧
        (a.returned = none → Completes (.rfi k 0 0 0) s spec) ∧
        (crNamed r2.toNat = true → Completes (.stctl k r1 r2 0) s (s.executed k 4 (a.setG r1 (w.readC k r2.toNat)))) ∧
        (crNamed r2.toNat = false → Completes (.stctl k r1 r2 0) s spec) ∧
        (let n := r1.toNat
         let v := a.gr r2
         (crNamed n = false ∨ v &&& crMustZero n ≠ 0 → Completes (.lctl k r1 r2 0) s spec) ∧
         (crNamed n = true → v &&& crMustZero n = 0 → n ≠ 16 →
           Completes (.lctl k r1 r2 0) s (s.executed k 4 (a.writeC n v) true)) ∧
         (∀ u, PerformsFrom w u k → n = 16 → crNamed n = true → v &&& crMustZero n = 0 →
           let u' := u.setArch k ((u.arch k).writeC 16 v)
           let due := { u'.core k with ckpt := { (u'.core k).ckpt with deadlineMatch := u'.deadlineDue k } }
           Completes (.lctl k r1 r2 0) s (u.performed (u'.setCore k due) k 4))) ∧
        (∀ u, PerformsFrom w u k → (a.gr r1).field 62 63 ≠ 3 →
          Completes (.ptlb k r1 r2 0) s
            (u.performed (u.purge (purges ((a.gr r1).field 62 63) ((a.gr r1).field 48 59) (u.seamOf k) (a.gr r2))) k 4)) ∧
        ((a.gr r1).field 62 63 = 3 → Completes (.ptlb k r1 r2 0) s spec))) ∧
    (Ready s k 2 →
      let w := s.fetched k 2
      let ia := (s.found k 2).ia
      Completes (.svc k code) s ((w.completed k (ia + 2) true).enterSync k 3 code.toNat none (ia + 2))) ∧
    (let len := lengthOf (Fetched.first bytes)
     Ready s k len → ezxisAt k bytes = none → Completes (.operationException k bytes) s (s.nullified k (s.fetched k len) (.program 1 0))) ∧
    (s.hasPower → (ezxisAt k bytes).isSome = true → Completes (.operationException k bytes) s s)

/-- R53, R57, R154: privileged instructions in problem state; fields that the tables mark 0. -/
def Obligations.PrivilegeAndZeroFieldsAreChecked : Prop :=
  (∀ (s : State) (k : Fin 48) (r1 r2 r3 : BitVec 5) (stop : Option Nat), Ready s k 4 → (s.found k 4).problem = true →
    ∀ c ∈ [Instr.lsw k r1 r2 r3, .rfi k r1 r2 r3, .lctl k r1 r2 r3, .stctl k r1 r2 r3, .ptlb k r1 r2 r3, .issue k r1 r2 r3,
        .test k r1 r2 r3, .halt k r1 r2 r3, .clna k r1 r2 r3, .inva k r1 r2 r3, .clia k r1 r2 r3, .clnr k r1 r2 r3 stop,
        .invr k r1 r2 r3 stop, .clir k r1 r2 r3 stop, .clns k r1 r2 r3, .invs k r1 r2 r3, .clis k r1 r2 r3],
      Completes c s (s.nullified k (s.fetched k 4) (.program 2 0))) ∧
  (∀ (s : State) (k : Fin 48) (r1 r2 r3 : BitVec 5), Ready s k 4 →
    let spec (c : Instr) : Prop := Completes c s (s.nullified k (s.fetched k 4) (.program 3 0))
    let super := (s.found k 4).problem = false
    (r3 ≠ 0 → spec (.enqw k r1 r2 r3) ∧ spec (.wait k r1 r2 r3)) ∧
    (r2 ≠ 0 ∨ r3 ≠ 0 → spec (.rdtb k r1 r2 r3)) ∧
    (r1 ≠ 0 ∨ r2 ≠ 0 ∨ r3 ≠ 0 → spec (.barl k r1 r2 r3) ∧ spec (.bars k r1 r2 r3) ∧ spec (.barf k r1 r2 r3) ∧
      spec (.isync k r1 r2 r3) ∧ spec (.yield k r1 r2 r3)) ∧
    (super → r3 ≠ 0 → spec (.stctl k r1 r2 r3) ∧ spec (.lctl k r1 r2 r3) ∧ spec (.ptlb k r1 r2 r3) ∧
      spec (.issue k r1 r2 r3) ∧ spec (.test k r1 r2 r3)) ∧
    (super → r2 ≠ 0 ∨ r3 ≠ 0 → spec (.lsw k r1 r2 r3) ∧ spec (.halt k r1 r2 r3)) ∧
    (super → r1 ≠ 0 ∨ r2 ≠ 0 ∨ r3 ≠ 0 → spec (.rfi k r1 r2 r3)) ∧
    (super → r1 ≠ 0 ∨ r3 ≠ 0 → spec (.clna k r1 r2 r3) ∧ spec (.inva k r1 r2 r3) ∧ spec (.clia k r1 r2 r3) ∧
      ((s.fetched k 4).seamOf k = 0 → spec (.clns k r1 r2 r3) ∧ spec (.invs k r1 r2 r3) ∧ spec (.clis k r1 r2 r3))))

/-- R81–R86: I/O and work-unit instructions. -/
def Obligations.IoAndWorkUnitInstructionsArePerformed : Prop :=
  ∀ (s : State) (k : Fin 48) (r1 r2 : BitVec 5), Ready s k 4 →
    let w := s.fetched k 4
    let a := s.found k 4
    let sch := (a.gr r1).field 46 63
    let cc (v : State) (n : Nat) : State := v.setArch k ((v.arch k).setCc n)
    (∀ w' r u, a.problem = false → (a.gr r1).field 0 45 = 0 → (a.gr r2).toNat % 16 = 0 →
      w.reach k (a.gr r2) .load = (w', .ok r) → PerformsFrom (w'.markReached k r .load) u k →
      let num := ((u.core k).wu).getD 0
      let hint := u.hintFor num (u.schDie (u.seamOf k) sch)
      let q := u.issue (u.seamOf k) sch r.abs hint
      let v := if q.2 = 0 then q.1.traceHint num sch hint else q.1
      Completes (.issue k r1 r2 0) s (u.performed ((cc v q.2).response k [BitVec.ofNat 64 q.2]) k 4)) ∧
    (∀ u, PerformsFrom w u k → a.problem = false → (a.gr r1).field 0 45 = 0 →
      let q := u.testSch (u.seamOf k) sch
      let h := u.haltSch (u.seamOf k) sch
      (q.2.1 = 0 → Completes (.test k r1 r2 0) s
        (u.performed ((q.1.setArch k (((q.1.arch k).setCc 0).setG r2 q.2.2)).response k [0, q.2.2]) k 4)) ∧
      (q.2.1 ≠ 0 → Completes (.test k r1 r2 0) s
        (u.performed ((cc q.1 q.2.1).response k [BitVec.ofNat 64 q.2.1]) k 4)) ∧
      Completes (.halt k r1 0 0) s (u.performed ((cc h.1 h.2).response k [BitVec.ofNat 64 h.2]) k 4)) ∧
    (∀ w' r phys u, (a.gr r1).toNat % 256 = 0 → (a.gr r2).field 0 60 = 0 → w.reach k (a.gr r1) .load = (w', .ok r) →
      r.place = .memory phys .normal → w'.operates uForeman = true → PerformsFrom (w'.markReached k r .load) u k →
      let q := u.enqw k (u.seamOf k) r.abs ((a.gr r2).field 61 63)
      Completes (.enqw k r1 r2 0) s (u.performed ((cc q.1 q.2).response k [BitVec.ofNat 64 q.2]) k 4)) ∧
    (∀ u num, w.operates uForeman = true → (w.microcode k).settleAll k = u → (u.core k).wu = some num →
      let v := u.traceWork 0x02 num k (beBytes 8 (u.work num).desc)
      let r := (((v.setArch k ((u.arch k).setCc 0)).completed k ((u.arch k).ia + 4) true).retireGroup k).saveOff k num
      let t := r.1.losses r.2.2
      Completes (.yield k 0 0 0) s ((if r.2.1 then (t.enqueue num false).fmnEvent (.yield k) else t).coreFreed k)) ∧
    (∀ u num, (let kind := (a.gr r1).field 0 7; kind = 1 ∨ kind = 2 ∨ kind = 3) → w.pendingFor k = none →
      w.operates uForeman = true → (w.microcode k).settleAll k = u → (u.core k).wu = some num →
      let v := u.traceWork 0x03 num k (beBytes 8 (u.work num).desc ++ wordBytes (a.gr r1) ++ wordBytes (a.gr r2))
      let q := v.waitTest (v.seamOf k) ((a.gr r1).field 0 7) sch (a.gr r2)
      (∀ n, q.2 = some n → Completes (.wait k r1 r2 0) s
        ((((cc q.1 n).response k [BitVec.ofNat 64 n]).completed k ((q.1.arch k).ia + 4) true).onceEnd k)) ∧
      (q.2 = none → Completes (.wait k r1 r2 0) s (q.1.suspend k num ((a.gr r1).field 0 7) sch (a.gr r2))))

/-- R122, R123, R182: CSWP, SWP and LADD. -/
def Obligations.AtomicsActOnceAndReturnTheOldValue : Prop :=
  ∀ (s : State) (k : Fin 48) (w : Bool) (r1 r2 r3 : BitVec 5), Ready s k 4 →
    let a := s.found k 4
    let ea := a.gr r2
    let size := widthOf w / 8
    let spec (c : Instr) : Prop := Completes c s (s.nullified k (s.fetched k 4) (.program 3 0))
    (ea.toNat % size ≠ 0 → spec (.cswp k w r1 r2 r3) ∧ spec (.swp k w r1 r2 r3) ∧ spec (.ladd k w r1 r2 r3)) ∧
    (∀ u r, ea.toNat % size = 0 → (s.fetched k 4).reach k ea .store = (u, .ok r) → r.place.isDevice = true →
      ∀ c ∈ [Instr.cswp k w r1 r2 r3, .swp k w r1 r2 r3, .ladd k w r1 r2 r3],
        Completes c s (s.nullified k u (.program 3 0))) ∧
    (∀ u r phys mt v, ea.toNat % size = 0 → (s.fetched k 4).reach k ea .store = (u, .ok r) → r.place = .memory phys mt →
      mt ≠ .device → PerformsFrom (u.markReached k r .store) v k →
      let b := v.arch k
      let req (op : AtomicOp) : AtomicReq := { op := op, off := phys % 128, size := size, cmp := b.gr r1, val := b.gr r3 }
      let acts (op : AtomicOp) : AtomicEnd :=
        if mt = .uncached then v.atomicUncached (v.seamOf k) (phys / 128) (req op) ea
        else v.atomicCached k (phys / 128) (v.seamOf k) (req op) ea
      let done (t : State) (old : Nat) (c : Arch) : State :=
        v.performed ((t.setArch k c).response k [resultOf w (Int.ofNat old)]) k 4
      let got (old : Nat) : Arch := b.setG r1 (resultOf w (Int.ofNat old))
      (∀ t old, acts .cswp = (t, .ok old) →
        Completes (.cswp k w r1 r2 r3) s (done t old ((got old).setCc (if old = srcU w (b.gr r1) then 0 else 1)))) ∧
      (∀ t old, acts .swp = (t, .ok old) → Completes (.swp k w r1 r2 r3) s (done t old (got old))) ∧
      (∀ t old, acts .ladd = (t, .ok old) →
        Completes (.ladd k w r1 r2 r3) s
          (done t old ((got old).setCc (ccArith w (srcS w (BitVec.ofNat 64 old) + srcS w (b.gr r3)))))))

/-- R122: what an atomic leaves in its line. -/
def Obligations.AtomicLeavesItsValueInTheLine : Prop :=
  ∀ (d : LineData) (r : AtomicReq), (r.size = 4 ∨ r.size = 8) → r.off % r.size = 0 → r.off + r.size ≤ 128 →
    let old := d.value r.off r.size
    let m := 2 ^ (8 * r.size)
    let new := (r.perform d).value r.off r.size
    (r.op = .swp → new = r.val.toNat % m) ∧
    (r.op = .ladd → new = (old + r.val.toNat) % m) ∧
    (r.op = .cswp → old = r.cmp.toNat % m → new = r.val.toNat % m) ∧
    (r.op = .cswp → old ≠ r.cmp.toNat % m → new = old) ∧
    (∀ i, i < 128 → i < r.off ∨ r.off + r.size ≤ i → lineByte (r.perform d).data i = lineByte d.data i)

/-- R154–R157, R160: cache maintenance instructions. -/
def Obligations.MaintenanceInstructionsAct : Prop :=
  ∀ (s : State) (k : Fin 48) (r1 r2 r3 : BitVec 5), Ready s k 4 → (s.found k 4).problem = false →
    let w := s.fetched k 4
    let a := s.found k 4
    let settled (x u : State) : Prop := x.settleEarlier k = u ∧ u.holdsWork k = true
    let rows : List (MaintOp × Instr × Instr × Instr) :=
      [(.clean, .clna k 0 r2 0, .clnr k r1 r2 r3 none, .clns k 0 r2 0), (.inval, .inva k 0 r2 0, .invr k r1 r2 r3 none, .invs k 0 r2 0),
       (.cleanInval, .clia k 0 r2 0, .clir k r1 r2 r3 none, .clis k 0 r2 0)]
    ∀ op address range way, (op, address, range, way) ∈ rows →
      (∀ x r u, w.reach k (a.gr r2) op.acc = (x, .ok r) → settled x u →
        (∀ t, r.place = .device t → Completes address s (u.performed u k 4)) ∧
        (∀ phys mt, r.place = .memory phys mt → u.ownerAllows (u.seamOf k) (phys / 128) = true → (u.awaitLine (phys / 128)).quiet (phys / 128) = true →
          Completes address s (u.performed (u.maintain (phys / 128) op false).1 k 4))) ∧
      (∀ u v q, (a.gr r1).field 0 60 = 0 → settled w u →
        State.maintRun k op (!(a.gr r1).bit 63) (((u.arch k).gr r3).toNat / 128 + 2) u
          { addr := (u.arch k).gr r2, left := ((u.arch k).gr r3).toNat, page := false, locked := false } = (v, .ok q) →
        q.left = 0 →
        let g := a.gr r1 ||| (if q.page then 4 else 0) ||| (if q.locked then 2 else 0)
        let cc := (if g.bit 62 then 1 else 0) + (if g.bit 61 then 2 else 0)
        let b := (((v.arch k).setG r1 g).setG r3 0).setCc cc
        Completes range s (u.performed ((v.setArch k b).response k [g, BitVec.ofNat 64 cc]) k 4)) ∧
      (w.seamOf k ≠ 0 → Completes way s (s.nullified k w (.program 2 0))) ∧
      (w.seamOf k = 0 → setWayOf k (a.gr r2) = none → Completes way s (s.nullified k w (.program 3 0))) ∧
      (∀ u c set n, w.seamOf k = 0 → setWayOf k (a.gr r2) = some (c, set, n) → settled w u →
        ((u.way c set n).st = .i → Completes way s (u.performed u k 4)) ∧
        (let v := u.awaitLine (u.way c set n).line
         (u.way c set n).st ≠ .i →
          ((v.way c set n).st = .i → Completes way s (u.performed v k 4)) ∧
          ((v.way c set n).st ≠ .i → v.quiet (v.way c set n).line = true →
            Completes way s (u.performed (v.maintWay k c (v.way c set n) op) k 4))))

/-- R351, R352, R354: the computing instructions of the haulers. -/
def Obligations.HaulerComputingInstructionsWriteTheirResults : Prop :=
  ∀ (s : State) (h : Fin 64) (cond : Option (Fin 14)) (rd rs : Fin 16) (wide : Bool) (imm : Half) (imm8 : Byte),
    HaulerReady s h.val cond .plain →
    let x := s.hauler h.val
    let a := x.reg rd.val
    let b := x.reg rs.val
    let f := x.flags
    let lenR := 2 + xpfx (decide (8 ≤ rd.val) || decide (8 ≤ rs.val))
    let lenI := (if wide then 4 else 3) + xpfx (decide (8 ≤ rd.val) || wide)
    let lenS := 3 + xpfx (decide (8 ≤ rd.val))
    let done (len : Nat) (ws : List Late) : State := (s.cycled h.val).hdone h.val cond len ws
    let put (v : Half) (g : HFlags) : List Late := [lateReg rd.val v 1, lateSpec 0x10 g.word 1]
    let set (v : Half) (g : HFlags) : List Late := put v { n := v.getLsbD 15, z := v == 0, c := g.c, v := g.v }
    let logic (v : Half) : List Late := set v { f with v := false }
    let sx := extended wide true imm
    let zx := extended wide false imm
    Completes (.mov h cond rd rs) s (done lenR [lateReg rd.val b 1]) ∧
    Completes (.grecelAdd h cond rd rs) s (done lenR (put (a + b) (hadd a b false).2)) ∧
    Completes (.adc h cond rd rs) s (done lenR (put (hadd a b f.c).1 (hadd a b f.c).2)) ∧
    Completes (.grecelSub h cond rd rs) s (done lenR (put (a - b) (hsub a b true).2)) ∧
    Completes (.sbc h cond rd rs) s (done lenR (put (hsub a b f.c).1 (hsub a b f.c).2)) ∧
    Completes (.grecelAnd h cond rd rs) s (done lenR (logic (a &&& b))) ∧
    Completes (.grecelOr h cond rd rs) s (done lenR (logic (a ||| b))) ∧
    Completes (.grecelXor h cond rd rs) s (done lenR (logic (a ^^^ b))) ∧
    Completes (.grecelCmp h cond rd rs) s (done lenR [lateSpec 0x10 (hsub a b true).2.word 1]) ∧
    Completes (.tst h cond rd rs) s (done lenR ((logic (a &&& b)).drop 1)) ∧
    Completes (.oca h cond rd rs) s
      (done lenR (set (BitVec.ofNat 16 ((a.toNat + b.toNat) % 65536 + (a.toNat + b.toNat) / 65536)) f)) ∧
    (let n := hfield b 11 15
     Completes (.shl h cond rd rs) s (done lenR (put (hshift 0 a n f).1 (hshift 0 a n f).2)) ∧
     Completes (.shr h cond rd rs) s (done lenR (put (hshift 1 a n f).1 (hshift 1 a n f).2)) ∧
     Completes (.sar h cond rd rs) s (done lenR (put (hshift 2 a n f).1 (hshift 2 a n f).2)) ∧
     Completes (.rol h cond rd rs) s (done lenR (set (a.rotateLeft (n % 16)) f))) ∧
    Completes (.grecelMul h cond rd rs) s (done lenR [lateReg rd.val (a * b) 2]) ∧
    Completes (.grecelMulh h cond rd rs) s (done lenR [lateReg rd.val (BitVec.ofNat 16 (a.toNat * b.toNat / 65536)) 2]) ∧
    Completes (.movi h cond rd wide imm) s (done lenI [lateReg rd.val sx 1]) ∧
    Completes (.grecelAddi h cond rd wide imm) s (done lenI (put (a + sx) (hadd a sx false).2)) ∧
    Completes (.subi h cond rd wide imm) s (done lenI (put (a - sx) (hsub a sx true).2)) ∧
    Completes (.grecelAndi h cond rd wide imm) s (done lenI (logic (a &&& zx))) ∧
    Completes (.grecelOri h cond rd wide imm) s (done lenI (logic (a ||| zx))) ∧
    Completes (.grecelXori h cond rd wide imm) s (done lenI (logic (a ^^^ zx))) ∧
    Completes (.grecelCmpi h cond rd wide imm) s (done lenI [lateSpec 0x10 (hsub a sx true).2.word 1]) ∧
    Completes (.tsti h cond rd wide imm) s (done lenI ((logic (a &&& zx)).drop 1)) ∧
    (let n := imm8.toNat % 32
     Completes (.shli h cond rd imm8) s (done lenS (put (hshift 0 a n f).1 (hshift 0 a n f).2)) ∧
     Completes (.shri h cond rd imm8) s (done lenS (put (hshift 1 a n f).1 (hshift 1 a n f).2)) ∧
     Completes (.sari h cond rd imm8) s (done lenS (put (hshift 2 a n f).1 (hshift 2 a n f).2)) ∧
     Completes (.roli h cond rd imm8) s (done lenS (set (a.rotateLeft (n % 16)) f)))

/-- R351, R352, R366, R368: pit and port instructions of the haulers. -/
def Obligations.HaulerMemoryAndPortInstructionsAct : Prop :=
  ∀ (s : State) (h : Fin 64) (cond : Option (Fin 14)) (rd rs : Fin 16) (mode : Fin 3) (wide : Bool) (imm : Half),
    HaulerReady s h.val cond .plain →
    let w := s.cycled h.val
    let x := s.hauler h.val
    let a := x.reg rs.val + extended wide true imm
    let lenM := (if wide then 4 else 3) + xpfx (wide || decide (8 ≤ rd.val) || decide (8 ≤ rs.val))
    let lenA := 4 + xpfx (decide (8 ≤ rd.val))
    let lenR := 2 + xpfx (decide (8 ≤ rd.val) || decide (8 ≤ rs.val))
    let upd : List Late := if mode = 0 then [] else [lateReg rs.val (if mode = 1 then x.reg rs.val + 1 else x.reg rs.val - 1) 1]
    (s.pitIsBad h.val a.toNat = false →
      Completes (.grecelLd h cond rd rs mode wide imm) s (w.hdone h.val cond lenM (upd ++ [lateReg rd.val (s.pitWord h.val a.toNat) 2]))) ∧
    (s.pitIsBad h.val a.toNat = true → Completes (.grecelLd h cond rd rs mode wide imm) s
      ((w.pitError h.val a.toNat).trapHauler h.val 6 (withCond cond lenM))) ∧
    Completes (.st h cond rd rs mode wide imm) s ((w.setPit h.val a.toNat (x.reg rd.val)).hdone h.val cond lenM upd) ∧
    (s.pitIsBad h.val imm.toNat = false →
      Completes (.lda h cond rd imm) s (w.hdone h.val cond lenA [lateReg rd.val (s.pitWord h.val imm.toNat) 2])) ∧
    (s.pitIsBad h.val imm.toNat = true → Completes (.lda h cond rd imm) s
      ((w.pitError h.val imm.toNat).trapHauler h.val 6 (withCond cond lenA))) ∧
    Completes (.sta h cond rd imm) s ((w.setPit h.val imm.toNat (x.reg rd.val)).hdone h.val cond lenA []) ∧
    (let port (c : Instr) (n len : Nat) : Prop :=
       let p := w.portRead h.val n
       (∀ v, p.2 = some v → Completes c s (p.1.hdone h.val cond len [lateReg rd.val v 2])) ∧
       (p.2 = none → Completes c s (w.trapHauler h.val 4 (withCond cond len)))
     port (.portIn h cond rd imm) imm.toNat lenA ∧ port (.inr h cond rd rs) (x.reg rs.val).toNat lenR) ∧
    (let port (c : Instr) (n len : Nat) : Prop :=
       let p := w.portWrite h.val n (x.reg rd.val)
       (p.2 = true → Completes c s (p.1.hdone h.val cond len [])) ∧
       (p.2 = false → Completes c s (w.trapHauler h.val 4 (withCond cond len)))
     port (.portOut h cond rd imm) imm.toNat lenA ∧ port (.outr h cond rd rs) (x.reg rs.val).toNat lenR)

/-- R347, R352, R358, R360, R364: control instructions of the haulers. -/
def Obligations.HaulerControlInstructionsAct : Prop :=
  ∀ (s : State) (h : Fin 64) (cond : Option (Fin 14)) (rd rs : Fin 16) (target count : Half) (n : Byte) (level : Fin 4),
    let w := s.cycled h.val
    let x := s.hauler h.val
    let lenS := 3 + xpfx (decide (8 ≤ rd.val))
    (HaulerReady s h.val cond .branch →
      let slot := x.pc.toNat + withCond cond 3
      Completes (.jmp h cond target) s (w.hjumped h.val cond 3 target []) ∧
      Completes (.call h cond target) s
        (w.hjumped h.val cond 3 target [lateReg 15 (BitVec.ofNat 16 (slot + s.lengthAt h.val slot)) 1]) ∧
      Completes (.jr h cond rs) s (w.hjumped h.val cond (2 + xpfx (decide (8 ≤ rs.val))) (x.reg rs.val) []) ∧
      Completes (.ret h cond) s (w.hjumped h.val cond 1 (x.reg 15) [])) ∧
    (HaulerReady s h.val cond .plain →
      let idle := x.evtDma &&& x.maskDma = 0 ∧ x.evtMisc &&& x.maskMisc = 0
      Completes (.grecelNop h cond) s (w.hdone h.val cond 1 []) ∧
      Completes (.grecelHalt h cond) s ((w.bound h.val (withCond cond 1) .plain none []).haltHauler h.val) ∧
      (idle → let u := w.bound h.val (withCond cond 1) .plain none []
        Completes (.wfe h cond) s (u.setHauler h.val { u.hauler h.val with mode := .wfe })) ∧
      (¬idle → Completes (.wfe h cond) s (w.hdone h.val cond 1 [])) ∧
      (let y := (x.setSpec 0x10 (mtsValue 0x10 (x.spec 0x15))).setSpec 0x14 (x.spec 0x14 &&& ~~~(hbit 0))
       let q := y.loopBack (x.spec 0x11)
       Completes (.rtt h cond) s (((w.setHauler h.val { q.1.boundary [] with
         pc := q.2.getD (x.spec 0x12), delay := none, lsetLeft := x.lsetLeft - 1, mode := .running }).count (uHauler h.val)
           Reg.HLR_CYCLES.CYCLES).haltAsked h.val)) ∧
      (∀ d, mtsDistance n.toNat = some d →
        Completes (.mts h cond rd n) s (w.hdone h.val cond lenS [lateSpec n.toNat (mtsValue n.toNat (x.reg rd.val)) d])) ∧
      (mtsDistance n.toNat = none → Completes (.mts h cond rd n) s (w.trapHauler h.val 5 (withCond cond lenS))) ∧
      (∀ v, w.specRead h.val n.toNat = some v → Completes (.mfs h cond rd n) s (w.hdone h.val cond lenS [lateReg rd.val v 1])) ∧
      (w.specRead h.val n.toNat = none → Completes (.mfs h cond rd n) s (w.trapHauler h.val 5 (withCond cond lenS)))) ∧
    (HaulerReady s h.val none .lset →
      let first := x.pc.toNat + 6
      let second := first + s.lengthAt h.val first
      Completes (.lset h level target count) s ((w.bound h.val 6 .lset none
        [lateSpec level.val (BitVec.ofNat 16 (second + s.lengthAt h.val second)) 1, lateSpec (4 + level.val) target 3,
         lateSpec (8 + level.val) count 3]).haltAsked h.val)) ∧
    (s.hasPower → x.mode = .wfe → x.evtDma &&& x.maskDma ≠ 0 ∨ x.evtMisc &&& x.maskMisc ≠ 0 →
      Completes (.wfeResume h) s ((s.setHauler h.val { x with mode := x.runMode }).haltAsked h.val)) ∧
    (s.hasPower → s.haulerRuns h.val = true → grecelAt (s.grecelBytes h.val) = none →
      Completes (.reservedEncoding h) s (w.trapHauler h.val 1 1)) ∧
    (s.hasPower → (grecelAt (s.grecelBytes h.val)).isSome = true → Completes (.reservedEncoding h) s s) ∧
    (s.hasPower → s.haulerRuns h.val = true → x.delay.isSome = true →
      Completes (.jmp h cond target) s (w.trapHauler h.val 2 (withCond cond 3)) ∧
      Completes (.ret h cond) s (w.trapHauler h.val 2 (withCond cond 1)))

/-- R353: conditions. -/
def Obligations.ConditionedOutInstructionsOnlyPass : Prop :=
  (∀ f : HFlags,
    (List.range 14).map (condHolds f) =
      [f.z, !f.z, f.c, !f.c, f.n, !f.n, f.v, !f.v, f.c && !f.z, !f.c || f.z, f.n == f.v, f.n != f.v, !f.z && f.n == f.v,
       f.z || f.n != f.v]) ∧
  ∀ (s : State) (h : Fin 64) (c : Fin 14) (rd rs : Fin 16) (imm : Half) (n : Byte) (mode : Fin 3),
    s.hasPower → s.haulerRuns h.val = true → condHolds (s.hauler h.val).flags c.val = false →
    let w := s.cycled h.val
    let x := s.hauler h.val
    let passed (len : Nat) : State := w.hdone h.val (some c) len []
    (x.ruleBroken .plain = none →
      Completes (.grecelAdd h (some c) rd rs) s (passed (2 + xpfx (decide (8 ≤ rd.val) || decide (8 ≤ rs.val)))) ∧
      Completes (.st h (some c) rd rs mode false imm) s (passed (3 + xpfx (decide (8 ≤ rd.val) || decide (8 ≤ rs.val)))) ∧
      Completes (.portOut h (some c) rd imm) s (passed (4 + xpfx (decide (8 ≤ rd.val)))) ∧
      Completes (.mts h (some c) rd n) s (passed (3 + xpfx (decide (8 ≤ rd.val)))) ∧
      Completes (.grecelNop h (some c)) s (passed 1) ∧ Completes (.wfe h (some c)) s (passed 1)) ∧
    (x.ruleBroken .branch = none →
      Completes (.jmp h (some c) imm) s ((w.bound h.val 4 .branch none []).haltAsked h.val))

/-- R355–R357: when results are seen. -/
def Obligations.HaulerResultsLandAtTheirDistance : Prop :=
  ∀ (x : Hauler) (r q : Nat) (v u : Half), r < 16 → q < 16 → x.late = [] →
    let one := x.boundary [lateReg r v 1]
    let two := x.boundary [lateReg r v 2]
    let three := x.boundary [lateSpec (8 + q % 4) v 3]
    (one.reg r = v ∧ one.late = [] ∧ (q ≠ r → one.reg q = x.reg q) ∧ one.sp = x.sp) ∧
    (two.h = x.h ∧ two.sp = x.sp ∧ (two.boundary []).reg r = v ∧ (two.boundary []).late = []) ∧
    ((two.boundary [lateReg q u 1]).reg r = v ∧ (q ≠ r → (two.boundary [lateReg q u 1]).reg q = u)) ∧
    ((two.boundary [lateReg r u 2]).reg r = v ∧ ((two.boundary [lateReg r u 2]).boundary []).reg r = u) ∧
    (three.sp = x.sp ∧ (three.boundary []).sp = x.sp ∧ ((three.boundary []).boundary []).spec (8 + q % 4) = v)

/-- R362, R363, R365: trap entry of a hauler. -/
def Obligations.HaulerTrapEntrySavesAndEnters : Prop :=
  ∀ (s : State) (h : Fin 64) (g cause len : Nat), cause < 256 →
    let x := s.hauler h.val
    let t := s.trapHauler h.val cause len
    let y := t.hauler h.val
    (x.trapped = false →
      y.pc = 0xFF00 ∧ y.spec 0x11 = x.pc ∧ y.spec 0x13 = BitVec.ofNat 16 cause ∧ y.spec 0x15 = x.landAll.spec 0x10 ∧
      y.trapped = true ∧ y.mode = .trapped ∧ y.late = [] ∧ y.delay = none ∧ y.h = x.landAll.h ∧
      (x.delay = none → cause ≠ 1 → y.spec 0x12 = x.pc + BitVec.ofNat 16 len) ∧
      (x.delay = none → cause = 1 → y.spec 0x12 = x.pc + 1) ∧
      (∀ d, x.delay = some (some d) → y.spec 0x12 = d) ∧
      (g ≠ h.val → t.hauler g = s.hauler g) ∧ t.pit = s.pit ∧ t.mem = s.mem) ∧
    (x.trapped = true → t = s.faultHauler h.val Reg.HLR_FAULT.DOUBLE_TRAP)

/-- R367, R368, R373, R379, R391: commands and events of one hauler. -/
def Obligations.HaulerCommandsAct : Prop :=
  ∀ (s : State) (sender : Sender) (h : Fin 64), s.hasPower →
    let u := uHauler h.val
    let x := s.hauler h.val
    (∀ run autorun : Bool, Admits s sender u 0x080 →
      let t := (s.wr u Reg.HLR_CTL.RUN run.toNat).wrl u Reg.HLR_CTL.AUTORUN autorun.toNat
      (t.flag u Reg.HLR_CTL.RUN = true → (t.hauler h.val).mode = .halted →
        Completes (.run sender h run autorun) s (t.setHauler h.val { t.hauler h.val with mode := (t.hauler h.val).runMode })) ∧
      (t.flag u Reg.HLR_CTL.RUN = true → (t.hauler h.val).mode ≠ .halted → Completes (.run sender h run autorun) s t) ∧
      (t.flag u Reg.HLR_CTL.RUN = false → (t.hauler h.val).mode = .wfe →
        Completes (.run sender h run autorun) s (t.haltHauler h.val)) ∧
      (t.flag u Reg.HLR_CTL.RUN = false → (t.hauler h.val).mode ≠ .wfe →
        Completes (.run sender h run autorun) s (t.haltAsked h.val))) ∧
    (∀ v : Half, Admits s sender u 0x100 →
      let w := s.rd u Reg.PIT_SEL.ADDR
      (s.haulerIdle h.val = true →
        Completes (.pitData sender h v) s { s.setPit h.val w v with pitBad := s.pitBad.put false (pitKey h.val w) false }) ∧
      (s.haulerIdle h.val = false → Completes (.pitData sender h v) s (s.pageError sender u 0x100))) ∧
    (∀ v : Word, Admits s sender u 0x108 →
      let t := s.writeFields u 0x108 v
      Completes (.hlrMboxTo sender h v) s
        (t.setHauler h.val { t.hauler h.val with evtMisc := (t.hauler h.val).evtMisc ||| hbit 4 })) ∧
    (x.mode = .clearing →
      let left (m : HState) : State := s.setHauler h.val { x with mode := m, after := .halted }
      (x.after = .faulted → Completes (.pitClearDone h) s (left .faulted)) ∧
      (x.after ≠ .faulted → s.flag u Reg.HLR_CTL.RUN = true → Completes (.pitClearDone h) s (left x.runMode)) ∧
      (x.after ≠ .faulted → s.flag u Reg.HLR_CTL.RUN = false → Completes (.pitClearDone h) s (left .halted))) ∧
    (∀ (result : Fin 3) (data : Word), hfield x.obctl 1 1 = 1 →
      let ctl : Half := (x.obctl &&& ~~~(hbit 1 ||| hbit 6 ||| hbit 7)) ||| BitVec.ofNat 16 (result.val * 256)
      let data' := if hfield x.obctl 4 4 = 1 then data else data &&& 0xFFFFFFFF#64
      ((hfield x.obctl 2 3 = 1 ∨ hfield x.obctl 2 3 = 3) → result = 0 →
        Completes (.outboundDone h result data) s (s.setHauler h.val { x with obctl := ctl, obdata := data' })) ∧
      (¬(hfield x.obctl 2 3 = 1 ∨ hfield x.obctl 2 3 = 3) ∨ result ≠ 0 →
        Completes (.outboundDone h result data) s (s.setHauler h.val { x with obctl := ctl }))) ∧
    (x.tcmp ≤ s.timer h.val → Completes (.timerCompare h) s (s.setHauler h.val { x with evtMisc := x.evtMisc ||| hbit 3 }))

/-- R370–R377: image loads and march tests. -/
def Obligations.ImageLoadsAndMarchTestsRun : Prop :=
  ∀ (s : State) (sender : Sender) (d : Fin 2), s.hasPower →
    let u := uIoDie d.val
    (∀ targets : BitVec 32, Admits s sender u 0x148 →
      let w := s.wr u Reg.HLR_IMG_CTL.TARGETS targets.toNat
      Completes (.load sender d targets) s (w.loadStart d.val) ∧
      ((w.loadRuns.look none d.val).isSome = true → Completes (.load sender d targets) s w)) ∧
    (∀ r, s.loadRuns.look none d.val = some r →
      let t := ({ s with loadRuns := s.loadRuns.put none d.val none } : State).wr u Reg.HLR_IMG_CTL.RESULT r.result
      (r.result ≠ 1 → Completes (.loadDone d) s t) ∧
      (r.result = 1 →
        let v := State.each (loadTargets d.val r.targets) (fun h s =>
          ((((s.storeCode h r.code).wr (uHauler h) Reg.HLR_IMG.GEN r.gen).count (uHauler h) Reg.HLR_IMG.LOADS).wrDigest (uHauler h)
            Reg.HLR_DIGEST.DIGEST r.digest).haulerFresh h) t
        let w := (((v.wr u Reg.HLR_IMG_STAT.GEN r.gen).count u Reg.HLR_IMG_STAT.LOADS).wrDigest u Reg.HLR_IMG_DIGEST.DIGEST
          r.digest).extendLog 0x03 d.val r.gen false r.digest
        Completes (.loadDone d) s
          (w.tallyEvent (some u) 0x0A 0x01 7 0xFF (payload8 1 (beBytes 4 r.targets ++ beBytes 4 r.gen))))) ∧
    (∀ (form : Bool) (kind : BitVec 2) (index : BitVec 6), Admits s sender u 0x100 →
      let cmd (op : Nat) : State := (((s.wr u Reg.MCH_CMD.OP op).wr u Reg.MCH_CMD.FORM form.toNat).wr u Reg.MCH_CMD.KIND
        kind.toNat).wr u Reg.MCH_CMD.INDEX index.toNat
      Completes (.march sender d form kind index) s ((cmd 1).marchStart d.val) ∧
      Completes (.sweep sender d form kind index) s ((cmd 2).marchStart d.val) ∧
      (∀ op, op < 4 → ((cmd op).marchRuns.look none d.val).isSome = true → (cmd op).marchStart d.val = cmd op) ∧
      (∀ op, op < 4 → (cmd op).marchRuns.look none d.val = none →
        let no := (cmd op).marchRefusal d.val ((cmd op).rd u Reg.MCH_CMD.OP) ((cmd op).rd u Reg.MCH_CMD.FORM)
          ((cmd op).rd u Reg.MCH_CMD.KIND) ((cmd op).rd u Reg.MCH_CMD.INDEX)
        no ≠ 0 → (cmd op).marchStart d.val = (cmd op).wr u Reg.MCH_CMD.RESULT no)) ∧
    (∀ r, s.marchRuns.look none d.val = some r → r.op ≠ 2 → r.failed d.val none = [] →
      let t := ({ s with marchRuns := s.marchRuns.put none d.val none } : State).marchRelease r
      let v := if r.form = 0 then State.each (r.units d.val) (fun v s => s.marchZero v) t else t
      let w := ((v.wr u Reg.MCH_CMD.RESULT (if r.skip then 7 else 1)).count u Reg.MCH_COUNT.RUNS).count u Reg.MCH_COUNT.FAILS 0
      Completes (.marchDone d none) s
        (w.tallyEvent (some u) 0x0A 0x02 7 0xFF (payload8 (if r.skip then 7 else 1) (wordBytes (w.word u Reg.MCH_FAIL.KIND.off)))))

/-- R5: what the access codes let a write change. -/
def Obligations.RegisterWritesFollowAccessCodes : Prop :=
  (∀ (u : UnitId) (off : Nat) (locked : Bool) (old v : Word),
    ∀ rows ∈ [rows_hdr, pageRows u],
    let w := writtenWord rows off locked old v
    (∀ r ∈ rowsAt rows off, ∀ b, r.field.lo ≤ b → b ≤ r.field.hi →
      match r.access with
      | .rw => w.bit b = v.bit b
      | .rwl => w.bit b = if locked then old.bit b else v.bit b
      | .w1c => w.bit b = (old.bit b && !v.bit b)
      | .ro => w.bit b = old.bit b
      | .rs => w.bit b = old.bit b
      | .wo => w.bit b = old.bit b) ∧
    (∀ b, b < 64 → (∀ r ∈ rowsAt rows off, b < r.field.lo ∨ r.field.hi < b) → w.bit b = old.bit b)) ∧
  ∀ (s : State) (u u' : UnitId) (off off' : Nat) (v : Word), off < 4096 → off' < 4096 → off % 8 = 0 → off' % 8 = 0 →
    let t := s.writeFields u off v
    ((u'.key ≠ u.key ∨ off' ≠ off) → t.word u' off' = s.word u' off') ∧ { t with regs := s.regs } = s

/-- R5, R16, R28, R131, R275: commands on register pages. -/
def Obligations.RegisterPageCommandsAct : Prop :=
  ∀ (s : State) (sender : Sender) (u : UnitId), s.hasPower →
    (∀ (off : BitVec 12) (v : Word), Admits s sender u off.toNat →
      (off.toNat < 0x80 → Completes (.registerWrite sender u off (some v)) s (s.headerWrite sender u off.toNat v)) ∧
      (0x80 ≤ off.toNat → Completes (.registerWrite sender u off (some v)) s (s.pageWrite sender u off.toNat v))) ∧
    (∀ (off : BitVec 12) (v : Word), s.present u = true → (s.guardWrite sender u off.toNat).2 ≠ .pass →
      Completes (.registerWrite sender u off (some v)) s (s.guardWrite sender u off.toNat).1) ∧
    (∀ (off : BitVec 12) (v : Word), s.present u = false → s.unitInSlot (namedSlot u) = none →
      let addr := 0xF00000000000 + namedSlot u * 4096 + off.toNat
      (s.fencePasses sender uModule 0x080 = true → Completes (.registerWrite sender u off (some v)) s
        ((s.accessError uModule off.toNat (some sender.unit)).errorTo sender addr)) ∧
      (s.fencePasses sender uModule 0x080 = false → Completes (.registerWrite sender u off (some v)) s (s.countRejected sender))) ∧
    (∀ (n : Fin 2) (off : BitVec 12), s.present u = true →
      let r := s.pageRead u off.toNat (some (uSteward n.val))
      (∀ w, r.2 = some w → Completes (.registerWrite (.steward n) u off none) s
        (r.1.setStw n.val { r.1.stw n.val with lastRead := w })) ∧
      (r.2 = none → Completes (.registerWrite (.steward n) u off none) s (r.1.busError n.val (pageAddr u off.toNat)))) ∧
    (Admits s sender u 0x030 →
      Completes (.clrOwn sender u) s (State.each (rsFields u) (fun f s => s.clearRs u f) (s.wr u Reg.UNIT_STICKY.OWN 0)) ∧
      Completes (.clrOne sender u 0) s (s.wr u Reg.UNIT_STICKY.OWN 0) ∧
      (∀ (n : BitVec 8) f, n ≠ 0 → n.toNat ≤ 253 → fieldOfIndex u n.toNat = some f →
        Completes (.clrOne sender u n) s (s.clearRs u f)) ∧
      (∀ n : BitVec 8, n ≠ 0 → fieldOfIndex u n.toNat = none → Completes (.clrOne sender u n) s s)) ∧
    (∀ (seam : Fin 64) (head : BitVec 20), seam ≠ 0 →
      Completes (.cqHeadWrite seam head) s (s.spWr seam.val Reg.SP_CQ_HEAD.HEAD head.toNat)) ∧
    (∀ (k : Fin 48) (n : BitVec 8) p, (s.core k).posted[n.toNat]? = some p →
      (((s.core k).posted.take n.toNat).any fun q => q.target.samePage p.target) = false →
      (∀ phys, p.target = .memory phys →
        Completes (.deviceStoreAccept k n) s ((s.dropPosted k n.toNat).deviceToMemory p.seam phys p.bytes)) ∧
      ((∀ phys, p.target ≠ .memory phys) → Completes (.deviceStoreAccept k n) s
        ((s.dropPosted k n.toNat).deviceWrite (.core k) p.target (BitVec.ofNat 64 (beNat p.bytes))).1)) ∧
    (∀ (k : Fin 48) (n : BitVec 8) p, (s.core k).posted[n.toNat]? = some p →
      (((s.core k).posted.take n.toNat).any fun q => q.target.samePage p.target) = true → Completes (.deviceStoreAccept k n) s s)

/-- R28, R369, R370, R400: remote page accesses and DMA. -/
def Obligations.RemoteAccessesAndDmaAct : Prop :=
  ∀ s : State, s.hasPower →
    (∀ (g : Fin 4) (head : FrameHead) (slot off : BitVec 12),
      let t := (s.cplTake g head 3 ((4 + 31) / 32)).1
      let c : Instr := .pageRd g head slot off
      let refused (u : State) : State := u.pageRsp g head 2 (BitVec.allOnes 64)
      ((s.cplTake g head 3 ((4 + 31) / 32)).2 = false → Completes c s t) ∧
      ((s.cplTake g head 3 ((4 + 31) / 32)).2 = true →
        (off.toNat % 8 = 0 →
          let r := t.deviceRead (t.slotTarget slot.toNat off.toNat) (some uComplex)
          (∀ w, r.2 = some w → Completes c s (r.1.pageRsp g head 1 w)) ∧ (r.2 = none → Completes c s (refused r.1))) ∧
        (off.toNat % 8 ≠ 0 →
          (∀ v o, t.slotTarget slot.toNat off.toNat = .page v o → Completes c s (refused (t.accessError v o (some uComplex)))) ∧
          ((∀ v o, t.slotTarget slot.toNat off.toNat ≠ .page v o) →
            Completes c s (refused (t.accessError uModule off.toNat (some uComplex))))))) ∧
    (∀ (g : Fin 4) (head : FrameHead) (slot off : BitVec 12) (w : Word) (holds : Bool),
      let t := (s.cplTake g head 3 ((13 + 31) / 32)).1
      let c : Instr := .pageWr g head slot off w holds
      ((s.cplTake g head 3 ((13 + 31) / 32)).2 = false → Completes c s t) ∧
      ((s.cplTake g head 3 ((13 + 31) / 32)).2 = true →
        (holds = false ∨ t.flag uModule Reg.CPL_CX.REMOTE_WR = false → Completes c s (t.pageRsp g head 3 0)) ∧
        (holds = true → t.flag uModule Reg.CPL_CX.REMOTE_WR = true →
          let r := t.deviceWrite (.remote true) (t.slotTarget slot.toNat off.toNat) w
          Completes c s (r.1.pageRsp g head (if r.2 then 2 else 1) 0)))) ∧
    (∀ (h : Fin 64) (c : Fin 16),
      let d := (s.hauler h.val).dmaAt c.val
      d.busy = true → (s.hauler h.val).mode ≠ .clearing →
      let window (kind addr : Nat) : Prop := kind = 1 ∧ s.dmaTag h d = 0 ∧ 0x080000000000 ≤ addr
      (window (hfield d.ctl 4 7) d.src →
        let r := s.windowIn h d.src d.len
        (r.2.2 = false → Completes (.dmaDone h c) s (((r.1.putPitBytes h d.dst r.2.1).countWords h r.2.1.length).dmaEnd h c 0)) ∧
        (r.2.2 = true → Completes (.dmaDone h c) s (r.1.dmaEnd h c 1))) ∧
      (¬window (hfield d.ctl 4 7) d.src → window (hfield d.ctl 8 11) d.dst →
        let bad := (List.range (d.len / 2)).find? fun n => s.pitIsBad h (d.src + n)
        let r := s.windowOut h d.dst (s.pitBytes h d.src d.len)
        (∀ n, bad = some n → Completes (.dmaDone h c) s ((s.pitError h ((d.src + n) % 65536)).dmaEnd h c 1)) ∧
        (bad = none → r.2 = false → Completes (.dmaDone h c) s ((r.1.countWords h d.len).dmaEnd h c 0)) ∧
        (bad = none → r.2 = true → Completes (.dmaDone h c) s (r.1.dmaEnd h c 1))) ∧
      (¬window (hfield d.ctl 4 7) d.src → ¬window (hfield d.ctl 8 11) d.dst →
        (hfield d.ctl 4 7 = 0 → Completes (.dmaDone h c) s (s.dmaOut h c d)) ∧
        (hfield d.ctl 4 7 ≠ 0 → Completes (.dmaDone h c) s (s.dmaIn h c d))))

/-- R32, R433: the fence. -/
def Obligations.TheFenceRejectsWrites : Prop :=
  ∀ (s : State) (u : UnitId) (off : BitVec 12) (v : Word) (index : BitVec 8) (allow pin : Bool) (req : BitVec 2) (owner : BitVec 8),
    s.hasPower →
    let rejected (sender : Sender) (t : State) : Prop :=
      (s.present u = true → Completes (.registerWrite sender u off (some v)) s t) ∧
      (off = 0x030 → Completes (.clrOwn sender u) s t ∧ Completes (.clrOne sender u index) s t) ∧
      (off = 0x040 → Completes (.uResetRequest sender u allow) s t) ∧
      (off = 0x048 → Completes (.unitPowerWrite sender u req pin) s t) ∧
      (off = 0x050 → Completes (.unitOwnerWrite sender u owner) s t)
    (∀ n : Fin 2, s.holder ≠ some n.val → ¬(u = uCube ∧ off = 0x098) → u ≠ uSteward n.val ∨ off = 0x050 →
      rejected (.steward n) (s.bump uCube (if n = 0 then Reg.CUBE_REJ.REJ0 else Reg.CUBE_REJ.REJ1))) ∧
    (∀ k : Fin 48, (s.holder = none ∨ s.flag uCube Reg.CUBE_CFG.SEAM0_WR = false ∨ off = 0x050) → rejected (.core k) s) ∧
    (∀ h : Fin 64, (s.holder = none ∨ s.flag uCube Reg.CUBE_CFG.SEAM0_WR = false ∨ off = 0x050) → rejected (.hauler h) s) ∧
    (∀ holds, (holds = false ∨ s.flag uModule Reg.CPL_CX.REMOTE_WR = false) → rejected (.remote holds) s)

/-- R17, R39, R41, R42, R482, R484: UNIT_RESET, UNIT_POWER and UNIT_OWNER. -/
def Obligations.UnitHeaderCommandsAct : Prop :=
  ∀ (s : State) (sender : Sender) (u : UnitId), s.hasPower →
    (∀ allow, Admits s sender u 0x040 →
      (s.resetIgnored u = true → Completes (.uResetRequest sender u allow) s s) ∧
      (s.resetIgnored u = false → u.type = .module → Completes (.uResetRequest sender u allow) s s.mRequest) ∧
      (s.resetIgnored u = false → u.type ≠ .module → u.type ≠ .complex →
        (s.inReset u = true ∨ (s.unit u).heldReset = true →
          Completes (.uResetRequest sender u allow) s (s.setUnit u { s.unit u with absorbed := true })) ∧
        (s.inReset u = false → (s.unit u).heldReset = false → s.copyHolds u = false →
          Completes (.uResetRequest sender u allow) s (s.resetStart u)))) ∧
    (∀ persist,
      (u.type = .module → s.power.mResetting = true → s.power.mrstLow = false →
        Completes (.uResetComplete u persist) s s.mEnd) ∧
      (u.type ≠ .module → (s.unit u).resetRoot = true → (s.unit u).resetting = true →
        (u.ancestors.any fun a => (s.unit a).resetting) = false →
        Completes (.uResetComplete u persist) s (s.resetEnd u persist))) ∧
    (∀ (req : BitVec 2) (pin : Bool), Admits s sender u 0x048 →
      let allowed := ownPower u.type = true ∧ (s.unit u).fenced = false ∧ (req = 3 → u.type = .tile) ∧ (req = 1 → u.type ≠ .memch) ∧
        (req ≠ 2 → s.mayPower u = true) ∧ (u.type = .core → (s.core u.inst).role = .unassigned → 2 ≤ req.toNat) ∧
        req.toNat ≠ s.rd u Reg.UNIT_POWER.REQ
      (¬allowed →
        let t := s.wr u Reg.UNIT_POWER.PIN pin.toNat
        Completes (.unitPowerWrite sender u req pin) s (if u.type = .core then t.gateIdle u.inst else t)) ∧
      (allowed →
        let pinned := pin || u.type == .core || u.type == .tile
        Completes (.unitPowerWrite sender u req pin) s
          (((s.wr u Reg.UNIT_POWER.PIN pinned.toNat).wr u Reg.UNIT_POWER.REQ req.toNat).askPower u (powerOfReq req.toNat)))) ∧
    (∀ p at_, (s.unit u).transition = some (p, at_) → s.inReset u = false →
      (p = .run ∨ ((coresIn u).any fun k => (s.core k).wu.isSome) = false) → (p = .off ∨ s.mayPower u = true) →
      Completes (.powerTransitionDone u) s (s.enterPower u p)) ∧
    (∀ owner : BitVec 8, Admits s sender u 0x050 →
      let c : Instr := .unitOwnerWrite sender u owner
      let n := owner.toNat
      let held := s.ownerHeld sender u
      let reach := ownerReach u n
      let changed := (reach.filter fun v => v.type == .hauler && s.rd v Reg.UNIT_OWNER.OWNER != n).map UnitId.inst
      let owned := State.each changed (fun h s => if s.powered (uHauler h) then s.clearPit h (s.hauler h).mode else s)
        (State.each reach (fun v s => s.wr v Reg.UNIT_OWNER.OWNER n) s)
      (∀ p, u.parent = some p → held = (s.rd p Reg.UNIT_OWNER.OWNER != 0xFF)) ∧
      (s.locked u = true → Completes c s s) ∧
      (s.locked u = false → held = true ∨ (64 ≤ n ∧ n ≠ 0xFF) → Completes c s (s.pageError sender u 0x050)) ∧
      (s.locked u = false → held = false → n < 64 ∨ n = 0xFF →
        (changed.all s.ownerFree = false → Completes c s (s.pageError sender u 0x050)) ∧
        (changed.all s.ownerFree = true → u.type ≠ .complex ∨ n = 0xFF → Completes c s owned) ∧
        (changed.all s.ownerFree = true → u.type = .complex → n ≠ 0xFF → Completes c s (owned.toMembers sender 0x050 (n * 2 ^ 56)))))

/-- R171, R172: what a tile does on its cores' needs and on ring messages. -/
def Obligations.TileRingMessagesAct : Prop :=
  ∀ (s : State) (k : Fin 48) (t : Fin 4) (line : BitVec 28) (seam : Fin 64) (a : Option AtomicReq) (clean : Bool), s.hasPower →
    let n := k.val / 12
    let ln := line.toNat
    let rd : RingWait := { core := k, line := ln, seam := seam, excl := false, atomic := none }
    let ex : RingWait := { core := k, line := ln, seam := seam, excl := true, atomic := a }
    let supplied (r : State × Option LineData) : State := r.1.supply t.val ln (match r.2 with | some d => some d | none => s.leaving t.val ln)
    Completes (.tdown t line clean) s (supplied (s.tileDown t.val ln clean)) ∧
    Completes (.tkill t line) s (supplied (s.tileKill t.val ln)) ∧
    ((s.tileTx n ln = none ∨ ∃ y, s.tileTx n ln = some y ∧ (y.tx = .sm ∨ y.tx = .om)) →
      ((s.findWay (.l2e k) ln).isSome = true → Completes (.trd k line seam) s (s.ringCount n true)) ∧
      ((s.findWay (.l2e k) ln).isSome = false →
        (∀ c l, s.tileCopy n ln = some (c, l) →
          let u := ((s.ringCount n (s.supplies n ln)).tileDown n ln false).1
          (s.hasWay k ln seam = false → Completes (.trd k line seam) s (s.waitRing rd)) ∧
          (s.hasWay k ln seam = true → (u.findWay (.l2 k) ln).isSome = true → Completes (.trd k line seam) s (u.hit (.l2 k) ln)) ∧
          (s.hasWay k ln seam = true → (u.findWay (.l2 k) ln).isSome = false →
            Completes (.trd k line seam) s (u.fillL2 k ln .s l.data seam.val false))) ∧
        (s.tileCopy n ln = none →
          Completes (.trd k line seam) s (((s.ringCount n false).l3Miss n ln).openTileTx rd .is)))) ∧
    (s.tileTx n ln = none →
      (∀ c l, (s.tileState n ln = .m ∨ s.tileState n ln = .e) → s.tileCopy n ln = some (c, l) →
        (s.hasWay k ln seam = true → Completes (.trdx k line seam a) s ((s.ringCount n true).tileOwn k ln seam.val l.data)) ∧
        (s.hasWay k ln seam = false → Completes (.trdx k line seam a) s (s.waitRing ex))) ∧
      (s.tileState n ln = .s → Completes (.trdx k line seam a) s ((s.ringCount n false).openTileTx ex .sm)) ∧
      (s.tileState n ln = .o → Completes (.trdx k line seam a) s ((s.ringCount n false).openTileTx ex .om)) ∧
      (s.tileState n ln = .i →
        Completes (.trdx k line seam a) s (((s.ringCount n false).l3Miss n ln).openTileTx ex .im))) ∧
    (∀ y, s.tileTx n ln = some y →
      Completes (.trdx k line seam a) s (s.waitRing ex) ∧
      (y.tx = .is ∨ y.tx = .im ∨ y.tx = .ci ∨ y.tx = .ii → Completes (.trd k line seam) s (s.waitRing rd)) ∧
      (y.tx = .mi → Completes (.trd k line seam) s (s.ringCount n true)))

/-- R172: snoops that reach a tile. -/
def Obligations.TilesAnswerSnoops : Prop :=
  ∀ (s : State) (t : Fin 4) (line : BitVec 28) (skip clean dirty : Bool) (seam : Fin 64) (data : LineData), s.hasPower →
    let ln := line.toNat
    let arrives (kind : MsgKind) (n : Nat) : Bool := !s.blocked kind (s.stopOf ln) n ln
    let brought (kind : MsgKind) (n : Nat) : State × Option Msg := s.bring kind (s.stopOf ln) n ln
    let to_ (c : Instr) (u : State) : Prop := Completes c s u.isolations
    let n := t.val
    (arrives .inv n = false → Completes (.inv t line skip) s s) ∧
    (arrives (if clean then .snpSC else .snpS) n = false → Completes (.snps t line clean) s s) ∧
    (arrives .snpX n = false → Completes (.snpx t line skip) s s) ∧
    (arrives .inv n = true →
      let a := brought .inv n
      let u := a.1
      let r := u.killOrKeep n ln (msgFlag a.2 skip)
      let c : Instr := .inv t line skip
      (u.tileTx n ln = none →
        (u.tileState n ln = .i → to_ c (u.reply .invAck n ln)) ∧
        (u.tileState n ln = .s → to_ c ((r.1.keptUpgrade n ln r.2.2).reply .invAck n ln none r.2.2))) ∧
      (∀ x, u.tileTx n ln = some x →
        (x.tx = .sm → to_ c ((r.1.keptUpgrade n ln r.2.2).reply .invAck n ln none r.2.2)) ∧
        (x.tx = .is ∨ x.tx = .im ∨ x.tx = .ci ∨ x.tx = .ii → to_ c (u.reply .invAck n ln)))) ∧
    (arrives (if clean then .snpSC else .snpS) n = true →
      let u := (brought (if clean then .snpSC else .snpS) n).1
      let r := u.tileDown n ln clean
      let c : Instr := .snps t line clean
      (u.tileTx n ln = none →
        (u.tileState n ln = .i → to_ c (u.reply .snpAck n ln)) ∧
        (u.tileState n ln = .e → to_ c (r.1.reply .snpAck n ln)) ∧
        ((u.supplied.any fun x => x.1 == n && x.2.1 == ln) = true → u.tileState n ln = .s → to_ c (u.reply .snpD n ln)) ∧
        (u.tileState n ln = .o ∨ u.tileState n ln = .m → to_ c (r.1.reply .snpD n ln r.2))) ∧
      (∀ x, u.tileTx n ln = some x →
        (x.tx = .om → to_ c ((if clean then r.1.setTileTx { x with tx := .sm } else r.1).reply .snpD n ln r.2)) ∧
        (x.tx = .mi → to_ c (u.reply .snpD n ln (u.leaving n ln))) ∧
        (x.tx = .is ∨ x.tx = .im ∨ x.tx = .ci ∨ x.tx = .ii → to_ c (u.reply .snpAck n ln)))) ∧
    (arrives .snpX n = true →
      let a := brought .snpX n
      let u := a.1
      let r := u.killOrKeep n ln (msgFlag a.2 skip)
      let c : Instr := .snpx t line skip
      (u.tileTx n ln = none →
        (u.tileState n ln = .i → to_ c (u.reply .snpAck n ln)) ∧
        (u.tileState n ln = .e ∨ u.tileState n ln = .o ∨ u.tileState n ln = .m →
          (∀ d, r.2.1 = some d → to_ c (r.1.reply .snpD n ln (some d) r.2.2)) ∧
          (r.2.1 = none → to_ c (r.1.reply .snpAck n ln none r.2.2)))) ∧
      (∀ x, u.tileTx n ln = some x →
        (x.tx = .om → to_ c ((r.1.keptUpgrade n ln r.2.2).reply .snpD n ln r.2.1 r.2.2)) ∧
        (x.tx = .mi → to_ c ((u.setTileTx { x with tx := .ii }).reply .snpD n ln (u.leaving n ln))) ∧
        (x.tx = .is ∨ x.tx = .im ∨ x.tx = .ci ∨ x.tx = .ii → to_ c (u.reply .snpAck n ln)))) ∧
    (∀ tgt : HintTarget,
      let c : Instr := .hint tgt line seam dirty data
      (arrives .hint tgt.tile = false → Completes c s s) ∧
      (arrives .hint tgt.tile = true →
        let a := brought .hint tgt.tile
        let u := a.1
        let r := msgReq a.2 { tileRequest 0 .iow ln seam with hint := some tgt }
        let at_ := r.hint.getD tgt
        let v := u.hintInstall at_ ln r.seam (if msgFlag a.2 dirty then .m else .e) (msgData a.2 data)
        (u.tileTx at_.tile ln = none → u.tileState at_.tile ln = .i →
          (v.2.isSome = true → to_ c (v.1.reply .hintAck at_.tile ln)) ∧
          (v.2.isSome = false → to_ c (v.1.reply .hintDecl at_.tile ln))) ∧
        (∀ x, u.tileTx at_.tile ln = some x → x.tx = .is ∨ x.tx = .im ∨ x.tx = .ci ∨ x.tx = .ii →
          to_ c (u.reply .hintDecl at_.tile ln))))

/-- R170, R172, R173, R183: answers to requests. -/
def Obligations.AnswersCloseTileTransactions : Prop :=
  ∀ (s : State) (t : Fin 4) (line : BitVec 28) (data : LineData) (unit : UnitId), s.hasPower →
    let n := t.val
    let ln := line.toNat
    let arrives (kind : MsgKind) (dst : Nat) : Bool := !s.blocked kind (s.stopOf ln) dst ln
    let brought (kind : MsgKind) (dst : Nat) : State × Option Msg := s.bring kind (s.stopOf ln) dst ln
    let to_ (c : Instr) (u : State) : Prop := Completes c s u.isolations
    let fill (kind : MsgKind) (st : CState) (x : TileTrans) : State :=
      let a := brought kind n
      (((a.1.closeTileTx n ln).fillL2 x.core ln st (msgData a.2 data) x.seam false x.way).toHome .done n ln).wakeRing n
    (∀ c kind, (c, kind) ∈ [((.datas t line data : Instr), MsgKind.dataS), (.datae t line data, .dataE), (.datam t line data, .dataM),
        (.gntx t line, .gntX), (.atmr t line, .atmR), (.wback t line, .wbAck), (.retry t line, .retry)] →
      arrives kind n = false → Completes c s s) ∧
    (arrives .dataS n = true → ∀ x, (brought .dataS n).1.tileTx n ln = some x → x.tx = .is → to_ (.datas t line data) (fill .dataS .s x)) ∧
    (arrives .dataE n = true → ∀ x, (brought .dataE n).1.tileTx n ln = some x → x.tx = .is ∨ x.tx = .im →
      to_ (.datae t line data) (fill .dataE .e x)) ∧
    (arrives .dataM n = true → ∀ x, (brought .dataM n).1.tileTx n ln = some x → x.tx = .im → to_ (.datam t line data) (fill .dataM .m x)) ∧
    (let u := (brought .gntX n).1
     arrives .gntX n = true → ∀ x, u.tileTx n ln = some x → x.tx = .sm ∨ x.tx = .om →
      (∀ c l, u.tileCopy n ln = some (c, l) →
        to_ (.gntx t line) ((((u.closeTileTx n ln).tileOwn x.core ln x.seam l.data false x.way).toHome .done n ln).wakeRing n)) ∧
      (u.tileCopy n ln = none → to_ (.gntx t line) (((u.closeTileTx n ln).toHome .done n ln).wakeRing n))) ∧
    (let r := brought .atmR n
     arrives .atmR n = true → ∀ x, r.1.tileTx n ln = some x → x.tx = .im → ∀ a, x.atomic = some a →
      let v : State := { r.1.closeTileTx n ln with
        atmVals := r.1.atmVals ++ [{ core := x.core, line := ln, req := a, old := msgData r.2 (r.1.memData ln) }] }
      to_ (.atmr t line) (v.wakeRing n)) ∧
    (let u := (brought .wbAck n).1
     let v : State := { u.closeTileTx n ln with wbq := u.wbq.filter fun e => !(e.tile == n && e.line == ln) }
     arrives .wbAck n = true → ∀ x, u.tileTx n ln = some x → x.tx = .ci ∨ x.tx = .mi ∨ x.tx = .ii →
      to_ (.wback t line) (v.wakeRing n)) ∧
    (let u := (brought .retry n).1
     arrives .retry n = true → ∀ x, u.tileTx n ln = some x → x.tx = .is ∨ x.tx = .im ∨ x.tx = .sm ∨ x.tx = .om →
      to_ (.retry t line)
        ((u.setTileTx { x with resendAt := some (u.now + 32) }).bump ⟨.ring, n⟩ Reg.SHF_TCC_STAT.RETRIED)) ∧
    (∀ x, s.tileTx n ln = some x →
      (∀ at_, x.resendAt = some at_ →
        (at_ ≤ s.now → Completes (.retryResend t line) s
          ((s.setTileTx { x with resendAt := none }).toHome x.msgKind n ln none false (some { x with resendAt := none }.request))) ∧
        (s.now < at_ → Completes (.retryResend t line) s s)) ∧
      (x.tx = .is ∨ x.tx = .im ∨ x.tx = .sm ∨ x.tx = .om → x.since + 20000 ≤ s.now →
        let u := (((s.closeTileTx n ln).stick ⟨.ring, n⟩ Reg.SHF_TCC_ERR.TIMEOUT none (BitVec.ofNat 64 ln)).count ⟨.ring, n⟩
          Reg.SHF_TCC_ERR.TIMEOUTS).wakeRing n
        (x.tx = .is ∨ x.atomic.isSome = true → Completes (.tileTransactionTimeout t line) s (u.timedOutRead x.core)) ∧
        (x.tx ≠ .is → x.atomic = none → Completes (.tileTransactionTimeout t line) s (u.loseStores x.core ln x.seam)))) ∧
    (let a := brought .cmp unit.dieSlot
     (arrives .cmp unit.dieSlot = false → Completes (.ioCmp unit line) s s) ∧
     (arrives .cmp unit.dieSlot = true → to_ (.ioCmp unit line) a.1)) ∧
    (let a := brought .ioData unit.dieSlot
     (arrives .ioData unit.dieSlot = false → Completes (.iodata unit line) s s) ∧
     (∀ m d, arrives .ioData unit.dieSlot = true → a.2 = some m → m.data = some d →
       to_ (.iodata unit line) { a.1 with ioData := (a.1.ioData.filter fun y => y.1 != unit) ++ [(unit, ln, d)] }))

/-- R174, R175: requests that reach a home agent. -/
def Obligations.HomeAgentsTakeRequests : Prop :=
  ∀ (s : State) (t : Fin 4) (unit : UnitId) (line : BitVec 28) (seam : Fin 64) (a : AtomicReq) (op : MaintOp) (skip : Bool)
    (mask : BitVec 128) (data : BitVec 1024) (hint : Option HintTarget), s.hasPower →
    let ln := line.toNat
    let mnt : ReqKind := match op with | .clean => .mntClean | .inval => .mntInv | .cleanInval => .mntCleanInv
    let asked (kind : ReqKind) (agent : Agent) : HomeReq :=
      { agent := agent, kind := kind, line := ln, seam := seam, mask := 0, data := 0, hint := none, atomic := none, skipLocked := false }
    let rows : List (Instr × MsgKind × Nat × HomeReq) :=
      [(.rds t line seam, .rds, t.val, asked .rds (.tile t)), (.rdx t line seam, .rdx, t.val, asked .rdx (.tile t)),
       (.rdxA t line seam a, .rdxA, t.val, { asked .rdxA (.tile t) with atomic := some a }),
       (.upg t line seam, .upg, t.val, asked .upg (.tile t)),
       (.mnt t line seam op skip, .mnt, t.val, { asked mnt (.tile t) with skipLocked := skip }),
       (.ior unit line seam, .ior, unit.dieSlot, asked .ior (.io unit)),
       (.iow unit line seam mask data hint, .iow, unit.dieSlot,
         { asked .iow (.io unit) with mask := mask, data := data, hint := hint })]
    ∀ c kind src q, (c, kind, src, q) ∈ rows →
      let b := s.bring kind src (s.stopOf ln) ln
      let u := b.1
      let r := msgReq b.2 q
      let to_ (v : State) : Prop := Completes c s v.isolations
      (s.blocked kind src (s.stopOf ln) ln = true → Completes c s s) ∧
      (s.blocked kind src (s.stopOf ln) ln = false →
        (u.homeAgent r.line = none → to_ u) ∧
        (∀ home, u.homeAgent r.line = some home →
          (u.ownerAllows r.seam r.line = true → u.homeBusy r.line = false → to_ (u.homeTake home r)) ∧
          (u.ownerAllows r.seam r.line = true → u.homeBusy r.line = true → u.queueRoom home r.seam = true →
            let q : State := { u with homeQueue := u.homeQueue ++ [r] }
            let held := (q.homeQueue.filter fun x => q.homeAgent x.line == some home).length
            to_ (q.wr (uHome home) Reg.HOME_QSTAT.PEAK (max held (q.rd (uHome home) Reg.HOME_QSTAT.PEAK)))) ∧
          (u.ownerAllows r.seam r.line = true → u.homeBusy r.line = true → u.queueRoom home r.seam = false →
            to_ ((u.bump (uHome home) Reg.HOME_QSTAT.FULL_RETRY).send .retry (homeStop home) r.agent.stop r.line)) ∧
          (u.ownerAllows r.seam r.line = false →
            let v : State := { u with isolated := u.isolated ++ [r.seam] }
            (∀ w, r.agent = .io w → to_ v) ∧
            (∀ m, r.agent = .tile m →
              let v' : State := { v with tileTrans := v.tileTrans.filter fun x =>
                !(x.tile == m && x.line == r.line && (x.tx == .is || x.tx == .im || x.tx == .sm || x.tx == .om)) }
              to_ (v'.wakeRing m)))))

/-- R175, R176, R180, R183, R186: answers, write-backs and time-outs of home agents. -/
def Obligations.HomeAgentsTakeAnswersAndWriteBacks : Prop :=
  ∀ (s : State) (t : Fin 4) (line : BitVec 28) (data : LineData) (kept : Bool), s.hasPower →
    let ln := line.toNat
    let arrives (kind : MsgKind) : Bool := !s.blocked kind t.val (s.stopOf ln) ln
    let from_ (kind : MsgKind) : State × Option Msg := s.bring kind t.val (s.stopOf ln) ln
    let to_ (c : Instr) (u : State) : Prop := Completes c s u.isolations
    (∀ c kind, (c, kind) ∈ [((.invack t line kept : Instr), MsgKind.invAck), (.snpack t line kept, .snpAck), (.snpd t line data kept, .snpD),
        (.hintack t line, .hintAck), (.hintdecl t line, .hintDecl), (.done t line, .done), (.wb t line data, .wb), (.evc t line, .evc)] →
      arrives kind = false → Completes c s s) ∧
    (let a := from_ .invAck
     arrives .invAck = true → ∀ h, a.1.homeTx ln = some h → h.tx ≠ .wr → h.tx ≠ .wh →
      to_ (.invack t line kept) (a.1.afterAnswer (h.counted t.val none (msgFlag a.2 kept)))) ∧
    (let a := from_ .snpAck
     arrives .snpAck = true → ∀ h, a.1.homeTx ln = some h →
      (h.tx = .wr → to_ (.snpack t line kept) (a.1.readAnswer h t.val none)) ∧
      (h.tx ≠ .wr → h.tx ≠ .wh →
        to_ (.snpack t line kept) (a.1.afterAnswer (h.counted t.val none (msgFlag a.2 kept))))) ∧
    (let a := from_ .snpD
     let d := msgData a.2 data
     arrives .snpD = true → ∀ h, a.1.homeTx ln = some h →
      let u := if d.poison = 0 then a.1 else a.1.stick (uHome h.home) Reg.HOME_ERR.POISON_WB
      (h.tx = .wr → to_ (.snpd t line data kept) (u.readAnswer h t.val (some d))) ∧
      (h.tx ≠ .wr → h.tx ≠ .wh →
        to_ (.snpd t line data kept) (u.afterAnswer (h.counted t.val (some d) (msgFlag a.2 kept))))) ∧
    (let u := (from_ .hintAck).1
     arrives .hintAck = true → ∀ h, u.homeTx ln = some h → h.tx = .wh →
      let e := if h.tookWb then DirEntry.empty else { DirEntry.holding h.line h.req.seam with st := .x, owner := t.val }
      to_ (.hintack t line) (((((u.closeHomeTx h.line).setDir h.home h.line e).count (uHome h.home)
        Reg.HOME_HINT.INSTALLED).sendCmp h.home h.req).wakeQueue h.home h.line)) ∧
    (let u := (from_ .hintDecl).1
     arrives .hintDecl = true → ∀ h, u.homeTx ln = some h → h.tx = .wh →
      let v := match h.dirty with | some d => if h.tookWb then u else u.putMemLine h.line maskAll d | none => u
      to_ (.hintdecl t line) (((((v.closeHomeTx h.line).setDir h.home h.line DirEntry.empty).count
        (uHome h.home) Reg.HOME_HINT.DECLINED).sendCmp h.home h.req).wakeQueue h.home h.line)) ∧
    (let u := (from_ .done).1
     arrives .done = true → ∀ h, u.homeTx ln = some h →
      let v := u.closeHomeTx h.line
      let e := v.dirEntry h.home h.line
      (h.tx = .wx ∨ (h.tx = .wr ∧ h.recorded = true) →
        to_ (.done t line) ((v.setDir h.home h.line (v.ownedEntry h.home h.line h.req.seam t.val)).wakeQueue h.home h.line)) ∧
      (h.tx = .wr → h.recorded = false → to_ (.done t line)
        ((v.setDir h.home h.line { e with present := e.present ||| tileBit t.val }).wakeQueue h.home h.line))) ∧
    (arrives .wb = true →
      let a := from_ .wb
      (a.1.homeAgent ln = none → to_ (.wb t line data) a.1) ∧
      (∀ home, a.1.homeAgent ln = some home →
        to_ (.wb t line data) ((a.1.wbArrive home t.val ln (msgData a.2 data)).send .wbAck (homeStop home) t.val ln))) ∧
    (arrives .evc = true →
      let u := (from_ .evc).1
      (u.homeAgent ln = none → to_ (.evc t line) u) ∧
      (∀ home, u.homeAgent ln = some home →
        let e := u.dirEntry home ln
        let ack (v : State) : Prop := to_ (.evc t line) (v.send .wbAck (homeStop home) t.val ln)
        let cleared : DirEntry := { e with present := e.present &&& ~~~(tileBit t.val) }
        (u.homeTx ln = none →
          (e.st = .u → ack u) ∧
          (e.st = .s → ack ((u.setDir home ln cleared).tidyDir home ln)) ∧
          (e.st = .x → e.owner = t.val → ack (u.setDir home ln DirEntry.empty)) ∧
          (e.st = .x → e.owner ≠ t.val → ack u) ∧
          (e.st = .o → e.owner ≠ t.val → ack (u.setDir home ln cleared))) ∧
        (∀ y, u.homeTx ln = some y →
          (y.tx = .wh → y.asked = tileBit t.val → ack (u.setHomeTx { y with tookWb := true })) ∧
          (y.tx = .wh → y.asked ≠ tileBit t.val → ack u) ∧
          (y.tx ≠ .wh → e.st = .x → e.owner = t.val → ack (u.setDir home ln { cleared with st := .s, present := 0 })) ∧
          (y.tx ≠ .wh → e.st = .o → e.owner = t.val → ack (u.setDir home ln { cleared with st := .s })) ∧
          (y.tx ≠ .wh → e.st = .s ∨ (e.st = .o ∧ e.owner ≠ t.val) → ack (u.setDir home ln cleared)) ∧
          (y.tx ≠ .wh → e.st = .u ∨ (e.st = .x ∧ e.owner ≠ t.val) → ack u)))) ∧
    (∀ home, s.homeAgent ln = some home →
      let e := s.dirEntry home ln
      (e.hot = true → s.rd (uHome home) Reg.HOME_CFG.HOT_WINDOW ≤ 2 * (s.now - e.hotAt) →
        Completes (.hotWindowExpiry line) s (s.setDir home ln { e with hot := false }))) ∧
    (∀ h, s.homeTx ln = some h →
      (s.now < h.since + 20000 → Completes (.homeTransactionTimeout line) s s) ∧
      (h.since + 20000 ≤ s.now → Completes (.homeTransactionTimeout line) s (s.homeTimeout h).isolations) ∧
      (h.since + 20000 ≤ s.now → h.tx = .wx → (s.dirEntry h.home h.line).st = .s → h.dirty = none →
        ∀ n rest, tilesOf h.asked = n :: rest →
        Completes (.homeTransactionTimeout line) s (((((s.closeHomeTx h.line).setDir h.home h.line DirEntry.empty).stick (uHome h.home)
          Reg.HOME_ERR.TIMEOUT (some (uTile n)) (BitVec.ofNat 64 h.line)).bump (uHome h.home) Reg.HOME_ERR.TIMEOUTS).wakeQueue h.home
          h.line).isolations)) ∧
    (∀ (stop : Fin 7) (against : Bool),
      let d : Nat := against.toNat
      let u : State := { s with replays := (s.replays.filter fun r => decide (s.now < r.2.2 + 1000000)) ++ [(stop.val, d, s.now)] }
      let v := (u.bump uModule (Reg.SHF_STOP_STAT.REPLAYS.ix stop.val)).corrected uModule (BitVec.ofNat 64 stop.val)
      let f : Field := if against then Reg.SHF_STOP_STAT.DN_DOWN.ix stop.val else Reg.SHF_STOP_STAT.UP_DOWN.ix stop.val
      let n := (v.replays.filter fun r => r.1 == stop.val && r.2.1 == d).length
      (16 ≤ n → v.flag uModule f = false → Completes (.slotReplay stop against) s (v.stick uModule f)) ∧
      (16 ≤ n → v.flag uModule f = true → Completes (.slotReplay stop against) s v) ∧
      (n < 16 → Completes (.slotReplay stop against) s v))

/-- R172, R175: the entries that cannot occur. -/
def Obligations.MessagesThatCannotOccurStop : Prop :=
  ∀ (s : State) (t : Fin 4) (line : BitVec 28) (data : LineData) (kept : Bool), s.hasPower →
    let n := t.val
    let ln := line.toNat
    let tile (kind : MsgKind) : State := (s.bring kind (s.stopOf ln) n ln).1
    let home (kind : MsgKind) : State := (s.bring kind n (s.stopOf ln) ln).1
    let stop (c : Instr) (kind : MsgKind) (code : String) : Prop :=
      s.blocked kind (s.stopOf ln) n ln = false → Stops c s (.cannotOccur code)
    let refuse (c : Instr) (kind : MsgKind) (code : String) : Prop :=
      s.blocked kind n (s.stopOf ln) ln = false → Stops c s (.cannotOccur code)
    let open_ (u : State) (l : List TileTx) : Prop := ∃ x, u.tileTx n ln = some x ∧ x.tx ∈ l
    let stable (u : State) (l : List CState) : Prop := u.tileTx n ln = none ∧ u.tileState n ln ∈ l
    let none3 (u : State) : Prop := u.tileTx n ln = none ∨ open_ u [.ci, .mi, .ii]
    (none3 (tile .dataS) → stop (.datas t line data) .dataS "n3") ∧ (none3 (tile .dataE) → stop (.datae t line data) .dataE "n3") ∧
    (none3 (tile .dataM) → stop (.datam t line data) .dataM "n3") ∧ (none3 (tile .gntX) → stop (.gntx t line) .gntX "n3") ∧
    (none3 (tile .atmR) → stop (.atmr t line) .atmR "n3") ∧ (none3 (tile .retry) → stop (.retry t line) .retry "n3") ∧
    (open_ (tile .dataM) [.is] → stop (.datam t line data) .dataM "n4") ∧ (open_ (tile .gntX) [.is] → stop (.gntx t line) .gntX "n4") ∧
    (open_ (tile .dataS) [.im] → stop (.datas t line data) .dataS "n4") ∧
    (open_ (tile .atmR) [.is, .sm, .om] → stop (.atmr t line) .atmR "n4") ∧
    (open_ (tile .dataS) [.sm, .om] → stop (.datas t line data) .dataS "n5") ∧
    (open_ (tile .dataE) [.sm, .om] → stop (.datae t line data) .dataE "n5") ∧
    (open_ (tile .dataM) [.sm, .om] → stop (.datam t line data) .dataM "n5") ∧
    (open_ (tile .gntX) [.im] → stop (.gntx t line) .gntX "n6") ∧
    (stable (tile .inv) [.e, .o, .m] ∨ open_ (tile .inv) [.om, .mi] → stop (.inv t line kept) .inv "n7") ∧
    (open_ (tile .snpS) [.sm] → stop (.snps t line false) .snpS "n8") ∧
    (stable (tile .snpS) [.s] → ((tile .snpS).supplied.any fun x => x.1 == n && x.2.1 == ln) = false →
      stop (.snps t line false) .snpS "n8") ∧
    (stable (tile .snpX) [.s] ∨ open_ (tile .snpX) [.sm] → stop (.snpx t line kept) .snpX "n8") ∧
    (∀ seam, (s.bring .hint (s.stopOf ln) n ln).2 = none →
      stable (tile .hint) [.s, .e, .o, .m] ∨ open_ (tile .hint) [.sm, .om, .mi] → stop (.hint (.l3 t) line seam kept data) .hint "n9") ∧
    ((tile .wbAck).tileTx n ln = none ∨ open_ (tile .wbAck) [.is, .im, .sm, .om] → stop (.wback t line) .wbAck "n10") ∧
    ((home .invAck).homeTx ln = none → refuse (.invack t line kept) .invAck "h1") ∧
    ((home .snpAck).homeTx ln = none → refuse (.snpack t line kept) .snpAck "h1") ∧
    ((home .snpD).homeTx ln = none → refuse (.snpd t line data kept) .snpD "h1") ∧
    (∀ h, (home .invAck).homeTx ln = some h → h.tx = .wr → refuse (.invack t line kept) .invAck "h2") ∧
    (∀ h, (home .invAck).homeTx ln = some h → h.tx = .wh → refuse (.invack t line kept) .invAck "h3") ∧
    (∀ h, (home .snpAck).homeTx ln = some h → h.tx = .wh → refuse (.snpack t line kept) .snpAck "h3") ∧
    (∀ h, (home .snpD).homeTx ln = some h → h.tx = .wh → refuse (.snpd t line data kept) .snpD "h3") ∧
    ((∀ h, (home .hintAck).homeTx ln = some h → h.tx ≠ .wh) → refuse (.hintack t line) .hintAck "h4") ∧
    ((∀ h, (home .hintDecl).homeTx ln = some h → h.tx ≠ .wh) → refuse (.hintdecl t line) .hintDecl "h4") ∧
    ((∀ h, (home .done).homeTx ln = some h → h.tx ≠ .wr ∧ h.tx ≠ .wx) → refuse (.done t line) .done "h5") ∧
    (∀ a, (home .evc).homeAgent ln = some a → (home .evc).homeTx ln = none → ((home .evc).dirEntry a ln).st = .o →
      ((home .evc).dirEntry a ln).owner = n → refuse (.evc t line) .evc "h8")

/-- R74, R87, R126, R129, R193–R198: events of a core. -/
def Obligations.CoreEventsAct : Prop :=
  ∀ (s : State) (k : Fin 48), s.hasPower →
    let c := s.core k
    (∀ p n, s.coreRuns k = true → c.group.attempts = 0 ∨ c.group.closed = true → s.pendingFor k = some (p, n) →
      Completes (.interruption k) s (s.takePending k p n)) ∧
    (s.coreRuns k = false ∨ (c.group.attempts ≠ 0 ∧ c.group.closed = false) ∨ s.pendingFor k = none → Completes (.interruption k) s s) ∧
    (c.wu.isSome = true → s.deadlineDue k = true →
      Completes (.deadlineMatch k) s (s.setCore k { c with ckpt := { c.ckpt with deadlineMatch := true } })) ∧
    (∀ b rest, c.storeBuf = b :: rest →
      let g := gatherStore s.now c.gather b
      (g.length ≤ 16 → Completes (.storeBufferEntryLeave k) s (writeGathered k 16 (s.setCore k { c with storeBuf := rest, gather := g }))) ∧
      (16 < g.length → Completes (.storeBufferEntryLeave k) s (writeGathered k 16 s))) ∧
    (let due (g : Gather) : Bool := g.isOpen && decide (64 * 10 ≤ 52 * (s.now - g.openedAt))
     c.gather.any due = true → Completes (.gatherEntryTimeout k) s
      (writeGathered k 16 (s.setCore k { c with gather := c.gather.map fun g => if due g then { g with isOpen := false } else g }))) ∧
    (c.wu.isSome = true → c.active = true → s.operates (uCore k) = true →
      ∀ (kind : BitVec 9) (read : RecordRead) (lane : Option (Fin 2)),
      let u := match lane with | some l => s.wr ⟨.lane, 2 * k.val + l.val⟩ Reg.UNIT_STICKY.OWN 1 | none => s
      let w := u.noteMismatch k kind.toNat
      Completes (.groupCompare k kind true read lane) s (u.coreFail k [Reg.CKW_STAT.SELF_FAIL]) ∧
      (u.groupRoom k = true → c.group.attempts = 0 → Completes (.groupCompare k 0 false read lane) s (u.retire k)) ∧
      (u.groupRoom k = false → Completes (.groupCompare k 0 false read lane) s u) ∧
      (u.groupRoom k = true → c.group.count ≠ 0 → c.group.attempts ≠ 0 →
        let v := u.retire k
        let a := (v.bump (uCore k) Reg.CKW_RETRY.RETRIES).corrected (uCore k) (BitVec.ofNat 64 (v.rd (uCore k) Reg.CKW_LAST_IA.IA))
        Completes (.groupCompare k 0 false read lane) s
          (a.tallyEvent (some (uCore k)) 0x05 0x01 7 0xFF (a.mismatchPayload k))) ∧
      (kind ≠ 0 → u.mismatchFails k = true → Completes (.groupCompare k kind false read lane) s (w.coreFail k [])) ∧
      (kind ≠ 0 → u.mismatchFails k = false →
        let v := if read.corr.toNat = 0 then w else w.bump (uCore k) Reg.CKW_CKPT.CORR read.corr.toNat
        let d := v.core k
        (read.readable = false → Completes (.groupCompare k kind false read lane) s
          ((v.setCore k { d with ckpt := { d.ckpt with readable := false } }).coreFail k [Reg.CKW_STAT.CKPT_LOST])) ∧
        (read.readable = true → d.group.performed = true → Completes (.groupCompare k kind false read lane) s (v.retire k)) ∧
        (read.readable = true → d.group.performed = false →
          let m := v.microcode k
          let e := m.core k
          (e.wu.isSome = true → Completes (.groupCompare k kind false read lane) s (m.setCore k { e with
            arch := e.ckpt.arch, group := { Group.empty with attempts := e.group.attempts + 1 } })) ∧
          (e.wu.isSome = false → Completes (.groupCompare k kind false read lane) s m))))

/-- R196, R197: what a first mismatch leaves. -/
def Obligations.FirstMismatchRestoresTheCheckpoint : Prop :=
  ∀ (s t : State) (k : Fin 48) (kind : BitVec 9) (corr : BitVec 8),
    let c := s.core k
    let d := t.core k
    s.hasPower → s.operates (uCore k) = true → c.wu.isSome = true → c.role = .active → kind ≠ 0 → c.group.count ≠ 0 →
    c.group.attempts = 0 → c.group.performed = false → (s.mismatchesNow k).length < 15 → MicrocodeSound s k →
    step { s with pending := .groupCompare k kind false { readable := true, corr := corr } none :: s.pending } = .next t →
      d.arch = c.ckpt.arch ∧ d.ckpt = c.ckpt ∧ d.group.stores = [] ∧ d.group.count = 0 ∧ d.group.attempts = 1 ∧
      d.storeBuf = c.storeBuf ∧ d.gather = c.gather ∧ d.posted = c.posted ∧ d.wu = c.wu ∧ d.role = .active ∧
      t.mem = s.mem ∧ t.caches = s.caches ∧ t.dir = s.dir ∧ t.pending = s.pending ∧ ∀ j, j ≠ k.val → t.core j = s.core j

/-- R150, R151, R158: commands of the caches. -/
def Obligations.CacheCommandsAct : Prop :=
  ∀ (s : State) (sender : Sender) (k : Fin 48) (n : Fin 32) (ways : BitVec 8) (lines : BitVec 24), s.hasPower →
    let taken (u : UnitId) (ctl : Field × Field × Field × Field) : State := (s.wr u ctl.1 ways.toNat).wr u ctl.2.1 lines.toNat
    let begun (u : UnitId) (ctl : Field × Field × Field × Field) (missed : Field) : State :=
      ((taken u ctl).wr u ctl.2.2.1 0).wr u missed 0
    let preload (c : Instr) (u : UnitId) (off : Nat) (cache : CacheId) (base : Field) (ctl : Field × Field × Field × Field)
        (missed : Field) : Prop :=
      Admits s sender u off →
        let b := begun u ctl missed
        ((taken u ctl).preloading cache = true → Completes c s (taken u ctl)) ∧
        ((taken u ctl).preloading cache = false → ways = 0 ∨ lines = 0 → Completes c s (b.wr u ctl.2.2.1 1)) ∧
        ((taken u ctl).preloading cache = false → ways ≠ 0 → lines ≠ 0 →
          let v := State.each (b.linesInWays cache ways) (fun l s => s.cleanRemoveAt cache l) b
          Completes c s { v with cacheJobs := v.cacheJobs ++ [.preload cache (v.rd u base) lines.toNat ways] })
    let ended (u : UnitId) (cache : CacheId) (ctl : Field × Field × Field × Field) (lock missed : Field) : Prop :=
      ∀ base n mask, s.cacheJobs.find? (CacheJob.preloads cache) = some (.preload cache base n mask) →
        let r := (preloadLines cache base n).foldl (fun (a : State × Nat) l =>
          let q := a.1.preloadLine cache mask l
          (q.1, if q.2 then a.2 else a.2 + 1)) (s, 0)
        let v := { r.1 with cacheJobs := r.1.cacheJobs.filter fun j => !j.preloads cache }.wr u missed r.2
        Completes (.preloadDone u) s ((v.wr u lock ((BitVec.ofNat 8 (v.rd u lock)) ||| mask).toNat).wr u ctl.2.2.1 1)
    preload (.l2Preload sender k ways lines) (uCore k) 0x518 (.l2 k) Reg.L2_PRELOAD_BASE.BASE l2Ctl
      Reg.L2_PRELOAD_MISSED.PRELOAD_MISSED ∧
    preload (.l3Preload sender n ways lines) (uL3 n) 0x0A0 (.l3 n) Reg.L3_PRELOAD_BASE.BASE l3Ctl
      Reg.L3_PRELOAD_MISSED.PRELOAD_MISSED ∧
    ended (uCore k) (.l2 k) l2Ctl Reg.L2_LOCK.LOCKED Reg.L2_PRELOAD_MISSED.PRELOAD_MISSED ∧
    ended (uL3 n) (.l3 n) l3Ctl Reg.L3_LOCK.LOCKED Reg.L3_PRELOAD_MISSED.PRELOAD_MISSED ∧
    (Admits s sender (uCore k) Reg.L2_LOCK.LOCKED.off → Completes (.lockRelease sender (uCore k) ways) s
      (s.wr (uCore k) Reg.L2_LOCK.LOCKED ((BitVec.ofNat 8 (s.rd (uCore k) Reg.L2_LOCK.LOCKED)) &&& ~~~ways).toNat)) ∧
    (Admits s sender (uL3 n) Reg.L3_LOCK.LOCKED.off → Completes (.lockRelease sender (uL3 n) ways) s
      (s.wr (uL3 n) Reg.L3_LOCK.LOCKED ((BitVec.ofNat 8 (s.rd (uL3 n) Reg.L3_LOCK.LOCKED)) &&& ~~~ways).toNat)) ∧
    (∀ incl : Bool, Admits s sender (uL3 n) 0x0D0 →
      let rows : List (Instr × MaintOp × Nat) := [(.l3FlushClean sender n incl, .clean, 1),
        (.l3FlushInvalidate sender n incl, .inval, 2), (.l3FlushCleanInvalidate sender n incl, .cleanInval, 3)]
      ∀ c op code, (c, op, code) ∈ rows →
        let a := (s.wr (uL3 n) Reg.L3_FLUSH.OP code).wr (uL3 n) Reg.L3_FLUSH.INCL_LOCKED (if incl then 1 else 0)
        let queued := (a.wbq.filter fun e => e.core.isNone && sliceId e.tile e.line == .l3 n).map WbEntry.line
        let b := State.each queued (fun l s => s.awaitLine l) (a.wr (uL3 n) Reg.L3_FLUSH.DONE 0)
        (a.sweeping n = true → Completes c s a) ∧
        (a.sweeping n = false → Completes c s { b with cacheJobs := b.cacheJobs ++ [.flush n op incl 0 b.now] })) ∧
    (s.sweeping n = true →
      let v := s.sweepTo n 8192
      Completes (.l3FlushDone n) s
        (State.wr { v with cacheJobs := v.cacheJobs.filter fun j => !j.sweeps n } (uL3 n) Reg.L3_FLUSH.DONE 1)) ∧
    (s.sweeping n = false → Completes (.l3FlushDone n) s s)

/-- R287–R297: commands of the memory channels. -/
def Obligations.MemoryChannelCommandsAct : Prop :=
  ∀ (s : State) (sender : Sender) (ch : Fin 16), s.hasPower →
    let c := ch.val
    let u := uMem c
    (∀ (line : BitVec 24) (mask : BitVec 128) (data : BitVec 1024) (poison : BitVec 16), s.channelLine c line.toNat = true →
      let t := s.putLineAt (c * 2 ^ 31 + line.toNat * 128) mask ⟨data, poison⟩
      (s.pairServes c = false → Completes (.channelWrite ch line mask data poison) s t) ∧
      (t.pairServes c = true → Completes (.channelWrite ch line mask data poison) s
        (t.putLineAt (partnerOf c * 2 ^ 31 + line.toNat * 128) mask ⟨data, poison⟩))) ∧
    (∀ (line : BitVec 24) (single double : BitVec 16), s.channelLine c line.toNat = true →
      Completes (.channelRead ch line single double) s (s.readErrors c line.toNat single double).1) ∧
    (∀ single double : BitVec 16,
      let pos := s.rd u Reg.MEM_SCRUB.POS
      let lines := s.capacity c * 512
      s.flag u Reg.MEM_SCRUB.EN = true → s.channelLine c pos = true →
      let r := s.readErrors c pos single double
      let v := (r.1.count u Reg.MEM_SCRUB_COUNT.FIXED (markCount r.2)).wr u Reg.MEM_SCRUB.POS ((pos + 1) % lines)
      (pos + 1 ≠ lines → Completes (.scrubAccess ch single double) s v) ∧
      (pos + 1 = lines → Completes (.scrubAccess ch single double) s (v.count u Reg.MEM_SCRUB_COUNT.PASSES))) ∧
    (∀ code : BitVec 16, s.operates u = true →
      Completes (.zqCalibration ch code) s ((s.wr u Reg.MEM_IO.ZQ_CODE code.toNat).bump u Reg.MEM_IO.ZQ_UPDATES)) ∧
    (s.down.look false c = false → Completes (.channelDown ch) s (s.channelLost c)) ∧
    (Admits s sender u 0x090 → s.trainRun c = none →
      (let v := ((s.wr u Reg.MEM_TRAIN.OP 1).wr u Reg.MEM_TRAIN.TRAINED 0).clearChannel c
       Completes (.train sender ch) s { v with trainRuns := v.trainRuns.put none c (some (1, v.now)) }) ∧
      (let v := s.wr u Reg.MEM_TRAIN.OP 2
       (v.flag u Reg.MEM_CFG.MIRROR = true → v.flag (uMem (partnerOf c)) Reg.MEM_TRAIN.TRAINED = true →
         Completes (.resync sender ch) s { v with trainRuns := v.trainRuns.put none c (some (2, v.now)) }) ∧
       (v.flag u Reg.MEM_CFG.MIRROR = false ∨ v.flag (uMem (partnerOf c)) Reg.MEM_TRAIN.TRAINED = false →
         Completes (.resync sender ch) s (v.wr u Reg.MEM_TRAIN.RESULT 9)))) ∧
    (Admits s sender u 0x090 → s.trainRun c ≠ none →
      Completes (.train sender ch) s (s.wr u Reg.MEM_TRAIN.OP 1) ∧ Completes (.resync sender ch) s (s.wr u Reg.MEM_TRAIN.OP 2)) ∧
    (∀ op t0 (found lane : BitVec 8), s.trainRun c = some (op, t0) →
      let v := ({ s with trainRuns := s.trainRuns.put none c none } : State).wr u Reg.MEM_TRAIN.LAST_US
        (min ((s.now - t0) / 1000) 0xFFFFFFFF)
      (op ≠ 1 → Completes (.memTrainDone ch found lane) s (v.resyncEnds c)) ∧
      (op = 1 → Completes (.memTrainDone ch found lane) s (v.trainEnds c (v.trainResult c found.toNat) lane.toNat)))

/-- R287, R292: the bytes of a channel write. -/
def Obligations.ChannelWritesStoreSelectedBytes : Prop :=
  ∀ (s : State) (base : Nat) (mask : BitVec 128) (d : LineData),
    let t := s.putLineAt base mask d
    (∀ n, n < 128 → t.byteAt (base + n) = if maskBit mask n then lineByte d.data n else s.byteAt (base + n)) ∧
    (∀ a, a < base ∨ base + 128 ≤ a → t.byteAt a = s.byteAt a)

/-- R203–R214: commands of the checkweigher. -/
def Obligations.CheckweigherCommandsAct : Prop :=
  ∀ (s : State) (sender : Sender) (tile : Fin 4) (src dst : BitVec 4) (k : Fin 48), s.hasPower →
    let t := tile.val
    let u := uTile t
    (Admits s sender u 0x088 → ∀ op c, (op, c) ∈ [(1, Instr.promote sender tile src dst), (2, .rotate sender tile src dst),
        (3, .relocate sender tile src dst)] →
      let a := ((s.wr u Reg.CKW_CMD.OP op).wr u Reg.CKW_CMD.SRC src.toNat).wr u Reg.CKW_CMD.DST dst.toNat
      let x := a.rd u Reg.CKW_CMD.SRC
      let y := a.rd u Reg.CKW_CMD.DST
      ((a.ckwRuns.look none t).isSome = true → Completes c s a) ∧
      (a.ckwRuns.look none t = none → a.rolesFit t op x y = false → Completes c s (a.wr u Reg.CKW_CMD.RESULT 2)) ∧
      (a.ckwRuns.look none t = none → a.rolesFit t op x y = true →
        let b := if op = 2 then a.askOff (slotCore t x) 5 else a.ackCore (slotCore t x)
        let v := if op = 3 then b else b.setCore (slotCore t y) { b.core (slotCore t y) with role := .promoting }
        Completes c s { v with
          ckwRuns := v.ckwRuns.put none t (some { op := op, src := x, dst := y, started := v.now, result := 1 }) })) ∧
    (∀ r (dstFails : Bool) (copy : CopyRead), s.ckwRuns.look none t = some r →
      let x := slotCore t r.src
      let y := slotCore t r.dst
      let ended := r.result == 6
      let finish (e : State × Nat) : State := (e.1.ckwEnd t e.2).heldResetNow x
      let c : Instr := .ckwCmdDone tile dstFails copy
      (r.op = 1 → Completes c s (finish (s.promoteEnd t x y ended 1 dstFails copy))) ∧
      (r.op = 3 → Completes c s (finish (s.relocateEnd t x ended copy))) ∧
      (r.op = 2 → (s.core x).role ≠ .failed → (s.core x).wu = none → Completes c s (finish (s.rotateEnd t x y dstFails))) ∧
      (r.op = 2 → (s.core x).role ≠ .failed → (s.core x).wu ≠ none → Completes c s s) ∧
      (r.op = 2 → (s.core x).role = .failed →
        let e := s.promoteEnd t x y ended 9 dstFails copy
        Completes c s (((e.1.ckwEnd t e.2).ackCore x).heldResetNow x))) ∧
    ((s.core k).role = .watch → (s.core k).watchEnd ≤ s.now →
      Completes (.watchEnd k) s (s.setCore k { s.core k with role := .active })) ∧
    (Admits s sender u 0x080 →
      Completes (.assign sender tile) s ((s.fencedWrite t 0).assign t) ∧
      (s.locked u = true → ∀ m, Completes (.fencedWrite sender tile m) s s) ∧
      (s.locked u = false → ∀ m : BitVec 12, Completes (.fencedWrite sender tile m) s (State.each (coresIn u) (fun k s =>
          if slotBit m.toNat (k % 12) ∧ ((s.core k).role = .pawn ∨ (s.unit (uCore k)).power = .off) then (s.fence (uCore k)).fenceSlot k
          else s) s)))

/-- R221, R222: the microcode loader. -/
def Obligations.MicrocodeCommandsAct : Prop :=
  ∀ (s : State) (sender : Sender) (k : Fin 48) (data : Word) (ecc : Bool), s.hasPower →
    let u := uSvcDie
    (Admits s sender u 0x810 →
      let a := s.rd u Reg.MCS_LDR_ADDR.ADDR / 8 * 8
      (s.mcsRun.isSome = true → Completes (.mcsLdrData sender data) s s) ∧
      (s.mcsRun = none → a < 0x8000 →
        let v := State.each (List.range 8) (fun n s =>
          { s with staging := s.staging.put 0 (a + n) ((wordBytes data).getD n 0) }) s.unstage
        Completes (.mcsLdrData sender data) s (v.wr u Reg.MCS_LDR_ADDR.ADDR (a + 8)))) ∧
    (Admits s sender u 0x800 →
      let a (op : Nat) : State := s.wr u Reg.MCS_LDR_CTL.OP op
      (s.mcsRun.isSome = true →
        Completes (.verify sender ecc) s (a 1) ∧ Completes (.activate sender) s (a 2) ∧ Completes (.mcsLdrDiscard sender) s (a 3) ∧
        Completes (.raiseFloor sender) s (a 4)) ∧
      (s.mcsRun = none →
        Completes (.verify sender ecc) s { a 1 with mcsRun := some (1, (a 1).verifyResult ecc) } ∧
        (let w : State := { a 2 with mcsRun := some (2, 0) }
         (a 2).flag u Reg.MCS_LDR_STAT.STAGED = true →
          (w.loadsRun = false → Completes (.activate sender) s w.activate) ∧
          (w.loadsRun = true → Completes (.activate sender) s w)) ∧
        ((a 2).flag u Reg.MCS_LDR_STAT.STAGED = false → Completes (.activate sender) s ((a 2).wr u Reg.MCS_LDR_CTL.RESULT 0x11)) ∧
        Completes (.mcsLdrDiscard sender) s
          { a 3 with mcsRun := some (3, if (a 3).flag u Reg.MCS_LDR_STAT.STAGED then 0 else 0x11) } ∧
        (let floor := (a 4).rd u Reg.MCS_LDR_STAT.FLOOR
         Completes (.raiseFloor sender) s { a 4 with
           mcsRun := some (4, if (a 4).rd u Reg.MCS_LDR_GEN.ACTIVE_GEN ≤ floor ∨ 64 ≤ floor then 0x13 else 0x12) }))) ∧
    (let idle : State := { s with mcsRun := none }
     (∀ r, s.mcsRun = some (1, r) → r ≠ 1 → Completes .mcsLdrDone s (idle.wr u Reg.MCS_LDR_CTL.RESULT r)) ∧
     (s.mcsRun = some (1, 1) →
       let v := (idle.wr u Reg.MCS_LDR_CTL.RESULT 1).wr u Reg.MCS_LDR_STAT.STAGED 1
       Completes .mcsLdrDone s (v.wr u Reg.MCS_LDR_GEN.STAGED_GEN (bunGen (v.staged 0x140)))) ∧
     (s.mcsRun = some (3, 0) → Completes .mcsLdrDone s idle.unstage) ∧
     (s.mcsRun = some (4, 0x12) →
       let v := idle.wr u Reg.MCS_LDR_CTL.RESULT 0x12
       Completes .mcsLdrDone s (v.wr u Reg.MCS_LDR_STAT.FLOOR (min (v.rd u Reg.MCS_LDR_GEN.ACTIVE_GEN) 64)))) ∧
    (s.mcsRun = some (2, 0) → s.loadsRun = false → Completes .mcsLdrDone s s.activate) ∧
    (s.mcsRun ≠ some (2, 0) → s.loadDue k.val = true ∨ s.mcsPending.contains k.val = true →
      ((List.range 12).all fun j => (s.patchRuns.look none (12 * (k.val / 12) + j)).isNone) = true →
      (s.core k).wu = none → s.powered (uCore k) = true →
      let due := s.patchDue.look 0 k.val
      Completes (.patchLoad k) s (State.wr
        { s with patchRuns := s.patchRuns.put none k.val (some (if due ≠ 0 then due else 2, s.now)) } (uMcs k) Reg.MCS_STAT.LOADING 1)) ∧
    (∀ cause since, s.patchRuns.look none k.val = some (cause, since) → Completes (.patchLoadDone k) s
      (((s.patchLoad k cause ((s.now - since) / 1000)).leaveRollout k false).rolloutNext.activateDue))

/-- R233–R254: commands of the Foreman. -/
def Obligations.ForemanCommandsAct : Prop :=
  ∀ (s : State) (sender : Sender) (k : Fin 48) (t : Fin 4), s.hasPower → s.operates uForeman = true →
    (∀ e, s.nextEvent = some e →
      let v : State := { s with fmnEvents := s.fmnEvents.erase e }
      (∀ n, e = .status n → Completes .foremanDecision s (v.reserveAgain.envShort.place (s.work n).nearDie)) ∧
      ((∀ n, e ≠ .status n) → Completes .foremanDecision s (v.reserveAgain.envShort.place none))) ∧
    (s.nextEvent = none → Completes .foremanDecision s s) ∧
    (let v := (State.each (s.spilled.filter fun n => decide ((s.work n).waitUntil ≤ s.timeBase)) (fun n s => s.endWait n 1 none) s).endDeadWaits
     (v.flag uForeman Reg.FMN_CTL.ENABLE = true → v.stopped = false → Completes .foremanTick s
       (((State.each allSeams (fun n s => (s.offForMin n).offForPriority n) v).offForQuantum).reserveAgain.envShort.place none)) ∧
     (v.flag uForeman Reg.FMN_CTL.ENABLE = false ∨ v.stopped = true → Completes .foremanTick s (v.reserveAgain.envShort.place none))) ∧
    (∀ reason, (s.core k).takeoff = some reason →
      let r := s.takeOff k reason
      Completes (.takeOff k) s ((r.1.losses r.2).coreFreed k)) ∧
    ((s.core k).takeoff = none → Completes (.takeOff k) s s) ∧
    (s.parkable k = true → (s.core k).reserved = none →
      1000 * s.rd uForeman Reg.FMN_PARK.OFF_US ≤ s.now - (s.core k).idleSince →
      s.rd uForeman Reg.FMN_PARK.SPARE_GATED
        < (allCores.filter fun j => j / 12 == k.val / 12 && (s.unit (uCore j)).power == .gated
            && ((s.heldFor k).isNone || s.heldFor j == s.heldFor k)).length →
      (∀ n, s.heldFor k = some n → s.readyOf n = []) →
      Completes (.corePark k) s ((s.coreOff k).count uForeman Reg.FMN_COUNT2.PARKS)) ∧
    ((s.unit (uTile t)).power = .run → (s.unit (uTile t)).fenced = false → (s.unit (uTile t)).resetting = false →
      s.flag (uTile t) Reg.UNIT_POWER.PIN = false →
      (∀ j ∈ allCores, j / 12 = t.val → (s.unit (uCore j)).power = .off ∧
        1000000 * s.rd uForeman Reg.FMN_PARK.RET_MS ≤ s.now - (s.core j).idleSince) →
      Completes (.tileRetention t) s (s.tileRetain t)) ∧
    (∀ num : BitVec 56, (s.work num.toNat).run = .waiting → 2 ≤ (s.work num.toNat).waitKind →
      (s.work num.toNat).waitUntil ≤ s.timeBase → s.spilled.contains num.toNat = false →
      Completes (.waitDeadline num) s (s.endWait num.toNat 1 none)) ∧
    (∀ (off : BitVec 12) (v : Word), isPolicy off.toNat = true → Admits s sender uForeman off.toNat →
      let n := off.toNat
      (0x400 ≤ n → s.sealed ((n - 0x400) / 0x20) = true → Completes (.fmnPolicyWrite sender off v) s s) ∧
      (¬(0x400 ≤ n ∧ s.sealed ((n - 0x400) / 0x20) = true) →
        let u := s.writeFields uForeman n v
        Completes (.fmnPolicyWrite sender off v) s ((u.trace 0x10 0xFF 0xFF 0xFF 0xFF 0xFF 0
          (beBytes 2 n ++ wordBytes (s.word uForeman n) ++ wordBytes (u.word uForeman n))).fmnEvent .policy))) ∧
    (∀ core : BitVec 8, Admits s sender uForeman 0x0F0 →
      let n := core.toNat
      let w := s.wr uForeman Reg.FMN_EVICT.CORE n
      (s.evict.isSome = true → Completes (.fmnEvict sender core) s w) ∧
      (s.evict = none → 48 ≤ n → Completes (.fmnEvict sender core) s (w.wr uForeman Reg.FMN_EVICT.RESULT 2)) ∧
      (s.evict = none → n < 48 → (w.core n).active = false →
        Completes (.fmnEvict sender core) s (w.wr uForeman Reg.FMN_EVICT.RESULT 3)) ∧
      (s.evict = none → n < 48 → (w.core n).active = true →
        let x := w.setBit uForeman Reg.FMN_HOLD.HOLD n true
        let y := x.setCore n { x.core n with reserved := none }
        Completes (.fmnEvict sender core) s ((State.askOff { y with evict := some n } n 6).evictCheck))) ∧
    (∀ m g rest, s.missReports = (m, g) :: rest →
      Completes .missReport s { s with missReports := rest, granCounts := countMiss s.granCounts m g }) ∧
    (s.flag uForeman Reg.FMN_MIG.MIG_EN = false → Completes .epochEnd s
      { s with granCounts := s.granCounts.map fun g => { g with counts := g.counts.map (· / 2) } }) ∧
    (s.flag uForeman Reg.FMN_MIG.MIG_EN = true →
      let l := s.granCounts.filterMap fun g => (s.migCandidate g).map fun n => (g, n)
      let order := sortBy (fun a b => decide (b.1.total < a.1.total) || (a.1.total == b.1.total && decide (a.1.gran ≤ b.1.gran))) l
      let v := State.each (order.take (s.rd uForeman Reg.FMN_MIG.MAX_MIG)) (fun e s => s.migStart e.1 e.2) s
      Completes .epochEnd s { v with granCounts := v.granCounts.map fun g => { g with counts := g.counts.map (· / 2) } }) ∧
    (∀ (gran : BitVec 19) m, (s.migrations.find? fun m => m.gran == gran.toNat) = some m →
      let gone : State := { s with migrations := s.migrations.filter fun x => x.gran != m.gran }
      let granule := beBytes 8 (m.gran * 65536)
      (s.serves m.src = false ∨ s.serves m.dst = false ∨ s.copyStops m = true → Completes (.migrationSwitch gran) s
        (((gone.stick uForeman Reg.FMN_ERR.MIG_ABORT).tallyEvent (some uForeman) 0x0E 0x02 7 0xFF (payload8 0 granule)).traceMigration
          0x0E m (migResult false))) ∧
      (s.serves m.src = true → s.serves m.dst = true → s.copyStops m = false → (s.homeTrans.any fun h => h.line / 512 == m.gran) = true →
        Completes (.migrationSwitch gran) s s) ∧
      (s.serves m.src = true → s.serves m.dst = true → s.copyStops m = false → (s.homeTrans.any fun h => h.line / 512 == m.gran) = false →
        Completes (.migrationSwitch gran) s
          ((((gone.migSwitch m).count uForeman Reg.FMN_COUNT2.MIGRATIONS).tallyEvent (some uForeman) 0x07 0x04 7 0xFF
            (payload8 1 (granule ++ beBytes 1 m.src ++ beBytes 1 m.dst))).traceMigration 0x0E m (migResult true))))

/-- R256–R266: commands of the seam controller. -/
def Obligations.SeamCommandsAct : Prop :=
  ∀ (s : State) (sender : Sender) (seam field : BitVec 8) (stop : Option (BitVec 20)), s.hasPower →
    let n := seam.toNat
    (Admits s sender uSeamCtl 0x080 →
      let began (op field : Nat) : State :=
        ((s.wr uSeamCtl Reg.SEAM_CMD.OP op).wr uSeamCtl Reg.SEAM_CMD.SEAM n).wr uSeamCtl Reg.SEAM_CMD.FIELD field
      let runs (t : State) (op result : Nat) (b : State) : State :=
        { t with seamCmd := some { op := op, seam := n, arg := b.rd uSeamCtl Reg.SEAM_ARG.ARG, result := result } }
      let command (c : Instr) (op field refusal : Nat) (act : State → State × Nat) : Prop :=
        let b := began op field
        (s.seamCmd.isSome = true → Completes c s b) ∧
        (s.seamCmd = none → refusal ≠ 0 → Completes c s (runs b op refusal b)) ∧
        (s.seamCmd = none → refusal = 0 → let v := act (runs b op 0 b); Completes c s (runs v.1 op v.2 b))
      (let b := began 1 0
       let r := b.seamRefusal n true [0] false
       command (.create sender seam) 1 0 (if r ≠ 0 then r else if b.mapBaseGood then 0 else 0x0A) fun u =>
         let v := (u.clearAllotments n).seamWr n Reg.SEAM_MAP.MAP_BASE ((u.clearAllotments n).seamArg 16 42)
         let w := (v.seamWr n Reg.SEAM_STATE.GEN (v.seamGen n + 1)).seamWr n Reg.SEAM_STATE.STATE 1
         (w.seamWr n Reg.SEAM_STATE.CAUSE 0, 1)) ∧
      (let b := began 2 0
       let r := b.seamRefusal n true [1] true
       let k := b.seamArg 44 63
       let short := match stop with | some e => decide (e.toNat < k) | none => false
       command (.grant sender seam stop) 2 0
         (if r ≠ 0 then r else if 524288 < b.seamLimit n + k then 0x0C else if b.freeGranules < k then 6 else 0)
         fun u => (grantLoop n (if short then (stop.getD 0).toNat else k) (List.replicate 16 0) u, if short then 0x0B else 1)) ∧
      (let b := began 3 0
       let r := b.seamRefusal n true [1] true
       command (.revoke sender seam) 3 0
         (if r ≠ 0 then r else if b.liveOf n ≠ 0 ∨ b.heldBy n ≠ 0 then 3 else if b.seamLimit n < b.seamArg 44 63 then 0x0C else 0)
         fun u => (u.revokeTop n (u.seamArg 44 63), 1)) ∧
      (let b := began 4 field.toNat
       let r := b.seamRefusal n true [1] true
       command (.set sender seam field) 4 field.toNat (if r ≠ 0 then r else b.setCheck n field.toNat)
         fun u => (u.setAllotment n field.toNat, 1)) ∧
      (let b := began 5 0
       let r := b.seamRefusal n false [1] true
       command (.seal sender seam) 5 0 (if r ≠ 0 then r else if b.sealable n then 0 else 8)
         fun u => (u.seamWr n Reg.SEAM_STATE.SEALED 1, 1)) ∧
      (let b := began 6 0
       command (.checkstop sender seam) 6 0 (b.seamRefusal n false [1] false) fun u => (u.checkstopNow n 4, 1)) ∧
      (let b := began 7 0
       command (.reset sender seam) 7 0 (b.seamRefusal n false [1, 2] false) fun u => (u.seamResetSteps n, 1)) ∧
      (let b := began 8 0
       command (.destroy sender seam) 8 0 (b.seamRefusal n false [1, 2] false) fun u => (u.seamResetSteps n, 1))) ∧
    (∀ c, s.seamCmd = some c →
      let a : State := { s with seamCmd := none }
      let v := if c.result = 1 ∧ c.op = 7 then (a.seamResetEnd c.seam).count uSeamCtl (Reg.SEAM_COUNT.RESETS.ix c.seam)
        else if c.result = 1 ∧ c.op = 8 then a.destroyEnd c.seam else a
      let w := v.wr uSeamCtl Reg.SEAM_CMD.RESULT c.result
      let gen := if c.seam < 64 then w.seamGen c.seam else 0
      let y := w.tallyEvent (some uSeamCtl) 0x04 c.op 7 (if c.seam < 64 then c.seam else 0xFF)
        (payload8 c.result (beBytes 1 c.result ++ beBytes 4 gen ++ beBytes 8 c.arg))
      Completes .seamCmdDone s
        (State.each y.heldStops (fun h s => s.checkstopNow h.1 h.2) { y with heldStops := [] }))

/-- R304–R310, R314: the channel commands of an exchange. -/
def Obligations.ChannelCommandEntriesArePerformed : Prop :=
  ∀ (s : State) (die : Fin 2) (ctx : Fin 131072), s.hasPower →
    let d := die.val
    let key := exKey d ctx.val
    let x := s.exch key
    (x.st = .start →
      let c : Instr := .entryFetch die ctx
      (256 ≤ x.index → Completes c s (s.finish key 0x10 5)) ∧
      (x.index < 256 → s.inAllotment x.seam x.cur 16 = false → Completes c s (s.finish key 0x10 8)) ∧
      (let r := s.agentRead x.seam x.cur 16
       x.index < 256 → s.inAllotment x.seam x.cur 16 = true → r.2.2 = .done →
        let v := r.1
        let w0 := wordOf r.2.1 0
        let w1 := wordOf r.2.1 1
        (∀ dev, v.entryBad d x w0 w1 = some dev →
          Completes c s ((v.setExch key { x with word0 := w0, word1 := w1, moved := 0 }).finish key 0x10 dev)) ∧
        (v.entryBad d x w0 w1 = none →
          (entrySecured w0 = true → entryLink w0 = true → Completes c s (v.setExch key
            { x with sec := some (w0, w1), index := x.index + 1, cur := x.cur + 16, moved := 0 })) ∧
          (entrySecured w0 = true → entryLink w0 = false → Completes c s (v.setExch key
            { x with st := .journal, word0 := w0, word1 := w1, moved := 0, tgt := none })) ∧
          (entrySecured w0 = false → Completes c s (v.setExch key
            { x with st := .active, word0 := w0, word1 := w1, moved := 0, placed := 0, performed := false, entryAt := v.now }))))) ∧
    (x.st = .active → x.performed = false →
      let n := entryCount x.word0
      (entryCmd x.word0 = 1 →
        Completes (.write die ctx) s ((s.submitNvme key x .write).setExch key { x with performed := true, moved := n })) ∧
      (entryCmd x.word0 = 2 → ∀ data : List Byte,
        let bytes := data.take n
        let v := (s.submitNvme key x .read).setExch key { x with performed := true, moved := bytes.length }
        (entryDiscard x.word0 = true → Completes (.read die ctx data) s v) ∧
        (entryDiscard x.word0 = false → entryLink x.word0 = true →
          let r := v.agentWrite x.seam x.word1.toNat bytes (fun _ => none)
          Completes (.read die ctx data) s (r.1.agentFault x.seam r.2)) ∧
        (entryDiscard x.word0 = false → entryLink x.word0 = false →
          let r := v.agentWrite x.seam x.word1.toNat bytes (fun n => v.hintAt x.hint n)
          Completes (.read die ctx data) s (r.1.agentFault x.seam r.2))) ∧
      (entryCmd x.word0 = 3 →
        Completes (.flush die ctx) s ((s.submitNvme key x .flush).setExch key { x with performed := true })) ∧
      (entryCmd x.word0 = 7 → Completes (.locate die ctx) s (s.setExch key { x with performed := true, lba := x.word1.toNat })) ∧
      (entryCmd x.word0 = 8 → Completes (.nop die ctx) s (s.setExch key { x with performed := true })) ∧
      (entryCmd x.word0 = 9 → ∀ w0 w1, x.sec = some (w0, w1) → Completes (.target die ctx) s (s.setExch key
        { x with st := .journal, tgt := some (n, x.word1.toNat), word0 := w0, word1 := w1, sec := none, performed := true })) ∧
      (let r := s.agentRead x.seam x.word1.toNat n
       entryCmd x.word0 = 0x11 → r.2.2 = .done →
        let m := entryModifier x.word0
        let w := r.1.setExch key { x with performed := true, moved := n }
        Completes (.send die ctx) s { w with outbox := w.outbox ++
          [Out.frame (pathLane (r.1.pathOf key)) (withFcs (if m = 0xFFFF then r.2.1 else overlay r.2.1 m (wordBytes x.seq)))] }) ∧
      (entryCmd x.word0 = 0x12 → wantedFrames x.word0 = x.placed + 1 → entryDiscard x.word0 = false → entryLink x.word0 = true →
        ∀ lane frame rest, s.ethQueue.look [] x.sch = (lane, frame) :: rest →
        let bytes := placedFrame lane frame
        x.moved + bytes.length ≤ n →
        let r := s.agentWrite x.seam (x.word1.toNat + x.moved) bytes (fun _ => none)
        let w := r.1.agentFault x.seam r.2
        let t := State.pfcCheck { w with ethQueue := w.ethQueue.put [] x.sch rest } lane
        (t.exch key).st = .active → Completes (.receive die ctx) s (t.setExch key
          { x with moved := x.moved + bytes.length, placed := x.placed + 1, performed := true, lba := n - (x.moved + bytes.length) })))

/-- R313–R315: the ends of channel commands and exchanges. -/
def Obligations.ExchangeEndsAndFailuresAct : Prop :=
  ∀ (s : State) (die : Fin 2) (ctx : Fin 131072) (slot : Fin 16384) (second : Bool), s.hasPower →
    let d := die.val
    let key := exKey d ctx.val
    let x := s.exch key
    (x.performed = true →
      (x.st = .active ∨ x.st = .halting → Completes (.entryEnd die ctx .success) s (s.entryDone key x)) ∧
      (∀ sct code, x.st = .halting → Completes (.entryEnd die ctx (.error sct code)) s (s.finish key x.endCode 0)) ∧
      (∀ sct code, x.st = .active → sct = 3 → Completes (.entryEnd die ctx (.error sct code)) s (s.pathFail key false)) ∧
      (∀ sct code, x.st = .active → sct ≠ 3 →
        Completes (.entryEnd die ctx (.error sct code)) s (s.finish key 0x12 code.toNat sct.toNat))) ∧
    Completes (.pathFailure (.exchange die ctx)) s (s.pathFail key false) ∧
    Completes (.pathFailure (.target slot second)) s (s.targetFail slot second) ∧
    (x.st = .active → x.entryAt + s.entryLimit d ≤ s.now → Completes (.entryTimeout (.exchange die ctx)) s (s.pathFail key true)) ∧
    (∀ w, s.targetOf slot second = some w → w.since + s.entryLimit (s.targetLane w / 64) ≤ s.now →
      Completes (.entryTimeout (.target slot second)) s
        ((s.count (uCtx (s.targetLane w / 64)) Reg.CHS_COUNT2.TIMEOUTS).targetFail slot second)) ∧
    (x.st = .halting → x.haltAt + 1000000 ≤ s.now → Completes (.haltingTimeout die ctx) s (s.finish key x.endCode 0)) ∧
    (x.st = .halting → Completes (.abortConfirmed die ctx) s (s.finish key x.endCode 0)) ∧
    Completes (.lateDiscard die) s (s.count (uCtx d) Reg.CHS_COUNT3.LATE_DISCARD) ∧
    (x.st ≠ .idle → s.storeAvail d = true →
      Completes (.orphaning die ctx) s ((s.stick (uCtx d) Reg.CHS_ERR.CTX_UNCORR).takeover key 0x26)) ∧
    (x.st ≠ .idle → s.storeAvail d = false →
      Completes (.orphaning die ctx) s ((s.wr (uCtx (1 - d)) Reg.CHS_ERR.PEER_LOST 1).takeover key 0x22)) ∧
    (s.storeAvail 0 = true → s.storeAvail 1 = true → ∀ key, (s.exchanges.filter fun e => exDie e.1 == d && !e.2.paired).map Prod.fst = [key] →
      let y := s.exch key
      ∀ p, s.peers.look none (peerKey d y.sch) = some p →
        Completes (.unpairedRepair die) s ((State.setPeer { s with peers := s.peers.put none (peerKey d y.sch) none } (1 - d) y.sch p).setExch
          key { y with paired := true }))

/-- R329–R344: the journal. -/
def Obligations.JournalCommandsAct : Prop :=
  ∀ (s : State) (sender : Sender) (die bank : Fin 2) (ctx : Fin 131072) (slot : Fin 16384) (second : Bool), s.hasPower →
    let d := die.val
    let key := exKey d ctx.val
    let x := s.exch key
    (x.st = .journal → s.commitOf key = none →
      let c : Instr := .journalCommit die ctx
      (∀ dev, s.commitCheck d x.seam x.count = some dev → dev ≠ 2 → Completes c s (s.refuseCommit key dev)) ∧
      (s.commitCheck d x.seam x.count = none →
        let n := (lowestFree s.usedSlots 16384 1).getD 0 0
        let e := s.newEntry key
        let p := s.putEntry n e
        let a : State := { p with
          jcount := s.jcount + 1
          commits := s.commits ++ [{ ex := key, slot := n, sentAt := s.now, acked := !e.xmod, orphan := false }] }
        let r := a.agentRead x.seam x.word1.toNat e.len
        (r.2.2 ≠ .done → Completes c s ((r.1.agentFault x.seam r.2.2).refuseCommit key 8)) ∧
        (r.2.2 = .done →
          let w := State.each (List.range 2) (fun b s => s.putPayload b e.pages r.2.1) r.1
          Completes c s (if e.xmod then w.sendCopy d e r.2.1 else w)))) ∧
    (∀ c, s.commitOf key = some c →
      let e := s.jentry c.slot
      let i : Instr := .commitPoint die ctx
      (c.orphan = false → x.haltNoted = true → Completes i s (((s.freeSlot c.slot).dropCommit key).finish key 0x04 0)) ∧
      (c.orphan = false → x.haltNoted = false →
        (s.powerFailing = true → Completes i s (s.refuseCommit key 7)) ∧
        (s.powerFailing = false → s.bankAvail 0 = false ∨ s.bankAvail 1 = false → Completes i s (s.refuseCommit key 3)) ∧
        (s.powerFailing = false → s.bankAvail 0 = true → s.bankAvail 1 = true → c.acked = true →
          let v := ((s.putEntry c.slot { e with marked := true }).dropCommit key).bump (uBank d) Reg.JNL_COUNT.COMMITTED
          Completes i s (((v.setExch key { v.exch key with moved := e.len }).answerCommit key false e 0x02 0).startTargets c.slot))) ∧
      (let us := s.rd (uBank d) Reg.JNL_CFG.PEER_US
       c.acked = false → c.sentAt + (if us = 0 then 4 else us) * 1000 ≤ s.now →
        Completes (.peerAckTimeout die ctx) s (s.refuseCommit key 6))) ∧
    (∀ w, s.targetOf slot second = some w →
      let done (r : NvmeEnd) : Instr := .targetWriteDone slot second r
      (∀ sct code, sct = 3 → Completes (done (.error sct code)) s (s.targetFail slot second)) ∧
      (∀ sct code, sct ≠ 3 → Completes (done (.error sct code)) s ((s.dropTarget slot second).holdEntry slot)) ∧
      (let v := s.dropTarget slot second
       let e := v.jentry slot
       let e' := if second then { e with wr1 := true } else { e with wr0 := true }
       let u := v.putEntry slot e'
       Completes (done .success) s (if e'.wr0 ∧ (e'.wr1 = true ∨ e'.ntgt = 1) then u.retireEntry slot else u))) ∧
    (Admits s sender (uBank bank) Reg.JNL_CMD.START.off →
      let op (n : Nat) : State := s.wr (uBank bank) Reg.JNL_CMD.OP n
      let b := bank.val
      (s.jcmd.isSome = true → Completes (.restore sender bank) s (op 1) ∧ Completes (.redrive sender bank) s (op 2) ∧
        Completes (.discard sender bank) s (op 3)) ∧
      (s.jcmd = none →
        ((op 1).restoreWaits = true → Completes (.restore sender bank) s { op 1 with jcmd := some (1, 0, b) }) ∧
        ((op 1).restoreWaits = false →
          let r := (op 1).doRestore (uBank b)
          Completes (.restore sender bank) s { r.1 with jcmd := some (1, r.2, b) }) ∧
        (let arg := (op 2).rd (uBank b) Reg.JNL_ARG.ARG
         (arg = 0 → let v := State.each ((op 2).liveSlots.filter fun n => ((op 2).jentry n).held) (fun n s => s.redriveEntry n) (op 2)
           Completes (.redrive sender bank) s { v with jcmd := some (2, 1, b) }) ∧
         (arg ≠ 0 → (op 2).slotOfEntry arg false = none → Completes (.redrive sender bank) s { op 2 with jcmd := some (2, 4, b) }) ∧
         (∀ n, arg ≠ 0 → (op 2).slotOfEntry arg false = some n → ((op 2).jentry n).held = true →
           Completes (.redrive sender bank) s { (op 2).redriveEntry n with jcmd := some (2, 1, b) }) ∧
         (∀ n, arg ≠ 0 → (op 2).slotOfEntry arg false = some n → ((op 2).jentry n).held = false →
           Completes (.redrive sender bank) s { op 2 with jcmd := some (2, 3, b) })) ∧
        Completes (.discard sender bank) s ((op 3).jnlDiscard b))) ∧
    (∀ result b, s.jcmd = some (1, result, b) → result ≠ 0 →
      let v : State := { s.wr (uBank b) Reg.JNL_CMD.RESULT result with jcmd := none }
      let w : State := { v with restored := v.restored || result == 1 || result == 5 || result == 6 }
      Completes .jnlCmdDone s (w.tallyEvent (some (uBank b)) 0x09 0x04 7 0xFF
        (payload8 result (beBytes 8 0 ++ beBytes 2 (w.rd (uBank b) Reg.JNL_COUNT2.ONE_SIDED))))) ∧
    (∀ result b, s.jcmd = some (3, result, b) →
      Completes .jnlCmdDone s { s.wr (uBank b) Reg.JNL_CMD.RESULT result with jcmd := none }) ∧
    (∀ b, s.jcmd = some (2, 1, b) → s.targetWrites = [] →
      let result := if s.liveSlots.any fun n => (s.jentry n).held then 5 else 1
      Completes .jnlCmdDone s { s.wr (uBank b) Reg.JNL_CMD.RESULT result with jcmd := none }) ∧
    (s.draining.look false d = true → (s.draining.put false d false).look false (1 - d) = true →
      let live := (s.jslots.filter fun e => e.1 / 16384 == d && e.2.live).map Prod.snd
      let m : DrainImage := { pcycle := s.pcycle, next := s.jcount % 2 ^ 32, whole := true, entries := live.map fun e => (e, s.payload d e) }
      Completes (.drainDone die) s (State.wr
        { s with draining := s.draining.put false d false, images := s.images.put none d (some m) } (uDrain d) Reg.DRN_LAST.LAST_US (drainUs m.size)))

/-- R383–R395: lane links and the coupling link layer. -/
def Obligations.LinksAndCouplingLayerAct : Prop :=
  ∀ (s : State) (b : BitVec 7) (g lane : Fin 4) (head : FrameHead), s.hasPower →
    let n := b.toNat
    let l := s.link n
    let c := s.cpl g
    Completes (.linkDown b) s (s.linkLost n) ∧
    (l.up = false → s.isEth n = false → (s.trainable n).isSome = true → l.downAt + 100000000 ≤ s.now →
      Completes (.retrainAttempt b) s (s.setLink n { l with downAt := s.now })) ∧
    (∀ code (width : Fin 5) (rate : BitVec 8), s.trainable n = some code → l.up = false →
      (s.isEth n = true → width.val = code) →
      (s.isEth n = false → width.val ≤ code ∧ 1 ≤ rate.toNat ∧ rate.toNat ≤ s.rd (laneUnit n) Reg.LNK_CFG.MAXRATE) →
      Completes (.linkUp b width rate) s
        (s.setLink n { l with up := true, degraded := decide (width.val < code), width := width.val, rate := rate.toNat })) ∧
    (l.up = true → s.isEth n = false → ∀ addr : Word,
      let tag := addr.field 2 7
      let a := addr.field 16 63
      (∀ len, addr.field 0 1 = 1 →
        let i : Instr := .inboundRequest b addr (.read len)
        (addr.field 8 15 ≠ 0 ∨ s.inboundAccepts n tag a len.toNat = false → Completes i s (s.inboundRefuse n)) ∧
        (let r := s.agentRead tag a len.toNat
         addr.field 8 15 = 0 → s.inboundAccepts n tag a len.toNat = true →
          (r.2.2 = .done → Completes i s { r.1 with outbox := r.1.outbox ++ [Out.completion n true r.2.1] }) ∧
          (r.2.2 ≠ .done → Completes i s ((r.1.agentFault tag r.2.2).inboundRefuse n)))) ∧
      (∀ data, addr.field 0 1 = 1 →
        let i : Instr := .inboundRequest b addr (.write data)
        (addr.field 8 15 ≠ 0 ∨ s.inboundAccepts n tag a data.length = false → Completes i s (s.inboundRefuse n)) ∧
        (let r := s.agentWrite tag a data (fun _ => none)
         addr.field 8 15 = 0 → s.inboundAccepts n tag a data.length = true →
          (r.2 = .done → Completes i s r.1) ∧ (r.2 ≠ .done → Completes i s ((r.1.agentFault tag r.2).inboundRefuse n)))) ∧
      (∀ data, addr.field 0 1 = 2 →
        let h := n / 64 * 32 + addr.field 48 52
        let v := s.setLink n { l with
          rx := l.rx ++ [{ bytes := [], msi := some ((data.getD 0 0).toNat + 256 * (data.getD 1 0).toNat), hauler := some h }] }
        Completes (.inboundRequest b addr (.write data)) s
          (v.setHauler h { v.hauler h with evtMisc := (v.hauler h).evtMisc ||| hbit 0 })) ∧
      (∀ req, addr.field 0 1 = 0 ∨ addr.field 0 1 = 3 → Completes (.inboundRequest b addr req) s (s.inboundRefuse n))) ∧
    (l.up = true → s.isEth n = true → ∀ frame : List Byte,
      let u := laneUnit n
      let f := frame.take (frame.length - 4)
      let size := 524288 * (if s.widthAt n = some 2 then 4 else 1)
      let i : Instr := .frameReceive b frame
      let sized := 64 ≤ frame.length ∧ frame.length ≤ 9604
      (¬sized → Completes i s (s.bump u (Reg.LNK_ETH_STAT.RX_LEN.ix (n % 4)))) ∧
      (sized → withFcs f ≠ frame → Completes i s (s.bump u (Reg.LNK_ETH_STAT.RX_FCS.ix (n % 4)))) ∧
      (sized → withFcs f = frame → badChecksum f = true → Completes i s (s.bump u (Reg.LNK_ETH_STAT.RX_CSUM.ix (n % 4)))) ∧
      (∀ sch, sized → withFcs f = frame → badChecksum f = false → recNum f 12 2 ≠ 0x8808 → s.bufferedAll n + f.length ≤ size →
        s.frameTaker n f = some sch → Completes i s
          (State.pfcCheck { s with ethQueue := s.ethQueue.put [] sch (s.ethQueue.look [] sch ++ [(n, f)]) } n))) ∧
    (c.up = true →
      Completes (.idle g head) s (s.cplAck g head) ∧
      Completes (.nak g head) s ((s.cplReplay g head.ack.toNat).cplSettle g) ∧
      (c.heard + 10000 ≤ s.now → Completes (.couplingSilence g) s ((s.cplDown g).cplSettle g)) ∧
      Completes (.couplingFrameCrcError g) s ((s.setCpl g { c with heard := s.now }).cplPlain g 0x01 0 0 []) ∧
      (∀ type : BitVec 8, knownType type.toNat = false →
        Completes (.reservedFrameType g type) s ((s.creditError g).cplSettle g))) ∧
    (∀ c0 c1 c2 c3 : BitVec 16, c.up = false → s.flag (uCpl g) Reg.CPL_LINK.ENABLE = true → s.operates (uCpl g) = true →
      s.stopped = false → 2 ≤ c.good →
      let credits : Table Nat := (((Table.put 0 [] 0 c0.toNat).put 0 1 c1.toNat).put 0 2 c2.toNat).put 0 3 c3.toNat
      Completes (.init g c0 c1 c2 c3) s
        (((s.setCpl g { Coupling.reset with up := true, failed := c.failed, credits := credits, heard := s.now }).cplPlain g 0x02 0 0
          (beBytes 2 64 ++ beBytes 2 2048 ++ beBytes 2 64 ++ beBytes 2 64)).enumOnUp g)) ∧
    (let v := (s.setCpl g { c with failed := c.failed ||| (1#4 <<< lane.val) }).stick (uCpl g) Reg.CPL_ERR.LANE_FAIL
     (2 ≤ (v.cpl g).good → Completes (.couplingLaneFail g lane) s v) ∧
     ((v.cpl g).good < 2 → Completes (.couplingLaneFail g lane) s ((v.cplDown g).cplSettle g)))

/-- R395–R400: the frames between coupled modules. -/
def Obligations.CouplingFramesAct : Prop :=
  ∀ (s : State) (sender : Sender) (g : Fin 4) (head : FrameHead), s.hasPower →
    let took (vc bytes : Nat) : Bool := (s.cplTake g head vc ((bytes + 31) / 32)).2
    let taken (vc bytes : Nat) : State := (s.cplTake g head vc ((bytes + 31) / 32)).1
    (∀ (lot : BitVec 40) (cxid : BitVec 16) (group : BitVec 8) (lots : List (BitVec 40)), took 0 (8 + 5 * lots.length) = true →
      let w := taken 0 (8 + 5 * lots.length)
      let c := w.cpl g
      let c' := { c with peerLot := lot.toNat, peerGroup := group.toNat, peerCxid := cxid.toNat, peerLots := lots.map BitVec.toNat }
      let i : Instr := .hello g head lot cxid group lots
      (c = c' → Completes i s w.enumCheck) ∧
      (c ≠ c' → (w.setCpl g c').flag uModule Reg.CPL_CX.EN = false → (w.setCpl g c').rd uModule Reg.CPL_ENUM.RESULT ≠ 1 →
        Completes i s (w.setCpl g c').enumCheck)) ∧
    (∀ l0 l1 l2 l3 : BitVec 40, took 0 20 = true →
      let w := taken 0 20
      let lots := ([l0, l1, l2, l3].map BitVec.toNat).filter (· != 0)
      let mine := w.flag uModule Reg.CPL_CX.EN = true ∧ w.rd uModule Reg.CPL_CX.CXID ≠ 0 ∧
        (w.cpl g).peerCxid = w.rd uModule Reg.CPL_CX.CXID ∧ lots.contains ownLot = true
      let done := w.rd uModule Reg.CPL_ENUM.RESULT = 1 ∧ w.complex.lots = lots
      (mine → ¬done → Completes (.roster g head l0 l1 l2 l3) s (w.enumDone lots)) ∧
      (¬mine ∨ done → Completes (.roster g head l0 l1 l2 l3) s w)) ∧
    (∀ (sticky live : Word) m,
      let w := taken 0 16
      took 0 16 = true → w.memberAt g = some m →
      let v := (if sticky = 0 then 0 else 2) + (if live = 0 then 0 else 1)
      Completes (.status g head sticky live) s { w with complex := { w.complex with summary := w.complex.summary.put 0 m v } }) ∧
    (s.complex.lots ≠ [] →
      let now := (s.stickyWord uModule, s.liveWord uModule)
      let v : State := { s with complex := { s.complex with told := some now } }
      Completes .statusPeriod s (State.each v.joined (fun g s => s.cplSend g 0x12 0 (wordBytes now.1 ++ wordBytes now.2)) v)) ∧
    (∀ (header : BitVec 1024) m,
      let w := taken 1 128
      took 1 128 = true → w.memberAt g = some m →
      let bytes := lineBytes header
      let e := entryOfBytes bytes
      let a := State.each (w.jrecv.filter fun r => r.group == g.val) (fun r s => s.freeSlot r.slot) w
      let v : State := { a with jrecv := a.jrecv.filter fun r => r.group != g.val }
      let i : Instr := .jmHdr g head header
      let again := (v.copySlot? m e.num).toList
      let f := State.each again (fun n s => s.freeSlot n) v
      let y : State := { f with jrecv := f.jrecv.filter fun r => !again.contains r.slot }
      let dup := (v.copySlot? m e.num).any fun n => (v.jentry n).marked
      (dup = true → Completes i s (v.cplSend g 0x32 0 (beBytes 8 e.num))) ∧
      (dup = false → y.copyRoom e.len = false → Completes i s (y.cplSend g 0x33 1 (beBytes 8 e.num))) ∧
      (dup = false → y.copyRoom e.len = true →
        let n := (lowestFree y.usedSlots 16384 1).getD 0 0
        let x := y.putEntry n
          { e with seam := 0x40 + m, pages := lowestFree y.usedPages 16384 (pagesOf e.len), used := true, marked := false }
        Completes i s { x with
          jrecv := x.jrecv ++ [{ group := g.val, slot := n, header := bytes, chunks := head.tag.toNat, got := [] }] })) ∧
    (∀ (payload : List Byte) r,
      let w := taken 1 payload.length
      took 1 payload.length = true → (w.jrecv.find? fun r => r.group == g.val) = some r →
      let r' := { r with got := r.got.put [] head.tag.toNat (payload.take 256) }
      let rest := w.jrecv.filter fun q => q.group != g.val
      let i : Instr := .jmData g head payload
      (r'.got.length < r'.chunks → Completes i s { w with jrecv := rest ++ [r'] }) ∧
      (r'.chunks ≤ r'.got.length →
        let v : State := { w with jrecv := rest }
        let e := v.jentry r'.slot
        (v.bankAvail 0 = false ∨ v.bankAvail 1 = false →
          Completes i s ((v.freeSlot r'.slot).cplSend g 0x33 2 (beBytes 8 e.num))) ∧
        (v.bankAvail 0 = true → v.bankAvail 1 = true →
          let bytes := ((List.range r'.chunks).flatMap fun n => r'.got.look [] n).take e.len
          let x := State.each (List.range 2) (fun d s => s.putPayload d e.pages bytes) v
          Completes i s ((x.putEntry r'.slot { e with marked := true }).cplSend g 0x32 0 (beBytes 8 e.num))))) ∧
    (∀ (num : Word) c,
      let w := taken 2 8
      took 2 8 = true → w.commitNumbered num.toNat = some c →
      Completes (.jmAck g head num) s { w with commits := w.commits.map fun x => if x.ex = c.ex then { x with acked := true } else x } ∧
      (c.acked = false → Completes (.jmNack g head num) s (w.refuseCommit c.ex 6))) ∧
    (∀ (num : Word) m n,
      let w := taken 1 8
      took 1 8 = true → w.memberAt g = some m → w.copySlot? m num.toNat = some n →
      Completes (.jmRetire g head num) s (if (w.jentry n).marked then w.freeSlot n else w)) ∧
    (∀ nums : List Word, took 1 (8 * nums.length) = true → Completes (.jmQuery g head nums) s
      (State.each (nums.take 32) (fun n s => if (s.slotOfEntry n.toNat false).isSome then s else s.cplSend g 0x34 0 (wordBytes n))
        (taken 1 (8 * nums.length)))) ∧
    (∀ (result : RemoteEnd) tag since,
      let w := taken 3 9
      took 3 9 = true → w.complex.access = some (tag, since) → tag = head.tag.toNat →
      let v : State := { w with complex := { w.complex with access := none } }
      let i : Instr := .pageRsp g head result
      (∀ d, result = .data d → Completes i s ((v.wr uComplex Reg.CPL_RA_DATA.DATA d.toNat).wr uComplex Reg.CPL_RA_CTL.RESULT 1)) ∧
      (result = .done → Completes i s (v.wr uComplex Reg.CPL_RA_CTL.RESULT 1)) ∧
      (result = .error → Completes i s (v.wr uComplex Reg.CPL_RA_CTL.RESULT 2)) ∧
      (result = .refused → Completes i s (v.wr uComplex Reg.CPL_RA_CTL.RESULT 3))) ∧
    (∀ (num : Word) (result : RemoteEnd),
      (took 2 8 = false → Completes (.jmAck g head num) s (taken 2 8) ∧ Completes (.jmNack g head num) s (taken 2 8)) ∧
      (took 3 9 = false → Completes (.pageRsp g head result) s (taken 3 9))) ∧
    (Admits s sender uModule Reg.CPL_ENUM.REENUM.off → Completes (.reenum sender) s s.enumerate) ∧
    (∀ member : Fin 4, Admits s sender uModule Reg.CPL_ADOPT.START.off →
      let v := s.wr uModule Reg.CPL_ADOPT.MEMBER member.val
      Completes (.adopt sender member) s (v.wr uModule Reg.CPL_ADOPT.OP 1).adoptStart ∧
      Completes (.cplAdoptDiscard sender member) s (v.wr uModule Reg.CPL_ADOPT.OP 2).adoptStart) ∧
    (Admits s sender uComplex Reg.CPL_RA_CTL.START.off →
      Completes (.cplRaRead sender) s ((s.wr uComplex Reg.CPL_RA_CTL.OP 1).remoteStart sender 1) ∧
      Completes (.cplRaWrite sender) s ((s.wr uComplex Reg.CPL_RA_CTL.OP 2).remoteStart sender 2)) ∧
    (∀ tag since, s.complex.access = some (tag, since) → since + 5000 ≤ s.now →
      Completes .cplRaTimeout s (State.wr { s with complex := { s.complex with access := none } } uComplex Reg.CPL_RA_CTL.RESULT 4))

/-- R405–R416: jobs of the engines. -/
def Obligations.EngineJobsArePerformed : Prop :=
  ∀ (s : State) (e : EngineId) (seam : Fin 64) (m : Fin 4) (n : Fin 8), s.hasPower →
    (s.serves1 e seam = true → s.job e seam = none →
      let r := s.agentRead seam (s.headAddr e seam) 128
      let line := r.2.1
      ∀ c ∈ [Instr.ringPoll e seam, .jobPickup e seam],
        (r.2.2 ≠ .done → Completes c s (r.1.agentFault seam r.2.2)) ∧
        (r.2.2 = .done → fieldAt line 0x78 1 < 128 → Completes c s r.1) ∧
        (r.2.2 = .done → 128 ≤ fieldAt line 0x78 1 →
          let v := r.1.freeCheck.1
          let check := r.1.freeCheck.2
          let j : Job :=
            { addr := s.headAddr e seam, line := line, performed := false, status := 0, outLen := 0, check := check, saved := false }
          let j := match descStatus e j with | some st => j.ends st 0 check | none => j
          let f := (e.ring seam).2.2
          let w := v.wr e.unit f ((v.rd e.unit f + 1) % 2 ^ v.jobK e seam)
          Completes c s ((w.setEngine e { w.engine e with seamNow := some seam.val, lastSeam := seam.val }).setJob e seam (some j)))) ∧
    (∀ j, s.serves1 e seam = true → s.job e seam = some j → j.performed = true → j.saved = false →
      let v := ((s.writeEnd seam j j.status (s.jobHint j)).countJob e j.status).setJob e seam none
      Completes (.jobEnd e seam) s
        (if j.flags / 128 = 1 then v.pendSeam seam { cls := 4, code := 0x1003, xaddr := BitVec.ofNat 64 j.addr } else v)) ∧
    (s.operates e.unit = true →
      let c := (s.engine e).seamNow
      let q := ((s.engine e).quantum + 1) % 32
      let save (u : State) : State := match c with | some n => u.saveJob e n | none => u
      (s.resMode = true →
        let v := (save s).setEngine e { (save s).engine e with quantum := q }
        let o := if v.quantumOwner e q = 0xFF then 0 else v.quantumOwner e q
        let x := v.applyRing e o
        (o < 64 → x.serving e = true → Completes (.quantumEnd e) s ((x.turnTo e (some o)).restoreJob e o)) ∧
        (64 ≤ o ∨ x.serving e = false → Completes (.quantumEnd e) s (x.turnTo e none))) ∧
      (s.resMode = false →
        let v := s.setEngine e { s.engine e with quantum := q }
        let x := State.each ((s.engine e).ringWrites.map Prod.fst) (fun n s => s.applyRing e n) v
        let n := if x.serving e then x.nextRing e else none
        (n = none → c = none → Completes (.quantumEnd e) s (x.turnTo e none)) ∧
        (n = none → c ≠ none → Completes (.quantumEnd e) s ((save x).turnTo e none)) ∧
        (∀ m, n = some m → c = some m → Completes (.quantumEnd e) s ((x.turnTo e (some m)).restoreJob e m)) ∧
        (∀ m, n = some m → c ≠ some m → Completes (.quantumEnd e) s (((save x).turnTo e (some m)).restoreJob e m)))) ∧
    (let e := EngineId.crusher m
     ∀ j src dict,
      let r := s.jobRead seam j.src j.srcLen
      let d := r.1.jobDict seam j
      let w := d.1
      let c := j.optBits 0 1
      r.2 = .bytes src → (d.2 = none ∧ dict = none) ∨ (∃ l, d.2 = some (.bytes l) ∧ dict = some l) →
      (s.toPerform e seam 1 = some j → Completes (.compress m seam) s
        (w.finishJob e seam j 1 (deflateStream c (j.optBits 2 3) dict src) (checkWord (containerCheck c src) src.length))) ∧
      (s.toPerform e seam 2 = some j →
        let out := if c = 0 then inflateRaw (dict.getD []) src j.dstLen
          else if c = 1 then inflateZlib dict src j.dstLen else inflateGzip src j.dstLen
        (∀ o used, out = .ok (o, used) →
          Completes (.decompress m seam) s (w.finishJob e seam j 1 o (checkWord (containerCheck c o) used))) ∧
        (∀ err, out = .error err →
          let st := match err with | .bad => 0x13 | .full => 0x12 | .check => 0x14
          Completes (.decompress m seam) s (w.freeCheck.1.partJob e seam j st w.freeCheck.2)))) ∧
    (∀ j st,
      let r := s.jobRead seam j.src j.srcLen
      let d := r.1.jobDict seam j
      r.2 = .fails st →
      (d.2 = none ∨ (∃ l, d.2 = some (.bytes l)) →
        (s.toPerform (.crusher m) seam 1 = some j → Completes (.compress m seam) s (d.1.partJob (.crusher m) seam j st j.check)) ∧
        (s.toPerform (.crusher m) seam 2 = some j → Completes (.decompress m seam) s (d.1.partJob (.crusher m) seam j st j.check)))) ∧
    (let e := EngineId.cipher n
     ∀ j aux src,
      let v := (s.jobRead seam j.aux j.auxLen).1
      let w := (v.jobRead seam j.src j.srcLen).1
      (s.jobRead seam j.aux j.auxLen).2 = .bytes aux →
      let ends (u : State) (out : CipherEnd) : State := u.freeCheck.1.finishJob e seam j out.1 out.2 u.freeCheck.2
      let key := j.optBits 0 1
      ((v.jobRead seam j.src j.srcLen).2 = .bytes src →
        ∀ op c out, (op, c, out) ∈
          [(0x12, Instr.aesXtsEncrypt n seam, xtsOp true key aux src), (0x13, .aesXtsDecrypt n seam, xtsOp false key aux src),
           (0x14, .aesCbcEncrypt n seam, cbcOp true key aux src), (0x15, .aesCbcDecrypt n seam, cbcOp false key aux src),
           (0x20, .hash n seam, hashOp key src), (0x32, .ed25519Sign n seam, edSignOp aux src),
           (0x33, .ed25519Verify n seam, edVerifyOp aux src), (0x34, .rsaVerify n seam, rsaOp j aux src)] →
          s.toPerform e seam op = some j → Completes c s (ends w out)) ∧
      (s.toPerform e seam 0x30 = some j → Completes (.ecdsaSign n seam) s (ends v (ecdsaSignOp key aux))) ∧
      (s.toPerform e seam 0x31 = some j → Completes (.ecdsaVerify n seam) s (ends v (ecdsaVerifyOp key aux))) ∧
      (∀ aad,
        let d := v.jobRead seam (fieldAt aux 48 8) (fieldAt aux 56 4)
        let w := (d.1.jobRead seam j.src j.srcLen).1
        fieldAt aux 44 4 = 0 → fieldAt aux 60 4 = 0 → d.2 = .bytes aad → (d.1.jobRead seam j.src j.srcLen).2 = .bytes src →
        (s.toPerform e seam 0x10 = some j → Completes (.aesGcmEncrypt n seam) s (ends w (gcmEnc key aux aad src))) ∧
        (s.toPerform e seam 0x11 = some j → Completes (.aesGcmDecrypt n seam) s (ends w (gcmDec key aux aad src)))))

/-- R418–R427: entropy and attestation. -/
def Obligations.EntropyAndAttestationAct : Prop :=
  ∀ (s : State) (sender : Sender) (seam : Fin 64) (kind : BitVec 8) (subject : BitVec 16), s.hasPower →
    (∀ raw : BitVec 896,
      let r := s.entropy.health (rawBits raw)
      (s.entropy.state = .raw →
        Completes (.entropyBlock raw) s { s with entropy := { s.entropy with raw := (raw >>> 832).setWidth 64 } }) ∧
      (s.entropy.state = .healthy → r.2 = (false, false) →
        let v : State := { s with entropy := { r.1 with blocks := r.1.blocks ++ [bytesNat (sha384 (natBytes 112 raw.toNat))] } }
        Completes (.entropyBlock raw) s (v.bump uEntropy Reg.ENT_COUNT.BLOCKS)) ∧
      (s.entropy.state = .healthy → r.2 ≠ (false, false) →
        Completes (.entropyBlock raw) s (State.healthFail { s with entropy := r.1 } r.2.1 r.2.2 false))) ∧
    (Admits s sender uEntropy 0x080 → s.entropy.busy = none →
      (let v := s.wr uEntropy Reg.ENT_CTL.OP 1
       let w := ((v.bump uEntropy Reg.ENT_COUNT.RESTARTS).tallyEvent (some uEntropy) 0x0C 0x03 7 0xFF (payload8 0 [])).entropyStart
       Completes (.restart sender) s { w with entropy := { w.entropy with busy := some 1 } }) ∧
      (let v := s.wr uEntropy Reg.ENT_CTL.OP 2
       Completes (.raw sender) s
         (State.wr { v with entropy := { v.entropy with state := .raw, blocks := [] } } uEntropy Reg.ENT_CTL.RESULT 4))) ∧
    (∀ raw : BitVec 65536, s.entropy.state = .starting →
      let r := s.entropy.health (rawBits raw)
      let a : State := { s with entropy := { r.1 with busy := none } }
      let ok : State := { a with entropy := { a.entropy with state := .healthy } }
      let bad := a.healthFail r.2.1 r.2.2 true
      let c : Instr := .startupTestDone raw
      (s.entropy.busy = none → r.2 = (false, false) → Completes c s ok) ∧
      (s.entropy.busy = none → r.2 ≠ (false, false) → Completes c s bad) ∧
      (s.entropy.busy.isSome = true → r.2 = (false, false) →
        let v := ok.wr uEntropy Reg.ENT_CTL.RESULT 1
        Completes c s { v with drbg := v.drbg.map fun e => (e.1, e.2.map fun d => { d with due := true }) }) ∧
      (s.entropy.busy.isSome = true → r.2 ≠ (false, false) → Completes c s (bad.wr uEntropy Reg.ENT_CTL.RESULT 2))) ∧
    (∀ j d add,
      let v := (s.jobRead seam j.aux j.auxLen).1
      s.drbgStatus seam (j.optBits 0 2) = none → s.drbgOf seam (j.optBits 0 2) = some d →
      (s.jobRead seam j.aux j.auxLen).2 = .bytes add →
      let inst := j.optBits 0 2
      let again := j.optBits 3 3 = 1 ∨ d.due = true ∨ 2 ^ 20 ≤ d.served
      (s.toPerform .entropy seam 0x40 = some j →
        let r := if again then v.reseedInst seam inst d add else (v, d)
        let g := r.2.generate j.dstLen (if again then [] else add)
        let w := ((r.1.setDrbg seam inst (some g.1)).bump uEntropy (Reg.ENT_INST.GENERATES.ix seam)).freeCheck
        Completes (.generate seam) s (w.1.finishJob .entropy seam j 1 g.2 w.2)) ∧
      (s.toPerform .entropy seam 0x41 = some j →
        let w := (v.reseedInst seam inst d add).1.freeCheck
        Completes (.reseed seam) s (w.1.finishJob .entropy seam j 1 [] w.2))) ∧
    (∀ j st, s.drbgStatus seam (j.optBits 0 2) = some st →
      let end_ := s.freeCheck.1.failJob .entropy seam j st s.freeCheck.2
      (s.toPerform .entropy seam 0x40 = some j → Completes (.generate seam) s end_) ∧
      (s.toPerform .entropy seam 0x41 = some j → Completes (.reseed seam) s end_)) ∧
    (Admits s sender uSvcDie 0x900 → s.att = none →
      let a (op : Nat) : State := ((s.wr uSvcDie Reg.ATT_CTL.OP op).wr uSvcDie Reg.ATT_CTL.KIND kind.toNat).wr uSvcDie
        Reg.ATT_CTL.SUBJECT subject.toNat
      let run (r : State × AttRun) : State := { r.1 with att := some r.2 }
      Completes (.measure sender kind subject) s (run ((a 1).attMeasure kind.toNat subject.toNat)) ∧
      Completes (.declare sender kind subject) s (run ((a 2).attDeclare kind.toNat subject.toNat)) ∧
      Completes (.report sender kind subject) s (run ((a 3).attReport subject.toNat))) ∧
    (∀ a, s.att = some a →
      let v : State := { s with att := none }
      (∀ kind declared subject gen digest, a.entry = some (kind, declared, subject, gen, digest) →
        let result := if 2048 ≤ v.rd uSvcDie Reg.ATT_LOG_STAT.COUNT then 6 else a.result
        Completes .attDone s ((v.extendLog kind subject gen declared digest).wr uSvcDie Reg.ATT_CTL.RESULT result)) ∧
      (a.entry = none → a.report = [] → Completes .attDone s (v.wr uSvcDie Reg.ATT_CTL.RESULT a.result)) ∧
      (a.entry = none → a.report ≠ [] →
        let r := v.physWrite a.addr a.report
        Completes .attDone s (r.1.wr uSvcDie Reg.ATT_CTL.RESULT (if r.2 = .done then a.result else 4))))

/-- R431–R434: the cube arbiter. -/
def Obligations.CubeCommandsAct : Prop :=
  ∀ (s : State) (n : Fin 2), s.hasPower →
    (Admits s (.steward n) uCube 0x098 →
      let p := s.prunePend
      (p.mayRequest n = true → p.holder ≠ some n.val → Completes (.request n) s (p.setPend n true)) ∧
      (p.mayRequest n = false ∨ p.holder = some n.val → Completes (.request n) s p) ∧
      (s.holder = some n.val → s.now < s.leaseEnd →
        (2 * (s.leaseEnd - s.now) < s.leaseLen → Completes (.renew n) s (s.leaseStart.stick uCube Reg.CUBE_ERR.LATE)) ∧
        (s.leaseLen ≤ 2 * (s.leaseEnd - s.now) → Completes (.renew n) s s.leaseStart)) ∧
      (s.holder ≠ some n.val ∨ s.leaseEnd ≤ s.now → Completes (.renew n) s (s.bump uCube Reg.CUBE_COUNT.REFUSED_RENEW)) ∧
      (s.holder = some n.val → Completes (.release n) s
        (((s.bump uCube Reg.CUBE_COUNT.RELEASES).cubeRecord 0x03).replStops.wr uCube Reg.CUBE_STAT.HOLDER 3)) ∧
      (s.holder ≠ some n.val → Completes (.release n) s (s.bump uCube Reg.CUBE_COUNT.REFUSED_RENEW))) ∧
    (let p := s.prunePend
     (p.holder.isSome = true ∨ p.cubePend = 0 → Completes .cubeGrant s p) ∧
     (p.holder = none → p.cubePend ≠ 0 →
       let g := if p.requestPends 0 then 0 else 1
       let a := (p.setPend g false).wr uCube Reg.CUBE_STAT.HOLDER g
       let b := ((a.count uCube Reg.CUBE_STAT.GEN).bump uCube Reg.CUBE_COUNT.GRANTS).leaseStart.wr uCube Reg.CUBE_CFG.SEAM0_WR 0
       Completes .cubeGrant s (State.cubeRecord { b with outbox := b.outbox ++ [Out.interrupt 0, Out.interrupt 1] } 0x01))) ∧
    (s.holder.isSome = true → s.leaseEnd ≤ s.now → s.power.mResetting = false →
      (s.romRenews = false → Completes .leaseExpiry s s.leaseLost) ∧ (s.romRenews = true → Completes .leaseExpiry s s.leaseStart)) ∧
    (s.now < s.leaseEnd → Completes .leaseExpiry s s)

/-- R435–R449: the stewards' replication, boot ROMs and firmware floor. -/
def Obligations.StewardCommandsAct : Prop :=
  ∀ (s : State) (sender : Sender) (n : Fin 2) (len : BitVec 22) (mark : Byte) (source : List Byte) (bad flash : Bool) (a b : FlashSlot),
    s.hasPower →
    let u := uSteward n
    let p := otherSteward n
    (Admits s sender u 0x098 →
      let op (k : Nat) : State := (s.wr u Reg.STW_REPL_CTL.OP k).wr u Reg.STW_REPL_CTL.LEN len.toNat
      (((op 1).stw n).repl.isSome = true → Completes (.epoch sender n len mark source bad) s (op 1)) ∧
      (((op 2).stw n).repl.isSome = true → Completes (.jlog sender n len source bad) s (op 2)) ∧
      (((op 1).stw n).repl = none →
        (4194176 < len.toNat → Completes (.epoch sender n len mark source bad) s ((op 1).replResult n 3)) ∧
        (len.toNat ≤ 4194176 → (op 1).rd u Reg.STW_REPL_SRC.SRC * 128 + len.toNat ≤ 0x1000000 →
          ((op 1).operates (uSteward p) = false → Completes (.epoch sender n len mark source bad) s ((op 1).peerAbsent n)) ∧
          ((op 1).operates (uSteward p) = true → (op 1).holder ≠ some n.val →
            Completes (.epoch sender n len mark source bad) s ((op 1).replResult n 7)) ∧
          ((op 1).operates (uSteward p) = true → (op 1).holder = some n.val →
            Completes (.epoch sender n len mark source bad) s ((op 1).doEpoch n mark.toNat source bad)))) ∧
      (((op 2).stw n).repl = none → (op 2).operates (uSteward p) = true → (op 2).holder = some n.val →
        ((op 2).ringFull n = true → Completes (.jlog sender n len source bad) s ((op 2).replResult n 6)) ∧
        ((op 2).ringFull n = false → bad = false →
          let j := (op 2).rd u Reg.STW_NEXT_JSEQ.JSEQ
          let e := (op 2).rd u Reg.STW_NEXT_EPOCH.EPOCH
          let front := natBytes 8 j ++ natBytes 8 (e - 1) ++ padTo 0x5C source
          Completes (.jlog sender n len source bad) s
            ((op 2).setStw n { (op 2).stw n with repl := some { op := 2, result := 1, writes := [(journalSlot j, marked front j true)] } })))) ∧
    ((s.stw n).repl = none → Completes (.replDone n) s s) ∧
    (∀ r, (s.stw n).repl = some r →
      (s.operates (uSteward p) = false → Completes (.replDone n) s (s.replAbort n 5)) ∧
      (s.operates (uSteward p) = true → s.holder ≠ some n.val →
        Completes (.replDone n) s ((s.setStw n { s.stw n with repl := none }).replResult n 7)) ∧
      (s.operates (uSteward p) = true → s.holder = some n.val →
        let v := State.each r.writes (fun w x => x.putSram p w.1 w.2) s
        let v := (v.setStw n { v.stw n with repl := none }).replResult n 1
        (r.op = 1 → Completes (.replDone n) s
          (let y := v.patchStepEnds (v.sramNum p (epochSlot (v.rd u Reg.STW_NEXT_EPOCH.EPOCH % 2) + 6) 1)
           let w := (y.count u Reg.STW_NEXT_EPOCH.EPOCH).bump u Reg.STW_COUNT.EPOCHS
           w.setStw n { w.stw n with peerSync := true })) ∧
        (r.op ≠ 1 → Completes (.replDone n) s ((v.count u Reg.STW_NEXT_JSEQ.JSEQ).bump u Reg.STW_COUNT.JLOGS)))) ∧
    ((s.stw n).boot = .rom → s.operates u = true →
      let r := if s.holder = some n.val then s.cubeRenew n else s.cubeRequest n
      (∀ isB gen, r.bootChoice flash a b = .ok (isB, gen) →
        let digest := sha384 (wholeImage (match (if isB then b else a) with | some l => l | none => []))
        let v := r.setStw n { r.stw n with
          boot := .running, slotB := isB, bootResult := if isB then 2 else 1, fwGen := gen, digest := digest }
        Completes (.bootRom n flash a b) s ((v.extendLog 0x01 n gen false digest).bootRecord n)) ∧
      (∀ e, r.bootChoice flash a b = .error e →
        let v := if r.holder = some n.val then r.cubeRelease else r
        Completes (.bootRom n flash a b) s
          ((((v.setStw n { v.stw n with boot := .halted, bootResult := e }).setPend n false).stick u Reg.STW_ERR.BOOT_FAIL).bootRecord n))) ∧
    (Admits s sender uSvcDie 0xB30 → ∀ h, s.holder = some h →
      let floor := s.rd uSvcDie Reg.STW_FWFLOOR.FLOOR
      let gen := (s.stw h).fwGen
      (gen ≤ floor ∨ 64 ≤ floor → Completes (.raise sender) s (s.wr uSvcDie Reg.STW_FWFLOOR.RESULT 2)) ∧
      (floor < gen → floor < 64 →
        let v := (s.wr uSvcDie Reg.STW_FWFLOOR.FLOOR (min gen 64)).wr uSvcDie Reg.STW_FWFLOOR.RESULT 1
        v.holder = some h →
        Completes (.raise sender) s (v.tallyEvent (some (uSteward h)) 0x03 0x05 7 0xFF
          (payload8 1 (beBytes 4 (v.rd uCube Reg.CUBE_STAT.GEN) ++ beBytes 1 (v.rd uCube Reg.CUBE_STAT.HOLDER))))))

/-- R451–R462, R472: reports, acknowledgements, notices and consequential windows. -/
def Obligations.FaultReportsReachTheRoot : Prop :=
  ∀ (s : State) (sender : Sender) (u : UnitId) (index : BitVec 8) (peer : Option UnitId) (syndrome : Word) (held : Bool) (node : Fin 7)
    (slot : Fin 64), s.hasPower →
    (let i := index.toNat
     let c : Instr := .faultReport u index peer syndrome held
     (s.present u = false → Completes c s s) ∧
     (∀ r rest, s.present u = true → takeReport u i s.reports = some (r, rest) →
       let v := State.wireSeen { s with reports := rest } r
       (∀ w, v.taggedBy r = some w → haulerFault r = false →
         Completes c s ((v.conseqReport r w).overflowRecord r.src.nodeInst)) ∧
       (∀ w, v.taggedBy r = some w → haulerFault r = true →
         Completes c s (((v.conseqReport r w).haulerRecord r.src).overflowRecord r.src.nodeInst)) ∧
       (v.taggedBy r = none → Completes c s ((v.plainReport r).overflowRecord r.src.nodeInst))) ∧
     (s.present u = true → takeReport u i s.reports = none →
       let through (v : State) : State := match takeReport u i v.reports with
         | some (r, rest) => State.rootTake { v with reports := rest } r
         | none => v
       (i = 0 → Completes c s (through ((s.wr u Reg.UNIT_STICKY.OWN 1).raise u 0 peer syndrome))) ∧
       (i = 254 → Completes c s (through ((s.corrected u syndrome).arrayCorrected u syndrome))) ∧
       (∀ f, i ≠ 0 → i ≠ 254 → fieldOfIndex u i = some f →
         let v := s.setLive u i held
         ((s.unit u).live.contains i = true → held = true → Completes c s v) ∧
         ((s.unit u).live.contains i = false ∨ held = false →
           (u.type = .hauler ∧ f = Reg.HLR_FAULT.ISTORE_UNCORR → Completes c s (through (v.ownReaction u f syndrome))) ∧
           (¬ (u.type = .hauler ∧ f = Reg.HLR_FAULT.ISTORE_UNCORR) →
             Completes c s (through ((v.stick u f peer syndrome).ownReaction u f syndrome))))) ∧
       (i ≠ 0 → i ≠ 254 → fieldOfIndex u i = none → Completes c s s)) ∧
     (s.present u = false → Completes (.wireFault u) s s) ∧
     (∀ r rest, s.present u = true → takeReport u 255 (s.raise u 255).reports = some (r, rest) →
       Completes (.wireFault u) s (State.rootTake { s.raise u 255 with reports := rest } r))) ∧
    ((s.reportsWaiting.find? fun r => r.src.nodeInst == node.val) = none → Completes (.nodeQueueEntry node) s s) ∧
    (∀ q r rest, (s.reportsWaiting.find? fun r => r.src.nodeInst == node.val) = some q →
      s.nodeCount node true + s.nodeCount node false < 64 → takeReport q.src q.index s.reportsWaiting = some (r, rest) →
      Completes (.nodeQueueEntry node) s { s with reportsWaiting := rest, reports := s.reports ++ [r] }) ∧
    (Admits s sender uRoot 0x118 →
      (s.canaries.look none slot.val = none → Completes (.fltAck sender slot) s s) ∧
      (∀ c, s.canaries.look none slot.val = some c → Completes (.fltAck sender slot) s
        (((s.bump uRoot Reg.FLT_LADDER.ACKS).ladderRecord c.src 0x02 slot c.seq).dropCanary slot))) ∧
    (Admits s sender uRoot 0x110 → Completes (.fltNoticePop sender) s { s with notices := s.notices.drop 1 }) ∧
    (let ended (w : Window) : Bool := w.src == u && (match w.closeAt with | some t => decide (t ≤ s.now) | none => false)
     (s.windows.find? ended = none → Completes (.conseqWindowClose u) s s) ∧
     (∀ w, s.windows.find? ended = some w →
       let v : State := { s with windows := s.windows.filter fun (x : Window) => x.src != u }
       let v := v.tallyEvent (some u) 0x02 0x08 7 (v.ownerSeam u) (payload8 0 (beBytes 4 w.count))
       Completes (.conseqWindowClose u) s
         (State.each u.subtree (fun x v => State.each (v.unit x).live (fun i v => v.raise x i) v) v)))

/-- R459–R461: canary expiry and the rungs. -/
def Obligations.LadderRungsActInOrder : Prop :=
  ∀ (s : State) (slot : Fin 64) (c : Canary), s.hasPower → s.canaries.look none slot.val = some c →
    let d := s.unit c.src
    (c.rung = 0 → c.expiry ≤ s.now →
      (rung4Only c.src = true ∨ s.otherGone c.src = true → Completes (.canaryExpiry slot) s (s.rung4 slot c)) ∧
      (rung4Only c.src = false → s.otherGone c.src = false →
        let r := ((s.bump uRoot Reg.FLT_LADDER.FENCES).rungActs c.src).ladderRecord c.src 0x03 slot c.seq
        (c.src ≠ uModule → Completes (.canaryExpiry slot) s
          ((r.fence c.src).setCanary slot (some { c with rung := 1, rungAt := s.now }))) ∧
        (c.src = uModule → Completes (.canaryExpiry slot) s (r.setCanary slot (some { c with rung := 1, rungAt := s.now }))))) ∧
    (c.rung ≠ 0 ∨ s.now < c.expiry → Completes (.canaryExpiry slot) s s) ∧
    (c.rung = 1 → c.rungAt + 10000 ≤ s.now →
      let r := ((s.bump uRoot Reg.FLT_LADDER.RESETS).rungActs c.src).ladderRecord c.src 0x04 slot c.seq
      let v := r.setCanary slot (some { c with rung := 2, rungAt := r.now })
      (c.src = uModule → Completes (.rung2 slot) s v.mStart) ∧
      (c.src ≠ uModule → Completes (.rung2 slot) s (v.resetRequest c.src))) ∧
    (c.rung ≠ 1 ∨ s.now < c.rungAt + 10000 → Completes (.rung2 slot) s s) ∧
    (c.rung = 2 → d.resetting = false → d.heldReset = false → c.rungAt ≤ d.doneAt → d.doneAt + 10000 ≤ s.now →
      (s.ownLive c.src = true → Completes (.ladderCheck slot) s (s.rung3 slot c)) ∧
      (s.ownLive c.src = false → s.checkLifts c.src = true →
        Completes (.ladderCheck slot) s (((s.ladderRecord c.src 0x05 slot c.seq).unfence c.src).dropCanary slot)) ∧
      (s.ownLive c.src = false → s.checkLifts c.src = false → Completes (.ladderCheck slot) s (s.dropCanary slot))) ∧
    (c.rung ≠ 2 ∨ s.now < d.doneAt + 10000 → Completes (.ladderCheck slot) s s) ∧
    (c.rung = 2 → d.resetting = true ∨ d.heldReset = true → c.rungAt + 1000000 ≤ s.now →
      Completes (.ladderResetTimeout slot) s (s.rung3 slot c)) ∧
    (c.rung ≠ 2 ∨ s.now < c.rungAt + 1000000 → Completes (.ladderResetTimeout slot) s s) ∧
    (c.src.type = .iodie ∨ c.src.type = .tile →
      let v := (((s.bump uRoot Reg.FLT_LADDER.PARENT_FENCES).rungActs c.src).ladderRecord c.src 0x06 slot c.seq).fence c.src
      s.rung3 slot c = v.dropCanary slot)

/-- R464–R470: the Tally. -/
def Obligations.TallyCommandsAct : Prop :=
  ∀ (s : State) (sender : Sender) (fails : Bool) (event : BitVec 16) (seam : BitVec 8), s.hasPower →
    (s.tallyBuf = [] → Completes (.tallyWrite fails) s s) ∧
    (∀ r rest, s.tallyBuf = r :: rest →
      let slot (x : MramSlot) : State := { s with tallyBuf := rest, tallyStore := s.tallyStore.put .blank (r.seq % 262144) x }
      let v := if fails then (slot .torn).stick uTally Reg.TLY_ERR.MRAM_FAIL else (slot (.record r)).bump uTally Reg.TLY_COUNT.WRITTEN
      (v.lostPending = 0 → Completes (.tallyWrite fails) s v) ∧
      (v.lostPending ≠ 0 → Completes (.tallyWrite fails) s
        (State.tallyEvent { v with lostPending := 0 } (some uTally) 0x0F 0x02 7 0xFF (payload8 0 (beBytes 8 v.lostPending))))) ∧
    Completes .optimeCommit s { s with opCommit := s.opTime } ∧
    (Admits s sender uTally 0x108 →
      let w := (s.wr uTally Reg.TLY_WRITE.EVENT event.toNat).wr uTally Reg.TLY_WRITE.SEAM seam.toNat
      let e := w.rd uTally Reg.TLY_WRITE.EVENT
      (e / 256 < 0x80 → e ≠ 0x0F01 → Completes (.tlyWrite sender event seam) s (w.wr uTally Reg.TLY_WRITE.RESULT 2)) ∧
      (0x80 ≤ e / 256 ∨ e = 0x0F01 →
        (256 ≤ w.tallyBuf.length → Completes (.tlyWrite sender event seam) s (w.wr uTally Reg.TLY_WRITE.RESULT 3)) ∧
        (w.tallyBuf.length < 256 →
          let payload := (List.range 4).flatMap fun i => beBytes 8 (w.rd uTally (Reg.TLY_WRITE_DATA.DATA.ix i))
          let src := if e = 0x0F01 then some uTally else w.recordWriter sender
          Completes (.tlyWrite sender event seam) s ((w.tallyEvent src (e / 256) (e % 256) 7 (w.rd uTally Reg.TLY_WRITE.SEAM) payload
            false true).wr uTally Reg.TLY_WRITE.RESULT 1))))

/-- R474–R503: power-up, module reset, standby, hold-up drain and the test access port. -/
def Obligations.ModulePowerCommandsAct : Prop :=
  ∀ (s : State) (sender : Sender) (cause : BitVec 8) (vin mean : BitVec 16) (removed writing : Bool) (lands cells : BitVec 3312),
    (s.power.mode = .off → 9500 < vin.toNat → s.power.offUntilVin = false ∨ removed = true →
      Completes (.powerOn vin removed) s (s.powerUp vin.toNat)) ∧
    (s.hasPower ∨ vin.toNat ≤ 9500 ∨ (s.power.offUntilVin = true ∧ removed = false) → Completes (.powerOn vin removed) s s) ∧
    (let port : Tap := if s.tap.ir = .extest then { s.tap with driving := true } else s.tap
     let l : State := { s with power := { s.power with mrstLow := true }, tap := port }
     (s.power.mode = .off → Completes .mrstNLow s { l with power := { l.power with offUntilVin := false } }) ∧
     (s.power.mode = .holdup → Completes .mrstNLow s l) ∧
     (s.power.mode = .on → Completes .mrstNLow s l.mStart) ∧
     (s.power.mode = .standby → Completes .mrstNLow s
       { l.mStart with power := { l.mStart.power with mode := .standby } })) ∧
    (s.tap.ir = .extest → Completes .mrstNHigh s { s with power := { s.power with mrstLow := false }, tap := { s.tap with driving := false } }) ∧
    (s.tap.ir ≠ .extest → Completes .mrstNHigh s { s with power := { s.power with mrstLow := false } }) ∧
    (s.hasPower → Admits s sender uPower 0x0A0 →
      let op (n : Nat) : State := s.wr uPower Reg.PWR_CMD.OP n
      (s.power.cmdBusy = true ∨ s.power.mode = .holdup → Completes (.standby sender) s (op 1) ∧ Completes (.wake sender) s (op 2) ∧
        Completes (.off sender) s (op 3)) ∧
      (s.power.cmdBusy = false →
        (s.power.mode = .on → (op 1).mayStandby = true →
          Completes (.standby sender) s ((op 1).enterStandby.wr uPower Reg.PWR_CMD.RESULT 1)) ∧
        (s.power.mode = .on → (op 1).mayStandby = false → Completes (.standby sender) s ((op 1).wr uPower Reg.PWR_CMD.RESULT 3)) ∧
        (s.power.mode = .standby → Completes (.wake sender) s ((op 2).leaveStandby.wr uPower Reg.PWR_CMD.RESULT 1)) ∧
        (s.power.mode = .on → Completes (.wake sender) s ((op 2).wr uPower Reg.PWR_CMD.RESULT 4)) ∧
        (s.onInput = true →
          let v := (op 3).tallyEvent (some uModule) 0x00 0x05
          Completes (.off sender) s
            (State.holdup { v with power := { v.power with cmdBusy := true, offCmd := true, offUntilVin := true } })))) ∧
    (s.onInput = true → s.failing cause.toNat vin.toNat mean.toNat = true →
      let a : State := { s with power := { s.power with declared := cause.toNat } }
      let b := ((a.wr uPower Reg.PWR_FAIL.CAUSE cause.toNat).wr uPower Reg.PWR_FAIL.VIN vin.toNat).wr uPower Reg.PWR_FAIL.VMEAN_1S mean.toNat
      Completes (.powerFailDeclare cause vin mean) s (State.holdup (b.tallyEvent (some uModule) 0x00 0x03 7 0xFF
        (payload8 cause.toNat (beBytes 2 vin.toNat ++ beBytes 2 mean.toNat ++ beBytes 4 b.power.eMj))))) ∧
    (s.power.mode = .holdup → s.draining.look false 0 = false → s.draining.look false 1 = false →
      let v := (s.tallyFlush 1024).commitTime
      Completes .holdupPowerDown s { v with power := { v.power with mode := .off } }) ∧
    (s.power.mode = .holdup →
      let ended (m : Table MramSlot) : State :=
        { s with tallyStore := m, tallyBuf := [], draining := [], power := { s.power with mode := .off } }
      (∀ r rest, writing = true → s.tallyBuf = r :: rest →
        Completes (.holdupCutoff writing) s (ended (s.tallyStore.put .blank (r.seq % 262144) .torn))) ∧
      (writing = false ∨ s.tallyBuf = [] → Completes (.holdupCutoff writing) s (ended s.tallyStore))) ∧
    Completes .bypass s { s with tap := { s.tap with ir := .bypass, driving := false, dr := 0 } } ∧
    Completes (.samplePreload lands cells) s { s with tap := { ir := .samplePreload, boundary := cells, driving := false, dr := lands } } ∧
    (s.power.mrstLow = true →
      Completes (.extest lands cells) s { s with tap := { ir := .extest, boundary := cells, driving := true, dr := lands } }) ∧
    (s.power.mrstLow = false →
      Completes (.extest lands cells) s { s with tap := { s.tap with ir := .extest, driving := false, dr := 0 } }) ∧
    Completes .idcode s { s with tap := { s.tap with ir := .idcode, driving := false, dr := 0x27240A5B } } ∧
    Completes .trstNLow s { s with tap := Tap.reset }

/-- R475–R491: power and environment. -/
def Obligations.PowerAndEnvironmentCommandsAct : Prop :=
  ∀ (s : State) (sender : Sender) (vavg inW esr v : BitVec 16) (limit testEn : Bool) (phase : Fin 12) (which : Fin 2) (quadrant : Fin 4)
    (hours : BitVec 8) (c : BitVec 24) (channel : Fin 32) (code : BitVec 14), s.hasPower →
    (let a := s.setVavg vavg.toNat
     (a.envelopeFor = a.power.envelope → Completes (.envelopeChange vavg) s a) ∧
     (a.envelopeFor ≠ a.power.envelope → Completes (.envelopeChange vavg) s (a.moveEnvelope a.envelopeFor))) ∧
    (let excess := sinceWhen s.now (decide (s.power.availMw < 1000 * inW.toNat)) s.power.overSince
     let a := State.newCoreW { s with power := { s.power with inW := inW.toNat, overSince := excess } }
     let ma := a.power.chargeMa
     let full := if ma = 1500 ∧ a.power.charging ≠ 1500 then a.now else a.power.fullSince
     Completes (.pCoreRecompute inW) s (State.survivalTiles { a with power := { a.power with charging := ma, fullSince := full } })) ∧
    (let excess := limit || (match s.power.overSince with | some t => decide (t + 1000000 < s.now) | none => false)
     let hot := s.hotterThan s.throtC
     (excess = true → hot = false →
       let a := s.stickOnce Reg.PWR_ERR.OVERLOAD
       Completes (.pCutStep limit) s
         (State.newCoreW { a with power := { a.power with pCut := min (a.power.pCut + 16) 0xFFFF, lastStress := a.now } })) ∧
     (excess = false → hot = true →
       let a := s.stickOnce Reg.PWR_ERR.THERMAL
       Completes (.pCutStep limit) s
         (State.newCoreW { a with power := { a.power with pCut := min (a.power.pCut + 16) 0xFFFF, lastStress := a.now } })) ∧
     (excess = false → hot = false → s.power.lastStress + 100000000 ≤ s.now →
       Completes (.pCutStep limit) s (State.newCoreW { s with power := { s.power with pCut := s.power.pCut - 16 } })) ∧
     (excess = false → hot = false → s.now < s.power.lastStress + 100000000 → Completes (.pCutStep limit) s s)) ∧
    (s.power.phases.getLsbD phase = true → Completes (.phaseFail phase) s (State.stick
      { s with power := { s.power with phases := s.power.phases &&& ~~~(BitVec.ofNat 12 (2 ^ phase.val)) } } uPower Reg.PWR_ERR.PHASE_FAIL)) ∧
    (s.power.phases.getLsbD phase = false → Completes (.phaseFail phase) s s) ∧
    (let left := s.power.controllers &&& ~~~(BitVec.ofNat 2 (2 ^ which.val))
     Completes (.phaseControllerFail which) s
       { s with power := { s.power with controllers := left, phases := if left = 0 then 0 else s.power.phases } }) ∧
    Completes (.quadrantShort quadrant) s { s with power := { s.power with
      fuses := s.power.fuses &&& ~~~(BitVec.ofNat 4 (2 ^ quadrant.val)),
      phases := s.power.phases &&& ~~~(BitVec.ofNat 12 (7 * 2 ^ (3 * quadrant.val))) } } ∧
    (s.power.regulators.getLsbD which = true → Completes (.aoSupplyLoss which) s (State.stick
      { s with power := { s.power with regulators := s.power.regulators &&& ~~~(BitVec.ofNat 2 (2 ^ which.val)) } } uPower
      Reg.PWR_ERR.AO_SUPPLY)) ∧
    (s.power.regulators.getLsbD which = false → Completes (.aoSupplyLoss which) s s) ∧
    (s.power.xtalBad = false → Completes .xtalFail s
      (State.stick { s with power := { s.power with xtalBad := true } } uPower Reg.CLK_STAT.XTAL_FAIL)) ∧
    (s.power.xtalBad = true → Completes .xtalFail s s) ∧
    (s.power.refLost = none →
      let a := s.stick uPower Reg.CLK_STAT.REF_LOST
      Completes .refLost s { a with power := { a.power with refLost := some s.now } }) ∧
    (s.power.refLost.isSome = true → Completes .refLost s s) ∧
    (Admits s sender uPower 0x0C0 → Completes (.bankTest sender testEn hours) s
      ((s.wrl uPower Reg.HLD_CFG.TEST_EN (if testEn then 1 else 0)).wrl uPower Reg.HLD_CFG.TEST_HOURS hours.toNat).bankTestStart) ∧
    (s.power.tested = false → 55000 ≤ s.power.holdMv → s.power.testing = false → s.power.mode = .on →
      Completes .bankTestPeriodic s { s with power := { s.power with testing := true, charging := 0 } }) ∧
    (s.power.tested = false → s.power.holdMv < 55000 → Completes .bankTestPeriodic s s) ∧
    (s.power.testing = false → Completes (.bankTestDone c esr) s s) ∧
    (s.power.testing = true →
      let a := (s.wr uPower Reg.HLD_TEST.C_UF c.toNat).wr uPower Reg.HLD_TEST.ESR_MOHM esr.toNat
      let b : State := { a with power := { a.power with testing := false, tested := true, testedAt := a.opTime } }
      (c.toNat < 10000 ∨ 200 < esr.toNat → Completes (.bankTestDone c esr) s (b.stick uPower Reg.HLD_ERR.TEST_FAIL)) ∧
      (10000 ≤ c.toNat → esr.toNat ≤ 200 → Completes (.bankTestDone c esr) s b)) ∧
    (let e := s.rd uPower Reg.HLD_TEST.C_UF * ((4 * v.toNat) ^ 2 - (20000 + 8 * s.rd uPower Reg.HLD_TEST.ESR_MOHM) ^ 2) / 2000000000
     Completes (.energyRecompute v) s { s with power := { s.power with
       holdV := v.toNat, eMj := e, enough := s.power.tested && decide (s.rd uPower Reg.HLD_MIN.MIN_MJ ≤ e) } }) ∧
    (s.power.charging = 1500 → s.power.fullSince + 10000000000 ≤ s.now → s.power.holdMv < 55000 →
      Completes .chargeTimeout s (s.stickOnce Reg.HLD_ERR.CHARGE_FAIL)) ∧
    (55000 ≤ s.power.holdMv → Completes .chargeTimeout s s) ∧
    (let on := fixedChannel channel || s.bitOf uPower Reg.ENV_EN.EN channel
     let a : State := { s with power := { s.power with
       samples := s.power.samples.put 0 channel code.toNat, holdV := if channel.val = 3 then code.toNat else s.power.holdV } }
     let out := code.toNat < a.rd uPower (Reg.ENV_LIMIT.LOW.ix channel) ∨ a.rd uPower (Reg.ENV_LIMIT.HIGH.ix channel) < code.toNat
     let alarm := a.bitOf uPower Reg.ENV_ALARM.ALARM channel
     (on = false → Completes (.envSample channel code) s s) ∧
     (on = true → out → alarm = false → Completes (.envSample channel code) s
       ((a.setBit uPower Reg.ENV_ALARM.ALARM channel true).raise uPower (sourceIndex uPower Reg.ENV_ALARM.ALARM) none code.toNat)) ∧
     (on = true → ¬ out ∨ alarm = true → Completes (.envSample channel code) s a))

/-- R95, R96: overflow and wrapped results; the table of shifts and rotates. -/
def Obligations.OverflowAndShiftsFollowTheirTables : Prop :=
  ∀ (s : State) (k : Fin 48) (w : Bool) (r1 r2 r3 : BitVec 5), Ready s k 4 →
    let a := s.found k 4
    let n := if w then 32 else 64
    let x := srcS w (a.gr r2)
    let y := srcS w (a.gr r3)
    let m := srcU w (a.gr r2)
    let c := (a.gr r3).toNat % 256
    let top : Int := 2 ^ (n - 1)
    let wraps (i : Instr) (exact : Int) : Prop := ∃ (v : Word) (cc : Nat) (q : Int),
      Completes i s (s.executed k 4 ((a.setG r1 v).setCc cc)) ∧ srcS w v = exact + q * 2 ^ n ∧ -top ≤ srcS w v ∧ srcS w v < top ∧
      (cc = 3 ↔ exact < -top ∨ top ≤ exact)
    let gives (i : Instr) (p : Word → Prop) : Prop := ∃ v : Word, Completes i s (s.executed k 4 (a.setG r1 v)) ∧ p v
    wraps (.add k w r1 r2 r3) (x + y) ∧ wraps (.sub k w r1 r2 r3) (x - y) ∧ (r3 = 0 → wraps (.neg k w r1 r2 r3) (0 - x)) ∧
    (r3 = 0 → x = -top → ∃ v : Word, Completes (.neg k w r1 r2 r3) s (s.executed k 4 ((a.setG r1 v).setCc 3)) ∧ srcS w v = -top) ∧
    (c < n →
      gives (.sll k w r1 r2 r3) (fun v => srcU w v = m * 2 ^ c % 2 ^ n) ∧ gives (.srl k w r1 r2 r3) (fun v => srcU w v = m / 2 ^ c)) ∧
    (n ≤ c → gives (.sll k w r1 r2 r3) (fun v => srcU w v = 0) ∧ gives (.srl k w r1 r2 r3) (fun v => srcU w v = 0)) ∧
    (∃ (v : Word) (cc : Nat), Completes (.sra k w r1 r2 r3) s (s.executed k 4 ((a.setG r1 v).setCc cc)) ∧
      (c < n → srcS w v = x / 2 ^ c) ∧ (n ≤ c → srcS w v = if x < 0 then -1 else 0)) ∧
    gives (.rotl k w r1 r2 r3) (fun v => ∀ i, i < n → v.getLsbD ((i + c) % n) = (a.gr r2).getLsbD i)
end

