-- ==== Sys2Proof/Laws/Table.lean ====
section
/-! SUPPORT. Laws of sparse tables: what a key reads after a change, and that every operation keeps the canonical form. -/

namespace Sys2Proof.Machine

variable {α : Type}

/-! ### What a key reads -/

theorem Table.look_insert (d : α) (m : Table α) (k j : Nat) (v : α) :
    (m.insert k v).look d j = if j = k then v else m.look d j := by
  induction m with
  | nil => simp [Table.insert, Table.look]
  | cons e m ih =>
    obtain ⟨k', v'⟩ := e
    unfold Table.insert
    split
    · simp [Table.look]
    · split
      · next h => subst h; by_cases hj : j = k <;> simp [Table.look, hj]
      · next h =>
        simp only [Table.look, ih]
        by_cases hj : j = k
        · subst hj; simp [h]
        · simp [hj]

theorem Table.look_erase (d : α) (m : Table α) (k j : Nat) : (m.erase k).look d j = if j = k then d else m.look d j := by
  induction m with
  | nil => simp [Table.erase, Table.look]
  | cons e m ih =>
    obtain ⟨k', v'⟩ := e
    simp only [Table.erase] at ih ⊢
    by_cases hk : k' = k
    · subst hk
      simp only [List.filter_cons, bne_self_eq_false, Bool.false_eq_true, if_false, ih, Table.look]
      by_cases hj : j = k' <;> simp [hj]
    · have : (k' != k) = true := by simpa using hk
      simp only [List.filter_cons, this, if_true, Table.look, ih]
      by_cases hj : j = k
      · subst hj; simp [Ne.symm hk]
      · simp [hj]

theorem Table.look_put [DecidableEq α] (d : α) (m : Table α) (k j : Nat) (v : α) :
    (m.put d k v).look d j = if j = k then v else m.look d j := by
  unfold Table.put
  split
  · next h => subst h; exact Table.look_erase _ m k j
  · exact Table.look_insert d m k j v

@[simp] theorem Table.look_put_same [DecidableEq α] (d : α) (m : Table α) (k : Nat) (v : α) : (m.put d k v).look d k = v := by
  simp [Table.look_put]

/-- Another key reads as before, whatever it reads as unlisted. -/
theorem Table.look_put_ne [DecidableEq α] (d d' : α) (m : Table α) {k j : Nat} (v : α) (h : j ≠ k) :
    (m.put d k v).look d' j = m.look d' j := by
  unfold Table.put
  split
  · simp [Table.look_erase, h]
  · simp [Table.look_insert, h]

/-! ### The canonical form -/

theorem Table.above_insert {b k : Nat} {m : Table α} (v : α) (hm : Table.above b m = true) (hk : b < k) :
    Table.above b (m.insert k v) = true := by
  cases m with
  | nil => simpa [Table.insert, Table.above] using hk
  | cons e m =>
    unfold Table.insert
    split
    · simpa [Table.above] using hk
    · split
      · simpa [Table.above] using hk
      · simpa [Table.above] using hm

/-- The canonical form, said of all entries: keys rise, and no entry equals what its key reads as unlisted. -/
theorem Table.wf_iff [DecidableEq α] (d : Nat → α) (m : Table α) :
    Table.wf d m = true ↔ m.Pairwise (fun a b => a.1 < b.1) ∧ ∀ e ∈ m, e.2 ≠ d e.1 := by
  induction m with
  | nil => simp [Table.wf]
  | cons e m ih =>
    obtain ⟨k, v⟩ := e
    simp only [Table.wf, Bool.and_eq_true, decide_eq_true_eq, ih, List.pairwise_cons, List.forall_mem_cons]
    constructor
    · rintro ⟨⟨hv, ha⟩, hp, hd⟩
      refine ⟨⟨fun e he => ?_, hp⟩, hv, hd⟩
      cases m with
      | nil => cases he
      | cons f m =>
        have hf : k < f.1 := by simpa [Table.above] using ha
        rcases List.mem_cons.1 he with rfl | he
        · exact hf
        · exact Nat.lt_trans hf ((List.pairwise_cons.1 hp).1 e he)
    · rintro ⟨⟨ha, hp⟩, hv, hd⟩
      refine ⟨⟨hv, ?_⟩, hp, hd⟩
      cases m with
      | nil => rfl
      | cons f m => simpa [Table.above] using ha f (List.mem_cons_self ..)

theorem Table.wf_filter [DecidableEq α] {d : Nat → α} {m : Table α} (p : Nat × α → Bool) (h : Table.wf d m = true) :
    Table.wf d (m.filter p) = true := by
  rw [Table.wf_iff] at h ⊢
  exact ⟨h.1.filter p, fun e he => h.2 e (List.mem_filter.1 he).1⟩

theorem Table.wf_insert [DecidableEq α] {d : Nat → α} {m : Table α} {k : Nat} {v : α} (h : Table.wf d m = true) (hv : v ≠ d k) :
    Table.wf d (m.insert k v) = true := by
  induction m with
  | nil => simp [Table.insert, Table.wf, Table.above, hv]
  | cons e m ih =>
    obtain ⟨k', v'⟩ := e
    simp only [Table.wf, Bool.and_eq_true, decide_eq_true_eq] at h
    obtain ⟨⟨hd, ha⟩, hw⟩ := h
    unfold Table.insert
    split
    · next hk =>
      simp only [Table.wf, Bool.and_eq_true, decide_eq_true_eq]
      exact ⟨⟨hv, by simpa [Table.above] using hk⟩, ⟨hd, ha⟩, hw⟩
    · split
      · next hk => subst hk; simp [Table.wf, hv, ha, hw]
      · simp [Table.wf, hd, ih hw, Table.above_insert v ha (show k' < k by omega)]

/-- Every change of one entry keeps the canonical form. -/
theorem Table.wf_put [DecidableEq α] {d : Nat → α} {m : Table α} {k : Nat} {v : α} (h : Table.wf d m = true) :
    Table.wf d (m.put (d k) k v) = true := by
  unfold Table.put
  split
  · exact Table.wf_filter _ h
  · next hv => exact Table.wf_insert h hv

/-- Removing a range of keys keeps it. -/
theorem wf_clearRange [DecidableEq α] {d : Nat → α} {m : Table α} (lo n : Nat) (h : Table.wf d m = true) :
    Table.wf d (clearRange m lo n) = true := Table.wf_filter _ h

/-- Copying a range of keys keeps it, where every unlisted key reads the same. -/
theorem wf_moveRange [DecidableEq α] {d : α} {m : Table α} (src dst n : Nat) (h : Table.wf (fun _ => d) m = true) :
    Table.wf (fun _ => d) (moveRange m src dst n) = true := by
  rw [Table.wf_iff] at h ⊢
  obtain ⟨hp, hd⟩ := h
  have h1 : ∀ e ∈ m.filter (fun e => decide (e.1 < dst)), e.1 < dst := fun e he => by simpa using (List.mem_filter.1 he).2
  have h2 : ∀ e ∈ (m.filter fun e => decide (src ≤ e.1) && decide (e.1 < src + n)).map fun e => (e.1 - src + dst, e.2),
      dst ≤ e.1 ∧ e.1 < dst + n ∧ e.2 ≠ d := by
    intro e he
    obtain ⟨f, hf, rfl⟩ := List.mem_map.1 he
    have hr := (List.mem_filter.1 hf).2
    simp only [Bool.and_eq_true, decide_eq_true_eq] at hr
    exact ⟨by simp, by simp only; omega, hd f (List.mem_filter.1 hf).1⟩
  have h3 : ∀ e ∈ m.filter (fun e => decide (dst + n ≤ e.1)), dst + n ≤ e.1 := fun e he => by simpa using (List.mem_filter.1 he).2
  refine ⟨?_, ?_⟩
  · unfold moveRange
    rw [List.pairwise_append, List.pairwise_append]
    refine ⟨⟨hp.filter _, ?_, fun a ha b hb => Nat.lt_of_lt_of_le (h1 a ha) (h2 b hb).1⟩, hp.filter _, fun a ha b hb => ?_⟩
    · rw [List.pairwise_map]
      refine (List.Pairwise.and_mem.1 (hp.filter _)).imp fun {a b} hab => ?_
      have ha := (List.mem_filter.1 hab.1).2
      simp only [Bool.and_eq_true, decide_eq_true_eq] at ha
      have := hab.2.2
      simp only; omega
    · have hb := h3 b hb
      rcases List.mem_append.1 ha with ha | ha
      · exact Nat.lt_of_lt_of_le (h1 a ha) (by omega)
      · exact Nat.lt_of_lt_of_le (h2 a ha).2.1 hb
  · intro e he
    unfold moveRange at he
    rcases List.mem_append.1 he with he | he
    · rcases List.mem_append.1 he with he | he
      · exact hd e (List.mem_filter.1 he).1
      · exact (h2 e he).2.2
    · exact hd e (List.mem_filter.1 he).1

end Sys2Proof.Machine
end

