-- ==== Sys2Proof/Laws/Memory.lean ====
section
/-! SUPPORT. Laws of main memory: what a byte reads after a store, and that every operation on memory keeps its canonical form. -/

namespace Sys2Proof.Machine

/-! ### Changes for each element of a list -/

/-- What each change keeps, the changes for a list keep. -/
theorem each_keeps {α : Type} {P : State → Prop} {f : α → State → State} (l : List α) (hf : ∀ a ∈ l, ∀ t, P t → P (f a t)) {s : State}
    (h : P s) : P (State.each l f s) := by
  induction l generalizing s with
  | nil => exact h
  | cons a l ih =>
    exact ih (fun b hb => hf b (List.mem_cons_of_mem a hb)) (hf a (List.mem_cons_self ..) s h)

@[simp] theorem each_nil {α : Type} (f : α → State → State) (s : State) : State.each [] f s = s := rfl

@[simp] theorem each_cons {α : Type} (a : α) (l : List α) (f : α → State → State) (s : State) :
    State.each (a :: l) f s = State.each l f (f a s) := rfl

/-! ### One byte -/

@[simp] theorem byteAt_putByte_same (s : State) (key : Nat) (b : Byte) : (s.putByte key b).byteAt key = b := by
  simp [State.putByte, State.byteAt]

theorem byteAt_putByte_ne (s : State) {key a : Nat} (b : Byte) (h : a ≠ key) : (s.putByte key b).byteAt a = s.byteAt a := by
  simp [State.putByte, State.byteAt, Table.look_put_ne _ _ _ _ h]

theorem byteAt_putByte (s : State) (key a : Nat) (b : Byte) :
    (s.putByte key b).byteAt a = if a = key then b else s.byteAt a := by
  split
  · next h => subst h; simp
  · next h => exact byteAt_putByte_ne s b h

/-! ### Every operation keeps the canonical form -/

theorem canonical_reset : MemoryCanonical State.reset := rfl

theorem canonical_putByte {s : State} (key : Nat) (b : Byte) (h : MemoryCanonical s) : MemoryCanonical (s.putByte key b) :=
  Table.wf_put h

theorem canonical_putLineAt {s : State} (key : Nat) (m : BitVec 128) (d : LineData) (h : MemoryCanonical s) :
    MemoryCanonical (s.putLineAt key m d) := by
  unfold State.putLineAt
  refine each_keeps (P := MemoryCanonical) _ ?_ (each_keeps (P := MemoryCanonical) _ ?_ h)
  · intro w _ t ht
    exact ht
  · intro i _ t ht
    split
    · exact canonical_putByte _ _ ht
    · exact ht

theorem canonical_of_mem {s t : State} (hm : t.mem = s.mem) (h : MemoryCanonical s) : MemoryCanonical t := by
  unfold MemoryCanonical at *; rw [hm]; exact h

theorem canonical_putBytes {s : State} (l : List Nat) (key : Nat → Nat) (b : Nat → State → Byte) (h : MemoryCanonical s) :
    MemoryCanonical (State.each l (fun i t => t.putByte (key i) (b i t)) s) := by
  refine each_keeps (P := MemoryCanonical) l ?_ h
  intro i _ u hu
  exact canonical_putByte (key i) (b i u) hu

theorem canonical_copyWords {s : State} (src dst : Nat) (words : BitVec 16) (h : MemoryCanonical s) :
    MemoryCanonical (s.copyWords src dst words) := by
  unfold State.copyWords
  refine each_keeps (P := MemoryCanonical) _ ?_ h
  intro w _ t ht
  refine canonical_of_mem ?_
    (canonical_putBytes (List.range 8) (fun i => dst + 8 * w + i) (fun i u => u.byteAt (src + 8 * w + i)) ht)
  with_reducible rfl

theorem canonical_clearChannel {s : State} (c : Nat) (h : MemoryCanonical s) : MemoryCanonical (s.clearChannel c) :=
  wf_clearRange _ _ h

theorem canonical_zeroSlot {s : State} (c slot : Nat) (h : MemoryCanonical s) : MemoryCanonical (s.zeroSlot c slot) :=
  wf_clearRange _ _ h

theorem canonical_copySlot {s : State} (c1 s1 c2 s2 : Nat) (h : MemoryCanonical s) : MemoryCanonical (s.copySlot c1 s1 c2 s2) :=
  wf_moveRange _ _ _ h

/-- The memory that a RESYNC leaves. -/
theorem canonical_resync {s : State} (src dst : Nat) (h : MemoryCanonical s) :
    Memory.wf (moveRange s.mem src dst (2 ^ 31)) = true := wf_moveRange _ _ _ h

theorem canonical_channelMemoryLost {s : State} (c : Nat) (h : MemoryCanonical s) : MemoryCanonical (s.channelMemoryLost c) :=
  wf_clearRange _ _ h

/-- What standby and the hold-up drain leave is empty. -/
theorem canonical_loseVolatile (s : State) : MemoryCanonical s.loseVolatile := rfl

end Sys2Proof.Machine
end

