-- ==== Sys2Proof/Laws/Ops.lean ====
section
/-! SUPPORT. What the shared operations of commands and instructions can do, said once. -/

namespace Sys2Proof.Machine

/-! ### Commands -/

theorem run_of_eq {s t : State} {f : State → State} (hp : s.hasPower) (hf : f s = t) : s.run f = .next (s.after fun _ => t) := by
  subst hf; simp [State.run, State.after, show s.power.mode ≠ .off from hp]

theorem runAlways_of_eq {s t : State} {f : State → State} (hf : f s = t) : s.runAlways f = .next (s.after fun _ => t) := by
  subst hf; simp [State.runAlways, State.after]

theorem runAnswer_next {s t : State} {f : State → Answer} (hp : s.hasPower) (hf : f s = .next t) :
    s.runAnswer f = .next (s.after fun _ => t) := by
  simp [State.runAnswer, State.after, show s.power.mode ≠ .off from hp, hf]

theorem runAnswer_fault {s : State} {e : Fault} {f : State → Answer} (hp : s.hasPower) (hf : f s = .fault e) :
    s.runAnswer f = .fault e := by
  simp [State.runAnswer, show s.power.mode ≠ .off from hp, hf]

/-- A command that always completes changes neither the queue nor the clock. -/
theorem run_keeps {s t : State} {f : State → State} (h : s.run f = .next t) : t.pending = s.pending ∧ t.now = s.now := by
  unfold State.run at h
  split at h <;> cases h <;> exact ⟨rfl, rfl⟩

theorem runAlways_keeps {s t : State} {f : State → State} (h : s.runAlways f = .next t) : t.pending = s.pending ∧ t.now = s.now := by
  cases h; exact ⟨rfl, rfl⟩

theorem runAnswer_keeps {s t : State} {f : State → Answer} (h : s.runAnswer f = .next t) :
    t.pending = s.pending ∧ t.now = s.now := by
  unfold State.runAnswer at h
  split at h
  · cases h; exact ⟨rfl, rfl⟩
  · split at h <;> cases h; exact ⟨rfl, rfl⟩

/-- A write that its register admits is performed. -/
theorem command_of_admits {s : State} {sender : Sender} {u : UnitId} {off : Nat} {act : State → State}
    (h : Admits s sender u off) : s.command sender u off act = act s := by
  unfold State.command; rw [show s.guardWrite sender u off = (s, .pass) from h]

/-- A write that the fence rejects, or that gets an error response, leaves what its checks leave and performs nothing. -/
theorem command_of_not_pass {s : State} {sender : Sender} {u : UnitId} {off : Nat} {act : State → State}
    (h : (s.guardWrite sender u off).2 ≠ .pass) : s.command sender u off act = (s.guardWrite sender u off).1 := by
  unfold State.command
  split
  · next t e => rw [e] at h; exact absurd rfl h
  · next t v _ e => rw [e]

/-! ### Instructions -/

/-- What an instruction does once it is fetched. -/
theorem instr_of_ready {s : State} {k len : Nat} {body : State → State × Done} (h : Ready s k len) :
    s.instr k len body =
      (match body (s.fetched k len) with
        | (t, .next) => t.completed k ((s.found k len).ia + BitVec.ofNat 64 len) false
        | (t, .close) => t.completed k ((s.found k len).ia + BitVec.ofNat 64 len) true
        | (t, .jump a close) => t.completed k a close
        | (t, .left) => t
        | (t, .exc x) => s.nullified k t x) := by
  obtain ⟨-, hr, hh, hf⟩ := h
  have e : (s.openGroup k).fetch k len = (s.fetched k len, none) := by rw [← hf]; rfl
  simp only [State.instr, hr, hh, e, State.found, State.nullified, Bool.not_true, Bool.false_eq_true, if_false]
    <;> rfl

/-- An instruction whose body raises an exception before it changes anything is nullified. -/
theorem instr_exc_of_ready {s : State} {k len : Nat} {body : State → State × Done} {x : Exc} (h : Ready s k len)
    (hb : body (s.fetched k len) = (s.fetched k len, .exc x)) : s.instr k len body = s.nullified k (s.fetched k len) x := by
  rw [instr_of_ready h, hb]

/-- The state in which the body of a floating-point instruction starts: a decimal one has run its microcode (R215). -/
def State.fpStart (s : State) (k : Nat) (decimal : Bool) : State := if decimal then (s.fetched k 4).microcode k else s.fetched k 4

/-- A floating-point instruction: it delivers, or the enabled exception of the highest priority traps. -/
theorem fpInstr_of_ready {s : State} {k : Fin 48} {decimal : Bool} {op : RMode → Arch → Raised × (Arch → Arch)} (h : Ready s k 4)
    (hw : decimal = true → (s.fpStart k decimal).holdsWork k = true) :
    s.fpInstr k decimal true op =
      (let q := (s.fpStart k decimal).roundMode k decimal
       let r := op q.2 (q.1.arch k)
       match trapCause (q.1.arch k) r.1 with
       | some cause => s.nullified k q.1 (.program (8 + cause * 65536) 0)
       | none => (q.1.setArch k ((r.2 (q.1.arch k)).setFlags r.1)).completed k ((s.found k 4).ia + 4) false) := by
  unfold State.fpInstr
  rw [instr_of_ready h]
  cases decimal
  · simp only [State.fpStart, State.fpBody, State.checked, Bool.false_eq_true, if_true, if_false, fpDeliver]
    cases trapCause _ _ <;> rfl
  · have hw := hw rfl
    simp only [State.fpStart, if_true] at hw
    simp only [State.fpStart, State.microThen, State.fpBody, State.checked, hw, if_true, fpDeliver]
    cases trapCause _ _ <;> rfl

/-- An instruction of one architectural effect. -/
theorem simple_of_ready {s : State} {k len : Nat} {f : Arch → Arch} (h : Ready s k len) :
    s.simple k len f = s.executed k len (f (s.found k len)) := by
  unfold State.simple; rw [instr_of_ready h]; rfl

/-- An instruction whose fetch raises an exception is nullified. -/
theorem instr_of_fetch_exc {s : State} {k len : Nat} {body : State → State × Done} {x : Exc} (hr : s.coreRuns k = true)
    (hh : (s.openGroup k).holdsWork k = true) (hf : ((s.openGroup k).fetch k len).2 = some x) :
    s.instr k len body = s.nullified k (s.fetched k len) x := by
  have e : (s.openGroup k).fetch k len = (s.fetched k len, some x) := by rw [← hf]; rfl
  simp only [State.instr, hr, hh, e, State.nullified, Bool.not_true, Bool.false_eq_true, if_false]

/-- A core that does not run executes nothing (log entry 9). -/
theorem instr_of_not_running {s : State} {k len : Nat} {body : State → State × Done} (h : s.coreRuns k = false) :
    s.instr k len body = s := by
  simp [State.instr, h]

theorem checked_ok {body : State → State × Done} {s : State} : State.checked true body s = body s := rfl

theorem checked_bad {body : State → State × Done} {s : State} : State.checked false body s = (s, .exc (.program 3 0)) := rfl

theorem privileged_super {k : Nat} {body : State → State × Done} {s : State} (h : (s.arch k).problem = false) :
    State.privileged k body s = body s := by simp [State.privileged, h]

theorem privileged_problem {k : Nat} {body : State → State × Done} {s : State} (h : (s.arch k).problem = true) :
    State.privileged k body s = (s, .exc (.program 2 0)) := by simp [State.privileged, h, excPrivileged]

/-- An instruction performed outside the core, from the state that its drain leaves. -/
theorem onceOnly_of_performs {k : Fin 48} {len : Nat} {body : State → State × Done} {w u v : State} (h : PerformsFrom w u k)
    (hb : body u = (v, .next) ∨ body u = (v, .close)) : State.onceOnly k len body w = (u.performed v k len, .left) := by
  obtain ⟨hs, hh⟩ := h
  simp only [State.onceOnly, hs, hh, Bool.not_true, Bool.false_eq_true, if_false]
  rcases hb with hb | hb <;> rw [hb] <;> rfl

/-- The four control registers that taking an interruption writes, one after the other. -/
theorem saved_look (t : Table Word) (p q r x : Word) :
    ((((t.put 0 10 p).put 0 11 q).put 0 12 r).put 0 13 x).look 0 10 = p ∧
      ((((t.put 0 10 p).put 0 11 q).put 0 12 r).put 0 13 x).look 0 11 = q ∧
      ((((t.put 0 10 p).put 0 11 q).put 0 12 r).put 0 13 x).look 0 12 = r ∧
      ((((t.put 0 10 p).put 0 11 q).put 0 12 r).put 0 13 x).look 0 13 = x := by
  simp [Table.look_put]

/-- What taking an interruption leaves in OLDIA, OLDSW, c12 and c13 (R75). -/
theorem enter_saved (a : Arch) (cls icode : Nat) (xaddr ia : Word) :
    (a.enter cls icode xaddr ia).c 10 = ia ∧ (a.enter cls icode xaddr ia).c 11 = a.sw ∧
      (a.enter cls icode xaddr ia).c 12 = BitVec.ofNat 64 (cls * 2 ^ 48 + icode % 2 ^ 48) ∧
      (a.enter cls icode xaddr ia).c 13 = xaddr :=
  saved_look a.cr ia a.sw _ xaddr

/-! ### Loads and stores of memory -/

/-- A load that finds its bytes delivers them. -/
theorem loadForm_of_reads {s v : State} {k : Fin 48} {f : AddrForm} {n : Nat} {bytes : List Byte} {a : Arch}
    {use : List Byte → Arch → Except Exc Arch} (h : LoadReads s k f n v bytes) (hu : use bytes (v.arch k) = .ok a) :
    s.loadForm k f true n use = s.loaded v k f.length a := by
  obtain ⟨hr, ea, u, ps, ha, hreach, hd, hh, hl⟩ := h
  unfold State.loadForm
  rw [instr_of_ready hr, show ((s.fetched k f.length).arch k).address f = some ea from ha]
  simp only [if_true, State.load, hreach, hd, hh, hl, hu, Bool.not_true, Bool.false_eq_true, if_false]
  rfl

/-- A store that reaches memory adds its bytes to the stores of the group. -/
theorem storeForm_of_reaches {s u : State} {k : Fin 48} {f : AddrForm} {n : Nat} {ps : List Piece} {bytes : List Byte} {a : Arch}
    {make : Arch → Except Exc (List Byte × Arch)} (h : StoreReaches s k f n u ps) (hm : make (u.arch k) = .ok (bytes, a)) :
    s.storeForm k f true n make =
      ((((u.pieceOrder ps).1.setArch k a).groupStores k (storesOf (u.seamOf k) (a.c 25) (u.pieceOrder ps).2 bytes)).completed k
        ((s.found k f.length).ia + BitVec.ofNat 64 f.length) false) := by
  obtain ⟨hr, ea, ha, hreach, hd⟩ := h
  unfold State.storeForm
  rw [instr_of_ready hr, show ((s.fetched k f.length).arch k).address f = some ea from ha]
  simp only [if_true, State.store, hreach, hd, hm]

/-! ### Instructions of a hauler -/

/-- What an instruction of a hauler does once it is its turn. -/
theorem hexec_of_ready {s : State} {h len : Nat} {cond : Option (Fin 14)} {kind : HKind} {body : State → State × List Late × HNext}
    (hr : HaulerReady s h cond kind) :
    s.hexec h cond len kind body =
      (let r := body (s.cycled h)
       let n := withCond cond len
       match r.2.2 with
       | .trap c => r.1.trapHauler h c n
       | .resume => r.1.haltAsked h
       | .next => (r.1.bound h n kind none r.2.1).haltAsked h
       | .branch t => (r.1.bound h n kind (some t) r.2.1).haltAsked h
       | .halt => (r.1.bound h n kind none r.2.1).haltHauler h
       | .wait =>
         let t := r.1.bound h n kind none r.2.1
         let x := t.hauler h
         if (x.evtDma &&& x.maskDma) = 0 ∧ (x.evtMisc &&& x.maskMisc) = 0 then t.setHauler h { x with mode := .wfe } else t.haltAsked h) := by
  obtain ⟨-, hrun, hrule, hc⟩ := hr
  have e : (s.count (uHauler h) Reg.HLR_CYCLES.CYCLES).hauler h = s.hauler h := rfl
  unfold State.hexec State.cycled State.bound withCond
  generalize s.count (uHauler h) Reg.HLR_CYCLES.CYCLES = w at *
  rcases cond with _ | c
  · simp only [hrun, Bool.not_true, Bool.false_eq_true, if_false, e, hrule, if_true, Bool.and_true]
    generalize body w = r
    obtain ⟨t, ws, n⟩ := r
    cases n <;> simp
  · simp only [hrun, Bool.not_true, Bool.false_eq_true, if_false, e, hrule, hc, if_true, Bool.and_true]
    generalize body w = r
    obtain ⟨t, ws, n⟩ := r
    cases n <;> simp

/-- An instruction of a hauler whose condition fails only passes. -/
theorem hexec_failed {s : State} {h len : Nat} {c : Fin 14} {kind : HKind} {body : State → State × List Late × HNext}
    (hr : s.haulerRuns h = true) (hb : ((s.cycled h).hauler h).ruleBroken kind = none)
    (hc : condHolds ((s.cycled h).hauler h).flags c.val = false) :
    s.hexec h (some c) len kind body = (State.bound (s.cycled h) h (len + 1) kind none []).haltAsked h ∨ kind = .lset := by
  by_cases hk : kind = .lset
  · exact .inr hk
  · left
    have hk' : (kind == .lset) = false := by simpa using hk
    simp only [State.hexec, hr, State.bound, State.cycled, Bool.not_true, Bool.false_eq_true, if_false] at *
    simp only [hb, hc, hk', Option.isSome_some, if_true, Bool.false_eq_true, if_false, Bool.and_false]

end Sys2Proof.Machine
end

