-- ==== Sys2Proof/Laws/State.lean ====
section
/-! SUPPORT. What the named updates of State leave as it is, field by field, and what they change. -/

namespace Sys2Proof.Machine

/-! ### What an update changes -/

@[simp] theorem word_setWord_same (s : State) (u : UnitId) (off : Nat) (w : Word) : (s.setWord u off w).word u off = w := by
  simp [State.word, State.setWord]

theorem word_setWord_ne (s : State) (u v : UnitId) (off o : Nat) (w : Word) (h : pageKey v o ≠ pageKey u off) :
    (s.setWord u off w).word v o = s.word v o := by
  simp [State.word, State.setWord, Table.look_put_ne _ _ _ _ h]

@[simp] theorem word_wr_same (s : State) (u : UnitId) (f : Field) (v : Nat) :
    (s.wr u f v).word u f.off = (s.word u f.off).setField f.lo f.hi v := by simp [State.wr]

@[simp] theorem core_setCore_same (s : State) (k : Nat) (c : CoreSt) : (s.setCore k c).core k = c := by
  simp [State.core, State.setCore]

theorem core_setCore_ne (s : State) {k j : Nat} (c : CoreSt) (h : j ≠ k) : (s.setCore k c).core j = s.core j := by
  simp [State.core, State.setCore, Table.look_put_ne _ _ _ _ h]

@[simp] theorem hauler_setHauler_same (s : State) (h : Nat) (x : Hauler) : (s.setHauler h x).hauler h = x := by
  simp [State.hauler, State.setHauler]

theorem hauler_setHauler_ne (s : State) {h g : Nat} (x : Hauler) (hg : g ≠ h) : (s.setHauler h x).hauler g = s.hauler g := by
  simp [State.hauler, State.setHauler, Table.look_put_ne _ _ _ _ hg]

@[simp] theorem unit_setUnit_same (s : State) (u : UnitId) (d : UnitDyn) : (s.setUnit u d).unit u = d := by
  simp [State.unit, State.setUnit]

@[simp] theorem exch_setExch_same (s : State) (key : Nat) (e : Exchange) : (s.setExch key e).exch key = e := by
  simp [State.exch, State.setExch]

@[simp] theorem work_setWork_same (s : State) (num : Nat) (w : WorkUnit) : (s.setWork num w).work num = w := by
  simp [State.work, State.setWork]

/-! ### `setWord` -/

@[simp] theorem setWord_pending (s : State) (u : UnitId) (off : Nat) (w : Word) : (s.setWord u off w).pending = s.pending := rfl
@[simp] theorem setWord_now (s : State) (u : UnitId) (off : Nat) (w : Word) : (s.setWord u off w).now = s.now := rfl
@[simp] theorem setWord_free (s : State) (u : UnitId) (off : Nat) (w : Word) : (s.setWord u off w).free = s.free := rfl
@[simp] theorem setWord_tbStart (s : State) (u : UnitId) (off : Nat) (w : Word) : (s.setWord u off w).tbStart = s.tbStart := rfl
@[simp] theorem setWord_units (s : State) (u : UnitId) (off : Nat) (w : Word) : (s.setWord u off w).units = s.units := rfl
@[simp] theorem setWord_cores (s : State) (u : UnitId) (off : Nat) (w : Word) : (s.setWord u off w).cores = s.cores := rfl
@[simp] theorem setWord_caches (s : State) (u : UnitId) (off : Nat) (w : Word) : (s.setWord u off w).caches = s.caches := rfl
@[simp] theorem setWord_plru (s : State) (u : UnitId) (off : Nat) (w : Word) : (s.setWord u off w).plru = s.plru := rfl
@[simp] theorem setWord_wbq (s : State) (u : UnitId) (off : Nat) (w : Word) : (s.setWord u off w).wbq = s.wbq := rfl
@[simp] theorem setWord_dir (s : State) (u : UnitId) (off : Nat) (w : Word) : (s.setWord u off w).dir = s.dir := rfl
@[simp] theorem setWord_homeTrans (s : State) (u : UnitId) (off : Nat) (w : Word) : (s.setWord u off w).homeTrans = s.homeTrans := rfl
@[simp] theorem setWord_homeQueue (s : State) (u : UnitId) (off : Nat) (w : Word) : (s.setWord u off w).homeQueue = s.homeQueue := rfl
@[simp] theorem setWord_dirReserve (s : State) (u : UnitId) (off : Nat) (w : Word) : (s.setWord u off w).dirReserve = s.dirReserve := rfl
@[simp] theorem setWord_tileTrans (s : State) (u : UnitId) (off : Nat) (w : Word) : (s.setWord u off w).tileTrans = s.tileTrans := rfl
@[simp] theorem setWord_msgs (s : State) (u : UnitId) (off : Nat) (w : Word) : (s.setWord u off w).msgs = s.msgs := rfl
@[simp] theorem setWord_ringWait (s : State) (u : UnitId) (off : Nat) (w : Word) : (s.setWord u off w).ringWait = s.ringWait := rfl
@[simp] theorem setWord_supplied (s : State) (u : UnitId) (off : Nat) (w : Word) : (s.setWord u off w).supplied = s.supplied := rfl
@[simp] theorem setWord_atmVals (s : State) (u : UnitId) (off : Nat) (w : Word) : (s.setWord u off w).atmVals = s.atmVals := rfl
@[simp] theorem setWord_ioData (s : State) (u : UnitId) (off : Nat) (w : Word) : (s.setWord u off w).ioData = s.ioData := rfl
@[simp] theorem setWord_isolated (s : State) (u : UnitId) (off : Nat) (w : Word) : (s.setWord u off w).isolated = s.isolated := rfl
@[simp] theorem setWord_cacheJobs (s : State) (u : UnitId) (off : Nat) (w : Word) : (s.setWord u off w).cacheJobs = s.cacheJobs := rfl
@[simp] theorem setWord_replays (s : State) (u : UnitId) (off : Nat) (w : Word) : (s.setWord u off w).replays = s.replays := rfl
@[simp] theorem setWord_mem (s : State) (u : UnitId) (off : Nat) (w : Word) : (s.setWord u off w).mem = s.mem := rfl
@[simp] theorem setWord_poison (s : State) (u : UnitId) (off : Nat) (w : Word) : (s.setWord u off w).poison = s.poison := rfl
@[simp] theorem setWord_badWords (s : State) (u : UnitId) (off : Nat) (w : Word) : (s.setWord u off w).badWords = s.badWords := rfl
@[simp] theorem setWord_remap (s : State) (u : UnitId) (off : Nat) (w : Word) : (s.setWord u off w).remap = s.remap := rfl
@[simp] theorem setWord_down (s : State) (u : UnitId) (off : Nat) (w : Word) : (s.setWord u off w).down = s.down := rfl
@[simp] theorem setWord_owners (s : State) (u : UnitId) (off : Nat) (w : Word) : (s.setWord u off w).owners = s.owners := rfl
@[simp] theorem setWord_grantAt (s : State) (u : UnitId) (off : Nat) (w : Word) : (s.setWord u off w).grantAt = s.grantAt := rfl
@[simp] theorem setWord_seamCmd (s : State) (u : UnitId) (off : Nat) (w : Word) : (s.setWord u off w).seamCmd = s.seamCmd := rfl
@[simp] theorem setWord_heldStops (s : State) (u : UnitId) (off : Nat) (w : Word) : (s.setWord u off w).heldStops = s.heldStops := rfl
@[simp] theorem setWord_seamPend (s : State) (u : UnitId) (off : Nat) (w : Word) : (s.setWord u off w).seamPend = s.seamPend := rfl
@[simp] theorem setWord_wus (s : State) (u : UnitId) (off : Nat) (w : Word) : (s.setWord u off w).wus = s.wus := rfl
@[simp] theorem setWord_nextWork (s : State) (u : UnitId) (off : Nat) (w : Word) : (s.setWord u off w).nextWork = s.nextWork := rfl
@[simp] theorem setWord_rings (s : State) (u : UnitId) (off : Nat) (w : Word) : (s.setWord u off w).rings = s.rings := rfl
@[simp] theorem setWord_waiters (s : State) (u : UnitId) (off : Nat) (w : Word) : (s.setWord u off w).waiters = s.waiters := rfl
@[simp] theorem setWord_fmnEvents (s : State) (u : UnitId) (off : Nat) (w : Word) : (s.setWord u off w).fmnEvents = s.fmnEvents := rfl
@[simp] theorem setWord_granCounts (s : State) (u : UnitId) (off : Nat) (w : Word) : (s.setWord u off w).granCounts = s.granCounts := rfl
@[simp] theorem setWord_migrations (s : State) (u : UnitId) (off : Nat) (w : Word) : (s.setWord u off w).migrations = s.migrations := rfl
@[simp] theorem setWord_missOrder (s : State) (u : UnitId) (off : Nat) (w : Word) : (s.setWord u off w).missOrder = s.missOrder := rfl
@[simp] theorem setWord_missReports (s : State) (u : UnitId) (off : Nat) (w : Word) : (s.setWord u off w).missReports = s.missReports := rfl
@[simp] theorem setWord_traceSeq (s : State) (u : UnitId) (off : Nat) (w : Word) : (s.setWord u off w).traceSeq = s.traceSeq := rfl
@[simp] theorem setWord_traceGap (s : State) (u : UnitId) (off : Nat) (w : Word) : (s.setWord u off w).traceGap = s.traceGap := rfl
@[simp] theorem setWord_capPowered (s : State) (u : UnitId) (off : Nat) (w : Word) : (s.setWord u off w).capPowered = s.capPowered := rfl
@[simp] theorem setWord_evict (s : State) (u : UnitId) (off : Nat) (w : Word) : (s.setWord u off w).evict = s.evict := rfl
@[simp] theorem setWord_outbox (s : State) (u : UnitId) (off : Nat) (w : Word) : (s.setWord u off w).outbox = s.outbox := rfl
@[simp] theorem setWord_reports (s : State) (u : UnitId) (off : Nat) (w : Word) : (s.setWord u off w).reports = s.reports := rfl
@[simp] theorem setWord_reportsWaiting (s : State) (u : UnitId) (off : Nat) (w : Word) : (s.setWord u off w).reportsWaiting = s.reportsWaiting := rfl
@[simp] theorem setWord_overflow (s : State) (u : UnitId) (off : Nat) (w : Word) : (s.setWord u off w).overflow = s.overflow := rfl
@[simp] theorem setWord_notices (s : State) (u : UnitId) (off : Nat) (w : Word) : (s.setWord u off w).notices = s.notices := rfl
@[simp] theorem setWord_canaries (s : State) (u : UnitId) (off : Nat) (w : Word) : (s.setWord u off w).canaries = s.canaries := rfl
@[simp] theorem setWord_laddersDue (s : State) (u : UnitId) (off : Nat) (w : Word) : (s.setWord u off w).laddersDue = s.laddersDue := rfl
@[simp] theorem setWord_windows (s : State) (u : UnitId) (off : Nat) (w : Word) : (s.setWord u off w).windows = s.windows := rfl
@[simp] theorem setWord_tallyBuf (s : State) (u : UnitId) (off : Nat) (w : Word) : (s.setWord u off w).tallyBuf = s.tallyBuf := rfl
@[simp] theorem setWord_tallyStore (s : State) (u : UnitId) (off : Nat) (w : Word) : (s.setWord u off w).tallyStore = s.tallyStore := rfl
@[simp] theorem setWord_tallySeq (s : State) (u : UnitId) (off : Nat) (w : Word) : (s.setWord u off w).tallySeq = s.tallySeq := rfl
@[simp] theorem setWord_pcycle (s : State) (u : UnitId) (off : Nat) (w : Word) : (s.setWord u off w).pcycle = s.pcycle := rfl
@[simp] theorem setWord_opBase (s : State) (u : UnitId) (off : Nat) (w : Word) : (s.setWord u off w).opBase = s.opBase := rfl
@[simp] theorem setWord_opFrom (s : State) (u : UnitId) (off : Nat) (w : Word) : (s.setWord u off w).opFrom = s.opFrom := rfl
@[simp] theorem setWord_opCommit (s : State) (u : UnitId) (off : Nat) (w : Word) : (s.setWord u off w).opCommit = s.opCommit := rfl
@[simp] theorem setWord_lostPending (s : State) (u : UnitId) (off : Nat) (w : Word) : (s.setWord u off w).lostPending = s.lostPending := rfl
@[simp] theorem setWord_backlogSaid (s : State) (u : UnitId) (off : Nat) (w : Word) : (s.setWord u off w).backlogSaid = s.backlogSaid := rfl
@[simp] theorem setWord_exchanges (s : State) (u : UnitId) (off : Nat) (w : Word) : (s.setWord u off w).exchanges = s.exchanges := rfl
@[simp] theorem setWord_cqPhase (s : State) (u : UnitId) (off : Nat) (w : Word) : (s.setWord u off w).cqPhase = s.cqPhase := rfl
@[simp] theorem setWord_peers (s : State) (u : UnitId) (off : Nat) (w : Word) : (s.setWord u off w).peers = s.peers := rfl
@[simp] theorem setWord_ethQueue (s : State) (u : UnitId) (off : Nat) (w : Word) : (s.setWord u off w).ethQueue = s.ethQueue := rfl
@[simp] theorem setWord_jslots (s : State) (u : UnitId) (off : Nat) (w : Word) : (s.setWord u off w).jslots = s.jslots := rfl
@[simp] theorem setWord_jdata (s : State) (u : UnitId) (off : Nat) (w : Word) : (s.setWord u off w).jdata = s.jdata := rfl
@[simp] theorem setWord_jcount (s : State) (u : UnitId) (off : Nat) (w : Word) : (s.setWord u off w).jcount = s.jcount := rfl
@[simp] theorem setWord_jbad (s : State) (u : UnitId) (off : Nat) (w : Word) : (s.setWord u off w).jbad = s.jbad := rfl
@[simp] theorem setWord_commits (s : State) (u : UnitId) (off : Nat) (w : Word) : (s.setWord u off w).commits = s.commits := rfl
@[simp] theorem setWord_targetWrites (s : State) (u : UnitId) (off : Nat) (w : Word) : (s.setWord u off w).targetWrites = s.targetWrites := rfl
@[simp] theorem setWord_restored (s : State) (u : UnitId) (off : Nat) (w : Word) : (s.setWord u off w).restored = s.restored := rfl
@[simp] theorem setWord_jcmd (s : State) (u : UnitId) (off : Nat) (w : Word) : (s.setWord u off w).jcmd = s.jcmd := rfl
@[simp] theorem setWord_images (s : State) (u : UnitId) (off : Nat) (w : Word) : (s.setWord u off w).images = s.images := rfl
@[simp] theorem setWord_draining (s : State) (u : UnitId) (off : Nat) (w : Word) : (s.setWord u off w).draining = s.draining := rfl
@[simp] theorem setWord_jrecv (s : State) (u : UnitId) (off : Nat) (w : Word) : (s.setWord u off w).jrecv = s.jrecv := rfl
@[simp] theorem setWord_haulers (s : State) (u : UnitId) (off : Nat) (w : Word) : (s.setWord u off w).haulers = s.haulers := rfl
@[simp] theorem setWord_istore (s : State) (u : UnitId) (off : Nat) (w : Word) : (s.setWord u off w).istore = s.istore := rfl
@[simp] theorem setWord_pit (s : State) (u : UnitId) (off : Nat) (w : Word) : (s.setWord u off w).pit = s.pit := rfl
@[simp] theorem setWord_pitBad (s : State) (u : UnitId) (off : Nat) (w : Word) : (s.setWord u off w).pitBad = s.pitBad := rfl
@[simp] theorem setWord_marchRuns (s : State) (u : UnitId) (off : Nat) (w : Word) : (s.setWord u off w).marchRuns = s.marchRuns := rfl
@[simp] theorem setWord_loadRuns (s : State) (u : UnitId) (off : Nat) (w : Word) : (s.setWord u off w).loadRuns = s.loadRuns := rfl
@[simp] theorem setWord_links (s : State) (u : UnitId) (off : Nat) (w : Word) : (s.setWord u off w).links = s.links := rfl
@[simp] theorem setWord_couplings (s : State) (u : UnitId) (off : Nat) (w : Word) : (s.setWord u off w).couplings = s.couplings := rfl
@[simp] theorem setWord_complex (s : State) (u : UnitId) (off : Nat) (w : Word) : (s.setWord u off w).complex = s.complex := rfl
@[simp] theorem setWord_engines (s : State) (u : UnitId) (off : Nat) (w : Word) : (s.setWord u off w).engines = s.engines := rfl
@[simp] theorem setWord_drbg (s : State) (u : UnitId) (off : Nat) (w : Word) : (s.setWord u off w).drbg = s.drbg := rfl
@[simp] theorem setWord_entropy (s : State) (u : UnitId) (off : Nat) (w : Word) : (s.setWord u off w).entropy = s.entropy := rfl
@[simp] theorem setWord_attLog (s : State) (u : UnitId) (off : Nat) (w : Word) : (s.setWord u off w).attLog = s.attLog := rfl
@[simp] theorem setWord_att (s : State) (u : UnitId) (off : Nat) (w : Word) : (s.setWord u off w).att = s.att := rfl
@[simp] theorem setWord_staging (s : State) (u : UnitId) (off : Nat) (w : Word) : (s.setWord u off w).staging = s.staging := rfl
@[simp] theorem setWord_active (s : State) (u : UnitId) (off : Nat) (w : Word) : (s.setWord u off w).active = s.active := rfl
@[simp] theorem setWord_patches (s : State) (u : UnitId) (off : Nat) (w : Word) : (s.setWord u off w).patches = s.patches := rfl
@[simp] theorem setWord_patchDue (s : State) (u : UnitId) (off : Nat) (w : Word) : (s.setWord u off w).patchDue = s.patchDue := rfl
@[simp] theorem setWord_patchRuns (s : State) (u : UnitId) (off : Nat) (w : Word) : (s.setWord u off w).patchRuns = s.patchRuns := rfl
@[simp] theorem setWord_mcsRun (s : State) (u : UnitId) (off : Nat) (w : Word) : (s.setWord u off w).mcsRun = s.mcsRun := rfl
@[simp] theorem setWord_mcsPending (s : State) (u : UnitId) (off : Nat) (w : Word) : (s.setWord u off w).mcsPending = s.mcsPending := rfl
@[simp] theorem setWord_ckwRuns (s : State) (u : UnitId) (off : Nat) (w : Word) : (s.setWord u off w).ckwRuns = s.ckwRuns := rfl
@[simp] theorem setWord_trainRuns (s : State) (u : UnitId) (off : Nat) (w : Word) : (s.setWord u off w).trainRuns = s.trainRuns := rfl
@[simp] theorem setWord_timingOk (s : State) (u : UnitId) (off : Nat) (w : Word) : (s.setWord u off w).timingOk = s.timingOk := rfl
@[simp] theorem setWord_stewards (s : State) (u : UnitId) (off : Nat) (w : Word) : (s.setWord u off w).stewards = s.stewards := rfl
@[simp] theorem setWord_cubePend (s : State) (u : UnitId) (off : Nat) (w : Word) : (s.setWord u off w).cubePend = s.cubePend := rfl
@[simp] theorem setWord_leaseEnd (s : State) (u : UnitId) (off : Nat) (w : Word) : (s.setWord u off w).leaseEnd = s.leaseEnd := rfl
@[simp] theorem setWord_leaseLen (s : State) (u : UnitId) (off : Nat) (w : Word) : (s.setWord u off w).leaseLen = s.leaseLen := rfl
@[simp] theorem setWord_power (s : State) (u : UnitId) (off : Nat) (w : Word) : (s.setWord u off w).power = s.power := rfl
@[simp] theorem setWord_tap (s : State) (u : UnitId) (off : Nat) (w : Word) : (s.setWord u off w).tap = s.tap := rfl

/-! ### `wr` -/

@[simp] theorem wr_pending (s : State) (u : UnitId) (f : Field) (v : Nat) : (s.wr u f v).pending = s.pending := rfl
@[simp] theorem wr_now (s : State) (u : UnitId) (f : Field) (v : Nat) : (s.wr u f v).now = s.now := rfl
@[simp] theorem wr_free (s : State) (u : UnitId) (f : Field) (v : Nat) : (s.wr u f v).free = s.free := rfl
@[simp] theorem wr_tbStart (s : State) (u : UnitId) (f : Field) (v : Nat) : (s.wr u f v).tbStart = s.tbStart := rfl
@[simp] theorem wr_units (s : State) (u : UnitId) (f : Field) (v : Nat) : (s.wr u f v).units = s.units := rfl
@[simp] theorem wr_cores (s : State) (u : UnitId) (f : Field) (v : Nat) : (s.wr u f v).cores = s.cores := rfl
@[simp] theorem wr_caches (s : State) (u : UnitId) (f : Field) (v : Nat) : (s.wr u f v).caches = s.caches := rfl
@[simp] theorem wr_plru (s : State) (u : UnitId) (f : Field) (v : Nat) : (s.wr u f v).plru = s.plru := rfl
@[simp] theorem wr_wbq (s : State) (u : UnitId) (f : Field) (v : Nat) : (s.wr u f v).wbq = s.wbq := rfl
@[simp] theorem wr_dir (s : State) (u : UnitId) (f : Field) (v : Nat) : (s.wr u f v).dir = s.dir := rfl
@[simp] theorem wr_homeTrans (s : State) (u : UnitId) (f : Field) (v : Nat) : (s.wr u f v).homeTrans = s.homeTrans := rfl
@[simp] theorem wr_homeQueue (s : State) (u : UnitId) (f : Field) (v : Nat) : (s.wr u f v).homeQueue = s.homeQueue := rfl
@[simp] theorem wr_dirReserve (s : State) (u : UnitId) (f : Field) (v : Nat) : (s.wr u f v).dirReserve = s.dirReserve := rfl
@[simp] theorem wr_tileTrans (s : State) (u : UnitId) (f : Field) (v : Nat) : (s.wr u f v).tileTrans = s.tileTrans := rfl
@[simp] theorem wr_msgs (s : State) (u : UnitId) (f : Field) (v : Nat) : (s.wr u f v).msgs = s.msgs := rfl
@[simp] theorem wr_ringWait (s : State) (u : UnitId) (f : Field) (v : Nat) : (s.wr u f v).ringWait = s.ringWait := rfl
@[simp] theorem wr_supplied (s : State) (u : UnitId) (f : Field) (v : Nat) : (s.wr u f v).supplied = s.supplied := rfl
@[simp] theorem wr_atmVals (s : State) (u : UnitId) (f : Field) (v : Nat) : (s.wr u f v).atmVals = s.atmVals := rfl
@[simp] theorem wr_ioData (s : State) (u : UnitId) (f : Field) (v : Nat) : (s.wr u f v).ioData = s.ioData := rfl
@[simp] theorem wr_isolated (s : State) (u : UnitId) (f : Field) (v : Nat) : (s.wr u f v).isolated = s.isolated := rfl
@[simp] theorem wr_cacheJobs (s : State) (u : UnitId) (f : Field) (v : Nat) : (s.wr u f v).cacheJobs = s.cacheJobs := rfl
@[simp] theorem wr_replays (s : State) (u : UnitId) (f : Field) (v : Nat) : (s.wr u f v).replays = s.replays := rfl
@[simp] theorem wr_mem (s : State) (u : UnitId) (f : Field) (v : Nat) : (s.wr u f v).mem = s.mem := rfl
@[simp] theorem wr_poison (s : State) (u : UnitId) (f : Field) (v : Nat) : (s.wr u f v).poison = s.poison := rfl
@[simp] theorem wr_badWords (s : State) (u : UnitId) (f : Field) (v : Nat) : (s.wr u f v).badWords = s.badWords := rfl
@[simp] theorem wr_remap (s : State) (u : UnitId) (f : Field) (v : Nat) : (s.wr u f v).remap = s.remap := rfl
@[simp] theorem wr_down (s : State) (u : UnitId) (f : Field) (v : Nat) : (s.wr u f v).down = s.down := rfl
@[simp] theorem wr_owners (s : State) (u : UnitId) (f : Field) (v : Nat) : (s.wr u f v).owners = s.owners := rfl
@[simp] theorem wr_grantAt (s : State) (u : UnitId) (f : Field) (v : Nat) : (s.wr u f v).grantAt = s.grantAt := rfl
@[simp] theorem wr_seamCmd (s : State) (u : UnitId) (f : Field) (v : Nat) : (s.wr u f v).seamCmd = s.seamCmd := rfl
@[simp] theorem wr_heldStops (s : State) (u : UnitId) (f : Field) (v : Nat) : (s.wr u f v).heldStops = s.heldStops := rfl
@[simp] theorem wr_seamPend (s : State) (u : UnitId) (f : Field) (v : Nat) : (s.wr u f v).seamPend = s.seamPend := rfl
@[simp] theorem wr_wus (s : State) (u : UnitId) (f : Field) (v : Nat) : (s.wr u f v).wus = s.wus := rfl
@[simp] theorem wr_nextWork (s : State) (u : UnitId) (f : Field) (v : Nat) : (s.wr u f v).nextWork = s.nextWork := rfl
@[simp] theorem wr_rings (s : State) (u : UnitId) (f : Field) (v : Nat) : (s.wr u f v).rings = s.rings := rfl
@[simp] theorem wr_waiters (s : State) (u : UnitId) (f : Field) (v : Nat) : (s.wr u f v).waiters = s.waiters := rfl
@[simp] theorem wr_fmnEvents (s : State) (u : UnitId) (f : Field) (v : Nat) : (s.wr u f v).fmnEvents = s.fmnEvents := rfl
@[simp] theorem wr_granCounts (s : State) (u : UnitId) (f : Field) (v : Nat) : (s.wr u f v).granCounts = s.granCounts := rfl
@[simp] theorem wr_migrations (s : State) (u : UnitId) (f : Field) (v : Nat) : (s.wr u f v).migrations = s.migrations := rfl
@[simp] theorem wr_missOrder (s : State) (u : UnitId) (f : Field) (v : Nat) : (s.wr u f v).missOrder = s.missOrder := rfl
@[simp] theorem wr_missReports (s : State) (u : UnitId) (f : Field) (v : Nat) : (s.wr u f v).missReports = s.missReports := rfl
@[simp] theorem wr_traceSeq (s : State) (u : UnitId) (f : Field) (v : Nat) : (s.wr u f v).traceSeq = s.traceSeq := rfl
@[simp] theorem wr_traceGap (s : State) (u : UnitId) (f : Field) (v : Nat) : (s.wr u f v).traceGap = s.traceGap := rfl
@[simp] theorem wr_capPowered (s : State) (u : UnitId) (f : Field) (v : Nat) : (s.wr u f v).capPowered = s.capPowered := rfl
@[simp] theorem wr_evict (s : State) (u : UnitId) (f : Field) (v : Nat) : (s.wr u f v).evict = s.evict := rfl
@[simp] theorem wr_outbox (s : State) (u : UnitId) (f : Field) (v : Nat) : (s.wr u f v).outbox = s.outbox := rfl
@[simp] theorem wr_reports (s : State) (u : UnitId) (f : Field) (v : Nat) : (s.wr u f v).reports = s.reports := rfl
@[simp] theorem wr_reportsWaiting (s : State) (u : UnitId) (f : Field) (v : Nat) : (s.wr u f v).reportsWaiting = s.reportsWaiting := rfl
@[simp] theorem wr_overflow (s : State) (u : UnitId) (f : Field) (v : Nat) : (s.wr u f v).overflow = s.overflow := rfl
@[simp] theorem wr_notices (s : State) (u : UnitId) (f : Field) (v : Nat) : (s.wr u f v).notices = s.notices := rfl
@[simp] theorem wr_canaries (s : State) (u : UnitId) (f : Field) (v : Nat) : (s.wr u f v).canaries = s.canaries := rfl
@[simp] theorem wr_laddersDue (s : State) (u : UnitId) (f : Field) (v : Nat) : (s.wr u f v).laddersDue = s.laddersDue := rfl
@[simp] theorem wr_windows (s : State) (u : UnitId) (f : Field) (v : Nat) : (s.wr u f v).windows = s.windows := rfl
@[simp] theorem wr_tallyBuf (s : State) (u : UnitId) (f : Field) (v : Nat) : (s.wr u f v).tallyBuf = s.tallyBuf := rfl
@[simp] theorem wr_tallyStore (s : State) (u : UnitId) (f : Field) (v : Nat) : (s.wr u f v).tallyStore = s.tallyStore := rfl
@[simp] theorem wr_tallySeq (s : State) (u : UnitId) (f : Field) (v : Nat) : (s.wr u f v).tallySeq = s.tallySeq := rfl
@[simp] theorem wr_pcycle (s : State) (u : UnitId) (f : Field) (v : Nat) : (s.wr u f v).pcycle = s.pcycle := rfl
@[simp] theorem wr_opBase (s : State) (u : UnitId) (f : Field) (v : Nat) : (s.wr u f v).opBase = s.opBase := rfl
@[simp] theorem wr_opFrom (s : State) (u : UnitId) (f : Field) (v : Nat) : (s.wr u f v).opFrom = s.opFrom := rfl
@[simp] theorem wr_opCommit (s : State) (u : UnitId) (f : Field) (v : Nat) : (s.wr u f v).opCommit = s.opCommit := rfl
@[simp] theorem wr_lostPending (s : State) (u : UnitId) (f : Field) (v : Nat) : (s.wr u f v).lostPending = s.lostPending := rfl
@[simp] theorem wr_backlogSaid (s : State) (u : UnitId) (f : Field) (v : Nat) : (s.wr u f v).backlogSaid = s.backlogSaid := rfl
@[simp] theorem wr_exchanges (s : State) (u : UnitId) (f : Field) (v : Nat) : (s.wr u f v).exchanges = s.exchanges := rfl
@[simp] theorem wr_cqPhase (s : State) (u : UnitId) (f : Field) (v : Nat) : (s.wr u f v).cqPhase = s.cqPhase := rfl
@[simp] theorem wr_peers (s : State) (u : UnitId) (f : Field) (v : Nat) : (s.wr u f v).peers = s.peers := rfl
@[simp] theorem wr_ethQueue (s : State) (u : UnitId) (f : Field) (v : Nat) : (s.wr u f v).ethQueue = s.ethQueue := rfl
@[simp] theorem wr_jslots (s : State) (u : UnitId) (f : Field) (v : Nat) : (s.wr u f v).jslots = s.jslots := rfl
@[simp] theorem wr_jdata (s : State) (u : UnitId) (f : Field) (v : Nat) : (s.wr u f v).jdata = s.jdata := rfl
@[simp] theorem wr_jcount (s : State) (u : UnitId) (f : Field) (v : Nat) : (s.wr u f v).jcount = s.jcount := rfl
@[simp] theorem wr_jbad (s : State) (u : UnitId) (f : Field) (v : Nat) : (s.wr u f v).jbad = s.jbad := rfl
@[simp] theorem wr_commits (s : State) (u : UnitId) (f : Field) (v : Nat) : (s.wr u f v).commits = s.commits := rfl
@[simp] theorem wr_targetWrites (s : State) (u : UnitId) (f : Field) (v : Nat) : (s.wr u f v).targetWrites = s.targetWrites := rfl
@[simp] theorem wr_restored (s : State) (u : UnitId) (f : Field) (v : Nat) : (s.wr u f v).restored = s.restored := rfl
@[simp] theorem wr_jcmd (s : State) (u : UnitId) (f : Field) (v : Nat) : (s.wr u f v).jcmd = s.jcmd := rfl
@[simp] theorem wr_images (s : State) (u : UnitId) (f : Field) (v : Nat) : (s.wr u f v).images = s.images := rfl
@[simp] theorem wr_draining (s : State) (u : UnitId) (f : Field) (v : Nat) : (s.wr u f v).draining = s.draining := rfl
@[simp] theorem wr_jrecv (s : State) (u : UnitId) (f : Field) (v : Nat) : (s.wr u f v).jrecv = s.jrecv := rfl
@[simp] theorem wr_haulers (s : State) (u : UnitId) (f : Field) (v : Nat) : (s.wr u f v).haulers = s.haulers := rfl
@[simp] theorem wr_istore (s : State) (u : UnitId) (f : Field) (v : Nat) : (s.wr u f v).istore = s.istore := rfl
@[simp] theorem wr_pit (s : State) (u : UnitId) (f : Field) (v : Nat) : (s.wr u f v).pit = s.pit := rfl
@[simp] theorem wr_pitBad (s : State) (u : UnitId) (f : Field) (v : Nat) : (s.wr u f v).pitBad = s.pitBad := rfl
@[simp] theorem wr_marchRuns (s : State) (u : UnitId) (f : Field) (v : Nat) : (s.wr u f v).marchRuns = s.marchRuns := rfl
@[simp] theorem wr_loadRuns (s : State) (u : UnitId) (f : Field) (v : Nat) : (s.wr u f v).loadRuns = s.loadRuns := rfl
@[simp] theorem wr_links (s : State) (u : UnitId) (f : Field) (v : Nat) : (s.wr u f v).links = s.links := rfl
@[simp] theorem wr_couplings (s : State) (u : UnitId) (f : Field) (v : Nat) : (s.wr u f v).couplings = s.couplings := rfl
@[simp] theorem wr_complex (s : State) (u : UnitId) (f : Field) (v : Nat) : (s.wr u f v).complex = s.complex := rfl
@[simp] theorem wr_engines (s : State) (u : UnitId) (f : Field) (v : Nat) : (s.wr u f v).engines = s.engines := rfl
@[simp] theorem wr_drbg (s : State) (u : UnitId) (f : Field) (v : Nat) : (s.wr u f v).drbg = s.drbg := rfl
@[simp] theorem wr_entropy (s : State) (u : UnitId) (f : Field) (v : Nat) : (s.wr u f v).entropy = s.entropy := rfl
@[simp] theorem wr_attLog (s : State) (u : UnitId) (f : Field) (v : Nat) : (s.wr u f v).attLog = s.attLog := rfl
@[simp] theorem wr_att (s : State) (u : UnitId) (f : Field) (v : Nat) : (s.wr u f v).att = s.att := rfl
@[simp] theorem wr_staging (s : State) (u : UnitId) (f : Field) (v : Nat) : (s.wr u f v).staging = s.staging := rfl
@[simp] theorem wr_active (s : State) (u : UnitId) (f : Field) (v : Nat) : (s.wr u f v).active = s.active := rfl
@[simp] theorem wr_patches (s : State) (u : UnitId) (f : Field) (v : Nat) : (s.wr u f v).patches = s.patches := rfl
@[simp] theorem wr_patchDue (s : State) (u : UnitId) (f : Field) (v : Nat) : (s.wr u f v).patchDue = s.patchDue := rfl
@[simp] theorem wr_patchRuns (s : State) (u : UnitId) (f : Field) (v : Nat) : (s.wr u f v).patchRuns = s.patchRuns := rfl
@[simp] theorem wr_mcsRun (s : State) (u : UnitId) (f : Field) (v : Nat) : (s.wr u f v).mcsRun = s.mcsRun := rfl
@[simp] theorem wr_mcsPending (s : State) (u : UnitId) (f : Field) (v : Nat) : (s.wr u f v).mcsPending = s.mcsPending := rfl
@[simp] theorem wr_ckwRuns (s : State) (u : UnitId) (f : Field) (v : Nat) : (s.wr u f v).ckwRuns = s.ckwRuns := rfl
@[simp] theorem wr_trainRuns (s : State) (u : UnitId) (f : Field) (v : Nat) : (s.wr u f v).trainRuns = s.trainRuns := rfl
@[simp] theorem wr_timingOk (s : State) (u : UnitId) (f : Field) (v : Nat) : (s.wr u f v).timingOk = s.timingOk := rfl
@[simp] theorem wr_stewards (s : State) (u : UnitId) (f : Field) (v : Nat) : (s.wr u f v).stewards = s.stewards := rfl
@[simp] theorem wr_cubePend (s : State) (u : UnitId) (f : Field) (v : Nat) : (s.wr u f v).cubePend = s.cubePend := rfl
@[simp] theorem wr_leaseEnd (s : State) (u : UnitId) (f : Field) (v : Nat) : (s.wr u f v).leaseEnd = s.leaseEnd := rfl
@[simp] theorem wr_leaseLen (s : State) (u : UnitId) (f : Field) (v : Nat) : (s.wr u f v).leaseLen = s.leaseLen := rfl
@[simp] theorem wr_power (s : State) (u : UnitId) (f : Field) (v : Nat) : (s.wr u f v).power = s.power := rfl
@[simp] theorem wr_tap (s : State) (u : UnitId) (f : Field) (v : Nat) : (s.wr u f v).tap = s.tap := rfl

/-! ### `setUnit` -/

@[simp] theorem setUnit_pending (s : State) (u : UnitId) (d : UnitDyn) : (s.setUnit u d).pending = s.pending := rfl
@[simp] theorem setUnit_now (s : State) (u : UnitId) (d : UnitDyn) : (s.setUnit u d).now = s.now := rfl
@[simp] theorem setUnit_free (s : State) (u : UnitId) (d : UnitDyn) : (s.setUnit u d).free = s.free := rfl
@[simp] theorem setUnit_tbStart (s : State) (u : UnitId) (d : UnitDyn) : (s.setUnit u d).tbStart = s.tbStart := rfl
@[simp] theorem setUnit_regs (s : State) (u : UnitId) (d : UnitDyn) : (s.setUnit u d).regs = s.regs := rfl
@[simp] theorem setUnit_cores (s : State) (u : UnitId) (d : UnitDyn) : (s.setUnit u d).cores = s.cores := rfl
@[simp] theorem setUnit_caches (s : State) (u : UnitId) (d : UnitDyn) : (s.setUnit u d).caches = s.caches := rfl
@[simp] theorem setUnit_plru (s : State) (u : UnitId) (d : UnitDyn) : (s.setUnit u d).plru = s.plru := rfl
@[simp] theorem setUnit_wbq (s : State) (u : UnitId) (d : UnitDyn) : (s.setUnit u d).wbq = s.wbq := rfl
@[simp] theorem setUnit_dir (s : State) (u : UnitId) (d : UnitDyn) : (s.setUnit u d).dir = s.dir := rfl
@[simp] theorem setUnit_homeTrans (s : State) (u : UnitId) (d : UnitDyn) : (s.setUnit u d).homeTrans = s.homeTrans := rfl
@[simp] theorem setUnit_homeQueue (s : State) (u : UnitId) (d : UnitDyn) : (s.setUnit u d).homeQueue = s.homeQueue := rfl
@[simp] theorem setUnit_dirReserve (s : State) (u : UnitId) (d : UnitDyn) : (s.setUnit u d).dirReserve = s.dirReserve := rfl
@[simp] theorem setUnit_tileTrans (s : State) (u : UnitId) (d : UnitDyn) : (s.setUnit u d).tileTrans = s.tileTrans := rfl
@[simp] theorem setUnit_msgs (s : State) (u : UnitId) (d : UnitDyn) : (s.setUnit u d).msgs = s.msgs := rfl
@[simp] theorem setUnit_ringWait (s : State) (u : UnitId) (d : UnitDyn) : (s.setUnit u d).ringWait = s.ringWait := rfl
@[simp] theorem setUnit_supplied (s : State) (u : UnitId) (d : UnitDyn) : (s.setUnit u d).supplied = s.supplied := rfl
@[simp] theorem setUnit_atmVals (s : State) (u : UnitId) (d : UnitDyn) : (s.setUnit u d).atmVals = s.atmVals := rfl
@[simp] theorem setUnit_ioData (s : State) (u : UnitId) (d : UnitDyn) : (s.setUnit u d).ioData = s.ioData := rfl
@[simp] theorem setUnit_isolated (s : State) (u : UnitId) (d : UnitDyn) : (s.setUnit u d).isolated = s.isolated := rfl
@[simp] theorem setUnit_cacheJobs (s : State) (u : UnitId) (d : UnitDyn) : (s.setUnit u d).cacheJobs = s.cacheJobs := rfl
@[simp] theorem setUnit_replays (s : State) (u : UnitId) (d : UnitDyn) : (s.setUnit u d).replays = s.replays := rfl
@[simp] theorem setUnit_mem (s : State) (u : UnitId) (d : UnitDyn) : (s.setUnit u d).mem = s.mem := rfl
@[simp] theorem setUnit_poison (s : State) (u : UnitId) (d : UnitDyn) : (s.setUnit u d).poison = s.poison := rfl
@[simp] theorem setUnit_badWords (s : State) (u : UnitId) (d : UnitDyn) : (s.setUnit u d).badWords = s.badWords := rfl
@[simp] theorem setUnit_remap (s : State) (u : UnitId) (d : UnitDyn) : (s.setUnit u d).remap = s.remap := rfl
@[simp] theorem setUnit_down (s : State) (u : UnitId) (d : UnitDyn) : (s.setUnit u d).down = s.down := rfl
@[simp] theorem setUnit_owners (s : State) (u : UnitId) (d : UnitDyn) : (s.setUnit u d).owners = s.owners := rfl
@[simp] theorem setUnit_grantAt (s : State) (u : UnitId) (d : UnitDyn) : (s.setUnit u d).grantAt = s.grantAt := rfl
@[simp] theorem setUnit_seamCmd (s : State) (u : UnitId) (d : UnitDyn) : (s.setUnit u d).seamCmd = s.seamCmd := rfl
@[simp] theorem setUnit_heldStops (s : State) (u : UnitId) (d : UnitDyn) : (s.setUnit u d).heldStops = s.heldStops := rfl
@[simp] theorem setUnit_seamPend (s : State) (u : UnitId) (d : UnitDyn) : (s.setUnit u d).seamPend = s.seamPend := rfl
@[simp] theorem setUnit_wus (s : State) (u : UnitId) (d : UnitDyn) : (s.setUnit u d).wus = s.wus := rfl
@[simp] theorem setUnit_nextWork (s : State) (u : UnitId) (d : UnitDyn) : (s.setUnit u d).nextWork = s.nextWork := rfl
@[simp] theorem setUnit_rings (s : State) (u : UnitId) (d : UnitDyn) : (s.setUnit u d).rings = s.rings := rfl
@[simp] theorem setUnit_waiters (s : State) (u : UnitId) (d : UnitDyn) : (s.setUnit u d).waiters = s.waiters := rfl
@[simp] theorem setUnit_fmnEvents (s : State) (u : UnitId) (d : UnitDyn) : (s.setUnit u d).fmnEvents = s.fmnEvents := rfl
@[simp] theorem setUnit_granCounts (s : State) (u : UnitId) (d : UnitDyn) : (s.setUnit u d).granCounts = s.granCounts := rfl
@[simp] theorem setUnit_migrations (s : State) (u : UnitId) (d : UnitDyn) : (s.setUnit u d).migrations = s.migrations := rfl
@[simp] theorem setUnit_missOrder (s : State) (u : UnitId) (d : UnitDyn) : (s.setUnit u d).missOrder = s.missOrder := rfl
@[simp] theorem setUnit_missReports (s : State) (u : UnitId) (d : UnitDyn) : (s.setUnit u d).missReports = s.missReports := rfl
@[simp] theorem setUnit_traceSeq (s : State) (u : UnitId) (d : UnitDyn) : (s.setUnit u d).traceSeq = s.traceSeq := rfl
@[simp] theorem setUnit_traceGap (s : State) (u : UnitId) (d : UnitDyn) : (s.setUnit u d).traceGap = s.traceGap := rfl
@[simp] theorem setUnit_capPowered (s : State) (u : UnitId) (d : UnitDyn) : (s.setUnit u d).capPowered = s.capPowered := rfl
@[simp] theorem setUnit_evict (s : State) (u : UnitId) (d : UnitDyn) : (s.setUnit u d).evict = s.evict := rfl
@[simp] theorem setUnit_outbox (s : State) (u : UnitId) (d : UnitDyn) : (s.setUnit u d).outbox = s.outbox := rfl
@[simp] theorem setUnit_reports (s : State) (u : UnitId) (d : UnitDyn) : (s.setUnit u d).reports = s.reports := rfl
@[simp] theorem setUnit_reportsWaiting (s : State) (u : UnitId) (d : UnitDyn) : (s.setUnit u d).reportsWaiting = s.reportsWaiting := rfl
@[simp] theorem setUnit_overflow (s : State) (u : UnitId) (d : UnitDyn) : (s.setUnit u d).overflow = s.overflow := rfl
@[simp] theorem setUnit_notices (s : State) (u : UnitId) (d : UnitDyn) : (s.setUnit u d).notices = s.notices := rfl
@[simp] theorem setUnit_canaries (s : State) (u : UnitId) (d : UnitDyn) : (s.setUnit u d).canaries = s.canaries := rfl
@[simp] theorem setUnit_laddersDue (s : State) (u : UnitId) (d : UnitDyn) : (s.setUnit u d).laddersDue = s.laddersDue := rfl
@[simp] theorem setUnit_windows (s : State) (u : UnitId) (d : UnitDyn) : (s.setUnit u d).windows = s.windows := rfl
@[simp] theorem setUnit_tallyBuf (s : State) (u : UnitId) (d : UnitDyn) : (s.setUnit u d).tallyBuf = s.tallyBuf := rfl
@[simp] theorem setUnit_tallyStore (s : State) (u : UnitId) (d : UnitDyn) : (s.setUnit u d).tallyStore = s.tallyStore := rfl
@[simp] theorem setUnit_tallySeq (s : State) (u : UnitId) (d : UnitDyn) : (s.setUnit u d).tallySeq = s.tallySeq := rfl
@[simp] theorem setUnit_pcycle (s : State) (u : UnitId) (d : UnitDyn) : (s.setUnit u d).pcycle = s.pcycle := rfl
@[simp] theorem setUnit_opBase (s : State) (u : UnitId) (d : UnitDyn) : (s.setUnit u d).opBase = s.opBase := rfl
@[simp] theorem setUnit_opFrom (s : State) (u : UnitId) (d : UnitDyn) : (s.setUnit u d).opFrom = s.opFrom := rfl
@[simp] theorem setUnit_opCommit (s : State) (u : UnitId) (d : UnitDyn) : (s.setUnit u d).opCommit = s.opCommit := rfl
@[simp] theorem setUnit_lostPending (s : State) (u : UnitId) (d : UnitDyn) : (s.setUnit u d).lostPending = s.lostPending := rfl
@[simp] theorem setUnit_backlogSaid (s : State) (u : UnitId) (d : UnitDyn) : (s.setUnit u d).backlogSaid = s.backlogSaid := rfl
@[simp] theorem setUnit_exchanges (s : State) (u : UnitId) (d : UnitDyn) : (s.setUnit u d).exchanges = s.exchanges := rfl
@[simp] theorem setUnit_cqPhase (s : State) (u : UnitId) (d : UnitDyn) : (s.setUnit u d).cqPhase = s.cqPhase := rfl
@[simp] theorem setUnit_peers (s : State) (u : UnitId) (d : UnitDyn) : (s.setUnit u d).peers = s.peers := rfl
@[simp] theorem setUnit_ethQueue (s : State) (u : UnitId) (d : UnitDyn) : (s.setUnit u d).ethQueue = s.ethQueue := rfl
@[simp] theorem setUnit_jslots (s : State) (u : UnitId) (d : UnitDyn) : (s.setUnit u d).jslots = s.jslots := rfl
@[simp] theorem setUnit_jdata (s : State) (u : UnitId) (d : UnitDyn) : (s.setUnit u d).jdata = s.jdata := rfl
@[simp] theorem setUnit_jcount (s : State) (u : UnitId) (d : UnitDyn) : (s.setUnit u d).jcount = s.jcount := rfl
@[simp] theorem setUnit_jbad (s : State) (u : UnitId) (d : UnitDyn) : (s.setUnit u d).jbad = s.jbad := rfl
@[simp] theorem setUnit_commits (s : State) (u : UnitId) (d : UnitDyn) : (s.setUnit u d).commits = s.commits := rfl
@[simp] theorem setUnit_targetWrites (s : State) (u : UnitId) (d : UnitDyn) : (s.setUnit u d).targetWrites = s.targetWrites := rfl
@[simp] theorem setUnit_restored (s : State) (u : UnitId) (d : UnitDyn) : (s.setUnit u d).restored = s.restored := rfl
@[simp] theorem setUnit_jcmd (s : State) (u : UnitId) (d : UnitDyn) : (s.setUnit u d).jcmd = s.jcmd := rfl
@[simp] theorem setUnit_images (s : State) (u : UnitId) (d : UnitDyn) : (s.setUnit u d).images = s.images := rfl
@[simp] theorem setUnit_draining (s : State) (u : UnitId) (d : UnitDyn) : (s.setUnit u d).draining = s.draining := rfl
@[simp] theorem setUnit_jrecv (s : State) (u : UnitId) (d : UnitDyn) : (s.setUnit u d).jrecv = s.jrecv := rfl
@[simp] theorem setUnit_haulers (s : State) (u : UnitId) (d : UnitDyn) : (s.setUnit u d).haulers = s.haulers := rfl
@[simp] theorem setUnit_istore (s : State) (u : UnitId) (d : UnitDyn) : (s.setUnit u d).istore = s.istore := rfl
@[simp] theorem setUnit_pit (s : State) (u : UnitId) (d : UnitDyn) : (s.setUnit u d).pit = s.pit := rfl
@[simp] theorem setUnit_pitBad (s : State) (u : UnitId) (d : UnitDyn) : (s.setUnit u d).pitBad = s.pitBad := rfl
@[simp] theorem setUnit_marchRuns (s : State) (u : UnitId) (d : UnitDyn) : (s.setUnit u d).marchRuns = s.marchRuns := rfl
@[simp] theorem setUnit_loadRuns (s : State) (u : UnitId) (d : UnitDyn) : (s.setUnit u d).loadRuns = s.loadRuns := rfl
@[simp] theorem setUnit_links (s : State) (u : UnitId) (d : UnitDyn) : (s.setUnit u d).links = s.links := rfl
@[simp] theorem setUnit_couplings (s : State) (u : UnitId) (d : UnitDyn) : (s.setUnit u d).couplings = s.couplings := rfl
@[simp] theorem setUnit_complex (s : State) (u : UnitId) (d : UnitDyn) : (s.setUnit u d).complex = s.complex := rfl
@[simp] theorem setUnit_engines (s : State) (u : UnitId) (d : UnitDyn) : (s.setUnit u d).engines = s.engines := rfl
@[simp] theorem setUnit_drbg (s : State) (u : UnitId) (d : UnitDyn) : (s.setUnit u d).drbg = s.drbg := rfl
@[simp] theorem setUnit_entropy (s : State) (u : UnitId) (d : UnitDyn) : (s.setUnit u d).entropy = s.entropy := rfl
@[simp] theorem setUnit_attLog (s : State) (u : UnitId) (d : UnitDyn) : (s.setUnit u d).attLog = s.attLog := rfl
@[simp] theorem setUnit_att (s : State) (u : UnitId) (d : UnitDyn) : (s.setUnit u d).att = s.att := rfl
@[simp] theorem setUnit_staging (s : State) (u : UnitId) (d : UnitDyn) : (s.setUnit u d).staging = s.staging := rfl
@[simp] theorem setUnit_active (s : State) (u : UnitId) (d : UnitDyn) : (s.setUnit u d).active = s.active := rfl
@[simp] theorem setUnit_patches (s : State) (u : UnitId) (d : UnitDyn) : (s.setUnit u d).patches = s.patches := rfl
@[simp] theorem setUnit_patchDue (s : State) (u : UnitId) (d : UnitDyn) : (s.setUnit u d).patchDue = s.patchDue := rfl
@[simp] theorem setUnit_patchRuns (s : State) (u : UnitId) (d : UnitDyn) : (s.setUnit u d).patchRuns = s.patchRuns := rfl
@[simp] theorem setUnit_mcsRun (s : State) (u : UnitId) (d : UnitDyn) : (s.setUnit u d).mcsRun = s.mcsRun := rfl
@[simp] theorem setUnit_mcsPending (s : State) (u : UnitId) (d : UnitDyn) : (s.setUnit u d).mcsPending = s.mcsPending := rfl
@[simp] theorem setUnit_ckwRuns (s : State) (u : UnitId) (d : UnitDyn) : (s.setUnit u d).ckwRuns = s.ckwRuns := rfl
@[simp] theorem setUnit_trainRuns (s : State) (u : UnitId) (d : UnitDyn) : (s.setUnit u d).trainRuns = s.trainRuns := rfl
@[simp] theorem setUnit_timingOk (s : State) (u : UnitId) (d : UnitDyn) : (s.setUnit u d).timingOk = s.timingOk := rfl
@[simp] theorem setUnit_stewards (s : State) (u : UnitId) (d : UnitDyn) : (s.setUnit u d).stewards = s.stewards := rfl
@[simp] theorem setUnit_cubePend (s : State) (u : UnitId) (d : UnitDyn) : (s.setUnit u d).cubePend = s.cubePend := rfl
@[simp] theorem setUnit_leaseEnd (s : State) (u : UnitId) (d : UnitDyn) : (s.setUnit u d).leaseEnd = s.leaseEnd := rfl
@[simp] theorem setUnit_leaseLen (s : State) (u : UnitId) (d : UnitDyn) : (s.setUnit u d).leaseLen = s.leaseLen := rfl
@[simp] theorem setUnit_power (s : State) (u : UnitId) (d : UnitDyn) : (s.setUnit u d).power = s.power := rfl
@[simp] theorem setUnit_tap (s : State) (u : UnitId) (d : UnitDyn) : (s.setUnit u d).tap = s.tap := rfl

/-! ### `setCore` -/

@[simp] theorem setCore_pending (s : State) (k : Nat) (c : CoreSt) : (s.setCore k c).pending = s.pending := rfl
@[simp] theorem setCore_now (s : State) (k : Nat) (c : CoreSt) : (s.setCore k c).now = s.now := rfl
@[simp] theorem setCore_free (s : State) (k : Nat) (c : CoreSt) : (s.setCore k c).free = s.free := rfl
@[simp] theorem setCore_tbStart (s : State) (k : Nat) (c : CoreSt) : (s.setCore k c).tbStart = s.tbStart := rfl
@[simp] theorem setCore_regs (s : State) (k : Nat) (c : CoreSt) : (s.setCore k c).regs = s.regs := rfl
@[simp] theorem setCore_units (s : State) (k : Nat) (c : CoreSt) : (s.setCore k c).units = s.units := rfl
@[simp] theorem setCore_caches (s : State) (k : Nat) (c : CoreSt) : (s.setCore k c).caches = s.caches := rfl
@[simp] theorem setCore_plru (s : State) (k : Nat) (c : CoreSt) : (s.setCore k c).plru = s.plru := rfl
@[simp] theorem setCore_wbq (s : State) (k : Nat) (c : CoreSt) : (s.setCore k c).wbq = s.wbq := rfl
@[simp] theorem setCore_dir (s : State) (k : Nat) (c : CoreSt) : (s.setCore k c).dir = s.dir := rfl
@[simp] theorem setCore_homeTrans (s : State) (k : Nat) (c : CoreSt) : (s.setCore k c).homeTrans = s.homeTrans := rfl
@[simp] theorem setCore_homeQueue (s : State) (k : Nat) (c : CoreSt) : (s.setCore k c).homeQueue = s.homeQueue := rfl
@[simp] theorem setCore_dirReserve (s : State) (k : Nat) (c : CoreSt) : (s.setCore k c).dirReserve = s.dirReserve := rfl
@[simp] theorem setCore_tileTrans (s : State) (k : Nat) (c : CoreSt) : (s.setCore k c).tileTrans = s.tileTrans := rfl
@[simp] theorem setCore_msgs (s : State) (k : Nat) (c : CoreSt) : (s.setCore k c).msgs = s.msgs := rfl
@[simp] theorem setCore_ringWait (s : State) (k : Nat) (c : CoreSt) : (s.setCore k c).ringWait = s.ringWait := rfl
@[simp] theorem setCore_supplied (s : State) (k : Nat) (c : CoreSt) : (s.setCore k c).supplied = s.supplied := rfl
@[simp] theorem setCore_atmVals (s : State) (k : Nat) (c : CoreSt) : (s.setCore k c).atmVals = s.atmVals := rfl
@[simp] theorem setCore_ioData (s : State) (k : Nat) (c : CoreSt) : (s.setCore k c).ioData = s.ioData := rfl
@[simp] theorem setCore_isolated (s : State) (k : Nat) (c : CoreSt) : (s.setCore k c).isolated = s.isolated := rfl
@[simp] theorem setCore_cacheJobs (s : State) (k : Nat) (c : CoreSt) : (s.setCore k c).cacheJobs = s.cacheJobs := rfl
@[simp] theorem setCore_replays (s : State) (k : Nat) (c : CoreSt) : (s.setCore k c).replays = s.replays := rfl
@[simp] theorem setCore_mem (s : State) (k : Nat) (c : CoreSt) : (s.setCore k c).mem = s.mem := rfl
@[simp] theorem setCore_poison (s : State) (k : Nat) (c : CoreSt) : (s.setCore k c).poison = s.poison := rfl
@[simp] theorem setCore_badWords (s : State) (k : Nat) (c : CoreSt) : (s.setCore k c).badWords = s.badWords := rfl
@[simp] theorem setCore_remap (s : State) (k : Nat) (c : CoreSt) : (s.setCore k c).remap = s.remap := rfl
@[simp] theorem setCore_down (s : State) (k : Nat) (c : CoreSt) : (s.setCore k c).down = s.down := rfl
@[simp] theorem setCore_owners (s : State) (k : Nat) (c : CoreSt) : (s.setCore k c).owners = s.owners := rfl
@[simp] theorem setCore_grantAt (s : State) (k : Nat) (c : CoreSt) : (s.setCore k c).grantAt = s.grantAt := rfl
@[simp] theorem setCore_seamCmd (s : State) (k : Nat) (c : CoreSt) : (s.setCore k c).seamCmd = s.seamCmd := rfl
@[simp] theorem setCore_heldStops (s : State) (k : Nat) (c : CoreSt) : (s.setCore k c).heldStops = s.heldStops := rfl
@[simp] theorem setCore_seamPend (s : State) (k : Nat) (c : CoreSt) : (s.setCore k c).seamPend = s.seamPend := rfl
@[simp] theorem setCore_wus (s : State) (k : Nat) (c : CoreSt) : (s.setCore k c).wus = s.wus := rfl
@[simp] theorem setCore_nextWork (s : State) (k : Nat) (c : CoreSt) : (s.setCore k c).nextWork = s.nextWork := rfl
@[simp] theorem setCore_rings (s : State) (k : Nat) (c : CoreSt) : (s.setCore k c).rings = s.rings := rfl
@[simp] theorem setCore_waiters (s : State) (k : Nat) (c : CoreSt) : (s.setCore k c).waiters = s.waiters := rfl
@[simp] theorem setCore_fmnEvents (s : State) (k : Nat) (c : CoreSt) : (s.setCore k c).fmnEvents = s.fmnEvents := rfl
@[simp] theorem setCore_granCounts (s : State) (k : Nat) (c : CoreSt) : (s.setCore k c).granCounts = s.granCounts := rfl
@[simp] theorem setCore_migrations (s : State) (k : Nat) (c : CoreSt) : (s.setCore k c).migrations = s.migrations := rfl
@[simp] theorem setCore_missOrder (s : State) (k : Nat) (c : CoreSt) : (s.setCore k c).missOrder = s.missOrder := rfl
@[simp] theorem setCore_missReports (s : State) (k : Nat) (c : CoreSt) : (s.setCore k c).missReports = s.missReports := rfl
@[simp] theorem setCore_traceSeq (s : State) (k : Nat) (c : CoreSt) : (s.setCore k c).traceSeq = s.traceSeq := rfl
@[simp] theorem setCore_traceGap (s : State) (k : Nat) (c : CoreSt) : (s.setCore k c).traceGap = s.traceGap := rfl
@[simp] theorem setCore_capPowered (s : State) (k : Nat) (c : CoreSt) : (s.setCore k c).capPowered = s.capPowered := rfl
@[simp] theorem setCore_evict (s : State) (k : Nat) (c : CoreSt) : (s.setCore k c).evict = s.evict := rfl
@[simp] theorem setCore_outbox (s : State) (k : Nat) (c : CoreSt) : (s.setCore k c).outbox = s.outbox := rfl
@[simp] theorem setCore_reports (s : State) (k : Nat) (c : CoreSt) : (s.setCore k c).reports = s.reports := rfl
@[simp] theorem setCore_reportsWaiting (s : State) (k : Nat) (c : CoreSt) : (s.setCore k c).reportsWaiting = s.reportsWaiting := rfl
@[simp] theorem setCore_overflow (s : State) (k : Nat) (c : CoreSt) : (s.setCore k c).overflow = s.overflow := rfl
@[simp] theorem setCore_notices (s : State) (k : Nat) (c : CoreSt) : (s.setCore k c).notices = s.notices := rfl
@[simp] theorem setCore_canaries (s : State) (k : Nat) (c : CoreSt) : (s.setCore k c).canaries = s.canaries := rfl
@[simp] theorem setCore_laddersDue (s : State) (k : Nat) (c : CoreSt) : (s.setCore k c).laddersDue = s.laddersDue := rfl
@[simp] theorem setCore_windows (s : State) (k : Nat) (c : CoreSt) : (s.setCore k c).windows = s.windows := rfl
@[simp] theorem setCore_tallyBuf (s : State) (k : Nat) (c : CoreSt) : (s.setCore k c).tallyBuf = s.tallyBuf := rfl
@[simp] theorem setCore_tallyStore (s : State) (k : Nat) (c : CoreSt) : (s.setCore k c).tallyStore = s.tallyStore := rfl
@[simp] theorem setCore_tallySeq (s : State) (k : Nat) (c : CoreSt) : (s.setCore k c).tallySeq = s.tallySeq := rfl
@[simp] theorem setCore_pcycle (s : State) (k : Nat) (c : CoreSt) : (s.setCore k c).pcycle = s.pcycle := rfl
@[simp] theorem setCore_opBase (s : State) (k : Nat) (c : CoreSt) : (s.setCore k c).opBase = s.opBase := rfl
@[simp] theorem setCore_opFrom (s : State) (k : Nat) (c : CoreSt) : (s.setCore k c).opFrom = s.opFrom := rfl
@[simp] theorem setCore_opCommit (s : State) (k : Nat) (c : CoreSt) : (s.setCore k c).opCommit = s.opCommit := rfl
@[simp] theorem setCore_lostPending (s : State) (k : Nat) (c : CoreSt) : (s.setCore k c).lostPending = s.lostPending := rfl
@[simp] theorem setCore_backlogSaid (s : State) (k : Nat) (c : CoreSt) : (s.setCore k c).backlogSaid = s.backlogSaid := rfl
@[simp] theorem setCore_exchanges (s : State) (k : Nat) (c : CoreSt) : (s.setCore k c).exchanges = s.exchanges := rfl
@[simp] theorem setCore_cqPhase (s : State) (k : Nat) (c : CoreSt) : (s.setCore k c).cqPhase = s.cqPhase := rfl
@[simp] theorem setCore_peers (s : State) (k : Nat) (c : CoreSt) : (s.setCore k c).peers = s.peers := rfl
@[simp] theorem setCore_ethQueue (s : State) (k : Nat) (c : CoreSt) : (s.setCore k c).ethQueue = s.ethQueue := rfl
@[simp] theorem setCore_jslots (s : State) (k : Nat) (c : CoreSt) : (s.setCore k c).jslots = s.jslots := rfl
@[simp] theorem setCore_jdata (s : State) (k : Nat) (c : CoreSt) : (s.setCore k c).jdata = s.jdata := rfl
@[simp] theorem setCore_jcount (s : State) (k : Nat) (c : CoreSt) : (s.setCore k c).jcount = s.jcount := rfl
@[simp] theorem setCore_jbad (s : State) (k : Nat) (c : CoreSt) : (s.setCore k c).jbad = s.jbad := rfl
@[simp] theorem setCore_commits (s : State) (k : Nat) (c : CoreSt) : (s.setCore k c).commits = s.commits := rfl
@[simp] theorem setCore_targetWrites (s : State) (k : Nat) (c : CoreSt) : (s.setCore k c).targetWrites = s.targetWrites := rfl
@[simp] theorem setCore_restored (s : State) (k : Nat) (c : CoreSt) : (s.setCore k c).restored = s.restored := rfl
@[simp] theorem setCore_jcmd (s : State) (k : Nat) (c : CoreSt) : (s.setCore k c).jcmd = s.jcmd := rfl
@[simp] theorem setCore_images (s : State) (k : Nat) (c : CoreSt) : (s.setCore k c).images = s.images := rfl
@[simp] theorem setCore_draining (s : State) (k : Nat) (c : CoreSt) : (s.setCore k c).draining = s.draining := rfl
@[simp] theorem setCore_jrecv (s : State) (k : Nat) (c : CoreSt) : (s.setCore k c).jrecv = s.jrecv := rfl
@[simp] theorem setCore_haulers (s : State) (k : Nat) (c : CoreSt) : (s.setCore k c).haulers = s.haulers := rfl
@[simp] theorem setCore_istore (s : State) (k : Nat) (c : CoreSt) : (s.setCore k c).istore = s.istore := rfl
@[simp] theorem setCore_pit (s : State) (k : Nat) (c : CoreSt) : (s.setCore k c).pit = s.pit := rfl
@[simp] theorem setCore_pitBad (s : State) (k : Nat) (c : CoreSt) : (s.setCore k c).pitBad = s.pitBad := rfl
@[simp] theorem setCore_marchRuns (s : State) (k : Nat) (c : CoreSt) : (s.setCore k c).marchRuns = s.marchRuns := rfl
@[simp] theorem setCore_loadRuns (s : State) (k : Nat) (c : CoreSt) : (s.setCore k c).loadRuns = s.loadRuns := rfl
@[simp] theorem setCore_links (s : State) (k : Nat) (c : CoreSt) : (s.setCore k c).links = s.links := rfl
@[simp] theorem setCore_couplings (s : State) (k : Nat) (c : CoreSt) : (s.setCore k c).couplings = s.couplings := rfl
@[simp] theorem setCore_complex (s : State) (k : Nat) (c : CoreSt) : (s.setCore k c).complex = s.complex := rfl
@[simp] theorem setCore_engines (s : State) (k : Nat) (c : CoreSt) : (s.setCore k c).engines = s.engines := rfl
@[simp] theorem setCore_drbg (s : State) (k : Nat) (c : CoreSt) : (s.setCore k c).drbg = s.drbg := rfl
@[simp] theorem setCore_entropy (s : State) (k : Nat) (c : CoreSt) : (s.setCore k c).entropy = s.entropy := rfl
@[simp] theorem setCore_attLog (s : State) (k : Nat) (c : CoreSt) : (s.setCore k c).attLog = s.attLog := rfl
@[simp] theorem setCore_att (s : State) (k : Nat) (c : CoreSt) : (s.setCore k c).att = s.att := rfl
@[simp] theorem setCore_staging (s : State) (k : Nat) (c : CoreSt) : (s.setCore k c).staging = s.staging := rfl
@[simp] theorem setCore_active (s : State) (k : Nat) (c : CoreSt) : (s.setCore k c).active = s.active := rfl
@[simp] theorem setCore_patches (s : State) (k : Nat) (c : CoreSt) : (s.setCore k c).patches = s.patches := rfl
@[simp] theorem setCore_patchDue (s : State) (k : Nat) (c : CoreSt) : (s.setCore k c).patchDue = s.patchDue := rfl
@[simp] theorem setCore_patchRuns (s : State) (k : Nat) (c : CoreSt) : (s.setCore k c).patchRuns = s.patchRuns := rfl
@[simp] theorem setCore_mcsRun (s : State) (k : Nat) (c : CoreSt) : (s.setCore k c).mcsRun = s.mcsRun := rfl
@[simp] theorem setCore_mcsPending (s : State) (k : Nat) (c : CoreSt) : (s.setCore k c).mcsPending = s.mcsPending := rfl
@[simp] theorem setCore_ckwRuns (s : State) (k : Nat) (c : CoreSt) : (s.setCore k c).ckwRuns = s.ckwRuns := rfl
@[simp] theorem setCore_trainRuns (s : State) (k : Nat) (c : CoreSt) : (s.setCore k c).trainRuns = s.trainRuns := rfl
@[simp] theorem setCore_timingOk (s : State) (k : Nat) (c : CoreSt) : (s.setCore k c).timingOk = s.timingOk := rfl
@[simp] theorem setCore_stewards (s : State) (k : Nat) (c : CoreSt) : (s.setCore k c).stewards = s.stewards := rfl
@[simp] theorem setCore_cubePend (s : State) (k : Nat) (c : CoreSt) : (s.setCore k c).cubePend = s.cubePend := rfl
@[simp] theorem setCore_leaseEnd (s : State) (k : Nat) (c : CoreSt) : (s.setCore k c).leaseEnd = s.leaseEnd := rfl
@[simp] theorem setCore_leaseLen (s : State) (k : Nat) (c : CoreSt) : (s.setCore k c).leaseLen = s.leaseLen := rfl
@[simp] theorem setCore_power (s : State) (k : Nat) (c : CoreSt) : (s.setCore k c).power = s.power := rfl
@[simp] theorem setCore_tap (s : State) (k : Nat) (c : CoreSt) : (s.setCore k c).tap = s.tap := rfl

/-! ### `setWork` -/

@[simp] theorem setWork_pending (s : State) (num : Nat) (w : WorkUnit) : (s.setWork num w).pending = s.pending := rfl
@[simp] theorem setWork_now (s : State) (num : Nat) (w : WorkUnit) : (s.setWork num w).now = s.now := rfl
@[simp] theorem setWork_free (s : State) (num : Nat) (w : WorkUnit) : (s.setWork num w).free = s.free := rfl
@[simp] theorem setWork_tbStart (s : State) (num : Nat) (w : WorkUnit) : (s.setWork num w).tbStart = s.tbStart := rfl
@[simp] theorem setWork_regs (s : State) (num : Nat) (w : WorkUnit) : (s.setWork num w).regs = s.regs := rfl
@[simp] theorem setWork_units (s : State) (num : Nat) (w : WorkUnit) : (s.setWork num w).units = s.units := rfl
@[simp] theorem setWork_cores (s : State) (num : Nat) (w : WorkUnit) : (s.setWork num w).cores = s.cores := rfl
@[simp] theorem setWork_caches (s : State) (num : Nat) (w : WorkUnit) : (s.setWork num w).caches = s.caches := rfl
@[simp] theorem setWork_plru (s : State) (num : Nat) (w : WorkUnit) : (s.setWork num w).plru = s.plru := rfl
@[simp] theorem setWork_wbq (s : State) (num : Nat) (w : WorkUnit) : (s.setWork num w).wbq = s.wbq := rfl
@[simp] theorem setWork_dir (s : State) (num : Nat) (w : WorkUnit) : (s.setWork num w).dir = s.dir := rfl
@[simp] theorem setWork_homeTrans (s : State) (num : Nat) (w : WorkUnit) : (s.setWork num w).homeTrans = s.homeTrans := rfl
@[simp] theorem setWork_homeQueue (s : State) (num : Nat) (w : WorkUnit) : (s.setWork num w).homeQueue = s.homeQueue := rfl
@[simp] theorem setWork_dirReserve (s : State) (num : Nat) (w : WorkUnit) : (s.setWork num w).dirReserve = s.dirReserve := rfl
@[simp] theorem setWork_tileTrans (s : State) (num : Nat) (w : WorkUnit) : (s.setWork num w).tileTrans = s.tileTrans := rfl
@[simp] theorem setWork_msgs (s : State) (num : Nat) (w : WorkUnit) : (s.setWork num w).msgs = s.msgs := rfl
@[simp] theorem setWork_ringWait (s : State) (num : Nat) (w : WorkUnit) : (s.setWork num w).ringWait = s.ringWait := rfl
@[simp] theorem setWork_supplied (s : State) (num : Nat) (w : WorkUnit) : (s.setWork num w).supplied = s.supplied := rfl
@[simp] theorem setWork_atmVals (s : State) (num : Nat) (w : WorkUnit) : (s.setWork num w).atmVals = s.atmVals := rfl
@[simp] theorem setWork_ioData (s : State) (num : Nat) (w : WorkUnit) : (s.setWork num w).ioData = s.ioData := rfl
@[simp] theorem setWork_isolated (s : State) (num : Nat) (w : WorkUnit) : (s.setWork num w).isolated = s.isolated := rfl
@[simp] theorem setWork_cacheJobs (s : State) (num : Nat) (w : WorkUnit) : (s.setWork num w).cacheJobs = s.cacheJobs := rfl
@[simp] theorem setWork_replays (s : State) (num : Nat) (w : WorkUnit) : (s.setWork num w).replays = s.replays := rfl
@[simp] theorem setWork_mem (s : State) (num : Nat) (w : WorkUnit) : (s.setWork num w).mem = s.mem := rfl
@[simp] theorem setWork_poison (s : State) (num : Nat) (w : WorkUnit) : (s.setWork num w).poison = s.poison := rfl
@[simp] theorem setWork_badWords (s : State) (num : Nat) (w : WorkUnit) : (s.setWork num w).badWords = s.badWords := rfl
@[simp] theorem setWork_remap (s : State) (num : Nat) (w : WorkUnit) : (s.setWork num w).remap = s.remap := rfl
@[simp] theorem setWork_down (s : State) (num : Nat) (w : WorkUnit) : (s.setWork num w).down = s.down := rfl
@[simp] theorem setWork_owners (s : State) (num : Nat) (w : WorkUnit) : (s.setWork num w).owners = s.owners := rfl
@[simp] theorem setWork_grantAt (s : State) (num : Nat) (w : WorkUnit) : (s.setWork num w).grantAt = s.grantAt := rfl
@[simp] theorem setWork_seamCmd (s : State) (num : Nat) (w : WorkUnit) : (s.setWork num w).seamCmd = s.seamCmd := rfl
@[simp] theorem setWork_heldStops (s : State) (num : Nat) (w : WorkUnit) : (s.setWork num w).heldStops = s.heldStops := rfl
@[simp] theorem setWork_seamPend (s : State) (num : Nat) (w : WorkUnit) : (s.setWork num w).seamPend = s.seamPend := rfl
@[simp] theorem setWork_nextWork (s : State) (num : Nat) (w : WorkUnit) : (s.setWork num w).nextWork = s.nextWork := rfl
@[simp] theorem setWork_rings (s : State) (num : Nat) (w : WorkUnit) : (s.setWork num w).rings = s.rings := rfl
@[simp] theorem setWork_waiters (s : State) (num : Nat) (w : WorkUnit) : (s.setWork num w).waiters = s.waiters := rfl
@[simp] theorem setWork_fmnEvents (s : State) (num : Nat) (w : WorkUnit) : (s.setWork num w).fmnEvents = s.fmnEvents := rfl
@[simp] theorem setWork_granCounts (s : State) (num : Nat) (w : WorkUnit) : (s.setWork num w).granCounts = s.granCounts := rfl
@[simp] theorem setWork_migrations (s : State) (num : Nat) (w : WorkUnit) : (s.setWork num w).migrations = s.migrations := rfl
@[simp] theorem setWork_missOrder (s : State) (num : Nat) (w : WorkUnit) : (s.setWork num w).missOrder = s.missOrder := rfl
@[simp] theorem setWork_missReports (s : State) (num : Nat) (w : WorkUnit) : (s.setWork num w).missReports = s.missReports := rfl
@[simp] theorem setWork_traceSeq (s : State) (num : Nat) (w : WorkUnit) : (s.setWork num w).traceSeq = s.traceSeq := rfl
@[simp] theorem setWork_traceGap (s : State) (num : Nat) (w : WorkUnit) : (s.setWork num w).traceGap = s.traceGap := rfl
@[simp] theorem setWork_capPowered (s : State) (num : Nat) (w : WorkUnit) : (s.setWork num w).capPowered = s.capPowered := rfl
@[simp] theorem setWork_evict (s : State) (num : Nat) (w : WorkUnit) : (s.setWork num w).evict = s.evict := rfl
@[simp] theorem setWork_outbox (s : State) (num : Nat) (w : WorkUnit) : (s.setWork num w).outbox = s.outbox := rfl
@[simp] theorem setWork_reports (s : State) (num : Nat) (w : WorkUnit) : (s.setWork num w).reports = s.reports := rfl
@[simp] theorem setWork_reportsWaiting (s : State) (num : Nat) (w : WorkUnit) : (s.setWork num w).reportsWaiting = s.reportsWaiting := rfl
@[simp] theorem setWork_overflow (s : State) (num : Nat) (w : WorkUnit) : (s.setWork num w).overflow = s.overflow := rfl
@[simp] theorem setWork_notices (s : State) (num : Nat) (w : WorkUnit) : (s.setWork num w).notices = s.notices := rfl
@[simp] theorem setWork_canaries (s : State) (num : Nat) (w : WorkUnit) : (s.setWork num w).canaries = s.canaries := rfl
@[simp] theorem setWork_laddersDue (s : State) (num : Nat) (w : WorkUnit) : (s.setWork num w).laddersDue = s.laddersDue := rfl
@[simp] theorem setWork_windows (s : State) (num : Nat) (w : WorkUnit) : (s.setWork num w).windows = s.windows := rfl
@[simp] theorem setWork_tallyBuf (s : State) (num : Nat) (w : WorkUnit) : (s.setWork num w).tallyBuf = s.tallyBuf := rfl
@[simp] theorem setWork_tallyStore (s : State) (num : Nat) (w : WorkUnit) : (s.setWork num w).tallyStore = s.tallyStore := rfl
@[simp] theorem setWork_tallySeq (s : State) (num : Nat) (w : WorkUnit) : (s.setWork num w).tallySeq = s.tallySeq := rfl
@[simp] theorem setWork_pcycle (s : State) (num : Nat) (w : WorkUnit) : (s.setWork num w).pcycle = s.pcycle := rfl
@[simp] theorem setWork_opBase (s : State) (num : Nat) (w : WorkUnit) : (s.setWork num w).opBase = s.opBase := rfl
@[simp] theorem setWork_opFrom (s : State) (num : Nat) (w : WorkUnit) : (s.setWork num w).opFrom = s.opFrom := rfl
@[simp] theorem setWork_opCommit (s : State) (num : Nat) (w : WorkUnit) : (s.setWork num w).opCommit = s.opCommit := rfl
@[simp] theorem setWork_lostPending (s : State) (num : Nat) (w : WorkUnit) : (s.setWork num w).lostPending = s.lostPending := rfl
@[simp] theorem setWork_backlogSaid (s : State) (num : Nat) (w : WorkUnit) : (s.setWork num w).backlogSaid = s.backlogSaid := rfl
@[simp] theorem setWork_exchanges (s : State) (num : Nat) (w : WorkUnit) : (s.setWork num w).exchanges = s.exchanges := rfl
@[simp] theorem setWork_cqPhase (s : State) (num : Nat) (w : WorkUnit) : (s.setWork num w).cqPhase = s.cqPhase := rfl
@[simp] theorem setWork_peers (s : State) (num : Nat) (w : WorkUnit) : (s.setWork num w).peers = s.peers := rfl
@[simp] theorem setWork_ethQueue (s : State) (num : Nat) (w : WorkUnit) : (s.setWork num w).ethQueue = s.ethQueue := rfl
@[simp] theorem setWork_jslots (s : State) (num : Nat) (w : WorkUnit) : (s.setWork num w).jslots = s.jslots := rfl
@[simp] theorem setWork_jdata (s : State) (num : Nat) (w : WorkUnit) : (s.setWork num w).jdata = s.jdata := rfl
@[simp] theorem setWork_jcount (s : State) (num : Nat) (w : WorkUnit) : (s.setWork num w).jcount = s.jcount := rfl
@[simp] theorem setWork_jbad (s : State) (num : Nat) (w : WorkUnit) : (s.setWork num w).jbad = s.jbad := rfl
@[simp] theorem setWork_commits (s : State) (num : Nat) (w : WorkUnit) : (s.setWork num w).commits = s.commits := rfl
@[simp] theorem setWork_targetWrites (s : State) (num : Nat) (w : WorkUnit) : (s.setWork num w).targetWrites = s.targetWrites := rfl
@[simp] theorem setWork_restored (s : State) (num : Nat) (w : WorkUnit) : (s.setWork num w).restored = s.restored := rfl
@[simp] theorem setWork_jcmd (s : State) (num : Nat) (w : WorkUnit) : (s.setWork num w).jcmd = s.jcmd := rfl
@[simp] theorem setWork_images (s : State) (num : Nat) (w : WorkUnit) : (s.setWork num w).images = s.images := rfl
@[simp] theorem setWork_draining (s : State) (num : Nat) (w : WorkUnit) : (s.setWork num w).draining = s.draining := rfl
@[simp] theorem setWork_jrecv (s : State) (num : Nat) (w : WorkUnit) : (s.setWork num w).jrecv = s.jrecv := rfl
@[simp] theorem setWork_haulers (s : State) (num : Nat) (w : WorkUnit) : (s.setWork num w).haulers = s.haulers := rfl
@[simp] theorem setWork_istore (s : State) (num : Nat) (w : WorkUnit) : (s.setWork num w).istore = s.istore := rfl
@[simp] theorem setWork_pit (s : State) (num : Nat) (w : WorkUnit) : (s.setWork num w).pit = s.pit := rfl
@[simp] theorem setWork_pitBad (s : State) (num : Nat) (w : WorkUnit) : (s.setWork num w).pitBad = s.pitBad := rfl
@[simp] theorem setWork_marchRuns (s : State) (num : Nat) (w : WorkUnit) : (s.setWork num w).marchRuns = s.marchRuns := rfl
@[simp] theorem setWork_loadRuns (s : State) (num : Nat) (w : WorkUnit) : (s.setWork num w).loadRuns = s.loadRuns := rfl
@[simp] theorem setWork_links (s : State) (num : Nat) (w : WorkUnit) : (s.setWork num w).links = s.links := rfl
@[simp] theorem setWork_couplings (s : State) (num : Nat) (w : WorkUnit) : (s.setWork num w).couplings = s.couplings := rfl
@[simp] theorem setWork_complex (s : State) (num : Nat) (w : WorkUnit) : (s.setWork num w).complex = s.complex := rfl
@[simp] theorem setWork_engines (s : State) (num : Nat) (w : WorkUnit) : (s.setWork num w).engines = s.engines := rfl
@[simp] theorem setWork_drbg (s : State) (num : Nat) (w : WorkUnit) : (s.setWork num w).drbg = s.drbg := rfl
@[simp] theorem setWork_entropy (s : State) (num : Nat) (w : WorkUnit) : (s.setWork num w).entropy = s.entropy := rfl
@[simp] theorem setWork_attLog (s : State) (num : Nat) (w : WorkUnit) : (s.setWork num w).attLog = s.attLog := rfl
@[simp] theorem setWork_att (s : State) (num : Nat) (w : WorkUnit) : (s.setWork num w).att = s.att := rfl
@[simp] theorem setWork_staging (s : State) (num : Nat) (w : WorkUnit) : (s.setWork num w).staging = s.staging := rfl
@[simp] theorem setWork_active (s : State) (num : Nat) (w : WorkUnit) : (s.setWork num w).active = s.active := rfl
@[simp] theorem setWork_patches (s : State) (num : Nat) (w : WorkUnit) : (s.setWork num w).patches = s.patches := rfl
@[simp] theorem setWork_patchDue (s : State) (num : Nat) (w : WorkUnit) : (s.setWork num w).patchDue = s.patchDue := rfl
@[simp] theorem setWork_patchRuns (s : State) (num : Nat) (w : WorkUnit) : (s.setWork num w).patchRuns = s.patchRuns := rfl
@[simp] theorem setWork_mcsRun (s : State) (num : Nat) (w : WorkUnit) : (s.setWork num w).mcsRun = s.mcsRun := rfl
@[simp] theorem setWork_mcsPending (s : State) (num : Nat) (w : WorkUnit) : (s.setWork num w).mcsPending = s.mcsPending := rfl
@[simp] theorem setWork_ckwRuns (s : State) (num : Nat) (w : WorkUnit) : (s.setWork num w).ckwRuns = s.ckwRuns := rfl
@[simp] theorem setWork_trainRuns (s : State) (num : Nat) (w : WorkUnit) : (s.setWork num w).trainRuns = s.trainRuns := rfl
@[simp] theorem setWork_timingOk (s : State) (num : Nat) (w : WorkUnit) : (s.setWork num w).timingOk = s.timingOk := rfl
@[simp] theorem setWork_stewards (s : State) (num : Nat) (w : WorkUnit) : (s.setWork num w).stewards = s.stewards := rfl
@[simp] theorem setWork_cubePend (s : State) (num : Nat) (w : WorkUnit) : (s.setWork num w).cubePend = s.cubePend := rfl
@[simp] theorem setWork_leaseEnd (s : State) (num : Nat) (w : WorkUnit) : (s.setWork num w).leaseEnd = s.leaseEnd := rfl
@[simp] theorem setWork_leaseLen (s : State) (num : Nat) (w : WorkUnit) : (s.setWork num w).leaseLen = s.leaseLen := rfl
@[simp] theorem setWork_power (s : State) (num : Nat) (w : WorkUnit) : (s.setWork num w).power = s.power := rfl
@[simp] theorem setWork_tap (s : State) (num : Nat) (w : WorkUnit) : (s.setWork num w).tap = s.tap := rfl

/-! ### `setHauler` -/

@[simp] theorem setHauler_pending (s : State) (h : Nat) (x : Hauler) : (s.setHauler h x).pending = s.pending := rfl
@[simp] theorem setHauler_now (s : State) (h : Nat) (x : Hauler) : (s.setHauler h x).now = s.now := rfl
@[simp] theorem setHauler_free (s : State) (h : Nat) (x : Hauler) : (s.setHauler h x).free = s.free := rfl
@[simp] theorem setHauler_tbStart (s : State) (h : Nat) (x : Hauler) : (s.setHauler h x).tbStart = s.tbStart := rfl
@[simp] theorem setHauler_regs (s : State) (h : Nat) (x : Hauler) : (s.setHauler h x).regs = s.regs := rfl
@[simp] theorem setHauler_units (s : State) (h : Nat) (x : Hauler) : (s.setHauler h x).units = s.units := rfl
@[simp] theorem setHauler_cores (s : State) (h : Nat) (x : Hauler) : (s.setHauler h x).cores = s.cores := rfl
@[simp] theorem setHauler_caches (s : State) (h : Nat) (x : Hauler) : (s.setHauler h x).caches = s.caches := rfl
@[simp] theorem setHauler_plru (s : State) (h : Nat) (x : Hauler) : (s.setHauler h x).plru = s.plru := rfl
@[simp] theorem setHauler_wbq (s : State) (h : Nat) (x : Hauler) : (s.setHauler h x).wbq = s.wbq := rfl
@[simp] theorem setHauler_dir (s : State) (h : Nat) (x : Hauler) : (s.setHauler h x).dir = s.dir := rfl
@[simp] theorem setHauler_homeTrans (s : State) (h : Nat) (x : Hauler) : (s.setHauler h x).homeTrans = s.homeTrans := rfl
@[simp] theorem setHauler_homeQueue (s : State) (h : Nat) (x : Hauler) : (s.setHauler h x).homeQueue = s.homeQueue := rfl
@[simp] theorem setHauler_dirReserve (s : State) (h : Nat) (x : Hauler) : (s.setHauler h x).dirReserve = s.dirReserve := rfl
@[simp] theorem setHauler_tileTrans (s : State) (h : Nat) (x : Hauler) : (s.setHauler h x).tileTrans = s.tileTrans := rfl
@[simp] theorem setHauler_msgs (s : State) (h : Nat) (x : Hauler) : (s.setHauler h x).msgs = s.msgs := rfl
@[simp] theorem setHauler_ringWait (s : State) (h : Nat) (x : Hauler) : (s.setHauler h x).ringWait = s.ringWait := rfl
@[simp] theorem setHauler_supplied (s : State) (h : Nat) (x : Hauler) : (s.setHauler h x).supplied = s.supplied := rfl
@[simp] theorem setHauler_atmVals (s : State) (h : Nat) (x : Hauler) : (s.setHauler h x).atmVals = s.atmVals := rfl
@[simp] theorem setHauler_ioData (s : State) (h : Nat) (x : Hauler) : (s.setHauler h x).ioData = s.ioData := rfl
@[simp] theorem setHauler_isolated (s : State) (h : Nat) (x : Hauler) : (s.setHauler h x).isolated = s.isolated := rfl
@[simp] theorem setHauler_cacheJobs (s : State) (h : Nat) (x : Hauler) : (s.setHauler h x).cacheJobs = s.cacheJobs := rfl
@[simp] theorem setHauler_replays (s : State) (h : Nat) (x : Hauler) : (s.setHauler h x).replays = s.replays := rfl
@[simp] theorem setHauler_mem (s : State) (h : Nat) (x : Hauler) : (s.setHauler h x).mem = s.mem := rfl
@[simp] theorem setHauler_poison (s : State) (h : Nat) (x : Hauler) : (s.setHauler h x).poison = s.poison := rfl
@[simp] theorem setHauler_badWords (s : State) (h : Nat) (x : Hauler) : (s.setHauler h x).badWords = s.badWords := rfl
@[simp] theorem setHauler_remap (s : State) (h : Nat) (x : Hauler) : (s.setHauler h x).remap = s.remap := rfl
@[simp] theorem setHauler_down (s : State) (h : Nat) (x : Hauler) : (s.setHauler h x).down = s.down := rfl
@[simp] theorem setHauler_owners (s : State) (h : Nat) (x : Hauler) : (s.setHauler h x).owners = s.owners := rfl
@[simp] theorem setHauler_grantAt (s : State) (h : Nat) (x : Hauler) : (s.setHauler h x).grantAt = s.grantAt := rfl
@[simp] theorem setHauler_seamCmd (s : State) (h : Nat) (x : Hauler) : (s.setHauler h x).seamCmd = s.seamCmd := rfl
@[simp] theorem setHauler_heldStops (s : State) (h : Nat) (x : Hauler) : (s.setHauler h x).heldStops = s.heldStops := rfl
@[simp] theorem setHauler_seamPend (s : State) (h : Nat) (x : Hauler) : (s.setHauler h x).seamPend = s.seamPend := rfl
@[simp] theorem setHauler_wus (s : State) (h : Nat) (x : Hauler) : (s.setHauler h x).wus = s.wus := rfl
@[simp] theorem setHauler_nextWork (s : State) (h : Nat) (x : Hauler) : (s.setHauler h x).nextWork = s.nextWork := rfl
@[simp] theorem setHauler_rings (s : State) (h : Nat) (x : Hauler) : (s.setHauler h x).rings = s.rings := rfl
@[simp] theorem setHauler_waiters (s : State) (h : Nat) (x : Hauler) : (s.setHauler h x).waiters = s.waiters := rfl
@[simp] theorem setHauler_fmnEvents (s : State) (h : Nat) (x : Hauler) : (s.setHauler h x).fmnEvents = s.fmnEvents := rfl
@[simp] theorem setHauler_granCounts (s : State) (h : Nat) (x : Hauler) : (s.setHauler h x).granCounts = s.granCounts := rfl
@[simp] theorem setHauler_migrations (s : State) (h : Nat) (x : Hauler) : (s.setHauler h x).migrations = s.migrations := rfl
@[simp] theorem setHauler_missOrder (s : State) (h : Nat) (x : Hauler) : (s.setHauler h x).missOrder = s.missOrder := rfl
@[simp] theorem setHauler_missReports (s : State) (h : Nat) (x : Hauler) : (s.setHauler h x).missReports = s.missReports := rfl
@[simp] theorem setHauler_traceSeq (s : State) (h : Nat) (x : Hauler) : (s.setHauler h x).traceSeq = s.traceSeq := rfl
@[simp] theorem setHauler_traceGap (s : State) (h : Nat) (x : Hauler) : (s.setHauler h x).traceGap = s.traceGap := rfl
@[simp] theorem setHauler_capPowered (s : State) (h : Nat) (x : Hauler) : (s.setHauler h x).capPowered = s.capPowered := rfl
@[simp] theorem setHauler_evict (s : State) (h : Nat) (x : Hauler) : (s.setHauler h x).evict = s.evict := rfl
@[simp] theorem setHauler_outbox (s : State) (h : Nat) (x : Hauler) : (s.setHauler h x).outbox = s.outbox := rfl
@[simp] theorem setHauler_reports (s : State) (h : Nat) (x : Hauler) : (s.setHauler h x).reports = s.reports := rfl
@[simp] theorem setHauler_reportsWaiting (s : State) (h : Nat) (x : Hauler) : (s.setHauler h x).reportsWaiting = s.reportsWaiting := rfl
@[simp] theorem setHauler_overflow (s : State) (h : Nat) (x : Hauler) : (s.setHauler h x).overflow = s.overflow := rfl
@[simp] theorem setHauler_notices (s : State) (h : Nat) (x : Hauler) : (s.setHauler h x).notices = s.notices := rfl
@[simp] theorem setHauler_canaries (s : State) (h : Nat) (x : Hauler) : (s.setHauler h x).canaries = s.canaries := rfl
@[simp] theorem setHauler_laddersDue (s : State) (h : Nat) (x : Hauler) : (s.setHauler h x).laddersDue = s.laddersDue := rfl
@[simp] theorem setHauler_windows (s : State) (h : Nat) (x : Hauler) : (s.setHauler h x).windows = s.windows := rfl
@[simp] theorem setHauler_tallyBuf (s : State) (h : Nat) (x : Hauler) : (s.setHauler h x).tallyBuf = s.tallyBuf := rfl
@[simp] theorem setHauler_tallyStore (s : State) (h : Nat) (x : Hauler) : (s.setHauler h x).tallyStore = s.tallyStore := rfl
@[simp] theorem setHauler_tallySeq (s : State) (h : Nat) (x : Hauler) : (s.setHauler h x).tallySeq = s.tallySeq := rfl
@[simp] theorem setHauler_pcycle (s : State) (h : Nat) (x : Hauler) : (s.setHauler h x).pcycle = s.pcycle := rfl
@[simp] theorem setHauler_opBase (s : State) (h : Nat) (x : Hauler) : (s.setHauler h x).opBase = s.opBase := rfl
@[simp] theorem setHauler_opFrom (s : State) (h : Nat) (x : Hauler) : (s.setHauler h x).opFrom = s.opFrom := rfl
@[simp] theorem setHauler_opCommit (s : State) (h : Nat) (x : Hauler) : (s.setHauler h x).opCommit = s.opCommit := rfl
@[simp] theorem setHauler_lostPending (s : State) (h : Nat) (x : Hauler) : (s.setHauler h x).lostPending = s.lostPending := rfl
@[simp] theorem setHauler_backlogSaid (s : State) (h : Nat) (x : Hauler) : (s.setHauler h x).backlogSaid = s.backlogSaid := rfl
@[simp] theorem setHauler_exchanges (s : State) (h : Nat) (x : Hauler) : (s.setHauler h x).exchanges = s.exchanges := rfl
@[simp] theorem setHauler_cqPhase (s : State) (h : Nat) (x : Hauler) : (s.setHauler h x).cqPhase = s.cqPhase := rfl
@[simp] theorem setHauler_peers (s : State) (h : Nat) (x : Hauler) : (s.setHauler h x).peers = s.peers := rfl
@[simp] theorem setHauler_ethQueue (s : State) (h : Nat) (x : Hauler) : (s.setHauler h x).ethQueue = s.ethQueue := rfl
@[simp] theorem setHauler_jslots (s : State) (h : Nat) (x : Hauler) : (s.setHauler h x).jslots = s.jslots := rfl
@[simp] theorem setHauler_jdata (s : State) (h : Nat) (x : Hauler) : (s.setHauler h x).jdata = s.jdata := rfl
@[simp] theorem setHauler_jcount (s : State) (h : Nat) (x : Hauler) : (s.setHauler h x).jcount = s.jcount := rfl
@[simp] theorem setHauler_jbad (s : State) (h : Nat) (x : Hauler) : (s.setHauler h x).jbad = s.jbad := rfl
@[simp] theorem setHauler_commits (s : State) (h : Nat) (x : Hauler) : (s.setHauler h x).commits = s.commits := rfl
@[simp] theorem setHauler_targetWrites (s : State) (h : Nat) (x : Hauler) : (s.setHauler h x).targetWrites = s.targetWrites := rfl
@[simp] theorem setHauler_restored (s : State) (h : Nat) (x : Hauler) : (s.setHauler h x).restored = s.restored := rfl
@[simp] theorem setHauler_jcmd (s : State) (h : Nat) (x : Hauler) : (s.setHauler h x).jcmd = s.jcmd := rfl
@[simp] theorem setHauler_images (s : State) (h : Nat) (x : Hauler) : (s.setHauler h x).images = s.images := rfl
@[simp] theorem setHauler_draining (s : State) (h : Nat) (x : Hauler) : (s.setHauler h x).draining = s.draining := rfl
@[simp] theorem setHauler_jrecv (s : State) (h : Nat) (x : Hauler) : (s.setHauler h x).jrecv = s.jrecv := rfl
@[simp] theorem setHauler_istore (s : State) (h : Nat) (x : Hauler) : (s.setHauler h x).istore = s.istore := rfl
@[simp] theorem setHauler_pit (s : State) (h : Nat) (x : Hauler) : (s.setHauler h x).pit = s.pit := rfl
@[simp] theorem setHauler_pitBad (s : State) (h : Nat) (x : Hauler) : (s.setHauler h x).pitBad = s.pitBad := rfl
@[simp] theorem setHauler_marchRuns (s : State) (h : Nat) (x : Hauler) : (s.setHauler h x).marchRuns = s.marchRuns := rfl
@[simp] theorem setHauler_loadRuns (s : State) (h : Nat) (x : Hauler) : (s.setHauler h x).loadRuns = s.loadRuns := rfl
@[simp] theorem setHauler_links (s : State) (h : Nat) (x : Hauler) : (s.setHauler h x).links = s.links := rfl
@[simp] theorem setHauler_couplings (s : State) (h : Nat) (x : Hauler) : (s.setHauler h x).couplings = s.couplings := rfl
@[simp] theorem setHauler_complex (s : State) (h : Nat) (x : Hauler) : (s.setHauler h x).complex = s.complex := rfl
@[simp] theorem setHauler_engines (s : State) (h : Nat) (x : Hauler) : (s.setHauler h x).engines = s.engines := rfl
@[simp] theorem setHauler_drbg (s : State) (h : Nat) (x : Hauler) : (s.setHauler h x).drbg = s.drbg := rfl
@[simp] theorem setHauler_entropy (s : State) (h : Nat) (x : Hauler) : (s.setHauler h x).entropy = s.entropy := rfl
@[simp] theorem setHauler_attLog (s : State) (h : Nat) (x : Hauler) : (s.setHauler h x).attLog = s.attLog := rfl
@[simp] theorem setHauler_att (s : State) (h : Nat) (x : Hauler) : (s.setHauler h x).att = s.att := rfl
@[simp] theorem setHauler_staging (s : State) (h : Nat) (x : Hauler) : (s.setHauler h x).staging = s.staging := rfl
@[simp] theorem setHauler_active (s : State) (h : Nat) (x : Hauler) : (s.setHauler h x).active = s.active := rfl
@[simp] theorem setHauler_patches (s : State) (h : Nat) (x : Hauler) : (s.setHauler h x).patches = s.patches := rfl
@[simp] theorem setHauler_patchDue (s : State) (h : Nat) (x : Hauler) : (s.setHauler h x).patchDue = s.patchDue := rfl
@[simp] theorem setHauler_patchRuns (s : State) (h : Nat) (x : Hauler) : (s.setHauler h x).patchRuns = s.patchRuns := rfl
@[simp] theorem setHauler_mcsRun (s : State) (h : Nat) (x : Hauler) : (s.setHauler h x).mcsRun = s.mcsRun := rfl
@[simp] theorem setHauler_mcsPending (s : State) (h : Nat) (x : Hauler) : (s.setHauler h x).mcsPending = s.mcsPending := rfl
@[simp] theorem setHauler_ckwRuns (s : State) (h : Nat) (x : Hauler) : (s.setHauler h x).ckwRuns = s.ckwRuns := rfl
@[simp] theorem setHauler_trainRuns (s : State) (h : Nat) (x : Hauler) : (s.setHauler h x).trainRuns = s.trainRuns := rfl
@[simp] theorem setHauler_timingOk (s : State) (h : Nat) (x : Hauler) : (s.setHauler h x).timingOk = s.timingOk := rfl
@[simp] theorem setHauler_stewards (s : State) (h : Nat) (x : Hauler) : (s.setHauler h x).stewards = s.stewards := rfl
@[simp] theorem setHauler_cubePend (s : State) (h : Nat) (x : Hauler) : (s.setHauler h x).cubePend = s.cubePend := rfl
@[simp] theorem setHauler_leaseEnd (s : State) (h : Nat) (x : Hauler) : (s.setHauler h x).leaseEnd = s.leaseEnd := rfl
@[simp] theorem setHauler_leaseLen (s : State) (h : Nat) (x : Hauler) : (s.setHauler h x).leaseLen = s.leaseLen := rfl
@[simp] theorem setHauler_power (s : State) (h : Nat) (x : Hauler) : (s.setHauler h x).power = s.power := rfl
@[simp] theorem setHauler_tap (s : State) (h : Nat) (x : Hauler) : (s.setHauler h x).tap = s.tap := rfl

/-! ### `setExch` -/

@[simp] theorem setExch_pending (s : State) (key : Nat) (e : Exchange) : (s.setExch key e).pending = s.pending := rfl
@[simp] theorem setExch_now (s : State) (key : Nat) (e : Exchange) : (s.setExch key e).now = s.now := rfl
@[simp] theorem setExch_free (s : State) (key : Nat) (e : Exchange) : (s.setExch key e).free = s.free := rfl
@[simp] theorem setExch_tbStart (s : State) (key : Nat) (e : Exchange) : (s.setExch key e).tbStart = s.tbStart := rfl
@[simp] theorem setExch_regs (s : State) (key : Nat) (e : Exchange) : (s.setExch key e).regs = s.regs := rfl
@[simp] theorem setExch_units (s : State) (key : Nat) (e : Exchange) : (s.setExch key e).units = s.units := rfl
@[simp] theorem setExch_cores (s : State) (key : Nat) (e : Exchange) : (s.setExch key e).cores = s.cores := rfl
@[simp] theorem setExch_caches (s : State) (key : Nat) (e : Exchange) : (s.setExch key e).caches = s.caches := rfl
@[simp] theorem setExch_plru (s : State) (key : Nat) (e : Exchange) : (s.setExch key e).plru = s.plru := rfl
@[simp] theorem setExch_wbq (s : State) (key : Nat) (e : Exchange) : (s.setExch key e).wbq = s.wbq := rfl
@[simp] theorem setExch_dir (s : State) (key : Nat) (e : Exchange) : (s.setExch key e).dir = s.dir := rfl
@[simp] theorem setExch_homeTrans (s : State) (key : Nat) (e : Exchange) : (s.setExch key e).homeTrans = s.homeTrans := rfl
@[simp] theorem setExch_homeQueue (s : State) (key : Nat) (e : Exchange) : (s.setExch key e).homeQueue = s.homeQueue := rfl
@[simp] theorem setExch_dirReserve (s : State) (key : Nat) (e : Exchange) : (s.setExch key e).dirReserve = s.dirReserve := rfl
@[simp] theorem setExch_tileTrans (s : State) (key : Nat) (e : Exchange) : (s.setExch key e).tileTrans = s.tileTrans := rfl
@[simp] theorem setExch_msgs (s : State) (key : Nat) (e : Exchange) : (s.setExch key e).msgs = s.msgs := rfl
@[simp] theorem setExch_ringWait (s : State) (key : Nat) (e : Exchange) : (s.setExch key e).ringWait = s.ringWait := rfl
@[simp] theorem setExch_supplied (s : State) (key : Nat) (e : Exchange) : (s.setExch key e).supplied = s.supplied := rfl
@[simp] theorem setExch_atmVals (s : State) (key : Nat) (e : Exchange) : (s.setExch key e).atmVals = s.atmVals := rfl
@[simp] theorem setExch_ioData (s : State) (key : Nat) (e : Exchange) : (s.setExch key e).ioData = s.ioData := rfl
@[simp] theorem setExch_isolated (s : State) (key : Nat) (e : Exchange) : (s.setExch key e).isolated = s.isolated := rfl
@[simp] theorem setExch_cacheJobs (s : State) (key : Nat) (e : Exchange) : (s.setExch key e).cacheJobs = s.cacheJobs := rfl
@[simp] theorem setExch_replays (s : State) (key : Nat) (e : Exchange) : (s.setExch key e).replays = s.replays := rfl
@[simp] theorem setExch_mem (s : State) (key : Nat) (e : Exchange) : (s.setExch key e).mem = s.mem := rfl
@[simp] theorem setExch_poison (s : State) (key : Nat) (e : Exchange) : (s.setExch key e).poison = s.poison := rfl
@[simp] theorem setExch_badWords (s : State) (key : Nat) (e : Exchange) : (s.setExch key e).badWords = s.badWords := rfl
@[simp] theorem setExch_remap (s : State) (key : Nat) (e : Exchange) : (s.setExch key e).remap = s.remap := rfl
@[simp] theorem setExch_down (s : State) (key : Nat) (e : Exchange) : (s.setExch key e).down = s.down := rfl
@[simp] theorem setExch_owners (s : State) (key : Nat) (e : Exchange) : (s.setExch key e).owners = s.owners := rfl
@[simp] theorem setExch_grantAt (s : State) (key : Nat) (e : Exchange) : (s.setExch key e).grantAt = s.grantAt := rfl
@[simp] theorem setExch_seamCmd (s : State) (key : Nat) (e : Exchange) : (s.setExch key e).seamCmd = s.seamCmd := rfl
@[simp] theorem setExch_heldStops (s : State) (key : Nat) (e : Exchange) : (s.setExch key e).heldStops = s.heldStops := rfl
@[simp] theorem setExch_seamPend (s : State) (key : Nat) (e : Exchange) : (s.setExch key e).seamPend = s.seamPend := rfl
@[simp] theorem setExch_wus (s : State) (key : Nat) (e : Exchange) : (s.setExch key e).wus = s.wus := rfl
@[simp] theorem setExch_nextWork (s : State) (key : Nat) (e : Exchange) : (s.setExch key e).nextWork = s.nextWork := rfl
@[simp] theorem setExch_rings (s : State) (key : Nat) (e : Exchange) : (s.setExch key e).rings = s.rings := rfl
@[simp] theorem setExch_waiters (s : State) (key : Nat) (e : Exchange) : (s.setExch key e).waiters = s.waiters := rfl
@[simp] theorem setExch_fmnEvents (s : State) (key : Nat) (e : Exchange) : (s.setExch key e).fmnEvents = s.fmnEvents := rfl
@[simp] theorem setExch_granCounts (s : State) (key : Nat) (e : Exchange) : (s.setExch key e).granCounts = s.granCounts := rfl
@[simp] theorem setExch_migrations (s : State) (key : Nat) (e : Exchange) : (s.setExch key e).migrations = s.migrations := rfl
@[simp] theorem setExch_missOrder (s : State) (key : Nat) (e : Exchange) : (s.setExch key e).missOrder = s.missOrder := rfl
@[simp] theorem setExch_missReports (s : State) (key : Nat) (e : Exchange) : (s.setExch key e).missReports = s.missReports := rfl
@[simp] theorem setExch_traceSeq (s : State) (key : Nat) (e : Exchange) : (s.setExch key e).traceSeq = s.traceSeq := rfl
@[simp] theorem setExch_traceGap (s : State) (key : Nat) (e : Exchange) : (s.setExch key e).traceGap = s.traceGap := rfl
@[simp] theorem setExch_capPowered (s : State) (key : Nat) (e : Exchange) : (s.setExch key e).capPowered = s.capPowered := rfl
@[simp] theorem setExch_evict (s : State) (key : Nat) (e : Exchange) : (s.setExch key e).evict = s.evict := rfl
@[simp] theorem setExch_outbox (s : State) (key : Nat) (e : Exchange) : (s.setExch key e).outbox = s.outbox := rfl
@[simp] theorem setExch_reports (s : State) (key : Nat) (e : Exchange) : (s.setExch key e).reports = s.reports := rfl
@[simp] theorem setExch_reportsWaiting (s : State) (key : Nat) (e : Exchange) : (s.setExch key e).reportsWaiting = s.reportsWaiting := rfl
@[simp] theorem setExch_overflow (s : State) (key : Nat) (e : Exchange) : (s.setExch key e).overflow = s.overflow := rfl
@[simp] theorem setExch_notices (s : State) (key : Nat) (e : Exchange) : (s.setExch key e).notices = s.notices := rfl
@[simp] theorem setExch_canaries (s : State) (key : Nat) (e : Exchange) : (s.setExch key e).canaries = s.canaries := rfl
@[simp] theorem setExch_laddersDue (s : State) (key : Nat) (e : Exchange) : (s.setExch key e).laddersDue = s.laddersDue := rfl
@[simp] theorem setExch_windows (s : State) (key : Nat) (e : Exchange) : (s.setExch key e).windows = s.windows := rfl
@[simp] theorem setExch_tallyBuf (s : State) (key : Nat) (e : Exchange) : (s.setExch key e).tallyBuf = s.tallyBuf := rfl
@[simp] theorem setExch_tallyStore (s : State) (key : Nat) (e : Exchange) : (s.setExch key e).tallyStore = s.tallyStore := rfl
@[simp] theorem setExch_tallySeq (s : State) (key : Nat) (e : Exchange) : (s.setExch key e).tallySeq = s.tallySeq := rfl
@[simp] theorem setExch_pcycle (s : State) (key : Nat) (e : Exchange) : (s.setExch key e).pcycle = s.pcycle := rfl
@[simp] theorem setExch_opBase (s : State) (key : Nat) (e : Exchange) : (s.setExch key e).opBase = s.opBase := rfl
@[simp] theorem setExch_opFrom (s : State) (key : Nat) (e : Exchange) : (s.setExch key e).opFrom = s.opFrom := rfl
@[simp] theorem setExch_opCommit (s : State) (key : Nat) (e : Exchange) : (s.setExch key e).opCommit = s.opCommit := rfl
@[simp] theorem setExch_lostPending (s : State) (key : Nat) (e : Exchange) : (s.setExch key e).lostPending = s.lostPending := rfl
@[simp] theorem setExch_backlogSaid (s : State) (key : Nat) (e : Exchange) : (s.setExch key e).backlogSaid = s.backlogSaid := rfl
@[simp] theorem setExch_cqPhase (s : State) (key : Nat) (e : Exchange) : (s.setExch key e).cqPhase = s.cqPhase := rfl
@[simp] theorem setExch_peers (s : State) (key : Nat) (e : Exchange) : (s.setExch key e).peers = s.peers := rfl
@[simp] theorem setExch_ethQueue (s : State) (key : Nat) (e : Exchange) : (s.setExch key e).ethQueue = s.ethQueue := rfl
@[simp] theorem setExch_jslots (s : State) (key : Nat) (e : Exchange) : (s.setExch key e).jslots = s.jslots := rfl
@[simp] theorem setExch_jdata (s : State) (key : Nat) (e : Exchange) : (s.setExch key e).jdata = s.jdata := rfl
@[simp] theorem setExch_jcount (s : State) (key : Nat) (e : Exchange) : (s.setExch key e).jcount = s.jcount := rfl
@[simp] theorem setExch_jbad (s : State) (key : Nat) (e : Exchange) : (s.setExch key e).jbad = s.jbad := rfl
@[simp] theorem setExch_commits (s : State) (key : Nat) (e : Exchange) : (s.setExch key e).commits = s.commits := rfl
@[simp] theorem setExch_targetWrites (s : State) (key : Nat) (e : Exchange) : (s.setExch key e).targetWrites = s.targetWrites := rfl
@[simp] theorem setExch_restored (s : State) (key : Nat) (e : Exchange) : (s.setExch key e).restored = s.restored := rfl
@[simp] theorem setExch_jcmd (s : State) (key : Nat) (e : Exchange) : (s.setExch key e).jcmd = s.jcmd := rfl
@[simp] theorem setExch_images (s : State) (key : Nat) (e : Exchange) : (s.setExch key e).images = s.images := rfl
@[simp] theorem setExch_draining (s : State) (key : Nat) (e : Exchange) : (s.setExch key e).draining = s.draining := rfl
@[simp] theorem setExch_jrecv (s : State) (key : Nat) (e : Exchange) : (s.setExch key e).jrecv = s.jrecv := rfl
@[simp] theorem setExch_haulers (s : State) (key : Nat) (e : Exchange) : (s.setExch key e).haulers = s.haulers := rfl
@[simp] theorem setExch_istore (s : State) (key : Nat) (e : Exchange) : (s.setExch key e).istore = s.istore := rfl
@[simp] theorem setExch_pit (s : State) (key : Nat) (e : Exchange) : (s.setExch key e).pit = s.pit := rfl
@[simp] theorem setExch_pitBad (s : State) (key : Nat) (e : Exchange) : (s.setExch key e).pitBad = s.pitBad := rfl
@[simp] theorem setExch_marchRuns (s : State) (key : Nat) (e : Exchange) : (s.setExch key e).marchRuns = s.marchRuns := rfl
@[simp] theorem setExch_loadRuns (s : State) (key : Nat) (e : Exchange) : (s.setExch key e).loadRuns = s.loadRuns := rfl
@[simp] theorem setExch_links (s : State) (key : Nat) (e : Exchange) : (s.setExch key e).links = s.links := rfl
@[simp] theorem setExch_couplings (s : State) (key : Nat) (e : Exchange) : (s.setExch key e).couplings = s.couplings := rfl
@[simp] theorem setExch_complex (s : State) (key : Nat) (e : Exchange) : (s.setExch key e).complex = s.complex := rfl
@[simp] theorem setExch_engines (s : State) (key : Nat) (e : Exchange) : (s.setExch key e).engines = s.engines := rfl
@[simp] theorem setExch_drbg (s : State) (key : Nat) (e : Exchange) : (s.setExch key e).drbg = s.drbg := rfl
@[simp] theorem setExch_entropy (s : State) (key : Nat) (e : Exchange) : (s.setExch key e).entropy = s.entropy := rfl
@[simp] theorem setExch_attLog (s : State) (key : Nat) (e : Exchange) : (s.setExch key e).attLog = s.attLog := rfl
@[simp] theorem setExch_att (s : State) (key : Nat) (e : Exchange) : (s.setExch key e).att = s.att := rfl
@[simp] theorem setExch_staging (s : State) (key : Nat) (e : Exchange) : (s.setExch key e).staging = s.staging := rfl
@[simp] theorem setExch_active (s : State) (key : Nat) (e : Exchange) : (s.setExch key e).active = s.active := rfl
@[simp] theorem setExch_patches (s : State) (key : Nat) (e : Exchange) : (s.setExch key e).patches = s.patches := rfl
@[simp] theorem setExch_patchDue (s : State) (key : Nat) (e : Exchange) : (s.setExch key e).patchDue = s.patchDue := rfl
@[simp] theorem setExch_patchRuns (s : State) (key : Nat) (e : Exchange) : (s.setExch key e).patchRuns = s.patchRuns := rfl
@[simp] theorem setExch_mcsRun (s : State) (key : Nat) (e : Exchange) : (s.setExch key e).mcsRun = s.mcsRun := rfl
@[simp] theorem setExch_mcsPending (s : State) (key : Nat) (e : Exchange) : (s.setExch key e).mcsPending = s.mcsPending := rfl
@[simp] theorem setExch_ckwRuns (s : State) (key : Nat) (e : Exchange) : (s.setExch key e).ckwRuns = s.ckwRuns := rfl
@[simp] theorem setExch_trainRuns (s : State) (key : Nat) (e : Exchange) : (s.setExch key e).trainRuns = s.trainRuns := rfl
@[simp] theorem setExch_timingOk (s : State) (key : Nat) (e : Exchange) : (s.setExch key e).timingOk = s.timingOk := rfl
@[simp] theorem setExch_stewards (s : State) (key : Nat) (e : Exchange) : (s.setExch key e).stewards = s.stewards := rfl
@[simp] theorem setExch_cubePend (s : State) (key : Nat) (e : Exchange) : (s.setExch key e).cubePend = s.cubePend := rfl
@[simp] theorem setExch_leaseEnd (s : State) (key : Nat) (e : Exchange) : (s.setExch key e).leaseEnd = s.leaseEnd := rfl
@[simp] theorem setExch_leaseLen (s : State) (key : Nat) (e : Exchange) : (s.setExch key e).leaseLen = s.leaseLen := rfl
@[simp] theorem setExch_power (s : State) (key : Nat) (e : Exchange) : (s.setExch key e).power = s.power := rfl
@[simp] theorem setExch_tap (s : State) (key : Nat) (e : Exchange) : (s.setExch key e).tap = s.tap := rfl

/-! ### `putByte` -/

@[simp] theorem putByte_pending (s : State) (key : Nat) (b : Byte) : (s.putByte key b).pending = s.pending := rfl
@[simp] theorem putByte_now (s : State) (key : Nat) (b : Byte) : (s.putByte key b).now = s.now := rfl
@[simp] theorem putByte_free (s : State) (key : Nat) (b : Byte) : (s.putByte key b).free = s.free := rfl
@[simp] theorem putByte_tbStart (s : State) (key : Nat) (b : Byte) : (s.putByte key b).tbStart = s.tbStart := rfl
@[simp] theorem putByte_regs (s : State) (key : Nat) (b : Byte) : (s.putByte key b).regs = s.regs := rfl
@[simp] theorem putByte_units (s : State) (key : Nat) (b : Byte) : (s.putByte key b).units = s.units := rfl
@[simp] theorem putByte_cores (s : State) (key : Nat) (b : Byte) : (s.putByte key b).cores = s.cores := rfl
@[simp] theorem putByte_caches (s : State) (key : Nat) (b : Byte) : (s.putByte key b).caches = s.caches := rfl
@[simp] theorem putByte_plru (s : State) (key : Nat) (b : Byte) : (s.putByte key b).plru = s.plru := rfl
@[simp] theorem putByte_wbq (s : State) (key : Nat) (b : Byte) : (s.putByte key b).wbq = s.wbq := rfl
@[simp] theorem putByte_dir (s : State) (key : Nat) (b : Byte) : (s.putByte key b).dir = s.dir := rfl
@[simp] theorem putByte_homeTrans (s : State) (key : Nat) (b : Byte) : (s.putByte key b).homeTrans = s.homeTrans := rfl
@[simp] theorem putByte_homeQueue (s : State) (key : Nat) (b : Byte) : (s.putByte key b).homeQueue = s.homeQueue := rfl
@[simp] theorem putByte_dirReserve (s : State) (key : Nat) (b : Byte) : (s.putByte key b).dirReserve = s.dirReserve := rfl
@[simp] theorem putByte_tileTrans (s : State) (key : Nat) (b : Byte) : (s.putByte key b).tileTrans = s.tileTrans := rfl
@[simp] theorem putByte_msgs (s : State) (key : Nat) (b : Byte) : (s.putByte key b).msgs = s.msgs := rfl
@[simp] theorem putByte_ringWait (s : State) (key : Nat) (b : Byte) : (s.putByte key b).ringWait = s.ringWait := rfl
@[simp] theorem putByte_supplied (s : State) (key : Nat) (b : Byte) : (s.putByte key b).supplied = s.supplied := rfl
@[simp] theorem putByte_atmVals (s : State) (key : Nat) (b : Byte) : (s.putByte key b).atmVals = s.atmVals := rfl
@[simp] theorem putByte_ioData (s : State) (key : Nat) (b : Byte) : (s.putByte key b).ioData = s.ioData := rfl
@[simp] theorem putByte_isolated (s : State) (key : Nat) (b : Byte) : (s.putByte key b).isolated = s.isolated := rfl
@[simp] theorem putByte_cacheJobs (s : State) (key : Nat) (b : Byte) : (s.putByte key b).cacheJobs = s.cacheJobs := rfl
@[simp] theorem putByte_replays (s : State) (key : Nat) (b : Byte) : (s.putByte key b).replays = s.replays := rfl
@[simp] theorem putByte_poison (s : State) (key : Nat) (b : Byte) : (s.putByte key b).poison = s.poison := rfl
@[simp] theorem putByte_badWords (s : State) (key : Nat) (b : Byte) : (s.putByte key b).badWords = s.badWords := rfl
@[simp] theorem putByte_remap (s : State) (key : Nat) (b : Byte) : (s.putByte key b).remap = s.remap := rfl
@[simp] theorem putByte_down (s : State) (key : Nat) (b : Byte) : (s.putByte key b).down = s.down := rfl
@[simp] theorem putByte_owners (s : State) (key : Nat) (b : Byte) : (s.putByte key b).owners = s.owners := rfl
@[simp] theorem putByte_grantAt (s : State) (key : Nat) (b : Byte) : (s.putByte key b).grantAt = s.grantAt := rfl
@[simp] theorem putByte_seamCmd (s : State) (key : Nat) (b : Byte) : (s.putByte key b).seamCmd = s.seamCmd := rfl
@[simp] theorem putByte_heldStops (s : State) (key : Nat) (b : Byte) : (s.putByte key b).heldStops = s.heldStops := rfl
@[simp] theorem putByte_seamPend (s : State) (key : Nat) (b : Byte) : (s.putByte key b).seamPend = s.seamPend := rfl
@[simp] theorem putByte_wus (s : State) (key : Nat) (b : Byte) : (s.putByte key b).wus = s.wus := rfl
@[simp] theorem putByte_nextWork (s : State) (key : Nat) (b : Byte) : (s.putByte key b).nextWork = s.nextWork := rfl
@[simp] theorem putByte_rings (s : State) (key : Nat) (b : Byte) : (s.putByte key b).rings = s.rings := rfl
@[simp] theorem putByte_waiters (s : State) (key : Nat) (b : Byte) : (s.putByte key b).waiters = s.waiters := rfl
@[simp] theorem putByte_fmnEvents (s : State) (key : Nat) (b : Byte) : (s.putByte key b).fmnEvents = s.fmnEvents := rfl
@[simp] theorem putByte_granCounts (s : State) (key : Nat) (b : Byte) : (s.putByte key b).granCounts = s.granCounts := rfl
@[simp] theorem putByte_migrations (s : State) (key : Nat) (b : Byte) : (s.putByte key b).migrations = s.migrations := rfl
@[simp] theorem putByte_missOrder (s : State) (key : Nat) (b : Byte) : (s.putByte key b).missOrder = s.missOrder := rfl
@[simp] theorem putByte_missReports (s : State) (key : Nat) (b : Byte) : (s.putByte key b).missReports = s.missReports := rfl
@[simp] theorem putByte_traceSeq (s : State) (key : Nat) (b : Byte) : (s.putByte key b).traceSeq = s.traceSeq := rfl
@[simp] theorem putByte_traceGap (s : State) (key : Nat) (b : Byte) : (s.putByte key b).traceGap = s.traceGap := rfl
@[simp] theorem putByte_capPowered (s : State) (key : Nat) (b : Byte) : (s.putByte key b).capPowered = s.capPowered := rfl
@[simp] theorem putByte_evict (s : State) (key : Nat) (b : Byte) : (s.putByte key b).evict = s.evict := rfl
@[simp] theorem putByte_outbox (s : State) (key : Nat) (b : Byte) : (s.putByte key b).outbox = s.outbox := rfl
@[simp] theorem putByte_reports (s : State) (key : Nat) (b : Byte) : (s.putByte key b).reports = s.reports := rfl
@[simp] theorem putByte_reportsWaiting (s : State) (key : Nat) (b : Byte) : (s.putByte key b).reportsWaiting = s.reportsWaiting := rfl
@[simp] theorem putByte_overflow (s : State) (key : Nat) (b : Byte) : (s.putByte key b).overflow = s.overflow := rfl
@[simp] theorem putByte_notices (s : State) (key : Nat) (b : Byte) : (s.putByte key b).notices = s.notices := rfl
@[simp] theorem putByte_canaries (s : State) (key : Nat) (b : Byte) : (s.putByte key b).canaries = s.canaries := rfl
@[simp] theorem putByte_laddersDue (s : State) (key : Nat) (b : Byte) : (s.putByte key b).laddersDue = s.laddersDue := rfl
@[simp] theorem putByte_windows (s : State) (key : Nat) (b : Byte) : (s.putByte key b).windows = s.windows := rfl
@[simp] theorem putByte_tallyBuf (s : State) (key : Nat) (b : Byte) : (s.putByte key b).tallyBuf = s.tallyBuf := rfl
@[simp] theorem putByte_tallyStore (s : State) (key : Nat) (b : Byte) : (s.putByte key b).tallyStore = s.tallyStore := rfl
@[simp] theorem putByte_tallySeq (s : State) (key : Nat) (b : Byte) : (s.putByte key b).tallySeq = s.tallySeq := rfl
@[simp] theorem putByte_pcycle (s : State) (key : Nat) (b : Byte) : (s.putByte key b).pcycle = s.pcycle := rfl
@[simp] theorem putByte_opBase (s : State) (key : Nat) (b : Byte) : (s.putByte key b).opBase = s.opBase := rfl
@[simp] theorem putByte_opFrom (s : State) (key : Nat) (b : Byte) : (s.putByte key b).opFrom = s.opFrom := rfl
@[simp] theorem putByte_opCommit (s : State) (key : Nat) (b : Byte) : (s.putByte key b).opCommit = s.opCommit := rfl
@[simp] theorem putByte_lostPending (s : State) (key : Nat) (b : Byte) : (s.putByte key b).lostPending = s.lostPending := rfl
@[simp] theorem putByte_backlogSaid (s : State) (key : Nat) (b : Byte) : (s.putByte key b).backlogSaid = s.backlogSaid := rfl
@[simp] theorem putByte_exchanges (s : State) (key : Nat) (b : Byte) : (s.putByte key b).exchanges = s.exchanges := rfl
@[simp] theorem putByte_cqPhase (s : State) (key : Nat) (b : Byte) : (s.putByte key b).cqPhase = s.cqPhase := rfl
@[simp] theorem putByte_peers (s : State) (key : Nat) (b : Byte) : (s.putByte key b).peers = s.peers := rfl
@[simp] theorem putByte_ethQueue (s : State) (key : Nat) (b : Byte) : (s.putByte key b).ethQueue = s.ethQueue := rfl
@[simp] theorem putByte_jslots (s : State) (key : Nat) (b : Byte) : (s.putByte key b).jslots = s.jslots := rfl
@[simp] theorem putByte_jdata (s : State) (key : Nat) (b : Byte) : (s.putByte key b).jdata = s.jdata := rfl
@[simp] theorem putByte_jcount (s : State) (key : Nat) (b : Byte) : (s.putByte key b).jcount = s.jcount := rfl
@[simp] theorem putByte_jbad (s : State) (key : Nat) (b : Byte) : (s.putByte key b).jbad = s.jbad := rfl
@[simp] theorem putByte_commits (s : State) (key : Nat) (b : Byte) : (s.putByte key b).commits = s.commits := rfl
@[simp] theorem putByte_targetWrites (s : State) (key : Nat) (b : Byte) : (s.putByte key b).targetWrites = s.targetWrites := rfl
@[simp] theorem putByte_restored (s : State) (key : Nat) (b : Byte) : (s.putByte key b).restored = s.restored := rfl
@[simp] theorem putByte_jcmd (s : State) (key : Nat) (b : Byte) : (s.putByte key b).jcmd = s.jcmd := rfl
@[simp] theorem putByte_images (s : State) (key : Nat) (b : Byte) : (s.putByte key b).images = s.images := rfl
@[simp] theorem putByte_draining (s : State) (key : Nat) (b : Byte) : (s.putByte key b).draining = s.draining := rfl
@[simp] theorem putByte_jrecv (s : State) (key : Nat) (b : Byte) : (s.putByte key b).jrecv = s.jrecv := rfl
@[simp] theorem putByte_haulers (s : State) (key : Nat) (b : Byte) : (s.putByte key b).haulers = s.haulers := rfl
@[simp] theorem putByte_istore (s : State) (key : Nat) (b : Byte) : (s.putByte key b).istore = s.istore := rfl
@[simp] theorem putByte_pit (s : State) (key : Nat) (b : Byte) : (s.putByte key b).pit = s.pit := rfl
@[simp] theorem putByte_pitBad (s : State) (key : Nat) (b : Byte) : (s.putByte key b).pitBad = s.pitBad := rfl
@[simp] theorem putByte_marchRuns (s : State) (key : Nat) (b : Byte) : (s.putByte key b).marchRuns = s.marchRuns := rfl
@[simp] theorem putByte_loadRuns (s : State) (key : Nat) (b : Byte) : (s.putByte key b).loadRuns = s.loadRuns := rfl
@[simp] theorem putByte_links (s : State) (key : Nat) (b : Byte) : (s.putByte key b).links = s.links := rfl
@[simp] theorem putByte_couplings (s : State) (key : Nat) (b : Byte) : (s.putByte key b).couplings = s.couplings := rfl
@[simp] theorem putByte_complex (s : State) (key : Nat) (b : Byte) : (s.putByte key b).complex = s.complex := rfl
@[simp] theorem putByte_engines (s : State) (key : Nat) (b : Byte) : (s.putByte key b).engines = s.engines := rfl
@[simp] theorem putByte_drbg (s : State) (key : Nat) (b : Byte) : (s.putByte key b).drbg = s.drbg := rfl
@[simp] theorem putByte_entropy (s : State) (key : Nat) (b : Byte) : (s.putByte key b).entropy = s.entropy := rfl
@[simp] theorem putByte_attLog (s : State) (key : Nat) (b : Byte) : (s.putByte key b).attLog = s.attLog := rfl
@[simp] theorem putByte_att (s : State) (key : Nat) (b : Byte) : (s.putByte key b).att = s.att := rfl
@[simp] theorem putByte_staging (s : State) (key : Nat) (b : Byte) : (s.putByte key b).staging = s.staging := rfl
@[simp] theorem putByte_active (s : State) (key : Nat) (b : Byte) : (s.putByte key b).active = s.active := rfl
@[simp] theorem putByte_patches (s : State) (key : Nat) (b : Byte) : (s.putByte key b).patches = s.patches := rfl
@[simp] theorem putByte_patchDue (s : State) (key : Nat) (b : Byte) : (s.putByte key b).patchDue = s.patchDue := rfl
@[simp] theorem putByte_patchRuns (s : State) (key : Nat) (b : Byte) : (s.putByte key b).patchRuns = s.patchRuns := rfl
@[simp] theorem putByte_mcsRun (s : State) (key : Nat) (b : Byte) : (s.putByte key b).mcsRun = s.mcsRun := rfl
@[simp] theorem putByte_mcsPending (s : State) (key : Nat) (b : Byte) : (s.putByte key b).mcsPending = s.mcsPending := rfl
@[simp] theorem putByte_ckwRuns (s : State) (key : Nat) (b : Byte) : (s.putByte key b).ckwRuns = s.ckwRuns := rfl
@[simp] theorem putByte_trainRuns (s : State) (key : Nat) (b : Byte) : (s.putByte key b).trainRuns = s.trainRuns := rfl
@[simp] theorem putByte_timingOk (s : State) (key : Nat) (b : Byte) : (s.putByte key b).timingOk = s.timingOk := rfl
@[simp] theorem putByte_stewards (s : State) (key : Nat) (b : Byte) : (s.putByte key b).stewards = s.stewards := rfl
@[simp] theorem putByte_cubePend (s : State) (key : Nat) (b : Byte) : (s.putByte key b).cubePend = s.cubePend := rfl
@[simp] theorem putByte_leaseEnd (s : State) (key : Nat) (b : Byte) : (s.putByte key b).leaseEnd = s.leaseEnd := rfl
@[simp] theorem putByte_leaseLen (s : State) (key : Nat) (b : Byte) : (s.putByte key b).leaseLen = s.leaseLen := rfl
@[simp] theorem putByte_power (s : State) (key : Nat) (b : Byte) : (s.putByte key b).power = s.power := rfl
@[simp] theorem putByte_tap (s : State) (key : Nat) (b : Byte) : (s.putByte key b).tap = s.tap := rfl

end Sys2Proof.Machine
end

