-- ==== Sys2Proof/Tests/Slice0.lean ====
section
/-! SUPPORT. Tests: ill-formed commands are refused, single steps on small states have the results that the spec gives, and every
statement's premises can be met. -/

open Sys2Proof Sys2Proof.Machine

namespace Sys2Proof.Tests

set_option Elab.async false

/-! ### Small states -/

/-- Units put into state run. -/
def powered (l : List UnitId) (s : State) : State := State.each l (fun u s => s.setUnit u { s.unit u with power := .run }) s

/-- Memory channel 0 serves granule 0: the first 64 KiB. -/
def served (s : State) : State :=
  ((powered [uTile 0, uIoDie 0, uMem 0, uHome 0, uCore 0] s).wr (uMem 0) Reg.MEM_CFG.DEVICES 1).wr (uMem 0) Reg.MEM_TRAIN.TRAINED 1

/-- Core 0 runs work unit 1 of seam 0 at address 0x1000, in supervisor state without translation. -/
def base : State :=
  let s := (served State.reset).setWork 1 { WorkUnit.none with seam := 0, run := .running 0, desc := 0x2000, area := 0x3000 }
  { s.setCore 0 { s.core 0 with role := .active, wu := some 1, arch := { (s.core 0).arch with ia := 0x1000, sw := 0x4020000000000000 } } with patchDue := [] }

/-- General registers of core 0. -/
def withG (l : List (BitVec 5 × Word)) (s : State) : State := l.foldl (fun s p => s.setArch 0 ((s.arch 0).setG p.1 p.2)) s

/-- Floating registers of core 0. -/
def withF (l : List (BitVec 5 × Word)) (s : State) : State := l.foldl (fun s p => s.setArch 0 ((s.arch 0).setF p.1 p.2)) s

/-- The state that a command leaves. -/
def after (c : Instr) (s : State) : State := match exec c s with | .next t => t | _ => State.reset

/-- A general register and CC of core 0 after a command. -/
def gcc (c : Instr) (s : State) (r : BitVec 5) : Word × Nat := (((after c s).arch 0).gr r, ((after c s).arch 0).cc)

/-! ### Well-formedness -/

theorem test_ill_formed_unit : (Instr.clrOwn (.steward 0) ⟨.core, 48⟩).wf = false := by decide
theorem test_well_formed_unit : (Instr.clrOwn (.steward 0) ⟨.core, 47⟩).wf = true := by decide
theorem test_ill_formed_peer : (Instr.faultReport uTally 1 (some ⟨.node, 7⟩) 0 false).wf = false := by decide
theorem test_ill_formed_register : (Instr.fmnPolicyWrite (.steward 0) 0x404 0).wf = false := by decide
theorem test_ill_formed_atomic : (Instr.rdxA 0 0 0 ⟨.swp, 126, 4, 0, 0⟩).wf = false := by decide
theorem test_ill_formed_hint : (Instr.hint (.l2 48) 0 0 false ⟨0, 0⟩).wf = false := by decide
theorem test_ill_formed_optional_hint : (Instr.iow uTally 0 0 0 0 (some (.l3 4))).wf = false := by decide

/-! ### Ezxis (worked by hand from the tables of R58-R122) -/

/-- R95: the sum wraps and CC is 3. -/
theorem test_add_overflow :
    gcc (.add 0 false 1 2 3) (withG [(2, 0x7FFFFFFFFFFFFFFF), (3, 1)] base) 1 = (0x8000000000000000, 3) := by decide +kernel

/-- R94: the W form sign-extends its 32-bit result. -/
theorem test_add_word : gcc (.add 0 true 1 2 3) (withG [(2, 0x7FFFFFFF), (3, 1)] base) 1 = (0xFFFFFFFF80000000, 3) := by decide +kernel

/-- R95: division truncates toward zero; the remainder has the sign of the dividend. -/
theorem test_div_remainder :
    gcc (.div 0 false 4 2 3) (withG [(2, 0xFFFFFFFFFFFFFFF9), (3, 2)] base) 5 = (0xFFFFFFFFFFFFFFFF, 1) := by decide +kernel

/-- R96: a shift by 64 leaves 0. -/
theorem test_sll_full : (gcc (.sll 0 false 1 2 3) (withG [(1, 7), (2, 1), (3, 64)] base) 1).1 = 0 := by decide +kernel

/-- R58, R59: LB sign-extends the byte at base plus displacement. -/
theorem test_lb_sign :
    (gcc (.lb 0 1 (.d4 2 3)) (withG [(2, 0x2000)] (base.agentWrite 0 0x2003 [0x80]).1) 1).1 = 0xFFFFFFFFFFFFFF80 := by decide +kernel

/-- R121, R126: STD adds its eight bytes, most significant first, to the stores of the group. -/
theorem test_std_bytes :
    ((after (.std 0 1 (.d4 2 0)) (withG [(1, 0x0102030405060708), (2, 0x2000)] base)).core 0).group.stores.map (fun b => (b.phys, b.bytes))
      = [(0x2000, [1, 2, 3, 4, 5, 6, 7, 8])] := by decide +kernel

/-- R60: a branch goes to IA plus twice its offset. -/
theorem test_bc_taken : ((after (.bc 0 0xF 4) base).arch 0).ia = 0x1008 := by decide +kernel

/-- R74, R75: an access exception enters at IVBASE plus 0x100; OLDIA is the failing instruction, XADDR the address. -/
theorem test_access_exception :
    let a := (after (.ld 0 1 (.d4 2 0)) (withG [(2, 0x20000)] base)).arch 0
    (a.ia, a.c 10, a.c 13) = (0x100, 0x1000, 0x20000) := by decide +kernel

/-- R103, R104: decimal64 1 + 1 = 2 (bias 398, leading digit 0). -/
theorem test_dadd :
    ((after (.dadd 0 false 1 2 2) (withF [(2, 0x2238000000000001)] base)).arch 0).fr 1 = 0x2238000000000002 := by decide +kernel

/-- R101, R107: 1 + 2^-53 is a tie, which goes to the even 1, and is inexact. -/
theorem test_fadd_tie :
    let a := (after (.fadd 0 1 2 3) (withF [(2, 0x3FF0000000000000), (3, 0x3CA0000000000000)] base)).arch 0
    (a.fr 1, a.fpc.field 8 15) = (0x3FF0000000000000, 0x08) := by decide +kernel

/-- R122: CSWP that compares equal delivers the old value with CC 0. -/
theorem test_cswp :
    gcc (.cswp 0 true 1 2 3) (withG [(1, 0), (2, 0x2000), (3, 9)] base) 1 = (0, 0) := by decide +kernel

/-! ### Encodings, written out from R54-R58, R60 and R350-R352 -/

/-- T4: 0x32 in bits 0:7, r1 4, r2 5, r3 0, extended opcode 0x010. P2: 0x21 in bits 0:5 and the code; 0x24, bit 6, the mask and r2.
D4: 0x46, r1 3, base 7, displacement 40. -/
theorem test_formats_core :
    ezxisAt 0 0x322140100000 = some (.issue 0 4 5 0) ∧ ezxisAt 0 0x841100000000 = some (.svc 0 17) ∧
      ezxisAt 0 0x91FF00000000 = some (.brr 0 false 15 31) ∧ ezxisAt 0 0x4619C0280000 = some (.ld 0 3 (.d4 7 40)) ∧ ezxisAt 0 0 = none := by
  decide +kernel

/-- The worked example of spec/15_grecel_haulers_and_pits.md: LSET 0, 0x010F, 10; LD h4, [h1]+; and XORI h0 with a 16-bit immediate by
XPFX. -/
theorem test_formats_hauler :
    grecelAt 0x5200010F000A = some (none, .l 0 0x10F 10) ∧ grecelAt 0x308500000000 = some (none, .m 0x30 4 1 1 false 0) ∧
      grecelAt 0xF42700FFFF00 = some (none, .i 0x27 0 true 0xFFFF) ∧ grecelAt 0x050000000000 = none := by decide +kernel

/-! ### Haulers -/

/-- Hauler 0 runs at PC 0x40 with the given registers. -/
def hauler (h : List (Nat × Half)) (s : State) : State :=
  let s := (powered [uHauler 0] s).wr (uHauler 0) Reg.HLR_CTL.RUN 1
  s.setHauler 0 { s.hauler 0 with mode := .running, pc := 0x40, h := h.foldl (fun t p => t.put 0 p.1 p.2) [] }

/-- R351, R352: ADD sets carry and zero. -/
theorem test_hauler_add :
    let x := (after (.grecelAdd 0 none 1 2) (hauler [(1, 0xFFFF), (2, 1)] base)).hauler 0
    (x.reg 1, x.flags, x.pc) = (0, { n := false, z := true, c := true, v := false }, 0x42) := by decide +kernel

/-- R355: a load's result is seen two boundaries later. -/
theorem test_hauler_mul_distance :
    let s := after (.grecelMul 0 none 1 2) (hauler [(1, 3), (2, 5)] base)
    ((s.hauler 0).reg 1, ((after (.grecelNop 0 none) s).hauler 0).reg 1) = (3, 15) := by decide +kernel

/-- R355, R357: the instruction after a jump is its delay slot. -/
theorem test_hauler_jump :
    let s := after (.jmp 0 none 0x200) (hauler [] base)
    ((s.hauler 0).pc, ((after (.grecelNop 0 none) s).hauler 0).pc) = (0x43, 0x200) := by decide +kernel

/-! ### Pages, cube and fence -/

/-- Steward 0 holds the cube. -/
def held (s : State) : State := (powered [uSteward 0, uSteward 1] s).wr uCube Reg.CUBE_STAT.HOLDER 0

/-- R433: a steward that does not hold the cube is rejected, and counted. -/
theorem test_fence_rejects :
    (after (.registerWrite (.steward 1) uTally 0x100 (some 1)) (held base)).rd uCube Reg.CUBE_REJ.REJ1 = 1 := by decide +kernel

/-- R431: a request and a grant make steward 1 the holder, in generation 1. -/
theorem test_cube_grant :
    let s := after .cubeGrant (after (.request 1) (powered [uSteward 0, uSteward 1] base))
    (s.holder, s.rd uCube Reg.CUBE_STAT.GEN) = (some 1, 1) := by decide +kernel

/-! ### Coherence and memory -/

/-- R175: a read of a line that no tile holds is granted exclusive. -/
theorem test_rds_exclusive : (after (.rds 0 0x40 0) base).msgs.map Msg.kind = [.dataE] := by decide +kernel

/-- R287: a masked write of a channel changes the selected bytes alone. -/
theorem test_channel_write :
    let s := after (.channelWrite 0 0x40 (1#128 <<< 127) ((0xAB#1024) <<< 1016) 0) base
    (s.byteAt 0x2000, s.byteAt 0x2001) = (0xAB, 0) := by decide +kernel

/-! ### Seams, exchanges, links and the journal -/

/-- R257: CREATE with a map table outside the reserved granules ends with 0x0A. -/
theorem test_seam_create_refused :
    (after .seamCmdDone (after (.create (.steward 0) 5) (held base))).rd uSeamCtl Reg.SEAM_CMD.RESULT = 0x0A := by decide +kernel

/-- R315: a late transfer is discarded and counted. -/
theorem test_late_discard : (after (.lateDiscard 1) base).rd (uCtx 1) Reg.CHS_COUNT3.LATE_DISCARD = 1 := by decide +kernel

/-- R327: CRC-32 has the polynomial of IEEE 802.3; its check value of "123456789" is 0xCBF43926. -/
theorem test_crc32 : crc32 [0x31, 0x32, 0x33, 0x34, 0x35, 0x36, 0x37, 0x38, 0x39] = 0xCBF43926 := by decide +kernel

/-- R414: a stored block of three bytes. -/
theorem test_inflate_stored :
    (inflateRaw [] [1, 3, 0, 0xFC, 0xFF, 0x61, 0x62, 0x63] 16).toOption = some ([0x61, 0x62, 0x63], 8) := by decide +kernel

/-! ### Faults, Tally, power -/

/-- R464: an event record takes the next sequence number and waits in the buffer. -/
theorem test_tally_write :
    let s := (held base).wr uTally Reg.TLY_WRITE.RESULT 0
    let t := after (.tlyWrite (.steward 0) 0x8001 0) s
    (t.rd uTally Reg.TLY_WRITE.RESULT, t.tallyBuf.length) = (1, s.tallyBuf.length + 1) := by decide +kernel

/-- R503: IDCODE is shifted out. -/
theorem test_idcode : (after .idcode base).tap.dr = 0x27240A5B := by decide +kernel

/-- R474: the module does not start on too low an input. -/
theorem test_power_on_low :
    after (.powerOn 9500 false) { base with power := { base.power with mode := .off } } =
      { base with power := { base.power with mode := .off } } := by decide +kernel

/-- A command is taken from the front of the queue. -/
theorem test_step_takes_front :
    (match step { base with pending := [.idcode, .trstNLow] } with | .next t => t.pending | _ => []) = [.trstNLow] := by decide +kernel

/-! ### The premises of the statements can be met -/

/-- A load of `n` bytes finds memory. -/
def loadable (s : State) (k : Fin 48) (f : AddrForm) (n : Nat) : Bool :=
  match (s.found k f.length).address f with
  | none => false
  | some ea => match (s.fetched k f.length).reachAll k ea n .load with
    | (_, .error _) => false
    | (u, .ok ps) =>
      let w := if (memoryPieces ps).any fun p => (u.core k).meetsStores p.1 p.2 then u.settleEarlier k else u
      (devicePlace ps).isNone && w.holdsWork k && (match w.loadPieces k ea ps with | (_, .ok _) => true | _ => false)

theorem reads_of_loadable {s : State} {k : Fin 48} {n : Nat} {f : AddrForm} (hr : Ready s k f.length) (h : loadable s k f n = true) :
    ∃ v bytes, LoadReads s k f n v bytes := by
  unfold loadable at h
  split at h
  · simp at h
  · next ea ha =>
    split at h
    · simp at h
    · next u ps hp =>
      simp only [Bool.and_eq_true, Option.isNone_iff_eq_none] at h
      obtain ⟨⟨hd, hw⟩, hl⟩ := h
      split at hl
      · next v bytes e => exact ⟨v, bytes, hr, ea, u, ps, ha, hp, hd, hw, e⟩
      · simp at hl

/-- A store of `n` bytes reaches memory. -/
def storable (s : State) (k : Fin 48) (f : AddrForm) (n : Nat) : Bool :=
  match (s.found k f.length).address f with
  | none => false
  | some ea => match ((s.fetched k f.length).barsEnd k).reachAll k ea n .store with
    | (_, .error _) => false
    | (_, .ok ps) => (devicePlace ps).isNone

theorem reaches_of_storable {s : State} {k : Fin 48} {n : Nat} {f : AddrForm} (hr : Ready s k f.length) (h : storable s k f n = true) :
    ∃ u ps, StoreReaches s k f n u ps := by
  unfold storable at h
  split at h
  · simp at h
  · next ea ha =>
    split at h
    · simp at h
    · next u ps hp => exact ⟨u, ps, hr, ea, ha, hp, by simpa using h⟩

/-- The core may go on to perform an instruction outside it. -/
theorem performs_of {w : State} {k : Fin 48} (h : ((w.microcode k).settleAll k).holdsWork k = true) : ∃ u, PerformsFrom w u k := ⟨_, rfl, h⟩

theorem ready2 : Ready base 0 2 := by unfold Ready State.hasPower; decide +kernel
theorem ready4 : Ready base 0 4 := by unfold Ready State.hasPower; decide +kernel
theorem ready6 : Ready base 0 6 := by unfold Ready State.hasPower; decide +kernel

/-- Both corners of division and an ordinary one. -/
theorem test_witness_integer :
    let s := withG [(2, 0x8000000000000000), (3, 0xFFFFFFFFFFFFFFFF), (6, 1)] base
    (Ready s 0 4) ∧ isEven 30 = true ∧ isEven 31 = false ∧
      srcS false ((s.found 0 4).gr 0) = 0 ∧ srcU false ((s.found 0 4).gr 0) = 0 ∧ srcU false ((s.found 0 4).gr 6) ≠ 0 ∧
      srcS false ((s.found 0 4).gr 2) = -(2 ^ (widthOf false - 1) : Int) ∧ srcS false ((s.found 0 4).gr 3) = -1 ∧
      srcS false ((s.found 0 4).gr 6) ≠ 0 := by unfold Ready State.hasPower; decide +kernel

theorem test_witness_immediates :
    Ready base 0 (AddrForm.d4 2 1).length ∧ ((base.found 0 4).address (.d4 2 1)).isSome = true ∧ Ready base 0 (AddrForm.x6 1 2 0 1).length ∧
      (base.found 0 6).address (.x6 1 2 0 1) = none := by unfold Ready State.hasPower; decide +kernel

theorem test_witness_branches :
    let s := withG [(2, 1)] base
    Ready s 0 2 ∧ maskTakes 8 (s.found 0 4).cc = true ∧ maskTakes 7 (s.found 0 4).cc = false ∧
      (branchTarget (s.found 0 4).ia (0xFFFF : BitVec 16)).getLsbD 0 = false ∧
      (branchTarget (s.found 0 6).ia (0x7FFFFFFF : BitVec 32)).getLsbD 0 = false ∧
      ((s.found 0 2).gr 2).getLsbD 0 = true ∧ ((s.found 0 2).gr 3).getLsbD 0 = false := by unfold Ready State.hasPower; decide +kernel

theorem test_witness_loads : ∀ n ∈ [1, 2, 4, 8, 16], ∃ v bytes, LoadReads base 0 (.d4 2 0x1010) n v bytes := by
  intro n hn
  refine reads_of_loadable (k := 0) ready4 ?_
  revert n; decide +kernel

/-- No enabled exception traps in the conversion of LF32. -/
def quietLoad (s : State) (k : Fin 48) (f : AddrForm) : Bool :=
  match (s.found k f.length).address f with
  | none => false
  | some ea => match (s.fetched k f.length).reachAll k ea 4 .load with
    | (_, .error _) => false
    | (u, .ok ps) =>
      let w := if (memoryPieces ps).any fun p => (u.core k).meetsStores p.1 p.2 then u.settleEarlier k else u
      match w.loadPieces k ea ps with
      | (v, .ok bytes) => (trapCause (v.arch k) (fromB32 (beNat bytes)).2).isNone
      | _ => false

theorem quiet_of_quietLoad {s : State} {k : Fin 48} {f : AddrForm} (h : quietLoad s k f = true) :
    ∀ v bytes, LoadReads s k f 4 v bytes → trapCause (v.arch k) (fromB32 (beNat bytes)).2 = none := by
  intro v bytes hl
  obtain ⟨-, ea, u, ps, ha, hr, -, -, hp⟩ := hl
  simp only [quietLoad, ha, hr, hp, Option.isNone_iff_eq_none] at h
  exact h

theorem test_witness_load_short : ∀ v bytes, LoadReads base 0 (.d4 2 0x1010) 4 v bytes → trapCause (v.arch 0) (fromB32 (beNat bytes)).2 = none :=
  quiet_of_quietLoad (s := base) (k := 0) (f := .d4 2 0x1010) (by decide +kernel)

theorem test_witness_stores : ∀ n ∈ [1, 2, 4, 8, 16], ∃ u ps, StoreReaches base 0 (.x6 0 2 3 0x2000) n u ps := by
  intro n hn
  refine reaches_of_storable (k := 0) ready6 ?_
  revert n; decide +kernel

/-- One divided by zero: without a trap, and with EN_Z set. -/
theorem test_witness_binary :
    let s := withF [(2, 0x3FF0000000000000)] base
    let t := s.setArch 0 { s.arch 0 with fpc := 0xFF00000000000000 }
    Ready s 0 4 ∧ Ready t 0 4 ∧ trapCause (s.arch 0) (fDiv .rne (b64 ((s.arch 0).fr 2)) (b64 ((s.arch 0).fr 3))).2 = none ∧
      (trapCause (t.arch 0) (fDiv .rne (b64 ((s.arch 0).fr 2)) (b64 ((s.arch 0).fr 3))).2).isSome = true ∧
      fpcValid ((s.found 0 4).gr 1) = true ∧ fpcValid ((withG [(1, 0xFFFFFFFFFFFFFFFF)] base).arch 0 |>.gr 1) = false := by
  unfold Ready State.hasPower; decide +kernel

theorem test_witness_decimal :
    let s := withF [(2, 0x2238000000000001)] base
    let t := s.setArch 0 { s.arch 0 with fpc := 0xFF00000000000000 }
    let r (a : Arch) : Raised := (dDiv DWidth.d64.format .rne (a.fd false 2) (a.fd false 4)).2
    Ready s 0 4 ∧ Ready t 0 4 ∧ pairsOk true [1, 2, 4] = false ∧ pairsOk true [0, 2, 4] = true ∧ trapCause (s.arch 0) (r (s.arch 0)) = none ∧
      (trapCause (t.arch 0) (r (t.arch 0))).isSome = true ∧ ((s.fetched 0 4).microcode 0).holdsWork 0 = true := by
  unfold Ready State.hasPower; decide +kernel

/-- Registers that a return and each form of LSW, LCTL and PTLB take as they are, or refuse. -/
def system : State :=
  let s := withG [(2, 0x0020000000000000), (3, 0xFFFFFFFFFFFFFFFF)] base
  s.setArch 0 ((s.arch 0).setC 11 0x0020000000000000)

/-- Core 0 runs work unit 1 of seam 5, which owns granule 0 and no other, with its state area elsewhere, and has a store of the seam to
another granule buffered under a BARS. -/
def intruding : State :=
  let s := (base.agentWrite 0 0 [0x80, 0, 0, 0]).1
  let s := (s.setWork 1 { s.work 1 with seam := 5, area := 0x30000 }).wr uSeamCtl (Reg.SEAM_GRAN.LIMIT.ix 5) 1
  let s : State := { s.wr uSeamCtl (Reg.SEAM_STATE.STATE.ix 5) 1 with owners := s.owners.put 0x80 0 5 }
  let c := s.core 0
  s.setCore 0 { c with bars := true, storeBuf := [{ phys := 0x20000, mt := .normal, bytes := [1], seam := 5, stream := false }] }

/-- RDTB and ISYNC after a BARS, and BARF: the store that they wait for is refused, and the seam's checkstop takes the work unit off. -/
theorem test_witness_system_lost :
    Ready intruding 0 4 ∧ ((intruding.fetched 0 4).barsEnd 0).holdsWork 0 = false ∧
      (((intruding.fetched 0 4).stage1 0).settleAll 0).holdsWork 0 = false := by unfold Ready State.hasPower; decide +kernel

theorem test_witness_system_barriers :
    ((base.fetched 0 4).barsEnd 0).holdsWork 0 = true ∧ ((base.fetched 0 4).stage1 0).holdsWork 0 = true ∧
      (((base.fetched 0 4).stage1 0).settleAll 0).holdsWork 0 = true ∧ ezxisAt 0 0 = none ∧
      (ezxisAt 0 0x322140100000).isSome = true ∧ Ready base 0 (lengthOf (Fetched.first 0)) := by
  unfold Ready State.hasPower; decide +kernel

theorem test_witness_system_ready : Ready system 0 4 ∧ Ready system 0 2 ∧ Ready system 0 (lengthOf 0xFF) := by
  unfold Ready State.hasPower; decide +kernel

theorem test_witness_system_operands :
    let a := system.found 0 4
    a.problem = false ∧ swValid (a.gr 2) = true ∧ swValid (a.gr 1) = false ∧ a.returned.isSome = true ∧ (base.found 0 4).returned = none ∧
      crNamed 31 = true ∧ crNamed 9 = false ∧ a.gr 3 &&& crMustZero 31 ≠ 0 ∧ a.gr 3 &&& crMustZero 16 = 0 ∧ (a.gr 3).field 62 63 = 3 ∧
      (a.gr 1).field 62 63 ≠ 3 ∧ (((system.fetched 0 4).microcode 0).settleAll 0).holdsWork 0 = true := by decide +kernel

theorem test_witness_privilege :
    let s := base.setArch 0 { base.arch 0 with sw := 0x0020000000000000 }
    Ready s 0 4 ∧ (s.found 0 4).problem = true ∧ Ready base 0 4 ∧ (base.found 0 4).problem = false ∧ (base.fetched 0 4).seamOf 0 = 0 := by
  unfold Ready State.hasPower; decide +kernel

/-- Core 0 with the operands of I/O and work-unit instructions: g1 a subchannel or a WAIT condition, g2 an address of a program or a
descriptor. -/
def working (g1 g2 : Word) : State := withG [(1, g1), (2, g2)] ((powered [uForeman] base).wr uSeamCtl (Reg.SEAM_SCH.COUNT.ix 0) 8)

theorem test_witness_io :
    let s := working 3 0x2100
    let w := s.fetched 0 4
    let a := s.found 0 4
    a.problem = false ∧ (a.gr 1).field 0 45 = 0 ∧ (a.gr 2).toNat % 16 = 0 ∧ ((w.microcode 0).settleAll 0).holdsWork 0 = true ∧
      (((w.microcode 0).settleAll 0).testSch 0 3).2.1 ≠ 0 ∧ w.operates uForeman = true ∧ w.pendingFor 0 = none ∧
      (((w.microcode 0).settleAll 0).core 0).wu = some 1 ∧ (a.gr 1).toNat % 256 = 3 ∧ (a.gr 2).field 0 60 ≠ 0 ∧
      (match w.reach 0 (a.gr 2) .load with
        | (w', .ok r) => (((w'.markReached 0 r .load).microcode 0).settleAll 0).holdsWork 0 && w'.operates uForeman && r.place == .memory 0x2100 .normal
        | _ => false) = true := by decide +kernel

/-- ENQW with a descriptor on a 256-byte boundary and priority 1. -/
theorem test_witness_enqw :
    let s := working 0x2100 1
    (((s.found 0 4).gr 1).toNat % 256 = 0 ∧ ((s.found 0 4).gr 2).field 0 60 = 0) ∧
      (match (s.fetched 0 4).reach 0 0x2100 .load with
        | (w', .ok r) => (((w'.markReached 0 r .load).microcode 0).settleAll 0).holdsWork 0 && w'.operates uForeman
            && r.place == .memory 0x2100 .normal
        | _ => false) = true := by decide +kernel

/-- A pending exchange answers TEST with CC 0. -/
theorem test_witness_test_pending :
    let s := (working 3 0).setExch (exKey 0 0) { (working 3 0).exch (exKey 0 0) with st := .pending, sch := 3 }
    let w := ((s.fetched 0 4).microcode 0).settleAll 0
    (w.testSch 0 3).2.1 = 0 := by decide +kernel

/-- WAIT on a deadline in the past ends at once; on one ahead it suspends. -/
theorem test_witness_wait :
    ((working 0x0200000000000000 0).waitTest 0 2 0 0).2 = some 1 ∧ ((working 0x0200000000000000 9).waitTest 0 2 0 9).2 = none := by
  decide +kernel

theorem test_witness_atomics :
    let s := withG [(2, 0x2004), (3, 5)] base
    let r := (s.fetched 0 4).reach 0 0x2004 .store
    ((s.found 0 4).gr 2).toNat % (widthOf false / 8) ≠ 0 ∧ ((s.found 0 4).gr 2).toNat % (widthOf true / 8) = 0 ∧
      (match r with
        | (u, .ok q) =>
          let v := ((u.markReached 0 q .store).microcode 0).settleAll 0
          q.place == .memory 0x2004 .normal && v.holdsWork 0 &&
            (match v.atomicCached 0 0x40 0 { op := .ladd, off := 4, size := 4, cmp := 0, val := 5 } 0x2004 with
              | (_, .ok old) => old == 0
              | _ => false)
        | _ => false) = true := by decide +kernel

/-- An atomic on a device page. -/
theorem test_witness_atomic_device :
    (match (base.fetched 0 4).reach 0 0x080000000000 .store with | (_, .ok r) => r.place.isDevice | _ => false) = true := by decide +kernel

theorem test_witness_atomic_line : (8 = 4 ∨ 8 = 8) ∧ 120 % 8 = 0 ∧ 120 + 8 ≤ 128 := by decide

theorem test_witness_maintenance :
    let s := withG [(2, 0x2000), (3, 0x100)] base
    let w := s.fetched 0 4
    Ready s 0 4 ∧ (s.found 0 4).problem = false ∧ (w.settleEarlier 0).holdsWork 0 = true ∧
      (match w.reach 0 0x2000 (MaintOp.acc .clean) with
        | (_, .ok r) => r.place == .memory 0x2000 .normal
        | _ => false) = true ∧
      (w.settleEarlier 0).ownerAllows 0 0x40 = true ∧ ((w.settleEarlier 0).awaitLine 0x40).quiet 0x40 = true ∧
      (match State.maintRun 0 .clean true 4 (w.settleEarlier 0) { addr := 0x2000, left := 0x100, page := false, locked := false } with
        | (_, .ok q) => q.left == 0
        | _ => false) = true := by unfold Ready State.hasPower; decide +kernel

theorem test_witness_set_way :
    base.seamOf 0 = 0 ∧ setWayOf 0 0x0300000000000F0F = none ∧ setWayOf 0 0x030000000FFF000F = some (.l2 0, 0xFFF, 15) ∧
      (base.way (.l2 0) 0xFFF 15).st = .i := by decide +kernel

/-- A way that holds a line which no transaction concerns. -/
theorem test_witness_set_way_held :
    let s := base.fillL2 0 0x40 .m ⟨0, 0⟩ 0 false
    (match s.findWay (.l2 0) 0x40 with
      | some w =>
        let v := s.awaitLine (s.way (.l2 0) ((CacheId.l2 0).setOf 0x40) w).line
        (s.way (.l2 0) ((CacheId.l2 0).setOf 0x40) w).st == .m && (v.way (.l2 0) ((CacheId.l2 0).setOf 0x40) w).st == .m
          && v.quiet (v.way (.l2 0) ((CacheId.l2 0).setOf 0x40) w).line
      | none => false) = true := by decide +kernel

theorem test_witness_hauler_computing :
    HaulerReady (hauler [(1, 0x8000)] base) 0 none .plain ∧ HaulerReady (hauler [] base) 0 (some 1) .plain := by
  unfold HaulerReady State.hasPower; decide +kernel

theorem test_witness_hauler_memory :
    let s := hauler [] base
    let t : State := { s with pitBad := s.pitBad.put false (pitKey 0 0x100) true }
    HaulerReady s 0 none .plain ∧ s.pitIsBad 0 0xFFFF = false ∧ HaulerReady t 0 none .plain ∧ t.pitIsBad 0 0x100 = true ∧
      ((s.cycled 0).portRead 0 0x40).2.isSome = true ∧ ((s.cycled 0).portRead 0 0xFFFF).2 = none ∧
      ((s.cycled 0).portWrite 0 0x40 1).2 = true ∧ ((s.cycled 0).portWrite 0 0xFFFF 1).2 = false := by
  unfold HaulerReady State.hasPower; decide +kernel

theorem test_witness_hauler_control :
    let s := hauler [] base
    let x := s.hauler 0
    let e := s.setHauler 0 { x with evtMisc := 1, maskMisc := 1 }
    let w := e.setHauler 0 { e.hauler 0 with mode := .wfe }
    let d := s.setHauler 0 { x with delay := some none }
    HaulerReady s 0 none .branch ∧ HaulerReady s 0 none .plain ∧ HaulerReady s 0 none .lset ∧
      (x.evtDma &&& x.maskDma = 0 ∧ x.evtMisc &&& x.maskMisc = 0) ∧ HaulerReady e 0 none .plain ∧
      (e.hauler 0).evtMisc &&& (e.hauler 0).maskMisc ≠ 0 ∧ (w.hauler 0).mode = .wfe ∧ mtsDistance 0x10 = some 1 ∧ mtsDistance 0xFF = none ∧
      ((s.cycled 0).specRead 0 0x11).isSome = true ∧ (s.cycled 0).specRead 0 0xFF = none ∧
      d.haulerRuns 0 = true ∧ (d.hauler 0).delay.isSome = true := by
  unfold HaulerReady State.hasPower; decide +kernel

theorem test_witness_conditioned_out :
    let s := hauler [] base
    s.power.mode ≠ .off ∧ s.haulerRuns 0 = true ∧ condHolds (s.hauler 0).flags 0 = false ∧ (s.hauler 0).ruleBroken .plain = none ∧
      (s.hauler 0).ruleBroken .branch = none := by decide +kernel

theorem test_witness_hauler_distances : (15 < 16 ∧ 0 < 16 ∧ 0 ≠ 15) ∧ Hauler.reset.late = [] := by decide

theorem test_witness_hauler_trap :
    let s := hauler [] base
    let d := s.setHauler 0 { s.hauler 0 with delay := some (some 0x80) }
    let t := s.trapHauler 0 4 2
    (s.hauler 0).trapped = false ∧ (s.hauler 0).delay = none ∧ (d.hauler 0).trapped = false ∧ (d.hauler 0).delay = some (some 0x80) ∧
      (t.hauler 0).trapped = true ∧ 4 < 256 := by decide +kernel

/-- Steward 0 holds the cube, and the units of the service die and of I/O die 0 run. -/
def served0 : State := held (powered [uHauler 0, uHauler 32] base)

theorem test_witness_hauler_commands :
    let s := served0
    let c := s.setHauler 0 { s.hauler 0 with mode := .clearing }
    let f := s.setHauler 0 { s.hauler 0 with mode := .clearing, after := .faulted }
    let o := s.setHauler 0 { s.hauler 0 with obctl := 0x4000 }
    let b : Sender := .steward 0
    Admits s b (uHauler 0) 0x080 ∧ Admits s b (uHauler 0) 0x100 ∧ Admits s b (uHauler 0) 0x108 ∧ s.haulerIdle 0 = true ∧
      (hauler [] s).haulerIdle 0 = false ∧ Admits (hauler [] s) b (uHauler 0) 0x100 ∧ (c.hauler 0).mode = .clearing ∧
      (c.hauler 0).after ≠ .faulted ∧ (f.hauler 0).after = .faulted ∧ hfield (o.hauler 0).obctl 1 1 = 1 ∧
      (s.hauler 0).tcmp ≤ s.timer 0 := by unfold Admits; decide +kernel

theorem test_witness_image_loads :
    let s := served0
    let r : LoadRun := { targets := 1, result := 1, gen := 1, digest := [], code := [] }
    let l : State := { s with loadRuns := s.loadRuns.put none 0 (some r) }
    Admits s (.steward 0) (uIoDie 0) 0x148 ∧ Admits s (.steward 0) (uIoDie 0) 0x100 ∧ l.loadRuns.look none 0 = some r ∧
      (l.loadRuns.look none 0).isSome = true ∧ s.marchRuns.look none 0 = none ∧ s.marchRefusal 0 1 0 0 63 ≠ 0 := by
  unfold Admits; decide +kernel

theorem test_witness_register_writes : (0x080 < 4096 ∧ 0xFF8 < 4096 ∧ 0x080 % 8 = 0 ∧ 0xFF8 % 8 = 0) ∧
    (rowsAt (pageRows uTally) Reg.TLY_WRITE.EVENT.off).length ≠ 0 := by decide +kernel

theorem test_witness_register_pages :
    let s := served0
    let p : Posted := { target := .memory 0x2000, bytes := [1], seam := 0 }
    let d := s.setCore 0 { s.core 0 with posted := [p, p] }
    Admits s (.steward 0) uTally 0x018 ∧ Admits s (.steward 0) uTally 0x080 ∧ Admits s (.steward 0) uTally 0x030 ∧
      (s.guardWrite (.steward 1) uTally 0x080).2 = .rejected ∧ (s.guardWrite (.steward 0) uTally 0x084).2 = .error ∧
      (fieldOfIndex uTally 1).isSome = true ∧ fieldOfIndex uTally 253 = none ∧ (d.core 0).posted[1]? = some p ∧
      ((d.core 0).posted.take 0).any (fun q => q.target.samePage p.target) = false := by unfold Admits; decide +kernel

theorem test_witness_fence :
    let s := served0
    s.holder ≠ some 1 ∧ ¬(uTally = uCube ∧ (0x030 : BitVec 12) = 0x098) ∧ uTally ≠ uSteward 1 ∧ base.holder = none ∧
      s.flag uCube Reg.CUBE_CFG.SEAM0_WR = false ∧ s.flag uModule Reg.CPL_CX.REMOTE_WR = false := by decide +kernel

theorem test_witness_remote_and_dma :
    let s := served0
    let c := s.setCpl 0 { s.cpl 0 with up := true }
    let r := c.wr uModule Reg.CPL_CX.REMOTE_WR 1
    let d := s.setHauler 0 { s.hauler 0 with dma := Table.put Dma.reset [] 0 { Dma.reset with busy := true } }
    (c.cplTake 0 ⟨0, 0, 0, 0, 0⟩ 3 1).2 = true ∧ (c.cplTake 0 ⟨1, 0, 0, 0, 0⟩ 3 1).2 = false ∧
      (c.cplTake 0 ⟨0, 0, 0, 0, 0⟩ 3 1).1.flag uModule Reg.CPL_CX.REMOTE_WR = false ∧
      (r.cplTake 0 ⟨0, 0, 0, 0, 0⟩ 3 1).1.flag uModule Reg.CPL_CX.REMOTE_WR = true ∧
      ((d.hauler 0).dmaAt 0).busy = true ∧ (d.hauler 0).mode ≠ .clearing ∧ hfield ((d.hauler 0).dmaAt 0).ctl 4 7 = 0 := by decide +kernel

theorem test_witness_unit_header :
    let s := served0
    let t := s.setUnit (uCore 0) { s.unit (uCore 0) with heldReset := true }
    let r := s.setUnit (uCore 0) { s.unit (uCore 0) with resetRoot := true, resetting := true }
    let p := s.setUnit (uHauler 0) { s.unit (uHauler 0) with transition := some (.off, 0) }
    let b : Sender := .steward 0
    Admits s b (uCore 0) 0x040 ∧ s.resetIgnored (uCore 0) = false ∧ s.inReset (uCore 0) = false ∧ (s.unit (uCore 0)).heldReset = false ∧
      s.copyHolds (uCore 0) = false ∧ (t.unit (uCore 0)).heldReset = true ∧ (r.unit (uCore 0)).resetRoot = true ∧
      (r.unit (uCore 0)).resetting = true ∧ ((uCore 0).ancestors.any fun a => (r.unit a).resetting) = false ∧
      Admits s b uModule 0x040 ∧ s.resetIgnored uModule = false ∧
      Admits s b (uCore 0) 0x048 ∧ ownPower UnitType.core = true ∧ (s.unit (uCore 0)).fenced = false ∧ s.mayPower (uCore 0) = true ∧
      (s.core 0).role ≠ .unassigned ∧ s.rd (uCore 0) Reg.UNIT_POWER.REQ = 2 ∧
      (p.unit (uHauler 0)).transition = some (.off, 0) ∧ p.inReset (uHauler 0) = false := by unfold Admits; decide +kernel

theorem test_witness_unit_owner :
    let s := served0
    let t := s.wr (uIoDie 0) Reg.UNIT_OWNER.OWNER 0xFF
    let f := t.setHauler 0 { t.hauler 0 with mode := .running }
    Admits s (.steward 0) (uHauler 0) 0x050 ∧ s.locked (uHauler 0) = false ∧ (uHauler 0).parent = some (uIoDie 0) ∧
      s.rd (uIoDie 0) Reg.UNIT_OWNER.OWNER ≠ 0xFF ∧ Admits t (.steward 0) (uHauler 0) 0x050 ∧
      t.rd (uIoDie 0) Reg.UNIT_OWNER.OWNER = 0xFF ∧ t.ownerFree 0 = true ∧ f.ownerFree 0 = false := by unfold Admits; decide +kernel

/-- Tile 0 has a transaction `tx` open for line 0x40, refused and sent again at time 0. -/
def opened (tx : TileTx) (s : State) : State :=
  s.addTileTx { tile := 0, line := 0x40, tx := tx, core := 0, seam := 0, way := none, atomic := none, since := 0, resendAt := some 0 }

/-- Core 0 holds line 0x40 in a state. -/
def holding (st : CState) (s : State) : State := s.fillL2 0 0x40 st ⟨0, 0⟩ 0 false

/-- A message of seam 7 about line 0x40 waits at its stop, where no slot is its seam's. -/
def waitingAt (kind : MsgKind) (src dst : Nat) (s : State) : State :=
  { s.wr uModule Reg.SHF_MODE.RESERVED 1 with
    msgs := [{ kind := kind, src := src, dst := dst, line := 0x40, data := none, flag := false, req := none, seam := 7, inserted := false }] }

/-- Fills in flight hold all 16 ways of the L2 set of line 0x40 in core 0. -/
def crowded (s : State) : State :=
  (List.range 16).foldl (fun s w => s.addTileTx { tile := 0, line := 0x1040 + 0x1000 * w, tx := .is, core := 0, seam := 0, way := some w,
                                                  atomic := none, since := 0, resendAt := none }) s

theorem test_witness_tile_states :
    base.tileTx 0 0x40 = none ∧ base.tileState 0 0x40 = .i ∧ base.tileCopy 0 0x40 = none ∧ (holding .s base).tileState 0 0x40 = .s ∧
      (holding .e base).tileState 0 0x40 = .e ∧ (holding .m base).tileState 0 0x40 = .m ∧ (holding .o base).tileState 0 0x40 = .o ∧
      ((holding .s base).tileCopy 0 0x40).isSome = true ∧ ((holding .s base).findWay (.l2 0) 0x40).isSome = true ∧
      ((holding .s base).findWay (.l2 1) 0x40).isSome = false ∧ (base.findWay (.l2e 0) 0x40).isSome = false ∧
      base.hasWay 0 0x40 0 = true ∧ (crowded base).hasWay 0 0x40 0 = false ∧
      ((base.setWay (.l2e 0) ((CacheId.l2e 0).setOf 0x40) 0 { line := 0x40, st := .m, data := ⟨0, 0⟩, seam := 0, stream := false }).findWay
        (.l2e 0) 0x40).isSome = true := by decide +kernel

/-- Messages to a tile: one that waits, one that arrives in each transient state, and one that arrives in each stable state. -/
theorem test_witness_snoops : ∀ tx ∈ [TileTx.is, .im, .sm, .om, .ci, .mi, .ii], ∀ kind ∈ [MsgKind.inv, .snpS, .snpSC, .snpX, .hint, .dataS,
    .dataE, .dataM, .gntX, .atmR, .wbAck, .retry],
    (opened tx base).blocked kind ((opened tx base).stopOf 0x40) 0 0x40 = false ∧
      (waitingAt kind (base.stopOf 0x40) 0 base).blocked kind ((waitingAt kind (base.stopOf 0x40) 0 base).stopOf 0x40) 0 0x40 = true ∧
      (((opened tx base).bring kind ((opened tx base).stopOf 0x40) 0 0x40).1.tileTx 0 0x40).map TileTrans.tx = some tx := by decide +kernel

theorem test_witness_snoops_stable : ∀ st ∈ [CState.s, .e, .o, .m], ∀ kind ∈ [MsgKind.inv, .snpS, .snpSC, .snpX],
    let u := ((holding st base).bring kind ((holding st base).stopOf 0x40) 0 0x40).1
    u.tileTx 0 0x40 = none ∧ u.tileState 0 0x40 = st := by decide +kernel

/-- Every way of the slice of line 0x40 in tile 1 is seam 7's. -/
def ways7 (s : State) : State :=
  let u := uL3 (8 + sliceOf 0x40)
  (s.setWord u Reg.L3_WAYOWN0.WAYOWN0.off 0x0707070707070707).setWord u Reg.L3_WAYOWN1.WAYOWN1.off 0x0707070707070707

/-- A dirty copy and a clean one that SnpX takes; data supplied before SnpS; and a Hint installed, and declined. -/
theorem test_witness_snoop_data :
    ((holding .m base).killOrKeep 0 0x40 false).2.1 = some ⟨0, 0⟩ ∧ ((holding .e base).killOrKeep 0 0x40 false).2.1 = none ∧
      (({ base with supplied := [(0, 0x40, ⟨0, 0⟩)] } : State).supplied.any fun x => x.1 == 0 && x.2.1 == 0x40) = true ∧
      (base.hintInstall (.l2 0) 0x40 0 .e ⟨0, 0⟩).2.isSome = true ∧ ((ways7 base).hintInstall (.l3 1) 0x40 0 .e ⟨0, 0⟩).2.isSome = false := by
  decide +kernel

theorem test_witness_tile_answers :
    let s : State := { opened .is base with now := 20000 }
    let a : AtomicReq := { op := .swp, off := 0, size := 8, cmp := 0, val := 1 }
    let m : State := base.addTileTx { tile := 0, line := 0x40, tx := .im, core := 0, seam := 0, way := none, atomic := some a, since := 0,
                                      resendAt := some 9 }
    ((s.tileTx 0 0x40).map fun x => (decide (x.since + 20000 ≤ s.now), x.resendAt)) = some (true, some 0) ∧
      ((m.bring .atmR (m.stopOf 0x40) 0 0x40).1.tileTx 0 0x40).map TileTrans.atomic = some (some a) ∧
      ((m.tileTx 0 0x40).map fun x => decide (m.now < 9) && x.resendAt == some 9) = some true ∧
      base.tileCopy 0 0x40 = none ∧ ((holding .s (opened .sm base)).tileCopy 0 0x40).isSome = true := by decide +kernel

/-- Cmp and IOData at an I/O agent: one that waits, and one that arrives with its data. -/
theorem test_witness_io_answers :
    let d := (uHauler 0).dieSlot
    let m : Msg := { kind := .ioData, src := base.stopOf 0x40, dst := d, line := 0x40, data := some ⟨0, 0⟩, flag := false, req := none,
                     seam := 0, inserted := true }
    let s : State := { base with msgs := [m] }
    s.blocked .ioData (s.stopOf 0x40) d 0x40 = false ∧ (s.bring .ioData (s.stopOf 0x40) d 0x40).2 = some m ∧
      (waitingAt .cmp (base.stopOf 0x40) d base).blocked .cmp (base.stopOf 0x40) d 0x40 = true ∧
      base.blocked .cmp (base.stopOf 0x40) d 0x40 = false := by decide +kernel

theorem test_witness_home_requests :
    let s := base
    let r := tileRequest 0 .rds 0x40 0
    let b := s.homeTake 0 r
    let f : State := { b with homeQueue := List.replicate 128 r }
    let q := s.bring .rds 0 (s.stopOf 0x40) 0x40
    base.homeAgent 0x1000000 = none ∧ q.1.homeAgent (msgReq q.2 r).line = some 0 ∧ s.ownerAllows 0 0x40 = true ∧
      s.homeBusy 0x40 = false ∧ b.homeBusy 0x40 = true ∧ b.queueRoom 0 0 = true ∧ f.queueRoom 0 0 = false ∧ f.homeBusy 0x40 = true ∧
      s.ownerAllows 5 0x40 = false ∧ (∀ kind ∈ [MsgKind.rds, .rdx, .rdxA, .upg, .mnt, .ior, .iow],
        s.blocked kind 0 (s.stopOf 0x40) 0x40 = false ∧
          (waitingAt kind 0 (s.stopOf 0x40) s).blocked kind 0 ((waitingAt kind 0 (s.stopOf 0x40) s).stopOf 0x40) 0x40 = true) := by
  decide +kernel

/-- The home agent of line 0x40 has a transaction open. -/
def homeOpen (tx : HomeTx) (rec_ : Bool) (dirty : Option LineData) (s : State) : State :=
  let t := s.openHomeTx 0 0x40 tx (tileRequest 0 .rdx 0x40 0) []
  match t.homeTx 0x40 with
  | some h => t.setHomeTx { h with recorded := rec_, dirty := dirty, asked := tileBit 0, tookWb := false }
  | none => t

theorem test_witness_home_answers : ∀ tx ∈ [HomeTx.wr, .wx, .ww, .wh, .wv, .wa], ∀ kind ∈ [MsgKind.invAck, .snpAck, .snpD, .hintAck, .hintDecl, .done],
    ∀ rec_ ∈ [true, false], ∀ d ∈ [none, some (⟨0, 0⟩ : LineData)],
    let s := homeOpen tx rec_ d base
    ((s.bring kind 0 (s.stopOf 0x40) 0x40).1.homeTx 0x40).map (fun h => (h.tx, h.recorded, h.dirty)) = some (tx, rec_, d) ∧
      s.blocked kind 0 (s.stopOf 0x40) 0x40 = false := by decide +kernel

theorem test_witness_home_wait : ∀ kind ∈ [MsgKind.invAck, .snpAck, .snpD, .hintAck, .hintDecl, .done, .wb, .evc],
    (waitingAt kind 0 (base.stopOf 0x40) base).blocked kind 0 ((waitingAt kind 0 (base.stopOf 0x40) base).stopOf 0x40) 0x40 = true := by
  decide +kernel

/-- The directory of home 0 has an entry for line 0x40. -/
def entered (e : DirEntry) (s : State) : State := { s with dir := s.dir.put DirEntry.empty (dirKey (s.dirSide 0 0x40) (dirSetOf 0x40) 0) e }

/-- WB, Evc and HOT: every state of the entry, with and without a transaction. -/
theorem test_witness_home_rest :
    let e : DirEntry := { DirEntry.holding 0x40 0 with st := .x, owner := 0 }
    let h := entered { e with hot := true } base
    let gone := base.stopOf 0x1000000
    base.homeAgent 0x40 = some 0 ∧ base.homeTx 0x40 = none ∧ (base.dirEntry 0 0x40).st = .u ∧ (h.dirEntry 0 0x40).hot = true ∧
      (base.bring .wb 0 gone 0x1000000).1.homeAgent 0x1000000 = none ∧ base.blocked .wb 0 gone 0x1000000 = false ∧
      (∀ st ∈ [DirState.s, .x, .o], ∀ owner ∈ [0, 1], ∀ s ∈ [base, homeOpen .wx false none base, homeOpen .wh false none base],
        let t := entered { e with st := st, owner := owner } s
        let u := (t.bring .evc 0 (t.stopOf 0x40) 0x40).1
        ((u.dirEntry 0 0x40).st, (u.dirEntry 0 0x40).owner, (u.homeTx 0x40).map HomeTrans.tx) = (st, owner, (s.homeTx 0x40).map HomeTrans.tx)) := by
  decide +kernel

theorem test_witness_home_timeout :
    let s := entered { DirEntry.holding 0x40 0 with present := 1 } (homeOpen .wx false none base)
    let t : State := { s with now := 20000 }
    ((s.homeTx 0x40).map fun h => (decide (s.now < h.since + 20000), decide (h.since + 20000 ≤ t.now), h.tx, h.dirty, tilesOf h.asked)) =
        some (true, true, .wx, none, [0]) ∧ (t.dirEntry 0 0x40).st = .s := by decide +kernel

theorem test_witness_cannot_occur :
    base.power.mode ≠ .off ∧ (base.bring .dataS (base.stopOf 0x40) 0 0x40).1.tileTx 0 0x40 = none ∧
      (base.bring .invAck 0 (base.stopOf 0x40) 0x40).1.homeTx 0x40 = none := by decide +kernel

/-- A store of one byte in the store buffer of core 0, with the group open. -/
def buffered (n : Nat) (s : State) : State :=
  let c := s.core 0
  s.setCore 0 { c with
    storeBuf := List.replicate n { phys := 0x2000, mt := .normal, bytes := [1], seam := 0, stream := false }, group := { c.group with count := 1 } }

theorem test_witness_core_events :
    let s := buffered 1 base
    let c := s.core 0
    let b : BufStore := { phys := 0x2000, mt := .normal, bytes := [1], seam := 0, stream := false }
    let g (n : Nat) : Gather :=
      { line := n, uncached := false, mask := 0, data := 0, seam := 0, stream := false, isOpen := true, openedAt := 0 }
    let f : State := { s.setCore 0 { c with gather := [g 0x40] } with now := 124 }
    let d : State := { s.setArch 0 { (s.arch 0).setC 16 1 with sw := 0x4460000000000000 } with now := 1000000 }
    s.coreRuns 0 = true ∧ c.group.attempts = 0 ∧ c.wu.isSome = true ∧ c.active = true ∧ s.operates (uCore 0) = true ∧ c.storeBuf.length = 1 ∧
      (gatherStore s.now c.gather b).length ≤ 16 ∧ 16 < (gatherStore s.now ((List.range 16).map fun n => g (0x80 + n)) b).length ∧
      ((f.core 0).gather.any fun g => g.isOpen && decide (64 * 10 ≤ 52 * (f.now - g.openedAt))) = true ∧
      d.deadlineDue 0 = true ∧ (d.pendingFor 0).isSome = true ∧ s.pendingFor 0 = none ∧ State.reset.coreRuns 0 = false := by decide +kernel

/-- Core 0 has had `n` mismatches of its group. -/
def retried (n : Nat) (s : State) : State := s.setCore 0 { s.core 0 with group := { (s.core 0).group with attempts := n } }

theorem test_witness_group_compare :
    let s := buffered 1 base
    let m := retried 2 s
    let w (s : State) := s.noteMismatch 0 1
    let p := s.setCore 0 { s.core 0 with group := { (s.core 0).group with performed := true } }
    let x := s.setCore 0 { s.core 0 with storeBuf := (buffered 64 s).core 0 |>.storeBuf, group := { (s.core 0).group with stores := (s.core 0).storeBuf } }
    s.groupRoom 0 = true ∧ (s.core 0).group.count ≠ 0 ∧ (m.core 0).group.attempts ≠ 0 ∧ m.groupRoom 0 = true ∧ x.groupRoom 0 = false ∧
      s.mismatchFails 0 = false ∧ m.mismatchFails 0 = true ∧ ((w s).core 0).group.performed = false ∧ ((w p).core 0).group.performed = true ∧
      (((w s).microcode 0).core 0).wu.isSome = true := by decide +kernel

theorem test_witness_first_mismatch :
    let s := buffered 1 base
    s.hasPower ∧ s.operates (uCore 0) = true ∧ (s.core 0).wu.isSome = true ∧ (s.core 0).role = .active ∧ (1 : BitVec 9) ≠ 0 ∧
      (s.core 0).group.count ≠ 0 ∧ (s.core 0).group.attempts = 0 ∧ (s.core 0).group.performed = false ∧ (s.mismatchesNow 0).length < 15 ∧
      s.flag (uMcs 0) Reg.MCS_STAT.VALID = false ∧
      (match step { s with pending := .groupCompare 0 1 false { readable := true, corr := 0 } none :: s.pending } with
        | .next _ => true | _ => false) = true := by
  unfold State.hasPower; decide +kernel

theorem test_witness_cache_commands :
    let s := held (powered [uL3 0] base)
    let p : State := { s with cacheJobs := [.preload (.l2 0) 0 4 1, .flush 0 .clean false 0 0] }
    let b : Sender := .steward 0
    Admits s b (uCore 0) 0x518 ∧ Admits s b (uL3 0) 0x0A0 ∧ Admits s b (uCore 0) Reg.L2_LOCK.LOCKED.off ∧
      Admits s b (uL3 0) Reg.L3_LOCK.LOCKED.off ∧ Admits s b (uL3 0) 0x0D0 ∧ s.preloading (.l2 0) = false ∧ p.preloading (.l2 0) = true ∧
      s.sweeping 0 = false ∧ p.sweeping 0 = true ∧
      p.cacheJobs.find? (CacheJob.preloads (.l2 0)) = some (.preload (.l2 0) 0 4 1) := by unfold Admits; decide +kernel

theorem test_witness_memory_channel :
    let s := held base
    let u := uMem 0
    let c := s.wr u Reg.MEM_SCRUB.EN 1
    let e := c.wr u Reg.MEM_SCRUB.POS (s.capacity 0 * 512 - 1)
    let t : State := { s with trainRuns := s.trainRuns.put none 0 (some (1, 0)) }
    Admits s (.steward 0) u 0x090 ∧ s.trainRun 0 = none ∧ t.trainRun 0 = some (1, 0) ∧ s.channelLine 0 0x40 = true ∧
      s.pairServes 0 = false ∧ c.flag u Reg.MEM_SCRUB.EN = true ∧ c.channelLine 0 (c.rd u Reg.MEM_SCRUB.POS) = true ∧
      e.rd u Reg.MEM_SCRUB.POS + 1 = e.capacity 0 * 512 ∧ e.channelLine 0 (e.rd u Reg.MEM_SCRUB.POS) = true ∧ s.operates u = true ∧
      s.down.look false 0 = false ∧ s.flag u Reg.MEM_CFG.MIRROR = false := by unfold Admits; decide +kernel

theorem test_witness_mirrored_channel :
    let m (t : Nat) (s : State) := (State.each (List.range 16) (fun c s => s.wr (uMem c) Reg.MEM_CFG.MIRROR 1)
      (powered [uIoDie 1, uMem 8, uHome 8] s)).wr (uMem (partnerOf 0)) Reg.MEM_TRAIN.TRAINED t
    let s := m 1 (held base)
    let t : State := { s with trainRuns := s.trainRuns.put none 0 (some (2, 0)) }
    (s.wr (uMem 0) Reg.MEM_TRAIN.OP 2).flag (uMem 0) Reg.MEM_CFG.MIRROR = true ∧ s.flag (uMem (partnerOf 0)) Reg.MEM_TRAIN.TRAINED = true ∧
      (m 0 base).flag (uMem (partnerOf 0)) Reg.MEM_TRAIN.TRAINED = false ∧ (s.putLineAt 0x2000 0 ⟨0, 0⟩).pairServes 0 = true ∧
      t.trainRun 0 = some (2, 0) ∧ (held base).channelLine 0 0 = true := by decide +kernel

theorem test_witness_checkweigher :
    let s := held base
    let r : CkwRun := { op := 1, src := 0, dst := 1, started := 0, result := 1 }
    let q : State := { s with ckwRuns := s.ckwRuns.put none 0 (some r) }
    let f := (s.setCore 0 { s.core 0 with role := .failed }).setCore 1 { s.core 1 with role := .pawn }
    let w := s.setCore 0 { s.core 0 with role := .watch }
    Admits s (.steward 0) (uTile 0) 0x088 ∧ Admits s (.steward 0) (uTile 0) 0x080 ∧ s.ckwRuns.look none 0 = none ∧
      q.ckwRuns.look none 0 = some r ∧ s.rolesFit 0 1 0 1 = false ∧ f.rolesFit 0 1 0 1 = true ∧ f.rolesFit 0 3 0 0 = true ∧
      (w.core 0).role = .watch ∧ (w.core 0).watchEnd ≤ w.now ∧ s.locked (uTile 0) = false ∧
      (s.wr (uTile 0) Reg.UNIT_CFGLOCK.LOCK 1).locked (uTile 0) = true := by unfold Admits; decide +kernel

theorem test_witness_checkweigher_runs :
    let s := held base
    let r (op : Nat) : CkwRun := { op := op, src := 0, dst := 1, started := 0, result := 1 }
    let q (op : Nat) : State := { s with ckwRuns := s.ckwRuns.put none 0 (some (r op)) }
    let free := (q 2).setCore 0 { s.core 0 with wu := none }
    let failed := (q 2).setCore 0 { s.core 0 with role := .failed }
    (∀ op ∈ [1, 2, 3], (q op).ckwRuns.look none 0 = some (r op)) ∧ slotCore 0 0 = 0 ∧ (q 2).ckwRuns.look none 0 = some (r 2) ∧
      (free.core 0).role ≠ .failed ∧ (free.core 0).wu = none ∧ ((q 2).core 0).role ≠ .failed ∧ ((q 2).core 0).wu ≠ none ∧
      (failed.core 0).role = .failed ∧ (q 1).ckwRuns.look none 0 ≠ none := by decide +kernel

theorem test_witness_microcode :
    let s := held base
    let q (r : Nat × Nat) : State := { s with mcsRun := some r }
    let d : State := { s.setCore 0 { s.core 0 with wu := none } with patchDue := Table.put 0 [] 0 2 }
    Admits s (.steward 0) uSvcDie 0x810 ∧ Admits s (.steward 0) uSvcDie 0x800 ∧ s.mcsRun = none ∧
      s.rd uSvcDie Reg.MCS_LDR_ADDR.ADDR / 8 * 8 < 0x8000 ∧ (q (1, 1)).mcsRun = some (1, 1) ∧ (q (3, 0)).mcsRun = some (3, 0) ∧
      d.loadDue 0 = true ∧ ((List.range 12).all fun j => (d.patchRuns.look none j).isNone) = true ∧ (d.core 0).wu = none ∧
      d.powered (uCore 0) = true := by unfold Admits; decide +kernel

theorem test_witness_loader :
    let s := held base
    let q : State := { s with mcsRun := some (2, 0) }
    let l : State := { s with patchRuns := s.patchRuns.put none 5 (some (2, 0)) }
    let staged := s.wr uSvcDie Reg.MCS_LDR_STAT.STAGED 1
    q.mcsRun = some (2, 0) ∧ q.loadsRun = false ∧ l.loadsRun = true ∧ l.patchRuns.look none 5 = some (2, 0) ∧
      (staged.wr uSvcDie Reg.MCS_LDR_CTL.OP 2).flag uSvcDie Reg.MCS_LDR_STAT.STAGED = true ∧
      (s.wr uSvcDie Reg.MCS_LDR_CTL.OP 2).flag uSvcDie Reg.MCS_LDR_STAT.STAGED = false ∧
      ({ s with mcsRun := some (4, 0x12) } : State).mcsRun = some (4, 0x12) ∧ ({ s with mcsRun := some (1, 2) } : State).mcsRun = some (1, 2) := by
  decide +kernel

theorem test_witness_foreman :
    let s := held (powered [uForeman] base)
    let e : State := { s with fmnEvents := [.policy] }
    let t := s.setCore 0 { s.core 0 with takeoff := some 1 }
    let i := (s.setCore 0 { s.core 0 with wu := none }).setUnit (uCore 0) { s.unit (uCore 0) with power := .gated }
    let w := s.setWork 2 { s.work 2 with run := .waiting, waitKind := 2, waitUntil := 0 }
    let m : State := { s with missReports := [(3, 0)] }
    let g : Migration := { gran := 0, src := 0, dst := 1, slot := 0, flip := false, counts := [] }
    let h : State := { s with migrations := [g] }
    s.operates uForeman = true ∧ e.nextEvent = some .policy ∧ (t.core 0).takeoff = some 1 ∧ i.parkable 0 = true ∧ (i.core 0).reserved = none ∧
      (w.work 2).run = .waiting ∧ (w.work 2).waitUntil ≤ w.timeBase ∧ w.spilled.contains 2 = false ∧ isPolicy 0x400 = true ∧
      Admits s (.steward 0) uForeman 0x400 ∧ s.sealed 0 = false ∧ Admits s (.steward 0) uForeman 0x0F0 ∧ s.evict = none ∧
      (s.core 0).active = true ∧ (s.core 1).active = false ∧ m.missReports = [(3, 0)] ∧ (s.wr uForeman Reg.FMN_MIG.MIG_EN 0).flag uForeman Reg.FMN_MIG.MIG_EN = false ∧
      (h.migrations.find? fun m => m.gran == 0) = some g ∧ h.serves 0 = true ∧ h.serves 1 = false := by unfold Admits; decide +kernel

theorem test_witness_foreman_decisions :
    let s := held (powered [uForeman] base)
    let e : State := { s with fmnEvents := [.status 1] }
    let c := s.wr uForeman Reg.FMN_CTL.ENABLE 1
    let v : State := { s with evict := some 3 }
    let g : Migration := { gran := 0, src := 0, dst := 0, slot := 0, flip := false, counts := [] }
    let h := homeOpen .wr true none base
    let m : State := { s with migrations := [g] }
    e.nextEvent = some (.status 1) ∧ s.nextEvent = none ∧ (s.core 0).takeoff = none ∧
      ((State.each (c.spilled.filter fun n => decide ((c.work n).waitUntil ≤ c.timeBase)) (fun n s => s.endWait n 1 none) c).endDeadWaits).flag
        uForeman Reg.FMN_CTL.ENABLE = true ∧
      (s.endDeadWaits).flag uForeman Reg.FMN_CTL.ENABLE = false ∧ v.evict.isSome = true ∧ ((48 : BitVec 8)).toNat ≥ 48 ∧
      m.copyStops g = false ∧ m.serves g.dst = true ∧ (m.homeTrans.any fun h => h.line / 512 == 0) = false ∧
      (h.homeTrans.any fun h => h.line / 512 == 0) = true ∧
      (c.wr uForeman Reg.FMN_MIG.MIG_EN 1).flag uForeman Reg.FMN_MIG.MIG_EN = true := by decide +kernel

theorem test_witness_tile_retention :
    let s := powered [uForeman, uTile 1] base
    (s.unit (uTile 1)).power = .run ∧ (s.unit (uTile 1)).fenced = false ∧ (s.unit (uTile 1)).resetting = false ∧
      s.flag (uTile 1) Reg.UNIT_POWER.PIN = false ∧ (∀ j ∈ allCores, j / 12 = 1 → (s.unit (uCore j)).power = .off) := by decide +kernel

theorem test_witness_seams :
    let s := held base
    let t := s.wr uSeamCtl (Reg.SEAM_STATE.STATE.ix 5) 1
    let q : State := { s with seamCmd := some { op := 1, seam := 5, arg := 0, result := 1 } }
    Admits s (.steward 0) uSeamCtl 0x080 ∧ s.seamCmd = none ∧ q.seamCmd.isSome = true ∧ s.seamRefusal 5 true [0] false = 0 ∧
      s.seamRefusal 5 true [1] true ≠ 0 ∧ t.seamRefusal 5 true [1] true = 0 ∧ t.seamRefusal 5 false [1] false = 0 ∧
      t.liveOf 5 = 0 ∧ t.heldBy 5 = 0 := by unfold Admits; decide +kernel

/-- Context 0 of store 0 in a state. -/
def exchanging (st : ExState) (w0 : Word) (done : Bool) (s : State) : State :=
  s.setExch (exKey 0 0) { s.exch (exKey 0 0) with st := st, sch := 3, word0 := w0, performed := done, cur := 0x2000 }

theorem test_witness_seam_commands :
    let s := held (base.wr uSeamCtl (Reg.SEAM_STATE.STATE.ix 5) 1)
    let d := s.wr uSeamCtl (Reg.SEAM_STATE.STATE.ix 5) 2
    let c (op result : Nat) : State := { s with seamCmd := some { op := op, seam := 5, arg := 0, result := result } }
    s.seamRefusal 5 true [1] true = 0 ∧ s.seamRefusal 5 true [0] false ≠ 0 ∧ s.seamRefusal 5 false [1] true = 0 ∧
      s.seamRefusal 5 false [1, 2] false = 0 ∧ d.seamRefusal 5 false [1, 2] false = 0 ∧ s.seamArg 44 63 = 0 ∧
      ¬ 524288 < s.seamLimit 5 + s.seamArg 44 63 ∧ ¬ s.seamLimit 5 < s.seamArg 44 63 ∧
      (∀ p ∈ [(7, 1), (8, 1), (1, 2)], (c p.1 p.2).seamCmd = some { op := p.1, seam := 5, arg := 0, result := p.2 }) := by decide +kernel

theorem test_witness_channel_entries :
    let s := exchanging .start 0 false base
    let x := s.exch (exKey 0 0)
    let o := s.setExch (exKey 0 0) { x with index := 256 }
    x.st = .start ∧ x.index < 256 ∧ s.inAllotment x.seam x.cur 16 = true ∧ (s.agentRead x.seam x.cur 16).2.2 = .done ∧
      256 ≤ (o.exch (exKey 0 0)).index ∧
      (∀ p ∈ ([(0x0100000000000000, 1), (0x0200000000000000, 2), (0x0300000000000000, 3), (0x0700000000000000, 7), (0x0800000000000000, 8),
          (0x0900000000000000, 9), (0x1100000000000000, 0x11), (0x1200000000000000, 0x12)] : List (Word × Nat)),
        entryCmd ((exchanging .active p.1 false base).exch (exKey 0 0)).word0 = p.2) := by
  decide +kernel

theorem test_witness_exchange_ends :
    let s := exchanging .active 0 true base
    let h := exchanging .halting 0 true base
    let l : State := { s with now := 1000000000 }
    let m : State := { h with now := 1000000 }
    let w : TargetWrite := { slot := 0, target := 0, path := 0, tried := 0, redrives := 0, since := 0 }
    let t : State := { l with targetWrites := [w] }
    (s.exch (exKey 0 0)).performed = true ∧ (s.exch (exKey 0 0)).st = .active ∧ (h.exch (exKey 0 0)).st = .halting ∧
      (l.exch (exKey 0 0)).entryAt + l.entryLimit 0 ≤ l.now ∧ (m.exch (exKey 0 0)).haltAt + 1000000 ≤ m.now ∧
      t.targetOf 0 false = some w ∧ w.since + t.entryLimit (t.targetLane w / 64) ≤ t.now ∧ s.storeAvail 0 = false ∧
      (powered [uCtx 0, uCtx 1] s).storeAvail 0 = true := by decide +kernel

theorem test_witness_unpaired_repair :
    let e := exchanging .active 0 false base
    let s := powered [uIoDie 1, uCtx 0, uCtx 1] (e.setExch (exKey 0 0) { e.exch (exKey 0 0) with paired := false })
    let p : Peer := { sch := 3, seam := 0, ctx := 0, pending := false, status := 0, cpa := 0, seq := 0 }
    let t : State := { s with peers := s.peers.put none (peerKey 0 3) (some p) }
    t.storeAvail 0 = true ∧ t.storeAvail 1 = true ∧
      (t.exchanges.filter fun e => exDie e.1 == 0 && !e.2.paired).map Prod.fst = [exKey 0 0] ∧
      t.peers.look none (peerKey 0 (t.exch (exKey 0 0)).sch) = some p := by decide +kernel

/-- Both journal banks and both context stores are available, and the journal takes commits of seam 0. -/
def journaled (s : State) : State :=
  let s := powered [uIoDie 1, uCtx 0, uCtx 1, uBank 0, uBank 1] s
  let s := (s.wr (uBank 0) Reg.JNL_CFG.EN 1).wr uSeamCtl (Reg.SEAM_QUOTA.JNL_KIB.ix 0) 64
  { s with power := { s.power with enough := true } }

theorem test_witness_journal_commit :
    let s := journaled (exchanging .journal 0 false base)
    let x := s.exch (exKey 0 0)
    let c : Commit := { ex := exKey 0 0, slot := 1, sentAt := 0, acked := false, orphan := false }
    let t : State := { s with commits := [c], now := 255000 }
    x.st = .journal ∧ s.commitOf (exKey 0 0) = none ∧ s.commitCheck 0 x.seam x.count = none ∧
      (exchanging .journal 0 false base).commitCheck 0 0 0 = some 1 ∧ t.commitOf (exKey 0 0) = some c ∧ x.haltNoted = false ∧
      t.powerFailing = false ∧ t.bankAvail 0 = true ∧ t.bankAvail 1 = true ∧ 0 + t.rd (uBank 0) Reg.JNL_CFG.PEER_US * 1000 ≤ t.now ∧ t.rd (uBank 0) Reg.JNL_CFG.PEER_US ≠ 0 := by decide +kernel

theorem test_witness_journal_commands :
    let s := held (journaled base)
    let r (n result : Nat) : State := { s with jcmd := some (n, result, 0) }
    let w : TargetWrite := { slot := 0, target := 0, path := 0, tried := 0, redrives := 0, since := 0 }
    let t : State := { s with targetWrites := [w] }
    Admits s (.steward 0) (uBank 0) Reg.JNL_CMD.START.off ∧ s.jcmd = none ∧ (r 3 1).jcmd = some (3, 1, 0) ∧ (r 2 1).jcmd = some (2, 1, 0) ∧
      (r 2 1).targetWrites = [] ∧ t.targetOf 0 false = some w ∧ s.rd (uBank 0) Reg.JNL_ARG.ARG = 0 ∧ s.slotOfEntry 7 false = none ∧
      ({ s with draining := [(0, true), (1, true)] } : State).draining.look false 0 = true := by unfold Admits; decide +kernel

theorem test_witness_journal_entries :
    let e (h : Bool) : JEntry := { base.jentry 0 with num := 7, used := true, marked := true, held := h }
    let s (h : Bool) := (journaled base).putEntry 1 (e h)
    let c : Commit := { ex := exKey 0 0, slot := 1, sentAt := 0, acked := false, orphan := false }
    let m : State := { (journaled base).putEntry 1 { e false with xmod := true } with commits := [c] }
    let i : DrainImage := { pcycle := 0, next := 0, whole := true, entries := [] }
    let w : State := { powered [uDrain 0] base with images := base.images.put none 0 (some i) }
    (s true).slotOfEntry 7 false = some 1 ∧ ((s true).jentry 1).held = true ∧ ((s false).jentry 1).held = false ∧
      m.commitNumbered 7 = some c ∧ (journaled base).restoreWaits = false ∧ w.restoreWaits = true := by decide +kernel

/-- Lane 0 is a group of its own, of PCI Express or Ethernet, with the link up or down. -/
def linked (pers : Nat) (up : Bool) (s : State) : State :=
  let s := (((powered [uLane 0] s).wr (uLane 0) Reg.LNK_CFG.LAYOUT 1).wr (uLane 0) Reg.LNK_CFG.ENABLE 1).wr (uLane 0) Reg.LNK_CFG.MAXRATE 3
  (s.wr (uLane 0) Reg.LNK_CFG.PERS pers).setLink 0 { s.link 0 with up := up }

theorem test_witness_links :
    let d := linked 0 false base
    let l := (linked 0 true base).setBit (uLane 0) (Reg.LNK_INB.INB.ix 0) 0 true
    let t := l.wr (uLane 0) (Reg.LNK_Q0.PAGES.ix 0) 1
    (l.link 0).up = true ∧ l.isEth 0 = false ∧ (linked 8 true base).isEth 0 = true ∧ d.trainable 0 = some 0 ∧ (d.link 0).up = false ∧
      (d.link 0).downAt + 100000000 ≤ ({ d with now := 100000000 } : State).now ∧ base.inboundAccepts 0 1 0 4 = false ∧
      t.inboundAccepts 0 0 0x100 4 = true ∧ (t.agentRead 0 0x100 4).2.2 = .done ∧ (t.agentRead 0 (2 ^ 41) 4).2.2 ≠ .done ∧
      (0x4000000000000100 : Word).field 0 1 = 1 ∧ (0x4000000000000100 : Word).field 8 15 = 0 := by decide +kernel

theorem test_witness_frames :
    let r : List Byte := [2, 0x80, 0, 0, 0, 0, 0, 0, 0x80, 0] ++ List.replicate 20 0 ++ [0xFF, 0xFF] ++ List.replicate 32 0
    let s := ((linked 8 true base).agentWrite 0 0xC0 r).1
    let x := s.setExch (exKey 0 0) { s.exch (exKey 0 0) with st := .active, sch := 3, word0 := 0x1200000000000000, performed := false }
    let f : List Byte := List.replicate 60 0
    (withFcs f).length = 64 ∧ badChecksum f = false ∧ recNum f 12 2 ≠ 0x8808 ∧ x.bufferedAll 0 + f.length ≤ 524288 ∧
      x.frameTaker 0 f = some 3 := by decide +kernel

theorem test_witness_coupling_links :
    let s := powered [uCpl 0] base
    let c := s.setCpl 0 { s.cpl 0 with up := true }
    let t := s.wr (uCpl 0) Reg.CPL_LINK.ENABLE 1
    (c.cpl 0).up = true ∧ ({ c with now := 10000 } : State).now = 10000 ∧ (c.cpl 0).heard + 10000 ≤ 10000 ∧ knownType 0xFF = false ∧
      (t.cpl 0).up = false ∧ t.flag (uCpl 0) Reg.CPL_LINK.ENABLE = true ∧ t.operates (uCpl 0) = true ∧ t.stopped = false ∧ 2 ≤ (t.cpl 0).good ∧
      2 ≤ ((t.setCpl 0 { t.cpl 0 with failed := 1 }).cpl 0).good ∧ ((t.setCpl 0 { t.cpl 0 with failed := 7 }).cpl 0).good < 2 := by
  decide +kernel

theorem test_witness_coupling_frames :
    let s := held (powered [uCpl 0] base)
    let c := s.setCpl 0 { s.cpl 0 with up := true }
    let a : State := { s with complex := { s.complex with lots := [1], access := some (0, 0) }, now := 5000 }
    (∀ vc ∈ [0, 1, 2, 3], (c.cplTake 0 ⟨0, 0, 0, 0, 0⟩ vc 1).2 = true ∧ (c.cplTake 0 ⟨9, 0, 0, 0, 0⟩ vc 1).2 = false) ∧
      (c.cplTake 0 ⟨0, 0, 0, 0, 0⟩ 0 1).1.flag uModule Reg.CPL_CX.EN = false ∧ (c.cplTake 0 ⟨0, 0, 0, 0, 0⟩ 0 1).1.rd uModule Reg.CPL_ENUM.RESULT ≠ 1 ∧
      Admits s (.steward 0) uModule Reg.CPL_ENUM.REENUM.off ∧ Admits s (.steward 0) uModule Reg.CPL_ADOPT.START.off ∧
      Admits a (.steward 0) uComplex Reg.CPL_RA_CTL.START.off ∧ a.complex.access = some (0, 0) ∧ 0 + 5000 ≤ a.now := by
  unfold Admits; decide +kernel

/-- A server serves a ring of seam 0 at address 0, whose head descriptor has the last byte `go`. -/
def serverOf (e : EngineId) (go : Byte) (s : State) : State :=
  let s := (powered [e.unit] s).agentWrite 0 0x78 [go] |>.1
  let f := e.ring 0
  ((s.wr e.unit e.en 1).wr e.unit f.2.1 5).setEngine e { s.engine e with seamNow := some 0 }

/-- A job with an OP and lengths, its source at 0x100, its output at 0x200, its parameters at 0x300. -/
def jobOf (op : Nat) (src dst aux : Byte) : Job :=
  let z (n : Nat) : List Byte := List.replicate n 0
  { addr := 0, line := [0, 0, BitVec.ofNat 8 op] ++ z 11 ++ [1] ++ z 7 ++ [2] ++ z 7 ++ [3] ++ z 4 ++ [src] ++ z 3 ++ [dst] ++ z 3 ++ [aux] ++ z 84,
    performed := false, status := 0, outLen := 0, check := 0, saved := false }

/-- A server with a job in progress. -/
def engaged (e : EngineId) (j : Job) (s : State) : State := (serverOf e 0 s).setJob e 0 (some j)

theorem test_witness_engines :
    let e := EngineId.crusher 0
    let s := serverOf e 0 base
    let g := serverOf e 0x80 base
    let d := engaged e { jobOf 1 4 4 0 with performed := true } base
    let go (s : State) := fieldAt (s.agentRead 0 (s.headAddr e 0) 128).2.1 0x78 1
    s.serves1 e 0 = true ∧ s.job e 0 = none ∧ (s.agentRead 0 (s.headAddr e 0) 128).2.2 = .done ∧ go s < 128 ∧ 128 ≤ go g ∧
      g.serves1 e 0 = true ∧ d.serves1 e 0 = true ∧ ((d.job e 0).map fun j => (j.performed, j.saved)) = some (true, false) ∧
      s.operates e.unit = true := by decide +kernel

theorem test_witness_crusher_jobs :
    let e := EngineId.crusher 0
    let s (op : Nat) := engaged e (jobOf op 4 4 0) base
    let j := jobOf 2 6 4 0
    (∀ op ∈ [1, 2], (s op).toPerform e 0 op = some (jobOf op 4 4 0)) ∧ ((s 1).jobRead 0 j.src j.srcLen).2 = .bytes (List.replicate 6 0) ∧
      ((s 1).jobDict 0 j).2 = none ∧ ((s 1).jobRead 1 j.src j.srcLen).2 = .fails 0x11 ∧ j.optBits 0 1 = 0 ∧
      (inflateRaw [] [1, 1, 0, 0xFE, 0xFF, 7] j.dstLen).toOption = some ([7], 6) ∧
      (inflateRaw [] [7] j.dstLen).toOption = none := by decide +kernel

theorem test_witness_cipher_jobs :
    let e := EngineId.cipher 0
    let j := jobOf 0x12 16 16 96
    (∀ op ∈ [0x10, 0x11, 0x12, 0x13, 0x14, 0x15, 0x20, 0x30, 0x31, 0x32, 0x33, 0x34],
      (engaged e (jobOf op 16 16 96) base).toPerform e 0 op = some (jobOf op 16 16 96)) ∧
      ((engaged e j base).jobRead 0 j.aux j.auxLen).2 = .bytes (List.replicate 96 0) ∧ fieldAt (List.replicate 96 0) 44 4 = 0 ∧
      fieldAt (List.replicate 96 0) 60 4 = 0 ∧ ((engaged e j base).jobRead 0 0 0).2 = .bytes [] := by decide +kernel

theorem test_witness_drbg_jobs :
    let e := EngineId.entropy
    let s (op : Nat) : State :=
      let s := ((powered [e.unit] base).wr e.unit e.en 1).wr uSeamCtl (Reg.SEAM_STATE.STATE.ix 1) 1
      let s := (s.wr e.unit (e.ring 1).2.1 5).setEngine e { s.engine e with seamNow := some 1 }
      { s.setJob e 1 (some (jobOf op 0 4 0)) with entropy := { s.entropy with state := .healthy } }
    let d : Drbg := { key := 0, v := 0, served := 0, due := false }
    let g (op : Nat) := ((s op).wr uSeamCtl (Reg.SEAM_QUOTA.DRBG.ix 1) 1).setDrbg 1 0 (some d)
    (∀ op ∈ [0x40, 0x41], (s op).toPerform e 1 op = some (jobOf op 0 4 0) ∧ (g op).toPerform e 1 op = some (jobOf op 0 4 0)) ∧
      (s 0x40).drbgStatus 1 0 = some 0x31 ∧ (g 0x40).drbgStatus 1 0 = none ∧ (g 0x40).drbgOf 1 0 = some d ∧
      ((g 0x40).jobRead 1 0x300 0).2 = .bytes [] := by decide +kernel

theorem test_witness_quanta :
    let e := EngineId.crusher 0
    let s := serverOf e 0 base
    let r := s.wr uSeamCtl Reg.SEAM_MODE.RESMODE 1
    let o (n : Nat) := if r.quantumOwner e n = 0xFF then 0 else r.quantumOwner e n
    let g := (serverOf e 0x80 base).setEngine e { (s.engine e) with seamNow := none }
    r.resMode = true ∧ s.resMode = false ∧ o 1 < 64 ∧ r.serving e = true ∧ State.reset.serving e = false ∧ (s.engine e).seamNow = some 0 ∧
      (g.engine e).seamNow = none ∧ s.nextRing e = none ∧ g.nextRing e = some 0 := by decide +kernel

theorem test_witness_entropy :
    let s := held base
    let e (st : EntState) : State := { s with entropy := { s.entropy with state := st } }
    Admits s (.steward 0) uEntropy 0x080 ∧ s.entropy.busy = none ∧ (e .raw).entropy.state = .raw ∧ (e .healthy).entropy.state = .healthy ∧
      ((e .healthy).entropy.fresh.health [true, false, true, false]).2 = (false, false) ∧ s.entropy.state = .starting ∧
      s.drbgStatus 1 0 = some 0x30 ∧ (e .healthy).drbgStatus 0 0 = some 0x31 ∧
      ((e .healthy).wr uSeamCtl (Reg.SEAM_QUOTA.DRBG.ix 1) 1).drbgStatus 1 0 = none := by unfold Admits; decide +kernel

theorem test_witness_attestation :
    let s := held base
    let r : AttRun := { addr := 0, result := 1, entry := some (1, false, 0, 1, []), report := [] }
    Admits s (.steward 0) uSvcDie 0x900 ∧ s.att = none ∧ ({ s with att := some r } : State).att = some r := by unfold Admits; decide +kernel

theorem test_witness_cube :
    let s := powered [uSteward 0, uSteward 1] base
    let h := held base
    let l : State := { h with leaseEnd := 1000000, leaseLen := 1000000 }
    Admits s (.steward 1) uCube 0x098 ∧ s.prunePend.mayRequest 1 = true ∧ s.prunePend.holder = none ∧ s.prunePend.cubePend = 0 ∧
      (s.setPend 1 true).prunePend.cubePend ≠ 0 ∧ h.holder = some 0 ∧ h.leaseEnd ≤ h.now ∧ h.power.mResetting = false ∧ l.now < l.leaseEnd ∧
      l.leaseLen ≤ 2 * (l.leaseEnd - l.now) ∧ 2 * (l.leaseEnd - 600000) < l.leaseLen := by unfold Admits; decide +kernel

theorem test_witness_stewards :
    let s := held base
    let r : Repl := { op := 1, result := 1, writes := [] }
    let q := s.setStw 0 { s.stw 0 with repl := some r }
    Admits s (.steward 0) (uSteward 0) 0x098 ∧ (s.stw 0).repl = none ∧ (q.stw 0).repl = some r ∧ s.operates (uSteward 1) = true ∧
      s.holder = some 0 ∧ s.rd (uSteward 0) Reg.STW_REPL_SRC.SRC * 128 + 4194176 ≤ 0x1000000 ∧ (s.stw 0).boot = .rom ∧
      s.operates (uSteward 0) = true ∧ Admits s (.steward 0) uSvcDie 0xB30 := by unfold Admits; decide +kernel

theorem test_witness_faults :
    let s := held base
    let r : Report := { src := uTally, index := 1, cls := 1, peer := none, syndrome := 0, time := 0, ownFence := false }
    let p : State := { s with reports := [r] }
    let w : State := { s with windows := [{ src := uTally, count := 0, closeAt := some 0 }] }
    s.present uTally = true ∧ takeReport uTally 1 s.reports = none ∧ takeReport uTally 1 p.reports = some (r, []) ∧
      (fieldOfIndex uTally 1).isSome = true ∧ fieldOfIndex uTally 253 = none ∧ s.present ⟨.core, 48⟩ = false ∧
      Admits s (.steward 0) uRoot 0x118 ∧ Admits s (.steward 0) uRoot 0x110 ∧
      (w.windows.find? fun w => w.src == uTally && w.closeAt == some 0).isSome = true := by unfold Admits; decide +kernel

theorem test_witness_ladder :
    let c : Canary := { src := uHauler 0, cls := 2, rung := 0, expiry := 0, seq := 0, rungAt := 0 }
    let s (c : Canary) : State := { served0 with canaries := served0.canaries.put none 5 (some c) }
    (s c).canaries.look none 5 = some c ∧ c.rung = 0 ∧ c.expiry ≤ (s c).now ∧ rung4Only c.src = false ∧ (s c).otherGone c.src = false ∧
      ((s { c with rung := 1 }).canaries.look none 5).map Canary.rung = some 1 ∧
      ({ s { c with rung := 2 } with now := 1000000 } : State).canaries.look none 5 = some { c with rung := 2 } ∧
      ((s c).unit c.src).resetting = false ∧ ((s c).unit c.src).heldReset = false ∧ ((s c).unit c.src).doneAt + 10000 ≤ 1000000 ∧
      (s c).ownLive c.src = false ∧ (uIoDie 0).type = .iodie := by decide +kernel

theorem test_witness_tally :
    let s := held base
    let r : TallyRec := { seq := 1, pcycle := 0, time := 0, srcType := 0, srcInst := 0, event := 0, flags := 0, seam := 0, payload := [] }
    Admits s (.steward 0) uTally 0x108 ∧ ({ s with tallyBuf := [r] } : State).tallyBuf = [r] ∧
      ({ s with tallyBuf := [] } : State).tallyBuf = [] ∧ s.tallyBuf.length < 256 ∧
      256 ≤ (List.replicate 256 r).length ∧ s.lostPending = 0 := by unfold Admits; decide +kernel

theorem test_witness_module_power :
    let s := held base
    let o : State := { s with power := { s.power with mode := .off } }
    let h : State := { s with power := { s.power with mode := .holdup } }
    let l : State := { s with power := { s.power with mrstLow := true } }
    o.power.mode = .off ∧ o.power.offUntilVin = false ∧ h.power.mode = .holdup ∧ s.onInput = true ∧ s.tap.ir ≠ .extest ∧
      Admits s (.steward 0) uPower 0x0A0 ∧ s.power.cmdBusy = false ∧ s.power.mode = .on ∧ s.failing 1 84 100 = true ∧ s.failing 2 2124 0 = true ∧
      h.draining.look false 0 = false ∧ h.draining.look false 1 = false ∧ l.power.mrstLow = true ∧ s.power.mrstLow = false := by
  unfold Admits; decide +kernel

theorem test_witness_environment :
    let s := held base
    let t : State := { s with power := { s.power with testing := true } }
    let c : State := { s with power := { s.power with charging := 1500, fullSince := 0, holdV := 13749 }, now := 10000000000 }
    Admits s (.steward 0) uPower 0x0C0 ∧ s.power.phases.getLsbD 11 = true ∧ s.power.regulators.getLsbD 1 = true ∧ s.power.xtalBad = false ∧
      s.power.refLost = none ∧ s.power.tested = false ∧ s.power.testing = false ∧ t.power.testing = true ∧ c.power.charging = 1500 ∧
      c.power.fullSince + 10000000000 ≤ c.now ∧ c.power.holdMv < 55000 ∧ fixedChannel 0 = true ∧
      s.bitOf uPower Reg.ENV_ALARM.ALARM 0 = false := by unfold Admits; decide +kernel

theorem test_witness_coupling_copies :
    let c := let s := journaled (powered [uCpl 0] base); s.setCpl 0 { s.cpl 0 with up := true, peerLot := 7 }
    let m : State := { c.wr c.jbank Reg.JNL_CFG.PEER_KIB 64 with complex := { c.complex with lots := [7] } }
    let e : JEntry := { base.jentry 0 with num := 9, used := true, seam := 0x40, marked := true }
    let p := m.putEntry 1 e
    let r : JRecv := { group := 0, slot := 1, header := [], chunks := 2, got := [] }
    let t (s : State) := (s.cplTake 0 ⟨0, 0, 0, 0, 0⟩ 1 4).1
    (t m).memberAt 0 = some 0 ∧ (t c).memberAt 0 = none ∧ (t p).copySlot? 0 9 = some 1 ∧ ((t p).jentry 1).marked = true ∧
      (t m).copySlot? 0 9 = none ∧ (t m).copyRoom 256 = true ∧ (t base).copyRoom 256 = false ∧
      ((t { m with jrecv := [r] }).jrecv.find? fun r => r.group == 0) = some r ∧ (t m).bankAvail 0 = true ∧
      (t (powered [uCpl 0] base)).bankAvail 0 = false := by decide +kernel

theorem test_witness_report_paths :
    let s := held base
    let r (u : UnitId) (i : Nat) : Report := { src := u, index := i, cls := 1, peer := none, syndrome := 0, time := 0, ownFence := false }
    let w : State := { s with windows := [{ src := uHauler 0, count := 0, closeAt := none }] }
    let i := sourceIndex (uHauler 0) Reg.HLR_FAULT.ISTORE_UNCORR
    let l := s.setUnit uTally { s.unit uTally with live := [1] }
    (w.taggedBy (r (uHauler 0) 1)).isSome = true ∧ haulerFault (r (uHauler 0) i) = true ∧ haulerFault (r (uHauler 0) 0) = false ∧
      s.taggedBy (r uTally 1) = none ∧ fieldOfIndex (uHauler 0) i = some Reg.HLR_FAULT.ISTORE_UNCORR ∧
      (l.unit uTally).live.contains 1 = true ∧ (s.unit uTally).live.contains 1 = false ∧
      (takeReport uTally 255 (s.raise uTally 255).reports).isSome = true ∧ takeReport uTally 1 s.reports = none ∧
      (s.windows.find? fun w => w.src == uTally).isNone = true := by decide +kernel

theorem test_witness_ladder_ends :
    let c (u : UnitId) (rung : Nat) : Canary := { src := u, cls := 2, rung := rung, expiry := 0, seq := 0, rungAt := 0 }
    let s (u : UnitId) (rung : Nat) : State := { served0 with now := 1000000, canaries := served0.canaries.put none 5 (some (c u rung)) }
    let live := let t := s (uHauler 0) 2; t.setUnit (uHauler 0) { t.unit (uHauler 0) with live := [1] }
    let failed := (s (uCore 0) 2).wr (uCore 0) Reg.CKW_STAT.FAILED 1
    rung4Only uModule = false ∧ rung4Only uCube = true ∧ (s uModule 0).otherGone uModule = false ∧ (s uModule 1).canaries.look none 5 = some (c uModule 1) ∧
      (s (uHauler 0) 2).checkLifts (uHauler 0) = true ∧ failed.checkLifts (uCore 0) = false ∧ failed.ownLive (uCore 0) = false ∧
      live.ownLive (uHauler 0) = true := by decide +kernel

theorem test_witness_power_paths :
    let s := held base
    let b : State := { s with power := { s.power with mode := .standby } }
    let o : State := { s with power := { s.power with overSince := some 0 }, now := 2000000 }
    let h : State := { s with power := { s.power with samples := s.power.samples.put 0 17 0x3FFF } }
    b.hasPower ∧ b.power.mode = .standby ∧ ({ s with power := { s.power with cmdBusy := true } } : State).power.cmdBusy = true ∧
      o.power.overSince = some 0 ∧ o.hotterThan o.throtC = false ∧ s.power.lastStress + 100000000 ≤ ({ s with now := 100000000 } : State).now ∧
      h.hotterThan h.throtC = true ∧ s.hotterThan s.throtC = false ∧ s.lostPending = 0 ∧ s.romRenews = true ∧
      (s.setStw 0 { s.stw 0 with boot := .running }).romRenews = false ∧
      (s.setVavg 20000).envelopeFor ≠ (s.setVavg 20000).power.envelope ∧ (s.setVavg 40000).envelopeFor = (s.setVavg 40000).power.envelope ∧
      (s.wr uForeman Reg.FMN_CTL.ENABLE 1).mayStandby = false ∧ (s.wr uForeman Reg.FMN_CTL.ENABLE 0).mayStandby = true := by
  unfold State.hasPower; decide +kernel

theorem test_witness_overflow_and_shifts :
    let s := withG [(2, 0x8000000000000000), (3, 63), (4, 64), (5, 0)] base
    Ready s 0 4 ∧ srcS false ((s.found 0 4).gr 2) = -(2 ^ 63 : Int) ∧ ((s.found 0 4).gr 3).toNat % 256 < 64 ∧
      64 ≤ ((s.found 0 4).gr 4).toNat % 256 := by unfold Ready State.hasPower; decide +kernel

/-! ### The block -/

theorem test_witness_block : State.reset.pending = [] ∧ isArrival (.datas 0 0x40 ⟨0, 0⟩) = true ∧ isArrival .idcode = false := by decide

theorem test_witness_stops : Stops (.datas 0 0x40 ⟨0, 0⟩) base (.cannotOccur "n3") ∧ base.hasPower :=
  ⟨rfl, by unfold State.hasPower; decide +kernel⟩

theorem test_witness_without_power :
    let s : State := { base with power := { base.power with mode := .off }, pending := [.idcode] }
    WithoutPower s ∧ ∃ t, step s = .next t ∧ WithoutPower t := by
  refine ⟨⟨rfl, ?_⟩, _, rfl, rfl, fun _ _ h => by cases h⟩
  intro v r h
  cases h with
  | tail _ h => cases h

theorem test_witness_reset :
    uTally.valid = true ∧ uTally.within uSvcDie = true ∧ (uCore 47).valid = true ∧ (uCore 47).within uSvcDie = false ∧
      ((pageRows uTally).filter fun r => r.kind == .value && decide (0 < r.count)).length ≠ 0 := by decide +kernel

theorem test_witness_reaches : ∃ t, Reaches 1 { base with pending := [.idcode] } t :=
  ⟨_, _, rfl, rfl⟩

end Sys2Proof.Tests
end

section
/-! PROOFS. The register tables as a whole: fields of one register do not overlap, so that a fold over the rows of a register acts on each
field as the field's own row does (R5, R7). -/

namespace Sys2Proof.Machine

/-! ### Bits and fields of a word (R4) -/

theorem bit_setField (w : Word) {lo hi : Nat} (v : Nat) {b : Nat} (hhi : hi < 64) (hb : b < 64) :
    (w.setField lo hi v).bit b = if lo ≤ b ∧ b ≤ hi then v.testBit (hi - b) else w.bit b := by
  simp only [Word.bit, Word.setField, BitVec.getLsbD_or, BitVec.getLsbD_and, BitVec.getLsbD_not, BitVec.getLsbD_ofNat,
    Nat.testBit_shiftLeft, Nat.testBit_two_pow_sub_one, Nat.testBit_mod_two_pow, show 63 - b < 64 by omega]
  by_cases h : lo ≤ b ∧ b ≤ hi
  · have hs : 63 - b - (63 - hi) = hi - b := by omega
    simp [h, hs, show 63 - hi ≤ 63 - b by omega, show hi - b < hi + 1 - lo by omega]
  · have hn : ¬(63 - hi ≤ 63 - b ∧ 63 - b - (63 - hi) < hi + 1 - lo) := by omega
    by_cases hk : 63 - hi ≤ 63 - b
    · simp [h, show ¬(63 - b - (63 - hi) < hi + 1 - lo) from fun hl => hn ⟨hk, hl⟩]
    · simp [h, hk]

theorem testBit_field (w : Word) {lo hi b : Nat} (hhi : hi < 64) (hlo : lo ≤ b) (hb : b ≤ hi) :
    (w.field lo hi).testBit (hi - b) = w.bit b := by
  rw [Word.field, Nat.testBit_mod_two_pow, Nat.testBit_shiftRight, show 63 - hi + (hi - b) = 63 - b by omega]
  simp [Word.bit, BitVec.getLsbD, show hi - b < hi + 1 - lo by omega]

/-- A field is the number its bits spell. -/
theorem field_eq_of_bits {w : Word} {lo hi n : Nat} (hhi : hi < 64) (hn : n < 2 ^ (hi + 1 - lo))
    (h : ∀ b, lo ≤ b → b ≤ hi → w.bit b = n.testBit (hi - b)) : w.field lo hi = n := by
  refine Nat.eq_of_testBit_eq fun j => ?_
  by_cases hj : j < hi + 1 - lo
  · have hb := testBit_field w (lo := lo) (b := hi - j) hhi (by omega) (by omega)
    rw [h _ (by omega) (by omega), show hi - (hi - j) = j by omega] at hb
    exact hb
  · have hle : 2 ^ (hi + 1 - lo) ≤ 2 ^ j := Nat.pow_le_pow_right (by decide) (by omega)
    have hf : w.field lo hi < 2 ^ (hi + 1 - lo) := Nat.mod_lt _ (Nat.two_pow_pos _)
    rw [Nat.testBit_lt_two_pow (Nat.lt_of_lt_of_le hf hle), Nat.testBit_lt_two_pow (Nat.lt_of_lt_of_le hn hle)]

/-! ### Rows of a register table (R5) -/

/-- Bit `b` of a register lies in the field of the row. -/
def Row.covers (r : Row) (b : Nat) : Prop := r.field.lo ≤ b ∧ b ≤ r.field.hi

/-- Two rows share no bit: their bits are disjoint, or no element of the one stands at an offset of the other. -/
def Row.apart (r q : Row) : Bool :=
  decide (r.field.hi < q.field.lo) || decide (q.field.hi < r.field.lo) ||
    (List.range r.count).all fun i => (q.indexAt (r.field.ix i).off).isNone

/-- The row names bits of a doubleword, a reset value that fits in them, and elements that stand at different offsets. -/
def Row.fits (r : Row) : Bool :=
  decide (r.field.hi < 64) && decide (r.reset < 2 ^ (r.field.hi + 1 - r.field.lo)) && decide (r.count = 1 ∨ 0 < r.field.stride)

/-- Every row of the table fits, and no two share a bit. -/
def rowsSound (rows : List Row) : Bool := rows.all Row.fits && decide (rows.Pairwise fun r q => r.apart q = true)

/-- Where a row holds a register, one of its elements stands. -/
theorem Row.off_of_indexAt {r : Row} {off i : Nat} (h : r.indexAt off = some i) : i < r.count ∧ (r.field.ix i).off = off := by
  simp only [Row.indexAt, Field.ix] at h ⊢
  split at h
  · next hc =>
    split at h
    · next ho => cases h; simp [hc, ho]
    · cases h
  · split at h
    · cases h
    · next hlt =>
      split at h
      · next hm =>
        cases h
        have := Nat.div_mul_cancel (Nat.dvd_of_mod_eq_zero hm.1)
        exact ⟨hm.2, by omega⟩
      · cases h

/-- Every element of a row is found at its offset. -/
theorem Row.indexAt_ix {r : Row} {i : Nat} (hs : r.count = 1 ∨ 0 < r.field.stride) (hi : i < r.count) :
    r.indexAt (r.field.ix i).off = some i := by
  simp only [Row.indexAt, Field.ix]
  split
  · simp [show i = 0 by omega]
  · next hc =>
    have hpos := hs.resolve_left hc
    simp [Nat.mul_div_cancel _ hpos, hi]

theorem mem_rowsAt {rows : List Row} {r : Row} {off : Nat} : r ∈ rowsAt rows off ↔ r ∈ rows ∧ (r.indexAt off).isSome = true :=
  List.mem_filter

theorem fits_of_mem {rows : List Row} {r : Row} (h : rowsSound rows = true) (hr : r ∈ rows) :
    r.field.hi < 64 ∧ r.reset < 2 ^ (r.field.hi + 1 - r.field.lo) ∧ (r.count = 1 ∨ 0 < r.field.stride) := by
  simp only [rowsSound, Bool.and_eq_true, List.all_eq_true] at h
  simpa [Row.fits, and_assoc] using h.1 r hr

theorem not_covers_of_apart {r q : Row} {off b : Nat} (h : r.apart q = true) (hr : (r.indexAt off).isSome = true)
    (hq : (q.indexAt off).isSome = true) (hb : r.covers b) : ¬q.covers b := by
  obtain ⟨i, hi⟩ := Option.isSome_iff_exists.1 hr
  obtain ⟨hlt, rfl⟩ := Row.off_of_indexAt hi
  simp only [Row.apart, Bool.or_eq_true, decide_eq_true_eq, List.all_eq_true, List.mem_range] at h
  simp only [Row.covers] at hb ⊢
  rcases h with (h | h) | h
  · omega
  · omega
  · simp [Option.isNone_iff_eq_none.1 (h i hlt)] at hq

/-- The fields of one register are disjoint. -/
theorem rowsAt_disjoint {rows : List Row} (h : rowsSound rows = true) (off : Nat) :
    (rowsAt rows off).Pairwise fun r q => ∀ b, r.covers b → ¬q.covers b := by
  simp only [rowsSound, Bool.and_eq_true, decide_eq_true_eq] at h
  refine (h.2.filter _).imp_of_mem fun {r q} hr hq hrq b => ?_
  exact not_covers_of_apart hrq (mem_rowsAt.1 hr).2 (mem_rowsAt.1 hq).2

/-! ### Folds over the rows of a register -/

/-- Rows that do not cover a bit leave it. -/
theorem bit_foldl_outside {g : Word → Row → Word} {l : List Row} {b : Nat}
    (hg : ∀ r ∈ l, ¬r.covers b → ∀ w, (g w r).bit b = w.bit b) (hl : ∀ r ∈ l, ¬r.covers b) (w : Word) :
    (l.foldl g w).bit b = w.bit b := by
  induction l generalizing w with
  | nil => rfl
  | cons q l ih =>
    rw [List.forall_mem_cons] at hg hl
    rw [List.foldl_cons, ih hg.2 hl.2, hg.1 hl.1]

/-- Where the rows are disjoint, the row that covers a bit alone decides it. -/
theorem bit_foldl_inside {g : Word → Row → Word} {l : List Row} {r : Row} {b : Nat}
    (hg : ∀ q ∈ l, ¬q.covers b → ∀ w, (g w q).bit b = w.bit b) (hl : l.Pairwise fun r q => ∀ b, r.covers b → ¬q.covers b)
    (hr : r ∈ l) (hb : r.covers b) (w : Word) : ∃ w', w'.bit b = w.bit b ∧ (l.foldl g w).bit b = (g w' r).bit b := by
  induction l generalizing w with
  | nil => cases hr
  | cons q l ih =>
    obtain ⟨hq, htl⟩ := List.pairwise_cons.1 hl
    obtain ⟨hgq, hgl⟩ := List.forall_mem_cons.1 hg
    rcases List.mem_cons.1 hr with rfl | hr
    · exact ⟨w, rfl, bit_foldl_outside hgl (fun p hp => hq p hp b hb) (g w r)⟩
    · obtain ⟨w', hw', e⟩ := ih hgl htl hr (g w q)
      exact ⟨w', hw'.trans (hgq (fun hc => hq r hr b hc hb) w), e⟩

/-! ### The tables are sound -/

theorem rowsSound_hdr : rowsSound rows_hdr = true := by decide +kernel

/-- The root alone among the units of its type has rows of its own (R472). -/
theorem pageRows_eq_first (u : UnitId) (h : u ≠ uRoot) : pageRows u = pageRows ⟨u.type, 0⟩ := by
  obtain ⟨t, i⟩ := u
  cases t
  case node =>
    have hi : i ≠ 6 := fun hi => h (by rw [hi])
    simp [pageRows, hi]
  all_goals rfl

/-- A page's own rows are sound and lie past the header (R34). -/
theorem rowsSound_first (t : UnitType) :
    rowsSound (pageRows ⟨t, 0⟩) = true ∧ ((pageRows ⟨t, 0⟩).all fun r => decide (0x80 ≤ r.field.off)) = true := by
  cases t <;> decide +kernel

theorem rowsSound_page (u : UnitId) :
    rowsSound (pageRows u) = true ∧ ((pageRows u).all fun r => decide (0x80 ≤ r.field.off)) = true := by
  by_cases h : u = uRoot
  · subst h; decide +kernel
  · rw [pageRows_eq_first u h]; exact rowsSound_first u.type

theorem rowsSound_pageRows (u : UnitId) : rowsSound (pageRows u) = true := (rowsSound_page u).1

theorem off_of_mem_pageRows {u : UnitId} {r : Row} (h : r ∈ pageRows u) : 0x80 ≤ r.field.off := by
  simpa using List.all_eq_true.1 (rowsSound_page u).2 r h

/-! ### What a write of a register changes (R5) -/

/-- What one bit of a field reads after a write of its register. -/
def Access.written (a : Access) (locked old new : Bool) : Bool :=
  match a with
  | .rw => new
  | .rwl => if locked then old else new
  | .w1c => old && !new
  | .ro | .rs | .wo => old

/-- The part of one row in a write of its register. -/
def Row.writeIn (locked : Bool) (v w : Word) (r : Row) : Word :=
  match r.access with
  | .rw => w.setField r.field.lo r.field.hi (v.field r.field.lo r.field.hi)
  | .rwl => if locked then w else w.setField r.field.lo r.field.hi (v.field r.field.lo r.field.hi)
  | .w1c => w &&& ~~~(Word.setField 0 r.field.lo r.field.hi (v.field r.field.lo r.field.hi))
  | _ => w

theorem writtenWord_eq_foldl (rows : List Row) (off : Nat) (locked : Bool) (old v : Word) :
    writtenWord rows off locked old v = (rowsAt rows off).foldl (Row.writeIn locked v) old := rfl

/-- A field set from the same field of another word takes its bits. -/
theorem bit_setField_field (w v : Word) {lo hi b : Nat} (hhi : hi < 64) (hb : b < 64) :
    (w.setField lo hi (v.field lo hi)).bit b = if lo ≤ b ∧ b ≤ hi then v.bit b else w.bit b := by
  rw [bit_setField w _ hhi hb]
  split
  · next h => exact testBit_field v hhi h.1 h.2
  · rfl

theorem bit_and_not (w v : Word) {b : Nat} (hb : b < 64) : Word.bit (w &&& ~~~v) b = (w.bit b && !v.bit b) := by
  simp [Word.bit, show 63 - b < 64 by omega]

theorem bit_zero (b : Nat) : Word.bit 0 b = false := by simp [Word.bit]

/-- One row writes the bits that it covers as its access code says, and no other. -/
theorem bit_writeIn {r : Row} (locked : Bool) (v w : Word) {b : Nat} (hhi : r.field.hi < 64) (hb : b < 64) :
    (r.writeIn locked v w).bit b =
      if r.field.lo ≤ b ∧ b ≤ r.field.hi then r.access.written locked (w.bit b) (v.bit b) else w.bit b := by
  unfold Row.writeIn Access.written
  cases r.access
  case rw => exact bit_setField_field w v hhi hb
  case rwl =>
    cases locked
    · exact bit_setField_field w v hhi hb
    · simp
  case w1c =>
    simp only [bit_and_not _ _ hb, bit_setField_field 0 v hhi hb, bit_zero]
    split <;> simp
  all_goals simp

theorem bit_writeIn_outside {rows : List Row} (h : rowsSound rows = true) {off b : Nat} (locked : Bool) (v : Word) (hb : b < 64) :
    ∀ r ∈ rowsAt rows off, ¬r.covers b → ∀ w, (r.writeIn locked v w).bit b = w.bit b := by
  intro r hr hc w
  exact (bit_writeIn locked v w (fits_of_mem h (mem_rowsAt.1 hr).1).1 hb).trans (if_neg hc)

/-- A write gives each bit of a field what the field's access code says. -/
theorem bit_writtenWord_field {rows : List Row} (h : rowsSound rows = true) {off b : Nat} {r : Row} (locked : Bool) (old v : Word)
    (hr : r ∈ rowsAt rows off) (hc : r.covers b) :
    (writtenWord rows off locked old v).bit b = r.access.written locked (old.bit b) (v.bit b) := by
  have hhi := (fits_of_mem h (mem_rowsAt.1 hr).1).1
  have hb : b < 64 := Nat.lt_of_le_of_lt hc.2 hhi
  obtain ⟨w, hw, e⟩ := bit_foldl_inside (g := Row.writeIn locked v) (bit_writeIn_outside h locked v hb) (rowsAt_disjoint h off) hr hc old
  rw [writtenWord_eq_foldl, e, ← hw]
  exact (bit_writeIn locked v w hhi hb).trans (if_pos hc)

/-- A write leaves the bits outside the fields of its register. -/
theorem bit_writtenWord_outside {rows : List Row} (h : rowsSound rows = true) {off b : Nat} (locked : Bool) (old v : Word)
    (hb : b < 64) (hout : ∀ r ∈ rowsAt rows off, ¬r.covers b) : (writtenWord rows off locked old v).bit b = old.bit b :=
  bit_foldl_outside (bit_writeIn_outside h locked v hb) hout old

/-- Doublewords of unit pages have keys of their own. -/
theorem pageKey_ne {u v : UnitId} {off o : Nat} (ho : o < 4096) (hoff : off < 4096) (h : v.key ≠ u.key ∨ o ≠ off) :
    pageKey v o ≠ pageKey u off := by
  unfold pageKey
  omega

/-- A write of a register leaves every other doubleword of every unit page. -/
theorem word_writeFields_ne (s : State) {u u' : UnitId} {off off' : Nat} (v : Word) (h : off < 4096) (h' : off' < 4096)
    (hne : u'.key ≠ u.key ∨ off' ≠ off) : (s.writeFields u off v).word u' off' = s.word u' off' :=
  word_setWord_ne s u u' off off' _ (pageKey_ne h' h hne)

/-- Settles O26: the fields of one register are disjoint (`rowsSound`), so each bit is decided by the one row that covers it. -/
theorem registerWritesFollowAccessCodes : Obligations.RegisterWritesFollowAccessCodes := by
  unfold Obligations.RegisterWritesFollowAccessCodes
  refine ⟨fun u off locked old v rows hrows => ?_, fun s u u' off off' v hoff hoff' _ _ => ?_⟩
  · have hs : rowsSound rows = true := by
      rcases List.mem_cons.1 hrows with rfl | hrows
      · exact rowsSound_hdr
      · exact List.mem_singleton.1 hrows ▸ rowsSound_pageRows u
    refine ⟨fun r hr b hlo hhi => ?_, fun b hb hout => ?_⟩
    · have hw := bit_writtenWord_field hs locked old v hr ⟨hlo, hhi⟩
      cases ha : r.access <;> rw [ha] at hw <;> exact hw
    · refine bit_writtenWord_outside hs locked old v hb fun r hr hc => ?_
      obtain ⟨hlo, hhi⟩ := hc
      rcases hout r hr with h | h <;> omega
  · exact ⟨word_writeFields_ne s v hoff hoff', rfl⟩

end Sys2Proof.Machine
end

section
/-! PROOFS. The state after reset (R7, R40, R88, R431). -/

namespace Sys2Proof.Machine

/-! ### Registers after reset -/

/-- The part of one row in the doubleword that a reset leaves. -/
def Row.resetIn (w : Word) (r : Row) : Word :=
  match r.kind with
  | .hw => w
  | _ => w.setField r.field.lo r.field.hi r.reset

theorem resetWordOf_eq_foldl (rows : List Row) (off : Nat) : resetWordOf rows off = (rowsAt rows off).foldl Row.resetIn 0 := rfl

theorem Row.resetIn_of_value {r : Row} (h : r.kind = .value) (w : Word) :
    r.resetIn w = w.setField r.field.lo r.field.hi r.reset := by
  simp [Row.resetIn, h]

theorem bit_resetIn_outside {r : Row} {b : Nat} (hhi : r.field.hi < 64) (hb : b < 64) (hc : ¬r.covers b) (w : Word) :
    (r.resetIn w).bit b = w.bit b := by
  unfold Row.resetIn
  cases r.kind
  case hw => rfl
  all_goals exact (bit_setField w r.reset hhi hb).trans (if_neg hc)

/-- A field with a reset value reads it in the doubleword that a reset leaves. -/
theorem field_resetWordOf {rows : List Row} (h : rowsSound rows = true) {off : Nat} {r : Row} (hr : r ∈ rowsAt rows off)
    (hk : r.kind = .value) : (resetWordOf rows off).field r.field.lo r.field.hi = r.reset := by
  obtain ⟨hhi, hreset, -⟩ := fits_of_mem h (mem_rowsAt.1 hr).1
  refine field_eq_of_bits hhi hreset fun b hlo hb => ?_
  have hb64 : b < 64 := Nat.lt_of_le_of_lt hb hhi
  obtain ⟨w, -, e⟩ := bit_foldl_inside (g := Row.resetIn)
    (fun q hq hc w => bit_resetIn_outside (fits_of_mem h (mem_rowsAt.1 hq).1).1 hb64 hc w) (rowsAt_disjoint h off) hr ⟨hlo, hb⟩ 0
  rw [resetWordOf_eq_foldl, e, Row.resetIn_of_value hk, bit_setField w r.reset hhi hb64, if_pos ⟨hlo, hb⟩]

@[simp] theorem word_reset (u : UnitId) (off : Nat) : State.reset.word u off = resetWord u off := rfl

theorem resetWord_page (u : UnitId) {off : Nat} (h : 0x80 ≤ off) : resetWord u off = resetWordOf (pageRows u) off := by
  simp [resetWord, show off ≠ 0x048 by omega, show ¬off < 0x80 by omega]

/-- After reset a field with a Reset value reads it, in every element of its array. -/
theorem rd_reset_of_row {u : UnitId} {r : Row} {i : Nat} (hr : r ∈ pageRows u) (hk : r.kind = .value) (hi : i < r.count) :
    State.reset.rd u (r.field.ix i) = r.reset := by
  have hs := rowsSound_pageRows u
  have hat := Row.indexAt_ix (fits_of_mem hs hr).2.2 hi
  have hoff : 0x80 ≤ (r.field.ix i).off := Nat.le_add_right_of_le (off_of_mem_pageRows hr)
  rw [State.rd, word_reset, resetWord_page u hoff]
  exact field_resetWordOf hs (mem_rowsAt.2 ⟨hr, by simp [hat]⟩) hk

/-- REQ after reset: 0b00 where the unit is on (R40), the Reset value of its row elsewhere. -/
theorem rd_reset_req (u : UnitId) : State.reset.rd u Reg.UNIT_POWER.REQ = if u.onAtReset then 0 else 2 := by
  rw [State.rd, word_reset]
  cases h : u.onAtReset
  · have hw : resetWord u 0x048 = resetWordOf rows_hdr 0x048 := by simp [resetWord, h]
    rw [hw]
    exact field_resetWordOf (r := ⟨Reg.UNIT_POWER.REQ, 1, .rw, .value, 2, 124⟩) rowsSound_hdr (by decide) rfl
  · have hw : resetWord u 0x048 = 0 := by simp [resetWord, h]
    rw [hw]
    rfl

/-! ### Units after reset -/

@[simp] theorem unit_reset (u : UnitId) : State.reset.unit u = UnitDyn.reset u := rfl

theorem powerCode_reset (u : UnitId) : State.reset.powerCode u = if u.onAtReset then 0 else 2 := by
  rw [State.powerCode, unit_reset, UnitDyn.reset]
  cases u.onAtReset <;> rfl

/-- Of the units besides the coupled complex, the module and those of the service die are on at reset. -/
theorem onAtReset_iff {u : UnitId} (h : u.type ≠ .complex) : u.onAtReset = true ↔ u.type = .module ∨ u.within uSvcDie = true := by
  simp [UnitId.onAtReset, h]

theorem holder_reset : State.reset.holder = none := by
  have h : State.reset.rd uCube Reg.CUBE_STAT.HOLDER = 3 :=
    rd_reset_of_row (u := uCube) (r := ⟨Reg.CUBE_STAT.HOLDER, 1, .ro, .value, 3, 414⟩) (i := 0) (by decide) rfl (by decide)
  simp [State.holder, h]

/-- Settles O4: the reset word of a register gives each field its own row's reset value, and everything else is read off the reset state. -/
theorem resetLeavesTheResetColumn : Obligations.ResetLeavesTheResetColumn := by
  unfold Obligations.ResetLeavesTheResetColumn
  refine ⟨fun u r i hr hk hi => rd_reset_of_row hr hk hi, rfl, fun u _ hc => ⟨fun hon => ?_, fun hoff => ?_⟩, holder_reset, rfl, rfl,
    canonical_reset⟩
  · have h := (onAtReset_iff hc).2 hon
    simp [rd_reset_req, powerCode_reset, h]
  · have h := mt (onAtReset_iff hc).1 hoff
    simp [rd_reset_req, powerCode_reset, h]

end Sys2Proof.Machine
end

section
/-! PROOFS. Commands on register pages (R5, R16, R28, R131, R275). -/

namespace Sys2Proof.Machine

/-- A write that its register admits names a unit that is there. -/
theorem present_of_admits {s : State} {sender : Sender} {u : UnitId} {off : Nat} (h : Admits s sender u off) :
    s.present u = true := by
  cases hp : s.present u with
  | true => rfl
  | false =>
    unfold Admits State.guardWrite at h
    split at h
    · cases congrArg Prod.snd h
    · rw [if_pos (.inl (by rw [hp]; rfl))] at h
      cases congrArg Prod.snd h

/-! ### REGISTER_WRITE -/

theorem onRegisterWrite_present {s : State} {sender : Sender} {u : UnitId} {off : BitVec 12} {v : Option Word}
    (h : s.present u = true) : onRegisterWrite sender u off v s = s.pageAccess sender u off.toNat v := by
  simp [onRegisterWrite, h]

theorem onRegisterWrite_unoccupied {s : State} {sender : Sender} {u : UnitId} {off : BitVec 12} {v : Option Word}
    (h : s.present u = false) (hn : s.unitInSlot (namedSlot u) = none) :
    onRegisterWrite sender u off v s = s.unoccupiedAccess sender (namedSlot u) off.toNat v := by
  simp [onRegisterWrite, h, hn]

theorem registerWrite_admitted {s : State} {sender : Sender} {u : UnitId} {off : BitVec 12} (v : Word) (hp : s.hasPower)
    (h : Admits s sender u off.toNat) : Completes (.registerWrite sender u off (some v)) s (s.performWrite sender u off.toNat v) :=
  run_of_eq hp ((onRegisterWrite_present (present_of_admits h)).trans (command_of_admits h))

theorem registerWrite_refused {s : State} {sender : Sender} {u : UnitId} {off : BitVec 12} (v : Word) (hp : s.hasPower)
    (hu : s.present u = true) (h : (s.guardWrite sender u off.toNat).2 ≠ .pass) :
    Completes (.registerWrite sender u off (some v)) s (s.guardWrite sender u off.toNat).1 :=
  run_of_eq hp ((onRegisterWrite_present hu).trans (command_of_not_pass h))

/-- A write to an unoccupied slot (R28, R29): the fence lets it pass to an error response, or rejects it. -/
theorem unoccupiedAccess_write (s : State) (sender : Sender) (slot off : Nat) (v : Word) :
    s.unoccupiedAccess sender slot off (some v) =
      if s.fencePasses sender uModule 0x080 then
        (s.accessError uModule off (some sender.unit)).errorTo sender (0xF00000000000 + slot * 4096 + off)
      else s.countRejected sender := by
  simp only [State.unoccupiedAccess, State.deviceWrite]
  split <;> rfl

theorem registerWrite_unoccupied {s : State} {sender : Sender} {u : UnitId} (off : BitVec 12) (v : Word) (hp : s.hasPower)
    (hu : s.present u = false) (hn : s.unitInSlot (namedSlot u) = none) :
    Completes (.registerWrite sender u off (some v)) s
      (if s.fencePasses sender uModule 0x080 then
        (s.accessError uModule off.toNat (some sender.unit)).errorTo sender (0xF00000000000 + namedSlot u * 4096 + off.toNat)
      else s.countRejected sender) :=
  run_of_eq hp ((onRegisterWrite_unoccupied hu hn).trans (unoccupiedAccess_write s sender _ _ v))

theorem registerWrite_read {s : State} {u : UnitId} (n : Fin 2) (off : BitVec 12) (hp : s.hasPower) (hu : s.present u = true) :
    Completes (.registerWrite (.steward n) u off none) s
      ((s.pageRead u off.toNat (some (uSteward n.val))).1.stewardReads n (pageAddr u off.toNat)
        (s.pageRead u off.toNat (some (uSteward n.val))).2) :=
  run_of_eq hp (onRegisterWrite_present hu)

/-! ### UNIT_STICKY_CLR -/

theorem clearOne_own (s : State) (u : UnitId) : s.clearOne u 0 = s.wr u Reg.UNIT_STICKY.OWN 0 := rfl

theorem clearOne_field {s : State} {u : UnitId} {n : Nat} {f : Field} (h0 : n ≠ 0) (hle : n ≤ 253) (hf : fieldOfIndex u n = some f) :
    s.clearOne u n = s.clearRs u f := by
  simp [State.clearOne, h0, hf, hle]

theorem clearOne_none {s : State} {u : UnitId} {n : Nat} (h0 : n ≠ 0) (hf : fieldOfIndex u n = none) : s.clearOne u n = s := by
  simp [State.clearOne, h0, hf]

theorem clrOne_admitted {s : State} {sender : Sender} {u : UnitId} (n : BitVec 8) (hp : s.hasPower) (h : Admits s sender u 0x030) :
    Completes (.clrOne sender u n) s (s.clearOne u n.toNat) :=
  run_of_eq hp (command_of_admits h)

/-! ### DEVICE_STORE_ACCEPT -/

section
variable {s : State} {k : Fin 48} {n : BitVec 8} {p : Posted} (hp : s.hasPower) (hn : (s.core k).posted[n.toNat]? = some p)
include hp hn

theorem deviceStoreAccept_first (hfirst : (((s.core k).posted.take n.toNat).any fun q => q.target.samePage p.target) = false) :
    Completes (.deviceStoreAccept k n) s (s.acceptPosted k k n.toNat) :=
  run_of_eq hp (by simp [onDeviceStoreAccept, hn, hfirst])

theorem deviceStoreAccept_later (hlater : (((s.core k).posted.take n.toNat).any fun q => q.target.samePage p.target) = true) :
    Completes (.deviceStoreAccept k n) s s :=
  run_of_eq hp (by simp [onDeviceStoreAccept, hn, hlater])

end

theorem acceptPosted_memory {s : State} {k : Fin 48} {i phys : Nat} {p : Posted} (hn : (s.core k).posted[i]? = some p)
    (ht : p.target = .memory phys) : s.acceptPosted k k i = (s.dropPosted k i).deviceToMemory p.seam phys p.bytes := by
  simp [State.acceptPosted, hn, ht]

theorem acceptPosted_page {s : State} {k : Fin 48} {i : Nat} {p : Posted} (hn : (s.core k).posted[i]? = some p)
    (ht : ∀ phys, p.target ≠ .memory phys) :
    s.acceptPosted k k i = ((s.dropPosted k i).deviceWrite (.core k) p.target (BitVec.ofNat 64 (beNat p.bytes))).1 := by
  cases h : p.target with
  | memory phys => exact absurd h (ht phys)
  | _ => simp only [State.acceptPosted, hn, h]

theorem cqHeadWrite_completes {s : State} {seam : Fin 64} (head : BitVec 20) (hp : s.hasPower) (hs : seam ≠ 0) :
    Completes (.cqHeadWrite seam head) s (s.spWr seam.val Reg.SP_CQ_HEAD.HEAD head.toNat) :=
  run_of_eq hp (by simp [onCqHeadWrite, hs])

/-- Settles O27: each command is its register's access, judged once by the guard and then performed or refused. -/
theorem registerPageCommandsAct : Obligations.RegisterPageCommandsAct := by
  unfold Obligations.RegisterPageCommandsAct
  intro s sender u hp
  refine ⟨fun off v ha => ⟨fun hlt => ?_, fun hge => ?_⟩, fun off v hu hg => registerWrite_refused v hp hu hg,
    fun off v hu hn => ⟨fun hf => ?_, fun hf => ?_⟩, fun n off hu => ⟨fun w hr => ?_, fun hr => ?_⟩, fun ha => ⟨?_, ?_, ?_, ?_⟩,
    fun seam head hs => cqHeadWrite_completes head hp hs, fun k n p hn hfirst => ⟨fun phys ht => ?_, fun ht => ?_⟩,
    fun k n p hn hlater => deviceStoreAccept_later hp hn hlater⟩
  · simpa [State.performWrite, hlt] using registerWrite_admitted v hp ha
  · simpa [State.performWrite, Nat.not_lt.2 hge] using registerWrite_admitted v hp ha
  · simpa [hf] using registerWrite_unoccupied (sender := sender) off v hp hu hn
  · simpa [hf] using registerWrite_unoccupied (sender := sender) off v hp hu hn
  · have h := registerWrite_read n off hp hu
    rwa [hr] at h
  · have h := registerWrite_read n off hp hu
    rwa [hr] at h
  · exact run_of_eq hp (command_of_admits ha)
  · exact clearOne_own s u ▸ clrOne_admitted 0 hp ha
  · intro n f h0 hle hf
    have h0 : n.toNat ≠ 0 := fun h => h0 (BitVec.eq_of_toNat_eq h)
    exact clearOne_field h0 hle hf ▸ clrOne_admitted n hp ha
  · intro n h0 hf
    have h0 : n.toNat ≠ 0 := fun h => h0 (BitVec.eq_of_toNat_eq h)
    have h := clrOne_admitted n hp ha
    rwa [clearOne_none h0 hf] at h
  · exact acceptPosted_memory hn ht ▸ deviceStoreAccept_first hp hn hfirst
  · exact acceptPosted_page hn ht ▸ deviceStoreAccept_first hp hn hfirst

end Sys2Proof.Machine
end

section
/-! PROOFS. Reset, power and owner commands (R17, R39, R41, R42, R482, R484). -/

namespace Sys2Proof.Machine

/-! ### UNIT_RESET -/

theorem uResetRequest_admitted {s : State} {sender : Sender} {u : UnitId} (allow : Bool) (hp : s.hasPower)
    (h : Admits s sender u 0x040) : Completes (.uResetRequest sender u allow) s (s.reqWrite sender u allow) :=
  run_of_eq hp (command_of_admits h)

theorem reqWrite_ignored {s : State} {u : UnitId} (sender : Sender) (allow : Bool) (h : s.resetIgnored u = true) :
    s.reqWrite sender u allow = s := if_pos h

theorem reqWrite_module {s : State} {u : UnitId} (sender : Sender) (allow : Bool) (h : s.resetIgnored u = false)
    (hu : u.type = .module) : s.reqWrite sender u allow = s.mRequest := by
  simp [State.reqWrite, h, hu]

/-- On every page but those of the module and the complex, REQ asks for a U reset of the unit. -/
theorem reqWrite_unit {s : State} {u : UnitId} (sender : Sender) (allow : Bool) (h : s.resetIgnored u = false)
    (hm : u.type ≠ .module) (hc : u.type ≠ .complex) : s.reqWrite sender u allow = s.resetRequest u := by
  unfold State.reqWrite
  rw [if_neg (Bool.eq_false_iff.1 h)]
  split
  · next ht => exact absurd ht hm
  · next ht => exact absurd ht hc
  · rfl

theorem resetRequest_absorbed {s : State} {u : UnitId} (h : s.inReset u = true ∨ (s.unit u).heldReset = true) :
    s.resetRequest u = s.setUnit u { s.unit u with absorbed := true } := if_pos h

theorem resetRequest_starts {s : State} {u : UnitId} (hr : s.inReset u = false) (hh : (s.unit u).heldReset = false)
    (hc : s.copyHolds u = false) : s.resetRequest u = s.resetStart u := by
  simp [State.resetRequest, hr, hh, hc]

theorem uResetComplete_module {s : State} {u : UnitId} (persist : Bool) (hp : s.hasPower) (hu : u.type = .module) :
    Completes (.uResetComplete u persist) s s.mEnd :=
  run_of_eq hp (if_pos hu)

/-- The root of a reset that nothing above it resets too ends it. -/
theorem uResetComplete_root {s : State} {u : UnitId} (persist : Bool) (hp : s.hasPower) (hu : u.type ≠ .module)
    (hroot : (s.unit u).resetRoot = true) (hr : (s.unit u).resetting = true)
    (habove : (u.ancestors.any fun a => (s.unit a).resetting) = false) :
    Completes (.uResetComplete u persist) s (s.resetEnd u persist) :=
  run_of_eq hp (by simp [onUResetComplete, hu, hroot, hr, habove])

/-! ### UNIT_POWER -/

/-- Is a write of REQ allowed, and does it change REQ (R18, R41)? -/
def State.powerChanges (s : State) (u : UnitId) (req : Nat) : Bool :=
  !(!ownPower u.type || (s.unit u).fenced || (req == 3 && u.type != .tile) || (req == 1 && u.type == .memch)
    || (req != 2 && !s.mayPower u) || (u.type == .core && (s.core u.inst).role == .unassigned && req < 2))
    && req != s.rd u Reg.UNIT_POWER.REQ

theorem powerChanges_iff {s : State} {u : UnitId} {req : BitVec 2} :
    s.powerChanges u req.toNat = true ↔
      ownPower u.type = true ∧ (s.unit u).fenced = false ∧ (req = 3 → u.type = .tile) ∧ (req = 1 → u.type ≠ .memch) ∧
        (req ≠ 2 → s.mayPower u = true) ∧ (u.type = .core → (s.core u.inst).role = .unassigned → 2 ≤ req.toNat) ∧
        req.toNat ≠ s.rd u Reg.UNIT_POWER.REQ := by
  have hnum (n : BitVec 2) : req = n ↔ req.toNat = n.toNat := BitVec.toNat_inj.symm
  simp only [State.powerChanges, Bool.not_or, Bool.not_not, Bool.not_and, Bool.and_eq_true, Bool.not_eq_eq_eq_not, Bool.not_true,
    Bool.or_eq_true, beq_eq_false_iff_ne, ne_eq, bne_eq_false_iff_eq, and_assoc, decide_eq_false_iff_not, Nat.not_lt, Nat.succ_le_iff,
    or_assoc, bne_iff_ne, BitVec.ofNat_eq_ofNat, hnum, BitVec.toNat_ofNat, Nat.reducePow, Nat.mod_succ, Decidable.imp_iff_not_or,
    Nat.one_mod, Nat.reduceMod, Decidable.not_not]

/-- A write that changes REQ starts the transition, and on the page of a core or a tile sets PIN. -/
theorem powerWrite_changes {s : State} {u : UnitId} {req : Nat} (pin : Bool) (h : s.powerChanges u req = true) :
    s.powerWrite u req pin =
      ((s.wr u Reg.UNIT_POWER.PIN (pin || u.type == .core || u.type == .tile).toNat).wr u Reg.UNIT_POWER.REQ req).askPower u
        (powerOfReq req) := by
  unfold State.powerChanges at h
  simp only [State.powerWrite, h, if_true, Bool.true_and, ← Bool.or_assoc, Bool.toNat, Bool.cond_eq_ite]

/-- Any other write of UNIT_POWER only sets PIN as written. -/
theorem powerWrite_unchanged {s : State} {u : UnitId} {req : Nat} (pin : Bool) (h : s.powerChanges u req = false) :
    s.powerWrite u req pin =
      (let t := s.wr u Reg.UNIT_POWER.PIN pin.toNat
       if u.type = .core then t.gateIdle u.inst else t) := by
  unfold State.powerChanges at h
  simp only [State.powerWrite, h, Bool.false_eq_true, if_false, Bool.false_and, Bool.or_false, Bool.toNat, Bool.cond_eq_ite]

theorem unitPowerWrite_admitted {s : State} {sender : Sender} {u : UnitId} (req : BitVec 2) (pin : Bool) (hp : s.hasPower)
    (h : Admits s sender u 0x048) : Completes (.unitPowerWrite sender u req pin) s (s.powerWrite u req.toNat pin) :=
  run_of_eq hp (command_of_admits h)

/-- A transition that no reset, no work unit and nothing unpowered above it holds completes. -/
theorem powerTransitionDone_enters {s : State} {u : UnitId} {p : PowerState} {at_ : Nat} (hp : s.hasPower)
    (ht : (s.unit u).transition = some (p, at_)) (hr : s.inReset u = false)
    (hw : p = .run ∨ ((coresIn u).any fun k => (s.core k).wu.isSome) = false) (hm : p = .off ∨ s.mayPower u = true) :
    Completes (.powerTransitionDone u) s (s.enterPower u p) := by
  have hwork : ¬(p ≠ .run ∧ (coresIn u).any (fun k => (s.core k).wu.isSome) = true) := by
    rintro ⟨hne, hany⟩
    exact Bool.false_ne_true ((hw.resolve_left hne).symm.trans hany)
  have habove : ¬(p ≠ .off ∧ (!s.mayPower u) = true) := by
    rintro ⟨hne, hnot⟩
    simp [hm.resolve_left hne] at hnot
  refine run_of_eq hp ?_
  unfold onPowerTransitionDone
  simp only [ht, hr, Bool.false_eq_true, if_false, if_neg hwork, if_neg habove]

/-! ### UNIT_OWNER -/

/-- What a write of OWNER that is not refused leaves in this module (R42): OWNER of every unit that it reaches, and the pits of the haulers
whose owner changes cleared (R367). -/
def State.ownedBy (s : State) (u : UnitId) (n : Nat) : State :=
  State.each (s.ownerChanges u n) (fun h s => if s.powered (uHauler h) then s.clearPit h (s.hauler h).mode else s)
    (State.each (ownerReach u n) (fun v s => s.wr v Reg.UNIT_OWNER.OWNER n) s)

theorem ownerHeld_of_parent {s : State} {u p : UnitId} (sender : Sender) (h : u.parent = some p) :
    s.ownerHeld sender u = (s.rd p Reg.UNIT_OWNER.OWNER != 0xFF) := by
  simp [State.ownerHeld, h]

theorem ownerWrite_locked {s : State} {u : UnitId} (sender : Sender) (n : Nat) (h : s.locked u = true) :
    s.ownerWrite sender u n = s := if_pos h

theorem ownerRefused_iff {s : State} {sender : Sender} {u : UnitId} {n : Nat} (hl : s.locked u = false) :
    s.ownerRefused sender u n = true ↔
      (s.ownerHeld sender u = true ∨ (64 ≤ n ∧ n ≠ 0xFF)) ∨ (s.ownerChanges u n).all s.ownerFree = false := by
  simp only [State.ownerRefused, hl, Bool.not_false, Bool.true_and, Bool.or_eq_true, Bool.and_eq_true, decide_eq_true_eq, bne_iff_ne,
    Bool.not_eq_true']
  rw [or_comm (b := s.ownerHeld sender u = true)]

theorem ownerWrite_refused {s : State} {sender : Sender} {u : UnitId} {n : Nat} (hl : s.locked u = false)
    (h : s.ownerRefused sender u n = true) : s.ownerWrite sender u n = s.pageError sender u 0x050 := by
  simp [State.ownerWrite, hl, h]

theorem ownerWrite_performed {s : State} {sender : Sender} {u : UnitId} {n : Nat} (hl : s.locked u = false)
    (h : s.ownerRefused sender u n = false) :
    s.ownerWrite sender u n =
      if u.type = .complex ∧ n ≠ 0xFF then (s.ownedBy u n).toMembers sender 0x050 (n * 2 ^ 56) else s.ownedBy u n := by
  simp only [State.ownerWrite, hl, h, Bool.false_eq_true, if_false]
  rfl

theorem unitOwnerWrite_admitted {s : State} {sender : Sender} {u : UnitId} (owner : BitVec 8) (hp : s.hasPower)
    (h : Admits s sender u 0x050) : Completes (.unitOwnerWrite sender u owner) s (s.ownerWrite sender u owner.toNat) :=
  run_of_eq hp (command_of_admits h)

/-- Settles O30: each command is one write judged by its own rule, with one equation per outcome of the rule. -/
theorem unitHeaderCommandsAct : Obligations.UnitHeaderCommandsAct := by
  unfold Obligations.UnitHeaderCommandsAct
  intro s sender u hp
  refine ⟨fun allow ha => ?_, fun persist => ⟨fun hu _ _ => uResetComplete_module persist hp hu, fun hu hroot hr habove =>
    uResetComplete_root persist hp hu hroot hr habove⟩, fun req pin ha => ?_, fun p at_ ht hr hw hm =>
    powerTransitionDone_enters hp ht hr hw hm, fun owner ha => ?_⟩
  · have h := uResetRequest_admitted allow hp ha
    refine ⟨fun hi => ?_, fun hi hu => ?_, fun hi hm hc => ?_⟩
    · rwa [reqWrite_ignored sender allow hi] at h
    · rwa [reqWrite_module sender allow hi hu] at h
    · rw [reqWrite_unit sender allow hi hm hc] at h
      exact ⟨fun hb => resetRequest_absorbed hb ▸ h, fun hr hh hn => resetRequest_starts hr hh hn ▸ h⟩
  · have h := unitPowerWrite_admitted req pin hp ha
    refine ⟨fun hn => ?_, fun hy => ?_⟩
    · rwa [powerWrite_unchanged pin (Bool.eq_false_iff.2 (mt powerChanges_iff.1 hn))] at h
    · rwa [powerWrite_changes pin (powerChanges_iff.2 hy)] at h
  · have h := unitOwnerWrite_admitted owner hp ha
    refine ⟨fun p hpar => ownerHeld_of_parent sender hpar, fun hl => ?_, fun hl hbad => ?_, fun hl hheld hn => ?_⟩
    · rwa [ownerWrite_locked sender _ hl] at h
    · rwa [ownerWrite_refused hl ((ownerRefused_iff hl).2 (.inl hbad))] at h
    · have hgood : ¬(s.ownerHeld sender u = true ∨ (64 ≤ owner.toNat ∧ owner.toNat ≠ 0xFF)) := by
        rintro (hh | ⟨hle, hne⟩)
        · exact Bool.false_ne_true (hheld.symm.trans hh)
        · rcases hn with hlt | he
          · omega
          · exact hne he
      have hfree (hall : (s.ownerChanges u owner.toNat).all s.ownerFree = true) : s.ownerRefused sender u owner.toNat = false :=
        Bool.eq_false_iff.2 fun hr => ((ownerRefused_iff hl).1 hr).elim hgood fun hf => Bool.false_ne_true (hf.symm.trans hall)
      refine ⟨fun hbusy => ?_, fun hall hlocal => ?_, fun hall hu hne => ?_⟩
      · rwa [ownerWrite_refused hl ((ownerRefused_iff hl).2 (.inr hbusy))] at h
      · rwa [ownerWrite_performed hl (hfree hall), if_neg fun hc => hlocal.elim (absurd hc.1) (absurd · hc.2)] at h
      · rwa [ownerWrite_performed hl (hfree hall), if_pos ⟨hu, hne⟩] at h

end Sys2Proof.Machine
end

section
/-! PROOFS. Commands of the checkweigher (R10, R203-R214). -/

namespace Sys2Proof.Machine

/-! ### PROMOTE, ROTATE and RELOCATE -/

/-- The state that a command whose roles fit leaves while it runs: its source asked or acknowledged, its destination promoting (R202). -/
def State.ckwBegins (s : State) (t op : Nat) : State :=
  let x := s.rd (uTile t) Reg.CKW_CMD.SRC
  let y := s.rd (uTile t) Reg.CKW_CMD.DST
  let b := if op = 2 then s.askOff (slotCore t x) 5 else s.ackCore (slotCore t x)
  let v := if op = 3 then b else b.setCore (slotCore t y) { b.core (slotCore t y) with role := .promoting }
  { v with ckwRuns := v.ckwRuns.put none t (some { op := op, src := x, dst := y, started := v.now, result := 1 }) }

/-- Each of the three commands is a write of CKW_CMD with its OP. -/
theorem ckwCommand_admitted {s : State} {sender : Sender} {tile : Fin 4} {src dst : BitVec 4} {op : Nat} {c : Instr} (hp : s.hasPower)
    (ha : Admits s sender (uTile tile.val) 0x088)
    (hc : (op, c) ∈ [(1, Instr.promote sender tile src dst), (2, .rotate sender tile src dst), (3, .relocate sender tile src dst)]) :
    let u := uTile tile.val
    let a := ((s.wr u Reg.CKW_CMD.OP op).wr u Reg.CKW_CMD.SRC src.toNat).wr u Reg.CKW_CMD.DST dst.toNat
    op ≠ 0 ∧ Completes c s (a.ckwStart tile.val op) := by
  simp only [List.mem_cons, Prod.mk.injEq, List.not_mem_nil, or_false] at hc
  obtain ⟨rfl, rfl⟩ | ⟨rfl, rfl⟩ | ⟨rfl, rfl⟩ := hc
  · exact ⟨by decide, run_of_eq hp (command_of_admits ha)⟩
  · exact ⟨by decide, run_of_eq hp (command_of_admits ha)⟩
  · exact ⟨by decide, run_of_eq hp (command_of_admits ha)⟩

theorem ckwStart_running {s : State} {t : Nat} (op : Nat) (h : (s.ckwRuns.look none t).isSome = true) : s.ckwStart t op = s :=
  if_pos (.inl h)

section
variable {s : State} {t op : Nat} (h0 : op ≠ 0) (hn : s.ckwRuns.look none t = none)
include h0 hn

theorem ckwStart_unfit
    (hf : s.rolesFit t op (s.rd (uTile t) Reg.CKW_CMD.SRC) (s.rd (uTile t) Reg.CKW_CMD.DST) = false) :
    s.ckwStart t op = s.wr (uTile t) Reg.CKW_CMD.RESULT 2 := by
  simp [State.ckwStart, hn, h0, hf]

theorem ckwStart_fits
    (hf : s.rolesFit t op (s.rd (uTile t) Reg.CKW_CMD.SRC) (s.rd (uTile t) Reg.CKW_CMD.DST) = true) :
    s.ckwStart t op = s.ckwBegins t op := by
  simp only [State.ckwStart, hn, h0, hf, Option.isSome_none, Bool.false_eq_true, or_self, if_false, Bool.not_true]
  rfl

end

/-! ### CKW_CMD_DONE -/

/-- A run of a tile ends with what its operation leaves and its RESULT; a U reset held for its source follows (R206, R214). -/
def State.ckwFinish (e : State × Nat) (t x : Nat) : State := (e.1.ckwEnd t e.2).heldResetNow x

section
variable {s : State} {tile : Fin 4} {r : CkwRun} (dstFails : Bool) (copy : CopyRead) (hp : s.hasPower)
  (hr : s.ckwRuns.look none tile.val = some r)
include hp hr

theorem ckwCmdDone_promote (ho : r.op = 1) :
    Completes (.ckwCmdDone tile dstFails copy) s (State.ckwFinish
      (s.promoteEnd tile.val (slotCore tile.val r.src) (slotCore tile.val r.dst) (r.result == 6) 1 dstFails copy)
      tile.val (slotCore tile.val r.src)) :=
  run_of_eq hp (by simp [onCkwCmdDone, State.ckwFinish, hr, ho])

theorem ckwCmdDone_relocate (ho : r.op = 3) :
    Completes (.ckwCmdDone tile dstFails copy) s (State.ckwFinish
      (s.relocateEnd tile.val (slotCore tile.val r.src) (r.result == 6) copy) tile.val (slotCore tile.val r.src)) :=
  run_of_eq hp (by simp [onCkwCmdDone, State.ckwFinish, hr, ho])

theorem ckwCmdDone_rotate (ho : r.op = 2) (hf : (s.core (slotCore tile.val r.src)).role ≠ .failed)
    (hw : (s.core (slotCore tile.val r.src)).wu = none) :
    Completes (.ckwCmdDone tile dstFails copy) s (State.ckwFinish
      (s.rotateEnd tile.val (slotCore tile.val r.src) (slotCore tile.val r.dst) dstFails) tile.val (slotCore tile.val r.src)) :=
  run_of_eq hp (by simp [onCkwCmdDone, State.ckwFinish, hr, ho, hf, hw])

/-- A ROTATE waits while its source holds a work unit. -/
theorem ckwCmdDone_rotate_waits (ho : r.op = 2) (hf : (s.core (slotCore tile.val r.src)).role ≠ .failed)
    (hw : (s.core (slotCore tile.val r.src)).wu ≠ none) : Completes (.ckwCmdDone tile dstFails copy) s s :=
  run_of_eq hp (by simp [onCkwCmdDone, hr, ho, hf, Option.isSome_iff_ne_none.2 hw])

/-- A ROTATE whose source has failed ends as a PROMOTE does, and acknowledges the canary interval of its source. -/
theorem ckwCmdDone_rotate_failed (ho : r.op = 2) (hf : (s.core (slotCore tile.val r.src)).role = .failed) :
    let e := s.promoteEnd tile.val (slotCore tile.val r.src) (slotCore tile.val r.dst) (r.result == 6) 9 dstFails copy
    Completes (.ckwCmdDone tile dstFails copy) s
      (((e.1.ckwEnd tile.val e.2).ackCore (slotCore tile.val r.src)).heldResetNow (slotCore tile.val r.src)) :=
  run_of_eq hp (by simp [onCkwCmdDone, hr, ho, hf])

end

/-! ### WATCH_END, ASSIGN and FENCED -/

theorem watchEnd_resumes {s : State} {k : Fin 48} (hp : s.hasPower) (hr : (s.core k).role = .watch) (hw : (s.core k).watchEnd ≤ s.now) :
    Completes (.watchEnd k) s (s.setCore k { s.core k with role := .active }) :=
  run_of_eq hp (if_pos ⟨hr, hw⟩)

theorem assign_admitted {s : State} {sender : Sender} {tile : Fin 4} (hp : s.hasPower) (ha : Admits s sender (uTile tile.val) 0x080) :
    Completes (.assign sender tile) s ((s.fencedWrite tile.val 0).assign tile.val) :=
  run_of_eq hp (command_of_admits ha)

theorem fencedWrite_admitted {s : State} {sender : Sender} {tile : Fin 4} (m : BitVec 12) (hp : s.hasPower)
    (ha : Admits s sender (uTile tile.val) 0x080) :
    Completes (.fencedWrite sender tile m) s (s.fencedWrite tile.val m.toNat) :=
  run_of_eq hp (command_of_admits ha)

theorem fencedWrite_locked {s : State} {t : Nat} (mask : Nat) (h : s.locked (uTile t) = true) : s.fencedWrite t mask = s := if_pos h

theorem fencedWrite_unlocked {s : State} {t : Nat} (mask : Nat) (h : s.locked (uTile t) = false) :
    s.fencedWrite t mask = State.each (coresIn (uTile t)) (fun k s =>
      if slotBit mask (k % 12) ∧ ((s.core k).role = .pawn ∨ (s.unit (uCore k)).power = .off) then (s.fence (uCore k)).fenceSlot k else s) s :=
  if_neg (by simp [h])

/-- Settles O42: a command of a tile starts by its roles and ends by its operation, and CKW_SLOTS acts slot by slot. -/
theorem checkweigherCommandsAct : Obligations.CheckweigherCommandsAct := by
  unfold Obligations.CheckweigherCommandsAct
  intro s sender tile src dst k hp
  refine ⟨fun ha op c hc => ?_, fun r dstFails copy hr => ⟨ckwCmdDone_promote dstFails copy hp hr, ckwCmdDone_relocate dstFails copy hp hr,
    ckwCmdDone_rotate dstFails copy hp hr, ckwCmdDone_rotate_waits dstFails copy hp hr, ckwCmdDone_rotate_failed dstFails copy hp hr⟩,
    watchEnd_resumes hp, fun ha => ⟨assign_admitted hp ha, fun hl m => ?_, fun hl m => ?_⟩⟩
  · obtain ⟨h0, h⟩ := ckwCommand_admitted hp ha hc
    refine ⟨fun hrun => ?_, fun hn hf => ?_, fun hn hf => ?_⟩
    · rwa [ckwStart_running op hrun] at h
    · rwa [ckwStart_unfit h0 hn hf] at h
    · rw [ckwStart_fits h0 hn hf] at h
      exact h
  · have h := fencedWrite_admitted m hp ha
    rwa [fencedWrite_locked m.toNat hl] at h
  · have h := fencedWrite_admitted m hp ha
    rwa [fencedWrite_unlocked m.toNat hl] at h

end Sys2Proof.Machine
end

section
/-! PROOFS. The fence (R19, R32, R400, R433). -/

namespace Sys2Proof.Machine

/-! ### Writes that the fence does not let pass -/

/-- A steward passes the fence only as the holder, in CUBE_OP, or in its own page outside UNIT_OWNER. -/
theorem fencePasses_steward_false {s : State} {n : Fin 2} {u : UnitId} {off : Nat} (hn : s.holder ≠ some n.val)
    (hc : ¬(u = uCube ∧ off = 0x098)) (ho : u ≠ uSteward n.val ∨ off = 0x050) : s.fencePasses (.steward n) u off = false := by
  have hcube : u = uCube → off ≠ 0x098 := not_and.1 hc
  have hown : u = uSteward n.val → off = 0x050 := fun hu => ho.resolve_left (not_not_intro hu)
  simpa [State.fencePasses, hn, hcube] using ⟨hcube, hown⟩

/-- What a core or hauler needs to pass the fence: a holder, SEAM0_WR, and another register than UNIT_OWNER. -/
theorem fencePasses_seam0_false {s : State} {off : Nat}
    (h : s.holder = none ∨ s.flag uCube Reg.CUBE_CFG.SEAM0_WR = false ∨ off = 0x050) :
    (s.holder.isSome && s.flag uCube Reg.CUBE_CFG.SEAM0_WR && off != 0x050) = false := by
  rcases h with h | h | h <;> simp [h]

theorem fencePasses_remote_false {s : State} {holds : Bool} {u : UnitId} {off : Nat}
    (h : holds = false ∨ s.flag uModule Reg.CPL_CX.REMOTE_WR = false) : s.fencePasses (.remote holds) u off = false := by
  rcases h with h | h <;> simp [State.fencePasses, h]

section
variable {s : State} {sender : Sender} {u : UnitId} {off : Nat} (hf : s.fencePasses sender u off = false)
include hf

theorem guardWrite_fenced : s.guardWrite sender u off = (s.countRejected sender, .rejected) := by
  simp [State.guardWrite, hf]

/-- A command written in a register behind the fence is only counted. -/
theorem command_fenced (act : State → State) : s.command sender u off act = s.countRejected sender := by
  unfold State.command
  rw [guardWrite_fenced hf]

theorem registerCommand_fenced {c : Instr} {act : State → State} (hp : s.hasPower)
    (hc : exec c s = s.run fun s => s.command sender u off act) : Completes c s (s.countRejected sender) :=
  hc.trans (run_of_eq hp (command_fenced hf act))

end

theorem registerWrite_fenced {s : State} {sender : Sender} {u : UnitId} {off : BitVec 12} (v : Word) (hp : s.hasPower)
    (hu : s.present u = true) (hf : s.fencePasses sender u off.toNat = false) :
    Completes (.registerWrite sender u off (some v)) s (s.countRejected sender) :=
  run_of_eq hp ((onRegisterWrite_present hu).trans (command_fenced hf _))

/-- Every command that writes a register of a page is rejected where the fence rejects the write of its doubleword. -/
theorem pageCommands_fenced {s : State} {sender : Sender} {u : UnitId} {off : BitVec 12} (v : Word) (index : BitVec 8)
    (allow pin : Bool) (req : BitVec 2) (owner : BitVec 8) (hp : s.hasPower) (hf : s.fencePasses sender u off.toNat = false) :
    let t := s.countRejected sender
    (s.present u = true → Completes (.registerWrite sender u off (some v)) s t) ∧
    (off = 0x030 → Completes (.clrOwn sender u) s t ∧ Completes (.clrOne sender u index) s t) ∧
    (off = 0x040 → Completes (.uResetRequest sender u allow) s t) ∧
    (off = 0x048 → Completes (.unitPowerWrite sender u req pin) s t) ∧
    (off = 0x050 → Completes (.unitOwnerWrite sender u owner) s t) := by
  refine ⟨fun hu => registerWrite_fenced v hp hu hf, ?_, ?_, ?_, ?_⟩ <;> rintro rfl
  · exact ⟨registerCommand_fenced hf hp rfl, registerCommand_fenced hf hp rfl⟩
  · exact registerCommand_fenced hf hp rfl
  · exact registerCommand_fenced hf hp rfl
  · exact registerCommand_fenced hf hp rfl

theorem countRejected_steward (s : State) (n : Fin 2) :
    s.countRejected (.steward n) = s.bump uCube (if n = 0 then Reg.CUBE_REJ.REJ0 else Reg.CUBE_REJ.REJ1) := by
  simp only [State.countRejected, Fin.val_eq_zero_iff]

/-- Settles O29: each sender fails its own clause of the fence, and a command behind the fence is only counted. -/
theorem theFenceRejectsWrites : Obligations.TheFenceRejectsWrites := by
  unfold Obligations.TheFenceRejectsWrites
  intro s u off v index allow pin req owner hp
  have hoff (n : BitVec 12) : off.toNat = n.toNat ↔ off = n := BitVec.toNat_inj
  have fenced (sender : Sender) (hf : s.fencePasses sender u off.toNat = false) :=
    pageCommands_fenced v index allow pin req owner hp hf
  refine ⟨fun n hn hc ho => ?_, fun k h => fenced (.core k) ?_, fun h hh => fenced (.hauler h) ?_, fun holds h =>
    fenced (.remote holds) (fencePasses_remote_false h)⟩
  · exact countRejected_steward s n ▸ fenced (.steward n)
      (fencePasses_steward_false hn (mt (And.imp_right (hoff 0x098).1) hc) (ho.imp_right (hoff 0x050).2))
  · exact fencePasses_seam0_false (h.imp_right (Or.imp_right (hoff 0x050).2))
  · exact fencePasses_seam0_false (hh.imp_right (Or.imp_right (hoff 0x050).2))

end Sys2Proof.Machine
end

section
/-! PROOFS. Remote page accesses and DMA of haulers (R27, R28, R369, R370, R400). -/

namespace Sys2Proof.Machine

/-! ### Frames of a group (R394) -/

section
variable {s : State} {g : Nat} {head : FrameHead} {vc n : Nat} (act : State → State)

theorem cplFrame_discarded (h : (s.cplTake g head vc ((n + 31) / 32)).2 = false) :
    s.cplFrame g head vc n act = (s.cplTake g head vc ((n + 31) / 32)).1 := by
  simp [State.cplFrame, h]

theorem cplFrame_accepted (h : (s.cplTake g head vc ((n + 31) / 32)).2 = true) :
    s.cplFrame g head vc n act = act (s.cplTake g head vc ((n + 31) / 32)).1 := by
  simp [State.cplFrame, h]

end

/-! ### PAGE_RD -/

section
variable {s : State} {g : Fin 4} {head : FrameHead} {slot off : BitVec 12} (hp : s.hasPower)
include hp

theorem pageRd_discarded (h : (s.cplTake g head 3 ((4 + 31) / 32)).2 = false) :
    Completes (.pageRd g head slot off) s (s.cplTake g head 3 ((4 + 31) / 32)).1 :=
  run_of_eq hp (cplFrame_discarded _ h)

variable (ht : (s.cplTake g head 3 ((4 + 31) / 32)).2 = true)
include ht

theorem pageRd_read (ha : off.toNat % 8 = 0) {w : Word} :
    let t := (s.cplTake g head 3 ((4 + 31) / 32)).1
    let r := t.deviceRead (t.slotTarget slot.toNat off.toNat) (some uComplex)
    r.2 = some w → Completes (.pageRd g head slot off) s (r.1.pageRsp g head 1 w) := by
  intro t r hr
  refine run_of_eq hp ((cplFrame_accepted _ ht).trans ((if_neg (not_not_intro ha)).trans ?_))
  rw [show t.deviceRead (t.slotTarget slot.toNat off.toNat) (some uComplex) = (r.1, some w) from Prod.ext rfl hr]

theorem pageRd_error (ha : off.toNat % 8 = 0) :
    let t := (s.cplTake g head 3 ((4 + 31) / 32)).1
    let r := t.deviceRead (t.slotTarget slot.toNat off.toNat) (some uComplex)
    r.2 = none → Completes (.pageRd g head slot off) s (r.1.pageRsp g head 2 (BitVec.allOnes 64)) := by
  intro t r hr
  refine run_of_eq hp ((cplFrame_accepted _ ht).trans ((if_neg (not_not_intro ha)).trans ?_))
  rw [show t.deviceRead (t.slotTarget slot.toNat off.toNat) (some uComplex) = (r.1, none) from Prod.ext rfl hr]

/-- A misaligned read is an access error of the unit in the slot. -/
theorem pageRd_misaligned_page (ha : off.toNat % 8 ≠ 0) {v : UnitId} {o : Nat} :
    let t := (s.cplTake g head 3 ((4 + 31) / 32)).1
    t.slotTarget slot.toNat off.toNat = .page v o →
      Completes (.pageRd g head slot off) s ((t.accessError v o (some uComplex)).pageRsp g head 2 (BitVec.allOnes 64)) := by
  intro t hv
  refine run_of_eq hp ((cplFrame_accepted _ ht).trans ((if_pos ha).trans ?_))
  rw [hv]

/-- A misaligned read of an unoccupied slot is an access error of the module page (R29). -/
theorem pageRd_misaligned_unoccupied (ha : off.toNat % 8 ≠ 0) :
    let t := (s.cplTake g head 3 ((4 + 31) / 32)).1
    (∀ v o, t.slotTarget slot.toNat off.toNat ≠ .page v o) →
      Completes (.pageRd g head slot off) s
        ((t.accessError uModule off.toNat (some uComplex)).pageRsp g head 2 (BitVec.allOnes 64)) := by
  intro t hv
  refine run_of_eq hp ((cplFrame_accepted _ ht).trans ((if_pos ha).trans ?_))
  split
  · next v o e => exact absurd e (hv v o)
  · rfl

end

/-! ### PAGE_WR -/

theorem fencePasses_remote {s : State} {u : UnitId} {off : Nat} (h : s.flag uModule Reg.CPL_CX.REMOTE_WR = true) :
    s.fencePasses (.remote true) u off = true := by
  simp [State.fencePasses, h]

section
variable {s : State} {g : Fin 4} {head : FrameHead} {slot off : BitVec 12} {w : Word} {holds : Bool} (hp : s.hasPower)
include hp

theorem pageWr_discarded (h : (s.cplTake g head 3 ((13 + 31) / 32)).2 = false) :
    Completes (.pageWr g head slot off w holds) s (s.cplTake g head 3 ((13 + 31) / 32)).1 :=
  run_of_eq hp (cplFrame_discarded _ h)

variable (ht : (s.cplTake g head 3 ((13 + 31) / 32)).2 = true)
include ht

theorem pageWr_fenced :
    let t := (s.cplTake g head 3 ((13 + 31) / 32)).1
    t.fencePasses (.remote holds) uModule 0x080 = false →
      Completes (.pageWr g head slot off w holds) s (t.pageRsp g head 3 0) := by
  intro t hf
  exact run_of_eq hp ((cplFrame_accepted _ ht).trans (if_pos (by simp [t, hf])))

theorem pageWr_performed :
    let t := (s.cplTake g head 3 ((13 + 31) / 32)).1
    let r := t.deviceWrite (.remote holds) (t.slotTarget slot.toNat off.toNat) w
    t.fencePasses (.remote holds) uModule 0x080 = true →
      Completes (.pageWr g head slot off w holds) s (r.1.pageRsp g head (if r.2 then 2 else 1) 0) := by
  intro t r hf
  refine run_of_eq hp ((cplFrame_accepted _ ht).trans ((if_neg (by simp [t, hf])).trans ?_))
  have hr : t.deviceWrite (.remote holds) (t.slotTarget slot.toNat off.toNat) w = (r.1, r.2) := rfl
  rw [hr]
  cases r.2 <;> rfl

end

/-! ### DMA_DONE -/

/-- One side of a transfer lies in a window: it is memory of seam 0, above main memory (R27). -/
abbrev State.dmaWindow (s : State) (h : Fin 64) (d : Dma) (kind addr : Nat) : Prop :=
  kind = 1 ∧ s.dmaTag h d = 0 ∧ 0x080000000000 ≤ addr

/-- A transfer from a window into the pit. -/
def State.dmaFromWindow (s : State) (h : Fin 64) (c : Fin 16) (d : Dma) : State :=
  let r := s.windowIn h d.src d.len
  if r.2.2 then r.1.dmaEnd h c 1 else ((r.1.putPitBytes h d.dst r.2.1).countWords h r.2.1.length).dmaEnd h c 0

/-- The first word of the pit that a transfer would read and that is poisoned. -/
def State.dmaPitBad (s : State) (h : Fin 64) (d : Dma) : Option Nat :=
  (List.range (d.len / 2)).find? fun n => s.pitIsBad h (d.src + n)

/-- A transfer from the pit to a window: a poisoned word of the pit ends it before anything is written. -/
def State.dmaToWindow (s : State) (h : Fin 64) (c : Fin 16) (d : Dma) : State :=
  match s.dmaPitBad h d with
  | some n => (s.pitError h ((d.src + n) % 65536)).dmaEnd h c 1
  | none =>
    let r := s.windowOut h d.dst (s.pitBytes h d.src d.len)
    if r.2 then r.1.dmaEnd h c 1 else (r.1.countWords h d.len).dmaEnd h c 0

theorem dmaToWindow_poisoned {s : State} {h : Fin 64} (c : Fin 16) {d : Dma} {n : Nat} (hn : s.dmaPitBad h d = some n) :
    s.dmaToWindow h c d = (s.pitError h ((d.src + n) % 65536)).dmaEnd h c 1 := by
  simp [State.dmaToWindow, hn]

theorem dmaToWindow_sound {s : State} {h : Fin 64} (c : Fin 16) {d : Dma} (hn : s.dmaPitBad h d = none) :
    let r := s.windowOut h d.dst (s.pitBytes h d.src d.len)
    s.dmaToWindow h c d = if r.2 then r.1.dmaEnd h c 1 else (r.1.countWords h d.len).dmaEnd h c 0 := by
  simp [State.dmaToWindow, hn]

/-- What a transfer does goes by the place of its source, and then by that of its target. -/
theorem onDmaDone_busy {s : State} {h : Fin 64} {c : Fin 16} (hb : ((s.hauler h.val).dmaAt c.val).busy = true)
    (hm : (s.hauler h.val).mode ≠ .clearing) :
    let d := (s.hauler h.val).dmaAt c.val
    onDmaDone h c s =
      if s.dmaWindow h d (hfield d.ctl 4 7) d.src then s.dmaFromWindow h c d
      else if s.dmaWindow h d (hfield d.ctl 8 11) d.dst then s.dmaToWindow h c d
      else if hfield d.ctl 4 7 = 0 then s.dmaOut h c d else s.dmaIn h c d := by
  intro d
  have hgo : ¬((!d.busy) = true ∨ (s.hauler h.val).mode = .clearing) := by simp [d, hb, hm]
  unfold onDmaDone State.dmaFromWindow State.dmaToWindow State.dmaPitBad
  refine (if_neg hgo).trans (ite_congr rfl (fun _ => ?_) fun _ => ite_congr rfl (fun _ => ?_) fun _ => rfl)
  · rcases s.windowIn h d.src d.len with ⟨t, l, _ | _⟩ <;> rfl
  · cases (List.range (d.len / 2)).find? fun n => s.pitIsBad h (d.src + n)
    · rcases s.windowOut h d.dst (s.pitBytes h d.src d.len) with ⟨t, _ | _⟩ <;> rfl
    · rfl

/-- Settles O28: a frame is discarded or accepted, and an accepted access is answered by its outcome; a transfer goes by the place of its
source and its target. -/
theorem remoteAccessesAndDmaAct : Obligations.RemoteAccessesAndDmaAct := by
  unfold Obligations.RemoteAccessesAndDmaAct
  intro s hp
  refine ⟨fun g head slot off => ⟨pageRd_discarded hp, fun ht => ⟨fun ha => ⟨fun w => pageRd_read hp ht ha, pageRd_error hp ht ha⟩,
    fun ha => ⟨fun v o => pageRd_misaligned_page hp ht ha, pageRd_misaligned_unoccupied hp ht ha⟩⟩⟩, fun g head slot off w holds =>
    ⟨pageWr_discarded hp, fun ht => ⟨fun hf => pageWr_fenced hp ht (fencePasses_remote_false hf), ?_⟩⟩, fun h c => ?_⟩
  · rintro rfl hw
    exact pageWr_performed hp ht (fencePasses_remote hw)
  · intro d hb hm
    have hdone := onDmaDone_busy hb hm
    refine ⟨fun hw => ?_, fun hin hw => ?_, fun hin hout => ?_⟩
    · have hfrom := hdone.trans (if_pos hw)
      exact ⟨fun hr => run_of_eq hp (hfrom.trans (if_neg (Bool.eq_false_iff.1 hr))), fun hr => run_of_eq hp (hfrom.trans (if_pos hr))⟩
    · have hto := (hdone.trans (if_neg hin)).trans (if_pos hw)
      refine ⟨fun n hn => ?_, fun hn hr => ?_, fun hn hr => ?_⟩
      · exact run_of_eq hp (hto.trans (dmaToWindow_poisoned c hn))
      · exact run_of_eq hp ((hto.trans (dmaToWindow_sound c hn)).trans (if_neg (Bool.eq_false_iff.1 hr)))
      · exact run_of_eq hp ((hto.trans (dmaToWindow_sound c hn)).trans (if_pos hr))
    · have hplain := (hdone.trans (if_neg hin)).trans (if_neg hout)
      exact ⟨fun h0 => run_of_eq hp (hplain.trans (if_pos h0)), fun h0 => run_of_eq hp (hplain.trans (if_neg h0))⟩

end Sys2Proof.Machine
end

section
/-! PROOFS. The queue and the clock of the block (log entries 1 and 6). -/

namespace Sys2Proof.Machine

/-! ### How each command runs -/

/-- The messages of the coherence protocol whose arrival has an effect in every state: requests, write-backs and answers to I/O agents
(R170, R175). -/
def isTakenMessage : Instr → Bool
  | .rds _ _ _ | .rdx _ _ _ | .rdxA _ _ _ _ | .upg _ _ _ | .mnt _ _ _ _ _ | .ior _ _ _ | .iow _ _ _ _ _ _ => true
  | .wb _ _ _ | .ioCmp _ _ | .iodata _ _ => true
  | _ => false

theorem exec_always {c : Instr} (h : isAlways c = true) (s : State) : ∃ f, exec c s = s.runAlways f := by
  cases c <;> cases h
  all_goals exact ⟨_, rfl⟩

theorem exec_arrival {c : Instr} (h : isArrival c = true) (s : State) : ∃ f, exec c s = s.runAnswer f := by
  cases c <;> cases h
  all_goals exact ⟨_, rfl⟩

/-- What arrives and always has a next state leaves one. -/
theorem arrival_next {s : State} {kind : MsgKind} {src dst line : Nat} {f : State → Option Msg → Answer}
    (hf : ∀ s m, ∃ t, f s m = .next t) : ∃ t, s.arrival kind src dst line f = .next t := by
  unfold State.arrival
  split
  · exact ⟨_, rfl⟩
  · obtain ⟨t, ht⟩ := hf (s.bring kind src dst line).1 (s.bring kind src dst line).2
    exact ⟨t.isolations, by simp only [ht]⟩

theorem exec_takenMessage {c : Instr} (h : isTakenMessage c = true) (s : State) :
    ∃ f, exec c s = s.runAnswer f ∧ ∃ t, f s = .next t := by
  cases c <;> cases h
  all_goals exact ⟨_, rfl, arrival_next fun _ _ => ⟨_, rfl⟩⟩

theorem exec_plain {c : Instr} (ha : isAlways c = false) (hm : isTakenMessage c = false) (hr : isArrival c = false) (s : State) :
    ∃ f, exec c s = s.run f := by
  cases c <;> cases ha <;> cases hm <;> cases hr
  all_goals exact ⟨_, rfl⟩

/-- A command that is no arrival completes in every state, and leaves the queue and the clock. -/
theorem exec_next {c : Instr} (h : isArrival c = false) (s : State) :
    ∃ t, exec c s = .next t ∧ t.pending = s.pending ∧ t.now = s.now := by
  cases ha : isAlways c
  · cases hm : isTakenMessage c
    · obtain ⟨f, hf⟩ := exec_plain ha hm h s
      exact ⟨_, hf, run_keeps rfl⟩
    · obtain ⟨f, hf, t, ht⟩ := exec_takenMessage hm s
      have hnext : s.runAnswer f = .next (if s.power.mode = .off then s else { t with pending := s.pending, now := s.now }) := by
        unfold State.runAnswer
        rw [ht]
        split <;> rfl
      exact ⟨_, hf.trans hnext, runAnswer_keeps hnext⟩
  · obtain ⟨f, hf⟩ := exec_always ha s
    exact ⟨_, hf, runAlways_keeps rfl⟩

/-- Only an arrival stops, and only in a module that has power. -/
theorem arrival_of_stops {c : Instr} {s : State} {e : Fault} (h : Stops c s e) : isArrival c = true ∧ s.hasPower := by
  cases hr : isArrival c
  · obtain ⟨t, ht, -⟩ := exec_next hr s
    cases ht.symm.trans h
  · obtain ⟨f, hf⟩ := exec_arrival hr s
    refine ⟨rfl, fun hoff => ?_⟩
    have hnext : s.runAnswer f = .next s := if_pos hoff
    cases (hf.trans hnext).symm.trans h

/-- No command that answers a next state changes the queue or the clock. -/
theorem exec_keeps {c : Instr} {s t : State} (h : exec c s = .next t) : t.pending = s.pending ∧ t.now = s.now := by
  cases hr : isArrival c
  · obtain ⟨u, hu, hkeeps⟩ := exec_next hr s
    cases hu.symm.trans h
    exact hkeeps
  · obtain ⟨f, hf⟩ := exec_arrival hr s
    exact runAnswer_keeps (hf.symm.trans h)

/-! ### Steps -/

theorem step_front (c : Instr) (s : State) : step { s with pending := c :: s.pending } = exec c s := rfl

theorem step_idle {s : State} (h : s.pending = []) : step s = .next s.idle := by
  unfold step
  rw [h]

theorem step_command {s : State} {c : Instr} {rest : List Instr} (h : s.pending = c :: rest) :
    step s = exec c { s with pending := rest } := by
  unfold step
  rw [h]

theorem idle_keeps (s : State) : s.idle.pending = s.pending ∧ s.idle.now = s.now + 10 := by
  unfold State.idle
  dsimp only
  split <;> exact ⟨rfl, rfl⟩

/-- A step takes the command at the front; the clock moves where there is none. -/
theorem steps_queue {s t : State} (h : Steps s t) :
    t.pending = s.pending.drop 1 ∧ t.now = s.now + 10 * (1 - s.pending.length) := by
  unfold Steps at h
  cases hq : s.pending with
  | nil =>
    cases (step_idle hq).symm.trans h
    obtain ⟨hpend, hnow⟩ := idle_keeps s
    exact ⟨hpend.trans hq, hnow⟩
  | cons c rest =>
    obtain ⟨hpend, hnow⟩ := exec_keeps ((step_command hq).symm.trans h)
    exact ⟨hpend, by simpa using hnow⟩

/-! ### Runs -/

theorem reaches_queue {n : Nat} {s t : State} (h : Reaches n s t) :
    t.pending = s.pending.drop n ∧ t.now = s.now + 10 * (n - s.pending.length) := by
  induction n generalizing s with
  | zero => cases h; simp
  | succ n ih =>
    obtain ⟨u, hu, ht⟩ := h
    obtain ⟨hpend, hnow⟩ := steps_queue hu
    obtain ⟨hpend', hnow'⟩ := ih ht
    rw [hpend, List.drop_drop, Nat.add_comm 1 n] at hpend'
    rw [hpend, List.length_drop, hnow] at hnow'
    exact ⟨hpend', by omega⟩

/-- A queue without arrivals is emptied in as many steps as it holds commands. -/
theorem reaches_emptied {q : List Instr} {s : State} (hq : s.pending = q) (h : ∀ c ∈ q, isArrival c = false) :
    ∃ t, Reaches q.length s t ∧ t.pending = [] ∧ t.now = s.now := by
  induction q generalizing s with
  | nil => exact ⟨s, rfl, hq, rfl⟩
  | cons c rest ih =>
    obtain ⟨hc, hrest⟩ := List.forall_mem_cons.1 h
    obtain ⟨u, hu, hpend, hnow⟩ := exec_next hc { s with pending := rest }
    obtain ⟨t, ht, hdone, hclock⟩ := ih hpend hrest
    exact ⟨t, ⟨u, (step_command hq).trans hu, ht⟩, hdone, hclock.trans hnow⟩

/-- Settles O1: the step unfolded, for a command at the front and for an empty queue. -/
theorem stepRunsTheFrontCommand : Obligations.StepRunsTheFrontCommand := by
  unfold Obligations.StepRunsTheFrontCommand
  refine ⟨step_front, fun s hq => ?_⟩
  obtain ⟨hpend, hnow⟩ := idle_keeps s
  exact ⟨s.idle, step_idle hq, hpend.trans hq, hnow⟩

/-- Settles O2: every command keeps the queue and the clock that its step gives it, and every command but an arrival completes; runs follow
by induction on the steps and on the queue. -/
theorem runsTakeCommandsInOrder : Obligations.RunsTakeCommandsInOrder := by
  unfold Obligations.RunsTakeCommandsInOrder
  refine ⟨fun n s t h => reaches_queue h, fun s h => reaches_emptied rfl h, fun c s e h => arrival_of_stops h, fun c s h => ?_⟩
  obtain ⟨t, ht, -⟩ := exec_next h s
  exact ⟨t, ht⟩

end Sys2Proof.Machine
end

section
/-! PROOFS. How instructions of a core end, and the branches (R49, R55, R60). -/

namespace Sys2Proof.Machine

/-! ### Ends of an instruction -/

/-- A command that a core is ready to execute completes with its effect. -/
theorem run_of_ready {s t : State} {k len : Nat} {f : State → State} (h : Ready s k len) (hf : f s = t) :
    s.run f = .next (s.after fun _ => t) := by
  obtain ⟨hp, -⟩ := h
  exact run_of_eq hp hf

section
variable {s t : State} {k len : Nat} {body : State → State × Done} (h : Ready s k len)
include h

theorem instr_next_of_ready (hb : body (s.fetched k len) = (t, .next)) :
    s.instr k len body = t.completed k ((s.found k len).ia + BitVec.ofNat 64 len) false := by
  rw [instr_of_ready h, hb]

theorem instr_close_of_ready (hb : body (s.fetched k len) = (t, .close)) :
    s.instr k len body = t.completed k ((s.found k len).ia + BitVec.ofNat 64 len) true := by
  rw [instr_of_ready h, hb]

theorem instr_jump_of_ready {a : Word} {close : Bool} (hb : body (s.fetched k len) = (t, .jump a close)) :
    s.instr k len body = t.completed k a close := by
  rw [instr_of_ready h, hb]

theorem instr_left_of_ready (hb : body (s.fetched k len) = (t, .left)) : s.instr k len body = t := by
  rw [instr_of_ready h, hb]

/-- An instruction whose body raises an exception is nullified, whatever its body has changed before. -/
theorem instr_nullified_of_ready {x : Exc} (hb : body (s.fetched k len) = (t, .exc x)) : s.instr k len body = s.nullified k t x := by
  rw [instr_of_ready h, hb]

/-- An instruction that fails its checks raises a specification exception. -/
theorem instr_of_check_fails {ok : Bool} {b : State → State × Done}
    (hb : body (s.fetched k len) = State.checked ok b (s.fetched k len)) (hok : ok = false) :
    s.instr k len body = s.nullified k (s.fetched k len) (.program 3 0) := by
  subst hok
  exact instr_nullified_of_ready h hb

end

/-! ### Branches -/

theorem jumpTo_even {t : Word} (s : State) (h : t.getLsbD 0 = false) : jumpTo t s = (s, .jump t false) :=
  if_neg (Bool.eq_false_iff.1 h)

theorem jumpTo_odd {t : Word} (s : State) (h : t.getLsbD 0 = true) : jumpTo t s = (s, .exc (.program 3 0)) :=
  if_pos h

section
variable {s : State} {k : Fin 48} {len : Nat} {mask : BitVec 4} (target : Word → Word) (h : Ready s k len)
include h

theorem branchOn_taken (hm : maskTakes mask (s.found k len).cc = true) (ht : (target (s.found k len).ia).getLsbD 0 = false) :
    s.branchOn k len mask target = s.jumped k len (target (s.found k len).ia) :=
  instr_jump_of_ready h ((if_pos hm).trans (jumpTo_even _ ht))

theorem branchOn_passed (hm : maskTakes mask (s.found k len).cc = false) : s.branchOn k len mask target = s.stepped k len :=
  instr_next_of_ready h (if_neg (Bool.eq_false_iff.1 hm))

theorem branchLink_all :
    s.branchLink k len 0xF target =
      s.branched k len ((s.found k len).setG 31 ((s.found k len).ia + BitVec.ofNat 64 len)) (target (s.found k len).ia) :=
  instr_jump_of_ready h rfl

theorem branchLink_partial (hm : mask ≠ 0xF) :
    s.branchLink k len mask target = s.nullified k (s.fetched k len) (.program 3 0) :=
  instr_of_check_fails h rfl (beq_eq_false_iff_ne.2 hm)

end

section
variable {s : State} {k : Fin 48} {mask : BitVec 4} {r1 r2 : BitVec 5} (h : Ready s k 2)
include h

theorem onBrr_taken (hm : maskTakes mask (s.found k 2).cc = true) (ht : ((s.found k 2).gr r2).getLsbD 0 = false) :
    onBrr k false mask r2 s = s.jumped k 2 ((s.found k 2).gr r2) :=
  instr_jump_of_ready h ((if_pos hm).trans (jumpTo_even _ ht))

theorem onBrr_odd (hm : maskTakes mask (s.found k 2).cc = true) (ht : ((s.found k 2).gr r2).getLsbD 0 = true) :
    onBrr k false mask r2 s = s.nullified k (s.fetched k 2) (.program 3 0) :=
  instr_nullified_of_ready h ((if_pos hm).trans (jumpTo_odd _ ht))

theorem onBrr_passed (hm : maskTakes mask (s.found k 2).cc = false) : onBrr k false mask r2 s = s.stepped k 2 :=
  instr_next_of_ready h (if_neg (Bool.eq_false_iff.1 hm))

theorem onBalr_even (ht : ((s.found k 2).gr r2).getLsbD 0 = false) :
    onBalr k r1 r2 s = s.branched k 2 ((s.found k 2).setG r1 ((s.found k 2).ia + 2)) ((s.found k 2).gr r2) :=
  instr_jump_of_ready h (if_neg (Bool.eq_false_iff.1 ht))

theorem onBalr_odd (ht : ((s.found k 2).gr r2).getLsbD 0 = true) :
    onBalr k r1 r2 s = s.nullified k (s.fetched k 2) (.program 3 0) :=
  instr_nullified_of_ready h (if_pos ht)

end

/-- Settles O7: each branch ends by one of the rules for branches on a mask, branches that link, and branches to a register. -/
theorem branchesGoToTheirTargets : Obligations.BranchesGoToTheirTargets := by
  unfold Obligations.BranchesGoToTheirTargets
  intro s k mask off off' r1 r2 b
  refine ⟨fun hr => ⟨fun hm ht => ?_, fun hm => ?_, ?_, fun hm => ?_⟩, fun hr => ⟨fun hm ht => ?_, fun hm => ?_, ?_, fun hm => ?_⟩,
    fun hr => ⟨?_, ?_, ?_, ?_, fun ht => ?_, fun ht => ?_⟩⟩
  · exact run_of_ready hr (branchOn_taken _ hr hm ht)
  · exact run_of_ready hr (branchOn_passed _ hr hm)
  · rintro rfl
    exact run_of_ready hr (branchLink_all _ hr)
  · exact run_of_ready hr (branchLink_partial _ hr hm)
  · exact run_of_ready hr (branchOn_taken _ hr hm ht)
  · exact run_of_ready hr (branchOn_passed _ hr hm)
  · rintro rfl
    exact run_of_ready hr (branchLink_all _ hr)
  · exact run_of_ready hr (branchLink_partial _ hr hm)
  · rintro rfl hm ht
    exact run_of_ready hr (onBrr_taken hr hm ht)
  · rintro rfl hm ht
    exact run_of_ready hr (onBrr_odd hr hm ht)
  · rintro rfl hm
    exact run_of_ready hr (onBrr_passed hr hm)
  · rintro rfl
    exact run_of_ready hr (instr_of_check_fails hr rfl rfl)
  · exact run_of_ready hr (onBalr_even hr ht)
  · exact run_of_ready hr (onBalr_odd hr ht)

end Sys2Proof.Machine
end

section
/-! PROOFS. Loads and stores of memory (R58, R59, R121, R126, R127). -/

namespace Sys2Proof.Machine

theorem LoadReads.ready {s v : State} {k : Nat} {f : AddrForm} {n : Nat} {bytes : List Byte} (h : LoadReads s k f n v bytes) :
    Ready s k f.length := by
  obtain ⟨hr, -⟩ := h
  exact hr

theorem StoreReaches.ready {s u : State} {k : Fin 48} {f : AddrForm} {n : Nat} {ps : List Piece} (h : StoreReaches s k f n u ps) :
    Ready s k f.length := by
  obtain ⟨hr, -⟩ := h
  exact hr

/-! ### Loads -/

section
variable {s v : State} {k : Fin 48} {c : Instr} {f : AddrForm} {even : Bool} {n : Nat} {bytes : List Byte} {a : Arch}
  {use : List Byte → Arch → Except Exc Arch}

/-- A load with an address form that reads memory delivers what it makes of its bytes. -/
theorem load_completes (h : LoadReads s k f n v bytes) (hc : exec c s = s.run fun s => s.loadForm k f even n use) (he : even = true)
    (hu : use bytes (v.arch k) = .ok a) : Completes c s (s.loaded v k f.length a) := by
  subst he
  exact hc.trans (run_of_ready h.ready (loadForm_of_reads h hu))

/-- A load of a pair into an odd register raises a specification exception. -/
theorem load_odd (h : Ready s k f.length) (hc : exec c s = s.run fun s => s.loadForm k f even n use) (he : even = false) {ea : Word}
    (ha : (s.found k f.length).address f = some ea) :
    Completes c s (s.nullified k (s.fetched k f.length) (.program 3 0)) := by
  subst he
  refine hc.trans (run_of_ready h (instr_nullified_of_ready h ?_))
  rw [show ((s.fetched k f.length).arch k).address f = some ea from ha]
  rfl

end

/-- The 64-bit word that a load makes of a number of `bits` bits with a sign. -/
def signedWord (bits n : Nat) : Word :=
  if 2 ^ (bits - 1) ≤ n then BitVec.ofNat 64 (n + (2 ^ 64 - 2 ^ bits)) else BitVec.ofNat 64 n

theorem signedWord_eq (bits n : Nat) :
    signedWord bits n = BitVec.ofNat 64 (if 2 ^ (bits - 1) ≤ n then n + (2 ^ 64 - 2 ^ bits) else n) :=
  (apply_ite (BitVec.ofNat 64) _ _ _).symm

section
variable {s v : State} {k : Fin 48} {f : AddrForm} {bytes : List Byte} (r1 : BitVec 5)

/-- A load of `n` bytes that extends a sign. -/
theorem loadSigned_completes {c : Instr} {n : Nat} {w : Word} (h : LoadReads s k f n v bytes)
    (hc : exec c s = s.run fun s => s.loadG k r1 f n true) (hw : w = signedWord (8 * n) (beNat bytes)) :
    Completes c s (s.loaded v k f.length ((v.arch k).setG r1 w)) :=
  load_completes h hc rfl (by simp only [true_and, hw]; rfl)

/-- A load of `n` bytes that extends with zeros. -/
theorem loadUnsigned_completes {c : Instr} {n : Nat} (h : LoadReads s k f n v bytes)
    (hc : exec c s = s.run fun s => s.loadG k r1 f n false) :
    Completes c s (s.loaded v k f.length ((v.arch k).setG r1 (BitVec.ofNat 64 (beNat bytes)))) :=
  load_completes h hc rfl (by simp only [Bool.false_eq_true, false_and, if_false])

theorem loadByte_completes (h : LoadReads s k f 1 v bytes) :
    Completes (.lb k r1 f) s (s.loaded v k f.length ((v.arch k).setG r1 (signedWord 8 (beNat bytes)))) ∧
      Completes (.lbu k r1 f) s (s.loaded v k f.length ((v.arch k).setG r1 (BitVec.ofNat 64 (beNat bytes)))) :=
  ⟨loadSigned_completes r1 h rfl rfl, loadUnsigned_completes r1 h rfl⟩

theorem loadHalf_completes (h : LoadReads s k f 2 v bytes) :
    Completes (.lh k r1 f) s (s.loaded v k f.length ((v.arch k).setG r1 (signedWord 16 (beNat bytes)))) ∧
      Completes (.lhu k r1 f) s (s.loaded v k f.length ((v.arch k).setG r1 (BitVec.ofNat 64 (beNat bytes)))) :=
  ⟨loadSigned_completes r1 h rfl rfl, loadUnsigned_completes r1 h rfl⟩

theorem loadWord_completes (h : LoadReads s k f 4 v bytes) :
    Completes (.lw k r1 f) s (s.loaded v k f.length ((v.arch k).setG r1 (signedWord 32 (beNat bytes)))) ∧
      Completes (.lwu k r1 f) s (s.loaded v k f.length ((v.arch k).setG r1 (BitVec.ofNat 64 (beNat bytes)))) :=
  ⟨loadSigned_completes r1 h rfl rfl, loadUnsigned_completes r1 h rfl⟩

theorem ld_completes (h : LoadReads s k f 8 v bytes) :
    Completes (.ld k r1 f) s (s.loaded v k f.length ((v.arch k).setG r1 (BitVec.ofNat 64 (beNat bytes)))) :=
  loadUnsigned_completes r1 h rfl

theorem lf_completes (h : LoadReads s k f 8 v bytes) :
    Completes (.lf k r1 f) s (s.loaded v k f.length ((v.arch k).setF r1 (wordOf bytes 0))) :=
  load_completes h rfl rfl rfl

theorem fpDeliver_untrapped {r : Raised} {deliver : Arch → Arch} {a : Arch} (h : trapCause a r = none) :
    fpDeliver r deliver a = .ok ((deliver a).setFlags r) := by
  simp [fpDeliver, h]

theorem lf32_completes (h : LoadReads s k f 4 v bytes) (ht : trapCause (v.arch k) (fromB32 (beNat bytes)).2 = none) :
    Completes (.lf32 k r1 f) s
      (s.loaded v k f.length (((v.arch k).setF r1 (fromB32 (beNat bytes)).1).setFlags (fromB32 (beNat bytes)).2)) :=
  load_completes h rfl rfl (fpDeliver_untrapped ht)

theorem lq_completes (h : LoadReads s k f 16 v bytes) (he : isEven r1 = true) :
    Completes (.lq k r1 f) s (s.loaded v k f.length (((v.arch k).setG r1 (wordOf bytes 0)).setG (r1 + 1) (wordOf bytes 1))) :=
  load_completes h rfl he rfl

theorem lfq_completes (h : LoadReads s k f 16 v bytes) (he : isEven r1 = true) :
    Completes (.lfq k r1 f) s (s.loaded v k f.length (((v.arch k).setF r1 (wordOf bytes 0)).setF (r1 + 1) (wordOf bytes 1))) :=
  load_completes h rfl he rfl

end

/-- Settles O8: every load with an address form is `load_completes` with its own delivery. -/
theorem loadsDeliverTheBytesRead : Obligations.LoadsDeliverTheBytesRead := by
  unfold Obligations.LoadsDeliverTheBytesRead
  constructor
  · intro s v k r1 f bytes
    refine ⟨loadByte_completes r1, loadHalf_completes r1, fun h => ?_, fun h => ⟨ld_completes r1 h, lf_completes r1 h⟩,
      fun h he => ⟨lq_completes r1 h he, lfq_completes r1 h he⟩, fun hr ea ha he => ⟨load_odd hr rfl he ha, load_odd hr rfl he ha⟩⟩
    obtain ⟨hlw, hlwu⟩ := loadWord_completes r1 h
    exact ⟨hlw, hlwu, lf32_completes r1 h⟩
  · intro s k r1 f
    refine ⟨?_, ?_, ?_, ?_, ?_, ?_⟩
    · rintro ⟨v, bytes, h⟩
      obtain ⟨hs, hz⟩ := loadByte_completes r1 h
      rw [signedWord_eq] at hs
      exact ⟨⟨v, bytes, h, hs⟩, v, bytes, h, hz⟩
    · rintro ⟨v, bytes, h⟩
      obtain ⟨hs, hz⟩ := loadHalf_completes r1 h
      rw [signedWord_eq] at hs
      exact ⟨⟨v, bytes, h, hs⟩, v, bytes, h, hz⟩
    · rintro ⟨v, bytes, h⟩
      obtain ⟨hs, hz⟩ := loadWord_completes r1 h
      rw [signedWord_eq] at hs
      exact ⟨⟨v, bytes, h, hs⟩, v, bytes, h, hz⟩
    · rintro ⟨v, bytes, h⟩ ht
      exact ⟨v, bytes, h, lf32_completes r1 h (ht v bytes h)⟩
    · rintro ⟨v, bytes, h⟩
      exact ⟨⟨v, bytes, h, ld_completes r1 h⟩, v, bytes, h, lf_completes r1 h⟩
    · rintro ⟨v, bytes, h⟩ he
      exact ⟨⟨v, bytes, h, lq_completes r1 h he⟩, v, bytes, h, lfq_completes r1 h he⟩

/-! ### Stores -/

section
variable {s u : State} {k : Fin 48} {c : Instr} {f : AddrForm} {even : Bool} {n : Nat} {ps : List Piece} {bytes : List Byte} {a : Arch}
  {make : Arch → Except Exc (List Byte × Arch)}

/-- A store with an address form that reaches memory adds the bytes that it makes. -/
theorem store_completes (h : StoreReaches s k f n u ps) (hc : exec c s = s.run fun s => s.storeForm k f even n make) (he : even = true)
    (hm : make (u.arch k) = .ok (bytes, a)) : Completes c s (s.stored u k f.length ps a bytes) := by
  subst he
  exact hc.trans (run_of_ready h.ready (storeForm_of_reaches h hm))

end

theorem instr_congr_of_ready {s : State} {k len : Nat} {body body' : State → State × Done} (h : Ready s k len)
    (hb : body (s.fetched k len) = body' (s.fetched k len)) : s.instr k len body = s.instr k len body' := by
  rw [instr_of_ready h, instr_of_ready h, hb]

theorem roundMode_of_valid {s : State} {k : Nat} {decimal : Bool} (h : (s.arch k).roundCode decimal ≤ 4) :
    s.roundMode k decimal = (s, RMode.ofCode ((s.arch k).roundCode decimal)) := if_pos h

/-- The bytes of a binary32 value rounded in mode `m`, or the trap of its conversion. -/
def makeB32 (m : RMode) (r1 : BitVec 5) (a : Arch) : Except Exc (List Byte × Arch) :=
  match fpDeliver (toB32 m (a.fr r1)).2 id a with
  | .ok b => .ok (beBytes 4 (toB32 m (a.fr r1)).1, b)
  | .error x => .error x

/-- With a rounding mode that is no free value, STF32 is a store with an address form. -/
theorem onStf32_eq_storeForm {s : State} {k : Fin 48} (r1 : BitVec 5) {f : AddrForm} (h : Ready s k f.length)
    (hm : (s.found k f.length).roundCode false ≤ 4) :
    onStf32 k r1 f s = s.storeForm k f true 4 (makeB32 (RMode.ofCode ((s.found k f.length).roundCode false)) r1) := by
  refine instr_congr_of_ready h ?_
  rw [roundMode_of_valid hm]
  cases ((s.fetched k f.length).arch k).address f <;> rfl

theorem stf32_completes {s u : State} {k : Fin 48} (r1 : BitVec 5) {f : AddrForm} {ps : List Piece} (h : StoreReaches s k f 4 u ps)
    (hm : (s.found k f.length).roundCode false ≤ 4) :
    let v := toB32 (RMode.ofCode ((s.found k f.length).roundCode false)) ((u.arch k).fr r1)
    trapCause (u.arch k) v.2 = none →
      Completes (.stf32 k r1 f) s (s.stored u k f.length ps ((u.arch k).setFlags v.2) (beBytes 4 v.1)) := by
  intro v ht
  refine run_of_ready h.ready ((onStf32_eq_storeForm r1 h.ready hm).trans (storeForm_of_reaches h ?_))
  simp only [makeB32, fpDeliver_untrapped ht, v, id]

/-- Settles O9: every store with an address form is `store_completes` with its own bytes. -/
theorem storesAddTheirBytes : Obligations.StoresAddTheirBytes := by
  unfold Obligations.StoresAddTheirBytes
  intro s u k r1 f ps
  refine ⟨fun h => ?_, fun h => ?_, fun h => ?_, fun h => ⟨?_, ?_⟩, fun h he => ⟨?_, ?_⟩, fun h hm => stf32_completes r1 h hm⟩
  · exact store_completes h rfl rfl rfl
  · exact store_completes h rfl rfl rfl
  · exact store_completes h rfl rfl rfl
  · exact store_completes h rfl rfl rfl
  · exact store_completes h rfl rfl rfl
  · exact store_completes h rfl he rfl
  · exact store_completes h rfl he rfl

end Sys2Proof.Machine
end

section
/-! PROOFS. Decimal floating point (R48, R103-R112, R215). -/

namespace Sys2Proof.Machine

/-! ### How a decimal instruction ends -/

/-- The state in which a decimal instruction has run its microcode and taken its rounding mode, and that mode (R100, R215). -/
abbrev State.decimalStart (s : State) (k : Fin 48) : State × RMode := (s.fpStart k true).roundMode k true

/-- The architectural state of a decimal instruction's operands. -/
abbrev State.decimalArch (s : State) (k : Fin 48) : Arch := (s.decimalStart k).1.arch k

/-- A decimal instruction that raises `r` and would leave `b`: it delivers, or is nullified by its trap, or ends where the microcode makes
the core fail. -/
def DeliversDecimal (s : State) (k : Fin 48) (c : Instr) (r : Raised) (b : Arch) : Prop :=
  let u := (s.fetched k 4).microcode k
  let t := (s.decimalStart k).1
  (u.holdsWork k = true → trapCause (s.decimalArch k) r = none →
    Completes c s ((t.setArch k (b.setFlags r)).completed k ((s.found k 4).ia + 4) false)) ∧
  (∀ cause, u.holdsWork k = true → trapCause (s.decimalArch k) r = some cause →
    Completes c s (s.nullified k t (.program (8 + cause * 65536) 0))) ∧
  (u.holdsWork k = false → Completes c s u)

section
variable {s : State} {k : Fin 48} {c : Instr} {ok : Bool} {op : RMode → Arch → Raised × (Arch → Arch)} (h : Ready s k 4)
  (hc : exec c s = s.run fun s => s.fpInstr k true ok op)
include h

/-- A decimal instruction whose microcode makes the core fail leaves what that failure leaves. -/
theorem decimal_fails (hw : ((s.fetched k 4).microcode k).holdsWork k = false) :
    s.fpInstr k true true op = (s.fetched k 4).microcode k :=
  instr_left_of_ready h (if_neg (Bool.eq_false_iff.1 hw))

include hc

theorem decimal_delivers {r : Raised × (Arch → Arch)} (hok : ok = true) (hr : op (s.decimalStart k).2 (s.decimalArch k) = r) :
    DeliversDecimal s k c r.1 (r.2 (s.decimalArch k)) := by
  subst hok hr
  refine ⟨fun hw ht => hc.trans (run_of_ready h ?_), fun cause hw ht => hc.trans (run_of_ready h ?_), fun hw =>
    hc.trans (run_of_ready h (decimal_fails h hw))⟩
  · rw [fpInstr_of_ready (decimal := true) h fun _ => hw]
    dsimp only
    rw [ht]
  · rw [fpInstr_of_ready (decimal := true) h fun _ => hw]
    dsimp only
    rw [ht]

theorem decimal_spec (hok : ok = false) : Completes c s (s.nullified k (s.fetched k 4) (.program 3 0)) :=
  hc.trans (run_of_ready h (instr_of_check_fails h rfl hok))

end

/-! ### The decimal instructions -/

section
variable {s : State} {k : Fin 48} {c : Instr} {w : Bool} {r1 r2 r3 : BitVec 5} (h : Ready s k 4)
include h

/-- An operation of two decimal operands, on pairs of registers in the decimal128 form. -/
theorem dec2_delivers (op : Format → RMode → FVal → FVal → FVal × Raised) (hc : exec c s = s.run fun s => s.dec2 k w r1 r2 r3 op)
    (hp : pairsOk w [r1, r2, r3] = true) :
    let a := s.decimalArch k
    let v := op (dwidth w).format (s.decimalStart k).2 (a.fd w r2) (a.fd w r3)
    DeliversDecimal s k c v.2 ((a.setFd w r1 v.1).setCc v.1.cc) := by
  intro a v
  exact decimal_delivers (r := putDecimal w r1 v) h hc hp rfl

theorem dec2_spec {op : Format → RMode → FVal → FVal → FVal × Raised} (hc : exec c s = s.run fun s => s.dec2 k w r1 r2 r3 op)
    (hp : pairsOk w [r1, r2, r3] = false) : Completes c s (s.nullified k (s.fetched k 4) (.program 3 0)) :=
  decimal_spec h hc hp

end

/-- A compare or a square root checks its pairs and the register that its table marks 0. -/
theorem pairsZero_false {w : Bool} {l : List (BitVec 5)} {r : BitVec 5} (h : pairsOk w l = false ∨ r ≠ 0) :
    (pairsOk w l && r == 0) = false := by
  rcases h with h | h
  · simp [h]
  · rw [beq_eq_false_iff_ne.2 h, Bool.and_false]

/-- Settles O11: every decimal instruction is `decimal_delivers` with its own operation, behind the check of its registers. -/
theorem decimalFloatingInstructionsDeliver : Obligations.DecimalFloatingInstructionsDeliver := by
  unfold Obligations.DecimalFloatingInstructionsDeliver
  intro s k w r1 r2 r3 h u q a m n x y ia fp put spec three
  refine ⟨fun hp => ⟨?_, ?_, ?_, ?_, ?_⟩, fun hp => ⟨?_, ?_, ?_, ?_, ?_⟩, ?_, fun hp => ?_, fun hp => ?_, fun hp => ?_, ?_,
    fun hp => ⟨?_, ?_⟩, fun hp => ?_, fun hp => ?_, fun hp => ?_, fun hp => ?_⟩
  · exact dec2_delivers h dAdd rfl hp
  · exact dec2_delivers h dSub rfl hp
  · exact dec2_delivers h dMul rfl hp
  · exact dec2_delivers h dDiv rfl hp
  · exact dec2_delivers h dQua rfl hp
  · exact dec2_spec h rfl hp
  · exact dec2_spec h rfl hp
  · exact dec2_spec h rfl hp
  · exact dec2_spec h rfl hp
  · exact dec2_spec h rfl hp
  · rintro hp rfl
    exact decimal_delivers (r := putDecimal w r1 (dSqrt n m x)) h rfl (by simp [hp]) rfl
  · exact decimal_spec h rfl (pairsZero_false hp)
  · exact decimal_delivers (r := putDecimal w r1 (dRound n m x)) h rfl hp rfl
  · exact decimal_spec h rfl hp
  · rintro hp rfl
    exact ⟨decimal_delivers (r := putCompare (fpCompare 10 false x y)) h rfl (by simp [hp]) rfl,
      decimal_delivers (r := putCompare (fpCompare 10 true x y)) h rfl (by simp [hp]) rfl⟩
  · exact decimal_spec h rfl (pairsZero_false hp)
  · exact decimal_spec h rfl (pairsZero_false hp)
  · exact decimal_delivers (r := putInteger r1 (toInt64 10 m x)) h rfl hp rfl
  · exact decimal_spec h rfl hp
  · exact decimal_delivers (r := putDecimal w r1 (dOfInt n m (a.gr r2))) h rfl hp rfl
  · exact decimal_spec h rfl hp

end Sys2Proof.Machine
end

section
/-! PROOFS. System instructions, and the checks of privilege and of fields that must be 0 (R52-R57, R68, R72-R91, R124, R154). -/

namespace Sys2Proof.Machine

/-! ### Checks before an instruction acts -/

section
variable {s : State} {k len : Nat} {body b : State → State × Done} {ok : Bool} (h : Ready s k len)
include h

/-- A privileged instruction in problem state (R53). -/
theorem instr_of_problem (hp : (s.found k len).problem = true) :
    s.instr k len (State.privileged k body) = s.nullified k (s.fetched k len) (.program 2 0) :=
  instr_nullified_of_ready h (privileged_problem hp)

theorem instr_of_super (hp : (s.found k len).problem = false) : s.instr k len (State.privileged k body) = s.instr k len body :=
  instr_congr_of_ready h (privileged_super hp)

/-- An instruction that passes its checks goes on. -/
theorem instr_of_check (hb : body (s.fetched k len) = State.checked ok b (s.fetched k len)) (hok : ok = true) :
    s.instr k len body = s.instr k len b := by
  subst hok
  exact instr_congr_of_ready h hb

end

theorem zeroRegs_one {p : BitVec 5} : zeroRegs [p] = false ↔ p ≠ 0 := by simp [zeroRegs]

theorem zeroRegs_two {p q : BitVec 5} : zeroRegs [p, q] = false ↔ p ≠ 0 ∨ q ≠ 0 := by simp [zeroRegs, Decidable.imp_iff_not_or]

theorem zeroRegs_three {p q r : BitVec 5} : zeroRegs [p, q, r] = false ↔ p ≠ 0 ∨ q ≠ 0 ∨ r ≠ 0 := by
  simp [zeroRegs, Decidable.imp_iff_not_or]

/-! ### Privilege and fields that must be 0 -/

section
variable {s : State} {k : Fin 48} {c : Instr} {body b : State → State × Done} {ok : Bool} (h : Ready s k 4)
include h

theorem problem_completes (hp : (s.found k 4).problem = true) (hc : exec c s = s.run fun s => s.instr k 4 (State.privileged k body)) :
    Completes c s (s.nullified k (s.fetched k 4) (.program 2 0)) :=
  hc.trans (run_of_ready h (instr_of_problem h hp))

theorem spec_completes (hc : exec c s = s.run fun s => s.instr k 4 body)
    (hb : body (s.fetched k 4) = State.checked ok b (s.fetched k 4)) (hok : ok = false) :
    Completes c s (s.nullified k (s.fetched k 4) (.program 3 0)) :=
  hc.trans (run_of_ready h (instr_of_check_fails h hb hok))

theorem super_spec_completes (hp : (s.found k 4).problem = false)
    (hc : exec c s = s.run fun s => s.instr k 4 (State.privileged k body))
    (hb : body (s.fetched k 4) = State.checked ok b (s.fetched k 4)) (hok : ok = false) :
    Completes c s (s.nullified k (s.fetched k 4) (.program 3 0)) :=
  hc.trans (run_of_ready h ((instr_of_super h hp).trans (instr_of_check_fails h hb hok)))

end

/-- A set-way form of seam 0 with a register field that is not 0 (R157). -/
theorem maintSetWay_spec {s : State} {k : Fin 48} {c : Instr} {op : MaintOp} {r1 r2 r3 : BitVec 5} (h : Ready s k 4)
    (hp : (s.found k 4).problem = false) (hs : (s.fetched k 4).seamOf k = 0) (hz : zeroRegs [r1, r3] = false)
    (hc : exec c s = s.run fun s => s.maintSetWay k op r1 r2 r3) :
    Completes c s (s.nullified k (s.fetched k 4) (.program 3 0)) := by
  refine hc.trans (run_of_ready h ((instr_of_super h hp).trans (instr_nullified_of_ready h ?_)))
  simp only [hs, ne_eq, not_true_eq_false, if_false, hz]
  cases setWayOf k (((s.fetched k 4).arch k).gr r2) <;> rfl

/-- Settles O13: the check of privilege comes first, then that of the fields that must be 0. -/
theorem privilegeAndZeroFieldsAreChecked : Obligations.PrivilegeAndZeroFieldsAreChecked := by
  unfold Obligations.PrivilegeAndZeroFieldsAreChecked
  refine ⟨fun s k r1 r2 r3 stop h hp c hc => ?_, fun s k r1 r2 r3 h => ?_⟩
  · simp only [List.mem_cons, List.not_mem_nil, or_false] at hc
    rcases hc with rfl | rfl | rfl | rfl | rfl | rfl | rfl | rfl | rfl | rfl | rfl | rfl | rfl | rfl | rfl | rfl | rfl
    all_goals exact problem_completes h hp rfl
  · intro spec super
    refine ⟨fun hz => ?_, fun hz => ?_, fun hz => ?_, fun hp hz => ?_, fun hp hz => ?_, fun hp hz => ?_, fun hp hz => ?_⟩
    · have hz := zeroRegs_one.2 hz
      exact ⟨spec_completes h rfl rfl (by rw [hz]; rfl), spec_completes h rfl rfl (by rw [hz]; rfl)⟩
    · exact spec_completes h rfl rfl (zeroRegs_two.2 hz)
    · have hz := zeroRegs_three.2 hz
      exact ⟨spec_completes h rfl rfl hz, spec_completes h rfl rfl hz, spec_completes h rfl rfl hz, spec_completes h rfl rfl hz,
        spec_completes h rfl rfl hz⟩
    · have hz := zeroRegs_one.2 hz
      exact ⟨super_spec_completes h hp rfl rfl (by rw [hz]; rfl), super_spec_completes h hp rfl rfl hz,
        super_spec_completes h hp rfl rfl (by rw [hz]; rfl), super_spec_completes h hp rfl rfl (by rw [hz]; rfl),
        super_spec_completes h hp rfl rfl (by rw [hz]; rfl)⟩
    · have hz := zeroRegs_two.2 hz
      exact ⟨super_spec_completes h hp rfl rfl hz, super_spec_completes h hp rfl rfl (by rw [hz]; rfl)⟩
    · exact super_spec_completes h hp rfl rfl (zeroRegs_three.2 hz)
    · have hz := zeroRegs_two.2 hz
      exact ⟨super_spec_completes h hp rfl rfl hz, super_spec_completes h hp rfl rfl hz, super_spec_completes h hp rfl rfl hz,
        fun hs => ⟨maintSetWay_spec h hp hs hz rfl, maintSetWay_spec h hp hs hz rfl, maintSetWay_spec h hp hs hz rfl⟩⟩

end Sys2Proof.Machine
end

section
/-! PROOFS. The effects of system instructions (R52, R57, R68, R72-R91, R124). -/

namespace Sys2Proof.Machine

theorem holdsWork_setCore (s : State) (k : Nat) (c : CoreSt) : (s.setCore k c).holdsWork k = c.wu.isSome := by
  simp [State.holdsWork]

/-! ### Barriers, the time base and ISYNC (R88, R91, R124) -/

theorem storeBarrier_done {k : Fin 48} {wait : State → State} {t : State} (hw : (wait (t.stage1 k)).holdsWork k = true) :
    State.storeBarrier k wait t = (wait (t.stage1 k), .next) := if_pos hw

theorem storeBarrier_left {k : Fin 48} {wait : State → State} {t : State} (hw : (wait (t.stage1 k)).holdsWork k = false) :
    State.storeBarrier k wait t = (wait (t.stage1 k), .left) := if_neg (Bool.eq_false_iff.1 hw)

section
variable {s : State} {k : Fin 48} (h : Ready s k 4)
include h

theorem barl_completes : Completes (.barl k 0 0 0) s (s.stepped k 4) :=
  run_of_ready h (instr_next_of_ready h rfl)

/-- RDTB and ISYNC wait for what an earlier BARS holds back; a core that then holds no work unit executes neither. -/
theorem rdtb_completes {r1 : BitVec 5} (hw : ((s.fetched k 4).barsEnd k).holdsWork k = true) :
    let held := (s.fetched k 4).barsEnd k
    Completes (.rdtb k r1 0 0) s
      ((held.setArch k ((held.arch k).setG r1 (BitVec.ofNat 64 held.timeBase))).completed k ((s.found k 4).ia + 4) false) :=
  run_of_ready h (instr_next_of_ready h (if_pos hw))

theorem isync_completes (hw : ((s.fetched k 4).barsEnd k).holdsWork k = true) :
    Completes (.isync k 0 0 0) s (((s.fetched k 4).barsEnd k).completed k ((s.found k 4).ia + 4) true) :=
  run_of_ready h (instr_close_of_ready h (if_pos hw))

theorem barsEnd_left {r1 : BitVec 5} (hw : ((s.fetched k 4).barsEnd k).holdsWork k = false) :
    Completes (.rdtb k r1 0 0) s ((s.fetched k 4).barsEnd k) ∧ Completes (.isync k 0 0 0) s ((s.fetched k 4).barsEnd k) :=
  ⟨run_of_ready h (instr_left_of_ready h (if_neg (Bool.eq_false_iff.1 hw))),
    run_of_ready h (instr_left_of_ready h (if_neg (Bool.eq_false_iff.1 hw)))⟩

theorem bars_completes (hw : ((s.fetched k 4).stage1 k).holdsWork k = true) :
    let early := (s.fetched k 4).stage1 k
    Completes (.bars k 0 0 0) s ((early.setCore k { early.core k with bars := true }).completed k ((s.found k 4).ia + 4) false) :=
  run_of_ready h ((instr_of_check h rfl rfl).trans (instr_next_of_ready h (storeBarrier_done ((holdsWork_setCore ..).trans hw))))

theorem barf_completes (hw : (((s.fetched k 4).stage1 k).settleAll k).holdsWork k = true) :
    Completes (.barf k 0 0 0) s ((((s.fetched k 4).stage1 k).settleAll k).completed k ((s.found k 4).ia + 4) false) :=
  run_of_ready h ((instr_of_check h rfl rfl).trans (instr_next_of_ready h (storeBarrier_done hw)))

theorem barf_left (hw : (((s.fetched k 4).stage1 k).settleAll k).holdsWork k = false) :
    Completes (.barf k 0 0 0) s (((s.fetched k 4).stage1 k).settleAll k) :=
  run_of_ready h ((instr_of_check h rfl rfl).trans (instr_left_of_ready h (storeBarrier_left hw)))

end

/-! ### Instructions of supervisor state -/

/-- What LCTL checks before it loads a value (R87; log entry 77). -/
theorem lctl_refused_iff {n : Nat} {v : Word} :
    (!crNamed n || (v &&& crMustZero n) != 0) = true ↔ crNamed n = false ∨ v &&& crMustZero n ≠ 0 := by
  rw [Bool.or_eq_true, Bool.not_eq_true', bne_iff_ne]

section
variable {s : State} {k : Fin 48} {r1 r2 : BitVec 5} (h : Ready s k 4) (hp : (s.found k 4).problem = false)
include h hp

/-! #### SW, and the return from an interruption -/

theorem lsw_completes (hv : swValid ((s.found k 4).gr r1) = true) :
    Completes (.lsw k r1 0 0) s (s.executed k 4 { s.found k 4 with sw := (s.found k 4).gr r1 } true) :=
  run_of_ready h ((instr_of_super h hp).trans (instr_close_of_ready h (if_pos hv)))

theorem lsw_spec (hv : swValid ((s.found k 4).gr r1) = false) :
    Completes (.lsw k r1 0 0) s (s.nullified k (s.fetched k 4) (.program 3 0)) :=
  run_of_ready h ((instr_of_super h hp).trans (instr_nullified_of_ready h (if_neg (Bool.eq_false_iff.1 hv))))

theorem rfi_completes {b : Arch} (hb : (s.found k 4).returned = some b) :
    Completes (.rfi k 0 0 0) s (((s.fetched k 4).setArch k b).completed k b.ia true) := by
  refine run_of_ready h ((instr_of_super h hp).trans ((instr_of_check h rfl rfl).trans (instr_jump_of_ready h ?_)))
  rw [show ((s.fetched k 4).arch k).returned = some b from hb]

theorem rfi_spec (hb : (s.found k 4).returned = none) :
    Completes (.rfi k 0 0 0) s (s.nullified k (s.fetched k 4) (.program 3 0)) := by
  refine run_of_ready h ((instr_of_super h hp).trans ((instr_of_check h rfl rfl).trans (instr_nullified_of_ready h ?_)))
  rw [show ((s.fetched k 4).arch k).returned = none from hb]
  rfl

/-! #### Control registers -/

theorem stctl_completes (hn : crNamed r2.toNat = true) :
    Completes (.stctl k r1 r2 0) s (s.executed k 4 ((s.found k 4).setG r1 ((s.fetched k 4).readC k r2.toNat))) :=
  run_of_ready h ((instr_of_super h hp).trans ((instr_of_check h rfl hn).trans (instr_next_of_ready h rfl)))

theorem stctl_spec (hn : crNamed r2.toNat = false) : Completes (.stctl k r1 r2 0) s (s.nullified k (s.fetched k 4) (.program 3 0)) :=
  super_spec_completes h hp rfl rfl hn

theorem lctl_spec (hn : crNamed r1.toNat = false ∨ (s.found k 4).gr r2 &&& crMustZero r1.toNat ≠ 0) :
    Completes (.lctl k r1 r2 0) s (s.nullified k (s.fetched k 4) (.program 3 0)) :=
  run_of_ready h ((instr_of_super h hp).trans ((instr_of_check h rfl rfl).trans
    (instr_nullified_of_ready h (if_pos (lctl_refused_iff.2 hn)))))

section
variable (hn : ¬(crNamed r1.toNat = false ∨ (s.found k 4).gr r2 &&& crMustZero r1.toNat ≠ 0))
include hn

theorem lctl_completes (h16 : r1.toNat ≠ 16) :
    Completes (.lctl k r1 r2 0) s (s.executed k 4 ((s.found k 4).writeC r1.toNat ((s.found k 4).gr r2)) true) :=
  run_of_ready h ((instr_of_super h hp).trans ((instr_of_check h rfl rfl).trans
    (instr_close_of_ready h ((if_neg (mt lctl_refused_iff.1 hn)).trans (if_neg h16)))))

/-- LCTL of c16 is performed once the core has drained, and its condition is tested at once (R79, R87). -/
theorem lctl_deadline {u : State} (hu : PerformsFrom (s.fetched k 4) u k) (h16 : r1.toNat = 16) :
    let u' := u.setArch k ((u.arch k).writeC 16 ((s.found k 4).gr r2))
    let due := { u'.core k with ckpt := { (u'.core k).ckpt with deadlineMatch := u'.deadlineDue k } }
    Completes (.lctl k r1 r2 0) s (u.performed (u'.setCore k due) k 4) :=
  run_of_ready h ((instr_of_super h hp).trans ((instr_of_check h rfl rfl).trans
    (instr_left_of_ready h (((if_neg (mt lctl_refused_iff.1 hn)).trans (if_pos h16)).trans (onceOnly_of_performs hu (.inr rfl))))))

end

/-! #### PTLB -/

theorem ptlb_completes {u : State} (hu : PerformsFrom (s.fetched k 4) u k) (hf : ((s.found k 4).gr r1).field 62 63 ≠ 3) :
    Completes (.ptlb k r1 r2 0) s
      (u.performed (u.purge (purges (((s.found k 4).gr r1).field 62 63) (((s.found k 4).gr r1).field 48 59) (u.seamOf k)
        ((s.found k 4).gr r2))) k 4) := by
  refine run_of_ready h ((instr_of_super h hp).trans (Eq.trans (instr_of_check h rfl ?_)
    (instr_left_of_ready h (onceOnly_of_performs hu (.inr rfl)))))
  exact bne_iff_ne.2 hf

theorem ptlb_spec (hf : ((s.found k 4).gr r1).field 62 63 = 3) :
    Completes (.ptlb k r1 r2 0) s (s.nullified k (s.fetched k 4) (.program 3 0)) :=
  super_spec_completes h hp rfl rfl (bne_eq_false_iff_eq.2 hf)

end

/-! ### Supervisor calls and undefined opcodes (R56, R72) -/

theorem svc_completes {s : State} {k : Fin 48} (code : BitVec 10) (h : Ready s k 2) :
    let ia := (s.found k 2).ia
    Completes (.svc k code) s (((s.fetched k 2).completed k (ia + 2) true).enterSync k 3 code.toNat none (ia + 2)) :=
  run_of_ready h (instr_left_of_ready h rfl)

theorem operationException_undefined {s : State} {k : Fin 48} {bytes : BitVec 48} (h : Ready s k (lengthOf (Fetched.first bytes)))
    (hb : ezxisAt k bytes = none) :
    Completes (.operationException k bytes) s (s.nullified k (s.fetched k (lengthOf (Fetched.first bytes))) (.program 1 0)) :=
  run_of_ready h ((if_neg (by simp [hb])).trans (instr_nullified_of_ready h rfl))

theorem operationException_defined {s : State} {k : Fin 48} {bytes : BitVec 48} (hp : s.hasPower) (hb : (ezxisAt k bytes).isSome = true) :
    Completes (.operationException k bytes) s s :=
  run_of_eq hp (if_pos hb)

/-- Settles O12: each instruction has its own equation, after the check of privilege where it is privileged. -/
theorem systemInstructionsHaveTheirEffects : Obligations.SystemInstructionsHaveTheirEffects := by
  unfold Obligations.SystemInstructionsHaveTheirEffects
  intro s k r1 r2 code bytes
  refine ⟨fun h => ?_, svc_completes code, operationException_undefined, operationException_defined⟩
  refine ⟨barl_completes h, fun hw => ⟨rdtb_completes h hw, isync_completes h hw⟩, barsEnd_left h, bars_completes h, barf_completes h,
    barf_left h, fun hp => ⟨lsw_completes h hp, lsw_spec h hp, fun b => rfi_completes h hp, rfi_spec h hp, stctl_completes h hp,
    stctl_spec h hp, ⟨lctl_spec h hp, fun hn hz => ?_, fun u hu h16 hn hz => ?_⟩, fun u => ptlb_completes h hp, ptlb_spec h hp⟩⟩
  · exact lctl_completes h hp (by simp [hn, hz])
  · exact lctl_deadline h hp (by simp [hn, hz]) hu h16

end Sys2Proof.Machine
end

section
/-! PROOFS. I/O and work-unit instructions (R79, R81-R86, R194, R230, R238-R240). -/

namespace Sys2Proof.Machine

/-! ### I/O instructions (R81-R83) -/

section
variable {s u : State} {k : Fin 48} {r1 : BitVec 5} {zero : Bool} {op : Nat → State → State × Nat × Option (BitVec 5 × Word)} {t : State}
  {n : Nat} (h : Ready s k 4) (hp : (s.found k 4).problem = false) (hz : zero = true)
  (hf : ((s.found k 4).gr r1).field 0 45 = 0) (hu : PerformsFrom (s.fetched k 4) u k)
include h hp hz hf hu

/-- An I/O instruction that delivers its CC alone. -/
theorem ioInstr_cc (hop : op (((s.found k 4).gr r1).field 46 63) u = (t, n, none)) :
    s.ioInstr k r1 zero op = u.performed ((t.setArch k ((t.arch k).setCc n)).response k [BitVec.ofNat 64 n]) k 4 := by
  subst hz
  refine (instr_of_super h hp).trans (Eq.trans (instr_of_check h rfl ?_)
    (instr_left_of_ready h (onceOnly_of_performs hu (.inr ?_))))
  · exact beq_iff_eq.2 hf
  · rw [show op ((((s.fetched k 4).arch k).gr r1).field 46 63) u = (t, n, none) from hop]

/-- An I/O instruction that also delivers a status. -/
theorem ioInstr_status {r : BitVec 5} {w : Word} (hop : op (((s.found k 4).gr r1).field 46 63) u = (t, n, some (r, w))) :
    s.ioInstr k r1 zero op =
      u.performed ((t.setArch k (((t.arch k).setCc n).setG r w)).response k [BitVec.ofNat 64 n, w]) k 4 := by
  subst hz
  refine (instr_of_super h hp).trans (Eq.trans (instr_of_check h rfl ?_)
    (instr_left_of_ready h (onceOnly_of_performs hu (.inr ?_))))
  · exact beq_iff_eq.2 hf
  · rw [show op ((((s.fetched k 4).arch k).gr r1).field 46 63) u = (t, n, some (r, w)) from hop]

end

section
variable {s u : State} {k : Fin 48} {r1 r2 : BitVec 5} (h : Ready s k 4) (hp : (s.found k 4).problem = false)
  (hf : ((s.found k 4).gr r1).field 0 45 = 0)
include h hp hf

/-- ISSUE of an entry whose address is translated. -/
theorem issue_completes {w : State} {r : Reached} (ha : ((s.found k 4).gr r2).toNat % 16 = 0)
    (hr : (s.fetched k 4).reach k ((s.found k 4).gr r2) .load = (w, .ok r)) (hu : PerformsFrom (w.markReached k r .load) u k) :
    let sch := ((s.found k 4).gr r1).field 46 63
    let num := ((u.core k).wu).getD 0
    let hint := u.hintFor num (u.schDie (u.seamOf k) sch)
    let q := u.issue (u.seamOf k) sch r.abs hint
    let v := if q.2 = 0 then q.1.traceHint num sch hint else q.1
    Completes (.issue k r1 r2 0) s (u.performed ((v.setArch k ((v.arch k).setCc q.2)).response k [BitVec.ofNat 64 q.2]) k 4) := by
  refine run_of_ready h ((instr_of_super h hp).trans (Eq.trans (instr_of_check h rfl ?_) (instr_left_of_ready h ?_)))
  · rw [show ((s.fetched k 4).arch k) = s.found k 4 from rfl, hf, ha]
    rfl
  · rw [show ((s.fetched k 4).arch k) = s.found k 4 from rfl]
    dsimp only
    rw [hr]
    exact onceOnly_of_performs hu (.inr rfl)

variable (hu : PerformsFrom (s.fetched k 4) u k)
include hu

theorem test_status :
    let q := u.testSch (u.seamOf k) (((s.found k 4).gr r1).field 46 63)
    q.2.1 = 0 → Completes (.test k r1 r2 0) s
      (u.performed ((q.1.setArch k (((q.1.arch k).setCc 0).setG r2 q.2.2)).response k [0, q.2.2]) k 4) := by
  intro q hq
  exact run_of_ready h (ioInstr_status h hp rfl hf hu (Prod.ext rfl (Prod.ext hq (if_pos hq))))

theorem test_cc :
    let q := u.testSch (u.seamOf k) (((s.found k 4).gr r1).field 46 63)
    q.2.1 ≠ 0 → Completes (.test k r1 r2 0) s
      (u.performed ((q.1.setArch k ((q.1.arch k).setCc q.2.1)).response k [BitVec.ofNat 64 q.2.1]) k 4) := by
  intro q hq
  exact run_of_ready h (ioInstr_cc h hp rfl hf hu (Prod.ext rfl (Prod.ext rfl (if_neg hq))))

theorem halt_completes :
    let q := u.haltSch (u.seamOf k) (((s.found k 4).gr r1).field 46 63)
    Completes (.halt k r1 0 0) s (u.performed ((q.1.setArch k ((q.1.arch k).setCc q.2)).response k [BitVec.ofNat 64 q.2]) k 4) :=
  run_of_ready h (ioInstr_cc h hp rfl hf hu rfl)

end

/-! ### Work-unit instructions (R84-R86) -/

section
variable {s u : State} {k : Fin 48} {r1 r2 : BitVec 5} (h : Ready s k 4)
include h

/-- ENQW of a descriptor that lies in normal cacheable memory. -/
theorem enqw_completes {w : State} {r : Reached} {phys : Nat} (ha : ((s.found k 4).gr r1).toNat % 256 = 0)
    (hf : ((s.found k 4).gr r2).field 0 60 = 0) (hr : (s.fetched k 4).reach k ((s.found k 4).gr r1) .load = (w, .ok r))
    (hm : r.place = .memory phys .normal) (ho : w.operates uForeman = true) (hu : PerformsFrom (w.markReached k r .load) u k) :
    let q := u.enqw k (u.seamOf k) r.abs (((s.found k 4).gr r2).field 61 63)
    Completes (.enqw k r1 r2 0) s (u.performed ((q.1.setArch k ((q.1.arch k).setCc q.2)).response k [BitVec.ofNat 64 q.2]) k 4) := by
  refine run_of_ready h (Eq.trans (instr_of_check h rfl ?_) (instr_left_of_ready h ?_))
  · rw [show ((s.fetched k 4).arch k) = s.found k 4 from rfl, hf, ha]
    rfl
  · rw [show ((s.fetched k 4).arch k) = s.found k 4 from rfl]
    simp only [hr, hm, ho, Bool.not_true, Bool.false_eq_true, if_false]
    exact onceOnly_of_performs hu (.inr rfl)

variable (ho : (s.fetched k 4).operates uForeman = true) (hu : ((s.fetched k 4).microcode k).settleAll k = u) {num : Nat}
  (hn : (u.core k).wu = some num)
include ho hu hn

theorem yield_completes :
    let v := u.traceWork 0x02 num k (beBytes 8 (u.work num).desc)
    let r := (((v.setArch k ((u.arch k).setCc 0)).completed k ((u.arch k).ia + 4) true).retireGroup k).saveOff k num
    let t := r.1.losses r.2.2
    Completes (.yield k 0 0 0) s ((if r.2.1 then (t.enqueue num false).fmnEvent (.yield k) else t).coreFreed k) := by
  refine run_of_ready h ((instr_of_check h rfl rfl).trans (instr_left_of_ready h ?_))
  simp only [ho, Bool.not_true, Bool.false_eq_true, if_false, hu, hn]

section
variable (hk : let kind := ((s.found k 4).gr r1).field 0 7; kind = 1 ∨ kind = 2 ∨ kind = 3)
  (hi : (s.fetched k 4).pendingFor k = none)
include hk hi

/-- A WAIT whose test answers `r`: its state and CC, or none. -/
theorem onWait_of_test {t : State} {r : Option Nat} :
    let a := s.found k 4
    let v := u.traceWork 0x03 num k (beBytes 8 (u.work num).desc ++ wordBytes (a.gr r1) ++ wordBytes (a.gr r2))
    v.waitTest (v.seamOf k) ((a.gr r1).field 0 7) ((a.gr r1).field 46 63) (a.gr r2) = (t, r) →
      onWait k r1 r2 0 s =
        match r with
        | some n =>
          (((t.setArch k ((t.arch k).setCc n)).response k [BitVec.ofNat 64 n]).completed k ((t.arch k).ia + 4) true).onceEnd k
        | none => t.suspend k num ((a.gr r1).field 0 7) ((a.gr r1).field 46 63) (a.gr r2) := by
  intro a v hv
  refine Eq.trans (instr_of_check h rfl ?_) (instr_left_of_ready h ?_)
  · show (((s.found k 4).gr r1).field 0 7 == 1 || ((s.found k 4).gr r1).field 0 7 == 2 || ((s.found k 4).gr r1).field 0 7 == 3) = true
    simpa only [Bool.or_eq_true, beq_iff_eq, or_assoc] using hk
  · simp only [hi, ho, Bool.not_true, Bool.false_eq_true, if_false, hu, hn, show (s.fetched k 4).arch k = a from rfl]
    rw [show (u.traceWork 0x03 num k (beBytes 8 (u.work num).desc ++ wordBytes (a.gr r1) ++ wordBytes (a.gr r2))).waitTest _ _ _ _ = _
      from hv]
    cases r <;> rfl

end
end

/-- Settles O14: each instruction passes its checks, drains the core and is performed there, once. -/
theorem ioAndWorkUnitInstructionsArePerformed : Obligations.IoAndWorkUnitInstructionsArePerformed := by
  unfold Obligations.IoAndWorkUnitInstructionsArePerformed
  intro s k r1 r2 h w a sch cc
  refine ⟨fun w' r u hp hf ha hr hu => issue_completes h hp hf ha hr hu, fun u hu hp hf => ⟨test_status h hp hf hu, test_cc h hp hf hu,
    halt_completes h hp hf hu⟩, fun w' r phys u ha hf hr hm ho hu => enqw_completes h ha hf hr hm ho hu, fun u num ho hu hn =>
    yield_completes h ho hu hn, fun u num hk hi ho hu hn => ?_⟩
  intro v q
  exact ⟨fun n hq => run_of_ready h (onWait_of_test (t := q.1) (r := some n) h ho hu hn hk hi (Prod.ext rfl hq)),
    fun hq => run_of_ready h (onWait_of_test (t := q.1) (r := none) h ho hu hn hk hi (Prod.ext rfl hq))⟩

end Sys2Proof.Machine
end

section
/-! PROOFS. Events of a core: interruptions, DEADLINE, its buffers and the comparison of groups (R74, R75, R87, R126, R129, R193-R198). -/

namespace Sys2Proof.Machine

/-! ### Interruptions and DEADLINE -/

section
variable {s : State} {k : Fin 48} (hp : s.hasPower)
include hp

theorem interruption_taken {p : PendInt} {i : Option Nat} (hr : s.coreRuns k = true)
    (hg : (s.core k).group.attempts = 0 ∨ (s.core k).group.closed = true) (hi : s.pendingFor k = some (p, i)) :
    Completes (.interruption k) s (s.takePending k p i) := by
  have hgo : ¬((!s.coreRuns k) = true ∨ ((s.core k).group.attempts ≠ 0 ∧ (!(s.core k).group.closed) = true)) := by
    rcases hg with hg | hg <;> simp [hr, hg]
  refine run_of_eq hp ((if_neg hgo).trans ?_)
  rw [hi]

/-- No interruption is taken by a core that does not run, between a mismatch and the end of the re-executed group, or where none pends. -/
theorem interruption_none
    (h : s.coreRuns k = false ∨ ((s.core k).group.attempts ≠ 0 ∧ (s.core k).group.closed = false) ∨ s.pendingFor k = none) :
    Completes (.interruption k) s s := by
  refine run_of_eq hp ?_
  unfold onInterruption
  split
  · rfl
  · next hgo =>
    rcases h with h | ⟨ha, hc⟩ | h
    · exact absurd (.inl (by simp [h])) hgo
    · exact absurd (.inr ⟨ha, by simp [hc]⟩) hgo
    · rw [h]

theorem deadlineMatch_completes (hw : (s.core k).wu.isSome = true) (hd : s.deadlineDue k = true) :
    Completes (.deadlineMatch k) s (s.setCore k { s.core k with ckpt := { (s.core k).ckpt with deadlineMatch := true } }) :=
  run_of_eq hp (if_pos ⟨hw, hd⟩)

/-! ### The store buffer and the gather buffer -/

section
variable {b : BufStore} {rest : List BufStore} (hb : (s.core k).storeBuf = b :: rest)
include hb

theorem storeBufferEntryLeave_room (hl : (gatherStore s.now (s.core k).gather b).length ≤ 16) :
    Completes (.storeBufferEntryLeave k) s
      (writeGathered k 16 (s.setCore k { s.core k with storeBuf := rest, gather := gatherStore s.now (s.core k).gather b })) := by
  refine run_of_eq hp ?_
  unfold onStoreBufferEntryLeave
  simp only [hb, if_neg (Nat.not_lt.2 hl)]

theorem storeBufferEntryLeave_full (hl : 16 < (gatherStore s.now (s.core k).gather b).length) :
    Completes (.storeBufferEntryLeave k) s (writeGathered k 16 s) := by
  refine run_of_eq hp ?_
  unfold onStoreBufferEntryLeave
  simp only [hb, if_pos hl]

end

theorem gatherEntryTimeout_due :
    let due (g : Gather) : Bool := g.isOpen && decide (64 * 10 ≤ 52 * (s.now - g.openedAt))
    (s.core k).gather.any due = true → Completes (.gatherEntryTimeout k) s
      (writeGathered k 16
        (s.setCore k { s.core k with gather := (s.core k).gather.map fun g => if due g then { g with isOpen := false } else g })) :=
  fun h => run_of_eq hp (if_pos h)

end

/-! ### The comparison of a group -/

/-- The lane whose own checks found an error shows it (R212). -/
def State.laneNoted (s : State) (k : Fin 48) (lane : Option (Fin 2)) : State :=
  match lane with
  | some l => s.wr ⟨.lane, 2 * k.val + l.val⟩ Reg.UNIT_STICKY.OWN 1
  | none => s

theorem core_laneNoted (s : State) (k : Fin 48) (lane : Option (Fin 2)) (j : Nat) : (s.laneNoted k lane).core j = s.core j := by
  cases lane <;> rfl

/-- A group that compares equal at its first attempt only retires. -/
theorem compared_first {s : State} {k : Nat} (h : (s.core k).group.attempts = 0) : s.compared k = s.retire k :=
  if_pos (.inr h)

/-- A group that compares equal after a retry is a corrected fault (R198). -/
theorem compared_retried {s : State} {k : Nat} (hc : (s.core k).group.count ≠ 0) (ha : (s.core k).group.attempts ≠ 0) :
    let v := s.retire k
    let a := (v.bump (uCore k) Reg.CKW_RETRY.RETRIES).corrected (uCore k) (BitVec.ofNat 64 (v.rd (uCore k) Reg.CKW_LAST_IA.IA))
    s.compared k = a.tallyEvent (some (uCore k)) 0x05 0x01 7 0xFF (a.mismatchPayload k) :=
  if_neg (not_or.2 ⟨hc, ha⟩)

section
variable {s : State} {k kind : Nat} {read : RecordRead}

theorem mismatch_fails (h : s.mismatchFails k = true) : s.mismatch k kind read = (s.noteMismatch k kind).coreFail k [] := by
  simp only [State.mismatch, h, if_true]

section
variable (h : s.mismatchFails k = false)
include h

theorem mismatch_unreadable (hr : read.readable = false) :
    let v := (s.noteMismatch k kind).recordCorrected k read.corr.toNat
    s.mismatch k kind read =
      (v.setCore k { v.core k with ckpt := { (v.core k).ckpt with readable := false } }).coreFail k [Reg.CKW_STAT.CKPT_LOST] := by
  simp only [State.mismatch, h, hr, Bool.false_eq_true, if_false, Bool.not_false, if_true]

variable (hr : read.readable = true)
include hr

/-- A mismatch of the response of an instruction that has been performed leaves it performed (R194). -/
theorem mismatch_performed :
    let v := (s.noteMismatch k kind).recordCorrected k read.corr.toNat
    (v.core k).group.performed = true → s.mismatch k kind read = v.retire k := by
  intro v hg
  simp only [State.mismatch, h, hr, Bool.false_eq_true, if_false, Bool.not_true]
  exact if_pos hg

theorem mismatch_restores :
    let v := (s.noteMismatch k kind).recordCorrected k read.corr.toNat
    (v.core k).group.performed = false →
      s.mismatch k kind read = if ((v.microcode k).core k).wu.isSome then (v.microcode k).restoreCkpt k else v.microcode k := by
  intro v hg
  simp only [State.mismatch, h, hr, Bool.false_eq_true, if_false, Bool.not_true]
  exact if_neg (Bool.eq_false_iff.1 hg)

end
end

section
variable {s : State} {k : Fin 48} {kind : BitVec 9} {read : RecordRead} {lane : Option (Fin 2)} (hp : s.hasPower)
  (hw : (s.core k).wu.isSome = true) (ha : (s.core k).active = true) (ho : s.operates (uCore k) = true)
include hp hw ha ho

/-- The comparison of the group of an active core that holds a work unit. -/
theorem groupCompare_completes (disagree : Bool) :
    Completes (.groupCompare k kind disagree read lane) s
      (if disagree then (s.laneNoted k lane).coreFail k [Reg.CKW_STAT.SELF_FAIL]
       else if kind = 0 then (if (s.laneNoted k lane).groupRoom k then (s.laneNoted k lane).compared k else s.laneNoted k lane)
       else (s.laneNoted k lane).mismatch k kind.toNat read) := by
  have hgo : ¬((s.core k).wu.isNone = true ∨ (!(s.core k).active) = true ∨ (!s.operates (uCore k)) = true) := by
    simp [ha, ho, ← Option.isSome_iff_ne_none, hw]
  exact run_of_eq hp (if_neg hgo)

theorem groupCompare_disagrees :
    Completes (.groupCompare k kind true read lane) s ((s.laneNoted k lane).coreFail k [Reg.CKW_STAT.SELF_FAIL]) :=
  groupCompare_completes hp hw ha ho true

theorem groupCompare_waits (hr : (s.laneNoted k lane).groupRoom k = false) :
    Completes (.groupCompare k 0 false read lane) s (s.laneNoted k lane) := by
  simpa [hr] using groupCompare_completes (kind := 0) (read := read) (lane := lane) hp hw ha ho false

theorem groupCompare_equal {t : State} (hr : (s.laneNoted k lane).groupRoom k = true) (ht : (s.laneNoted k lane).compared k = t) :
    Completes (.groupCompare k 0 false read lane) s t := by
  simpa [hr, ht] using groupCompare_completes (kind := 0) (read := read) (lane := lane) hp hw ha ho false

theorem groupCompare_differs {t : State} (hk : kind ≠ 0) (ht : (s.laneNoted k lane).mismatch k kind.toNat read = t) :
    Completes (.groupCompare k kind false read lane) s t := by
  have h := groupCompare_completes (kind := kind) (read := read) (lane := lane) hp hw ha ho false
  rwa [if_neg Bool.false_ne_true, if_neg hk, ht] at h

end

/-- Settles O37: each event by its own condition, and the comparison of a group by its verdicts, the differing items and the attempts. -/
theorem coreEventsAct : Obligations.CoreEventsAct := by
  unfold Obligations.CoreEventsAct
  intro s k hp
  refine ⟨fun p n => interruption_taken hp, interruption_none hp, deadlineMatch_completes hp, fun b rest hb =>
    ⟨storeBufferEntryLeave_room hp hb, storeBufferEntryLeave_full hp hb⟩, gatherEntryTimeout_due hp, fun hw ha ho kind read lane => ?_⟩
  have hcore : (s.laneNoted k lane).core k = s.core k := core_laneNoted s k lane k
  refine ⟨groupCompare_disagrees hp hw ha ho, fun hr hatt => ?_, groupCompare_waits hp hw ha ho, fun hr hc hatt => ?_,
    fun hk hf => ?_, fun hk hf => ⟨fun hread => ?_, fun hread hg => ?_, fun hread hg => ⟨fun he => ?_, fun he => ?_⟩⟩⟩
  · exact groupCompare_equal hp hw ha ho hr (compared_first (hcore ▸ hatt))
  · exact groupCompare_equal hp hw ha ho hr (compared_retried (hcore ▸ hc) (hcore ▸ hatt))
  · exact groupCompare_differs hp hw ha ho hk (mismatch_fails hf)
  · exact groupCompare_differs hp hw ha ho hk (mismatch_unreadable hf hread)
  · exact groupCompare_differs hp hw ha ho hk (mismatch_performed hf hread hg)
  · exact groupCompare_differs hp hw ha ho hk ((mismatch_restores hf hread hg).trans (if_pos he))
  · exact groupCompare_differs hp hw ha ho hk ((mismatch_restores hf hread hg).trans (if_neg (Bool.eq_false_iff.1 he)))

end Sys2Proof.Machine
end

section
/-! PROOFS. Commands of the Foreman (R86, R233-R254). -/

namespace Sys2Proof.Machine

/-- The I/O die near which a decision places first: that of the work unit whose status came (R233, R235). -/
def State.eventDie (s : State) (e : FmnEvent) : Option Nat :=
  match e with
  | .status n => (s.work n).nearDie
  | _ => none

theorem eventDie_of_no_status (s : State) {e : FmnEvent} (h : ∀ n, e ≠ .status n) : s.eventDie e = none := by
  cases e with
  | status n => exact absurd rfl (h n)
  | _ => rfl

section
variable {s : State} (hp : s.hasPower) (ho : s.operates uForeman = true)
include hp ho

/-! ### Decisions and ticks (R233, R236, R238) -/

theorem foremanDecision_event {e : FmnEvent} {die : Option Nat} (he : s.nextEvent = some e) (hd : s.eventDie e = die) :
    Completes .foremanDecision s (({ s with fmnEvents := s.fmnEvents.erase e } : State).reserveAgain.envShort.place die) := by
  subst hd
  refine run_of_eq hp ((if_neg (by simp [ho])).trans ?_)
  rw [he]
  rfl

theorem foremanDecision_none (he : s.nextEvent = none) : Completes .foremanDecision s s := by
  refine run_of_eq hp ((if_neg (by simp [ho])).trans ?_)
  rw [he]

/-- The waits whose deadline has come have ended (R238). -/
def State.waitsEnded (s : State) : State :=
  (State.each (s.spilled.filter fun n => decide ((s.work n).waitUntil ≤ s.timeBase)) (fun n s => s.endWait n 1 none) s).endDeadWaits

/-- A tick takes work off only while the Foreman is enabled and the module is not stopped (R236, R252). -/
theorem foremanTick_takesOff (he : s.waitsEnded.flag uForeman Reg.FMN_CTL.ENABLE = true) (hs : s.waitsEnded.stopped = false) :
    Completes .foremanTick s
      ((State.each allSeams (fun n s => (s.offForMin n).offForPriority n) s.waitsEnded).offForQuantum.reserveAgain.envShort.place none) :=
  run_of_eq hp ((if_neg (by simp [ho])).trans
    (congrArg (fun v : State => v.reserveAgain.envShort.place none) (if_pos ⟨he, congrArg not hs⟩)))

theorem foremanTick_takesNothingOff (h : s.waitsEnded.flag uForeman Reg.FMN_CTL.ENABLE = false ∨ s.waitsEnded.stopped = true) :
    Completes .foremanTick s (s.waitsEnded.reserveAgain.envShort.place none) := by
  have hn : ¬(s.waitsEnded.flag uForeman Reg.FMN_CTL.ENABLE = true ∧ (!s.waitsEnded.stopped) = true) := by
    rcases h with h | h <;> simp [h]
  exact run_of_eq hp ((if_neg (by simp [ho])).trans
    (congrArg (fun v : State => v.reserveAgain.envShort.place none) (if_neg hn)))

/-! ### Take-offs, parking and retention (R236, R244) -/

omit ho in
theorem takeOff_due {k : Fin 48} {reason : Nat} (hr : (s.core k).takeoff = some reason) :
    Completes (.takeOff k) s (((s.takeOff k reason).1.losses (s.takeOff k reason).2).coreFreed k) := by
  refine run_of_eq hp ?_
  unfold onTakeOff State.performTakeOff
  rw [hr]

omit ho in
theorem takeOff_none {k : Fin 48} (hr : (s.core k).takeoff = none) : Completes (.takeOff k) s s := by
  refine run_of_eq hp ?_
  unfold onTakeOff State.performTakeOff
  rw [hr]

theorem corePark_completes {k : Fin 48} (hk : s.parkable k = true) (hr : (s.core k).reserved = none)
    (hi : 1000 * s.rd uForeman Reg.FMN_PARK.OFF_US ≤ s.now - (s.core k).idleSince)
    (hg : s.rd uForeman Reg.FMN_PARK.SPARE_GATED < s.spareGated k) (hh : ∀ n, s.heldFor k = some n → s.readyOf n = []) :
    Completes (.corePark k) s (s.parkCore k) := by
  have hw : (match s.heldFor k with | some n => !(s.readyOf n).isEmpty | none => false) = false := by
    cases hn : s.heldFor k with
    | none => rfl
    | some n => simp [hh n hn]
  exact run_of_eq hp (if_pos ⟨ho, hk, hr, hi, hg, hw⟩)

theorem tileRetention_completes {t : Fin 4} (hu : (s.unit (uTile t)).power = .run) (hf : (s.unit (uTile t)).fenced = false)
    (hr : (s.unit (uTile t)).resetting = false) (hpin : s.flag (uTile t) Reg.UNIT_POWER.PIN = false)
    (hc : ∀ j ∈ allCores, j / 12 = t.val → (s.unit (uCore j)).power = .off ∧
      1000000 * s.rd uForeman Reg.FMN_PARK.RET_MS ≤ s.now - (s.core j).idleSince) :
    Completes (.tileRetention t) s (s.tileRetain t) := by
  refine run_of_eq hp (if_pos ⟨ho, hu, by simp [hf], by simp [hr], by simp [hpin], ?_⟩)
  refine List.all_eq_true.2 fun j hj => ?_
  obtain ⟨hj, ht⟩ := List.mem_filter.1 hj
  obtain ⟨hoff, hidle⟩ := hc j hj (beq_iff_eq.1 ht)
  simp [hoff, hidle]

/-! ### Waits and policy (R86, R233, R249, R254) -/

theorem waitDeadline_completes {num : BitVec 56} (hr : (s.work num.toNat).run = .waiting) (hk : 2 ≤ (s.work num.toNat).waitKind)
    (hu : (s.work num.toNat).waitUntil ≤ s.timeBase) (hs : s.spilled.contains num.toNat = false) :
    Completes (.waitDeadline num) s (s.endWait num.toNat 1 none) :=
  run_of_eq hp (if_pos ⟨hr, hk, hu, ho, hs⟩)

omit ho in
theorem fmnPolicyWrite_admitted {sender : Sender} {off : BitVec 12} {v : Word} {t : State} (hi : isPolicy off.toNat = true)
    (ha : Admits s sender uForeman off.toNat) (ht : s.policyWrite off.toNat v = t) : Completes (.fmnPolicyWrite sender off v) s t :=
  run_of_eq hp ((if_pos hi).trans ((command_of_admits ha).trans ht))

end

theorem policyWrite_sealed {s : State} {off : Nat} (v : Word) (h : 0x400 ≤ off ∧ s.sealed ((off - 0x400) / 0x20) = true) :
    s.policyWrite off v = s := if_pos h

theorem policyWrite_traced {s : State} {off : Nat} (v : Word) (h : ¬(0x400 ≤ off ∧ s.sealed ((off - 0x400) / 0x20) = true)) :
    let u := s.writeFields uForeman off v
    s.policyWrite off v = (u.trace 0x10 0xFF 0xFF 0xFF 0xFF 0xFF 0
      (beBytes 2 off ++ wordBytes (s.word uForeman off) ++ wordBytes (u.word uForeman off))).fmnEvent .policy := if_neg h

/-! ### FMN_EVICT (R252, R253) -/

theorem fmnEvict_admitted {s t : State} {sender : Sender} {core : BitVec 8} (hp : s.hasPower) (ha : Admits s sender uForeman 0x0F0)
    (ht : s.evictStart core.toNat = t) : Completes (.fmnEvict sender core) s t :=
  run_of_eq hp ((command_of_admits ha).trans ht)

/-- START names its core whether or not it is taken. -/
abbrev State.evictNamed (s : State) (n : Nat) : State := s.wr uForeman Reg.FMN_EVICT.CORE n

section
variable {s : State} {n : Nat}

theorem evictStart_running (h : s.evict.isSome = true) : s.evictStart n = s.evictNamed n := if_pos h

variable (h : s.evict = none)
include h

theorem evictStart_refuses_number (hn : 48 ≤ n) : s.evictStart n = (s.evictNamed n).wr uForeman Reg.FMN_EVICT.RESULT 2 :=
  (if_neg (by simp [h])).trans (if_pos hn)

variable (hn : n < 48)
include hn

theorem evictStart_refuses_role (ha : ((s.evictNamed n).core n).active = false) :
    s.evictStart n = (s.evictNamed n).wr uForeman Reg.FMN_EVICT.RESULT 3 :=
  (if_neg (by simp [h])).trans ((if_neg (Nat.not_le.2 hn)).trans (if_pos (by simp [ha])))

theorem evictStart_holds (ha : ((s.evictNamed n).core n).active = true) :
    let x := (s.evictNamed n).setBit uForeman Reg.FMN_HOLD.HOLD n true
    let y := x.setCore n { x.core n with reserved := none }
    s.evictStart n = (State.askOff { y with evict := some n } n 6).evictCheck :=
  (if_neg (by simp [h])).trans ((if_neg (Nat.not_le.2 hn)).trans (if_neg (by simp [ha])))

end

/-! ### Granules (R241-R243) -/

section
variable {s : State} (hp : s.hasPower) (ho : s.operates uForeman = true)
include hp ho

theorem missReport_counted {t g : Nat} {rest : List (Nat × Nat)} (hm : s.missReports = (t, g) :: rest) :
    Completes .missReport s { s with missReports := rest, granCounts := countMiss s.granCounts t g } := by
  refine run_of_eq hp ?_
  unfold onMissReport
  rw [hm]
  exact if_pos ho

theorem epochEnd_halves (he : s.flag uForeman Reg.FMN_MIG.MIG_EN = false) :
    Completes .epochEnd s { s with granCounts := s.granCounts.map fun g => { g with counts := g.counts.map (· / 2) } } := by
  refine run_of_eq hp ?_
  simp only [onEpochEnd, ho, he, Bool.not_true, Bool.false_eq_true, if_false]

theorem epochEnd_migrates (he : s.flag uForeman Reg.FMN_MIG.MIG_EN = true) :
    let l := s.granCounts.filterMap fun g => (s.migCandidate g).map fun n => (g, n)
    let order := sortBy (fun a b => decide (b.1.total < a.1.total) || (a.1.total == b.1.total && decide (a.1.gran ≤ b.1.gran))) l
    let v := State.each (order.take (s.rd uForeman Reg.FMN_MIG.MAX_MIG)) (fun e s => s.migStart e.1 e.2) s
    Completes .epochEnd s { v with granCounts := v.granCounts.map fun g => { g with counts := g.counts.map (· / 2) } } := by
  refine run_of_eq hp ?_
  simp only [onEpochEnd, ho, he, Bool.not_true, Bool.false_eq_true, if_false, if_true]

end

section
variable {s : State} {gran : BitVec 19} {m : Migration} (hp : s.hasPower)
  (hm : (s.migrations.find? fun m => m.gran == gran.toNat) = some m)

/-- The state that a migration has left: it is no longer under way. -/
def State.migrationGone (s : State) (m : Migration) : State := { s with migrations := s.migrations.filter fun x => x.gran != m.gran }

include hm in
/-- A migration aborts, waits for what is open in its granule, or switches (R242). -/
theorem onMigrationSwitch_eq :
    onMigrationSwitch gran s =
      if (!s.serves m.src) = true ∨ (!s.serves m.dst) = true ∨ s.copyStops m = true then
        (((s.migrationGone m).stick uForeman Reg.FMN_ERR.MIG_ABORT).tallyEvent (some uForeman) 0x0E 0x02 7 0xFF
          (payload8 0 (beBytes 8 (m.gran * 65536)))).traceMigration 0x0E m (migResult false)
      else if (s.homeTrans.any fun h => h.line / 512 == m.gran) = true then s
      else ((((s.migrationGone m).migSwitch m).count uForeman Reg.FMN_COUNT2.MIGRATIONS).tallyEvent (some uForeman) 0x07 0x04 7 0xFF
        (payload8 1 (beBytes 8 (m.gran * 65536) ++ beBytes 1 m.src ++ beBytes 1 m.dst))).traceMigration 0x0E m (migResult true) := by
  unfold onMigrationSwitch
  rw [hm]
  rfl

include hp hm

theorem migrationSwitch_aborts (h : s.serves m.src = false ∨ s.serves m.dst = false ∨ s.copyStops m = true) :
    Completes (.migrationSwitch gran) s
      ((((s.migrationGone m).stick uForeman Reg.FMN_ERR.MIG_ABORT).tallyEvent (some uForeman) 0x0E 0x02 7 0xFF
        (payload8 0 (beBytes 8 (m.gran * 65536)))).traceMigration 0x0E m (migResult false)) :=
  run_of_eq hp ((onMigrationSwitch_eq hm).trans (if_pos (by simpa using h)))

section
variable (hs : s.serves m.src = true) (hd : s.serves m.dst = true) (hc : s.copyStops m = false)
include hs hd hc

theorem migrationSwitch_waits (ho : (s.homeTrans.any fun h => h.line / 512 == m.gran) = true) :
    Completes (.migrationSwitch gran) s s :=
  run_of_eq hp ((onMigrationSwitch_eq hm).trans ((if_neg (by simp [hs, hd, hc])).trans (if_pos ho)))

theorem migrationSwitch_switches (ho : (s.homeTrans.any fun h => h.line / 512 == m.gran) = false) :
    Completes (.migrationSwitch gran) s
      (((((s.migrationGone m).migSwitch m).count uForeman Reg.FMN_COUNT2.MIGRATIONS).tallyEvent (some uForeman) 0x07 0x04 7 0xFF
        (payload8 1 (beBytes 8 (m.gran * 65536) ++ beBytes 1 m.src ++ beBytes 1 m.dst))).traceMigration 0x0E m (migResult true)) :=
  run_of_eq hp ((onMigrationSwitch_eq hm).trans ((if_neg (by simp [hs, hd, hc])).trans (if_neg (Bool.eq_false_iff.1 ho))))

end
end

/-- Settles O44: each command of the Foreman by the rule that decides it. -/
theorem foremanCommandsAct : Obligations.ForemanCommandsAct := by
  unfold Obligations.ForemanCommandsAct
  intro s sender k t hp ho
  refine ⟨fun e he => ⟨fun n hn => ?_, fun hn => ?_⟩, foremanDecision_none hp ho, ⟨foremanTick_takesOff hp ho,
    foremanTick_takesNothingOff hp ho⟩, fun reason => takeOff_due hp, takeOff_none hp, corePark_completes hp ho,
    tileRetention_completes hp ho, fun num => waitDeadline_completes hp ho, fun off v hi ha => ⟨fun hle hs => ?_, fun hn => ?_⟩,
    fun core ha => ⟨fun he => ?_, fun he hn => ?_, fun he hn hr => ?_, fun he hn hr => ?_⟩, fun m g rest => missReport_counted hp ho,
    epochEnd_halves hp ho, epochEnd_migrates hp ho, fun gran m hm => ⟨migrationSwitch_aborts hp hm, migrationSwitch_waits hp hm,
    migrationSwitch_switches hp hm⟩⟩
  · exact foremanDecision_event hp ho he (hn ▸ rfl)
  · exact foremanDecision_event hp ho he (eventDie_of_no_status s hn)
  · exact fmnPolicyWrite_admitted hp hi ha (policyWrite_sealed v ⟨hle, hs⟩)
  · exact fmnPolicyWrite_admitted hp hi ha (policyWrite_traced v hn)
  · exact fmnEvict_admitted hp ha (evictStart_running he)
  · exact fmnEvict_admitted hp ha (evictStart_refuses_number he hn)
  · exact fmnEvict_admitted hp ha (evictStart_refuses_role he hn hr)
  · exact fmnEvict_admitted hp ha (evictStart_holds he hn hr)

end Sys2Proof.Machine
end

section
/-! PROOFS. Integer operands, wrapped results and shifts as numbers (R92, R95, R96). -/

namespace Sys2Proof.Machine

theorem widthOf_pos (w : Bool) : 0 < widthOf w := by cases w <;> decide

/-! ### Sources -/

theorem srcU_lt (w : Bool) (x : Word) : srcU w x < 2 ^ widthOf w := by
  cases w
  · exact x.isLt
  · exact Nat.mod_lt _ (Nat.two_pow_pos 32)

theorem srcU_testBit {w : Bool} {x : Word} {i : Nat} (h : i < widthOf w) : (srcU w x).testBit i = x.getLsbD i := by
  cases w
  · rfl
  · simp only [srcU, if_true, Nat.testBit_mod_two_pow, show i < 32 from h, decide_true, Bool.true_and, BitVec.testBit_toNat]

theorem le_srcS (w : Bool) (x : Word) : -(2 : Int) ^ (widthOf w - 1) ≤ srcS w x := by
  cases w
  · exact BitVec.le_toInt x
  · exact BitVec.le_toInt (x.setWidth 32)

theorem srcS_lt (w : Bool) (x : Word) : srcS w x < (2 : Int) ^ (widthOf w - 1) := by
  cases w
  · exact BitVec.toInt_lt
  · exact BitVec.toInt_lt

/-! ### Results -/

/-- The low half of a W result is the result as the 32-bit operation gives it. -/
theorem setWidth_resultOf (v : Int) : (resultOf true v).setWidth 32 = BitVec.ofInt 32 v := by
  refine BitVec.eq_of_getLsbD_eq fun i hi => ?_
  rw [BitVec.getLsbD_setWidth, resultOf, if_pos rfl, BitVec.getLsbD_signExtend]
  simp [hi, show i < 64 by omega]

/-- A result, read as a source of its own form, is the value wrapped to the width, with its sign. -/
theorem srcS_resultOf (w : Bool) (v : Int) : srcS w (resultOf w v) = v.bmod (2 ^ widthOf w) := by
  cases w
  · exact BitVec.toInt_ofInt v
  · exact (congrArg BitVec.toInt (setWidth_resultOf v)).trans (BitVec.toInt_ofInt v)

theorem srcU_resultOf (w : Bool) (v : Nat) : srcU w (resultOf w v) = v % 2 ^ widthOf w := by
  cases w
  · exact congrArg BitVec.toNat (BitVec.ofInt_natCast 64 v)
  · calc srcU true (resultOf true v) = ((resultOf true v).setWidth 32).toNat := (BitVec.toNat_setWidth ..).symm
      _ = (BitVec.ofNat 32 v).toNat := by rw [setWidth_resultOf, BitVec.ofInt_natCast]
      _ = v % 2 ^ 32 := BitVec.toNat_ofNat v 32

/-- The result differs from the exact value by a multiple of 2 to the width. -/
theorem srcS_resultOf_add_mul (w : Bool) (v : Int) : srcS w (resultOf w v) = v + -v.bdiv (2 ^ widthOf w) * 2 ^ widthOf w := by
  rw [srcS_resultOf, Int.bmod_eq_self_sub_bdiv_mul, Int.sub_eq_add_neg, Int.neg_mul, Int.natCast_pow]
  rfl

theorem srcS_resultOf_of_fits {w : Bool} {v : Int} (hl : -(2 : Int) ^ (widthOf w - 1) ≤ v) (hu : v < (2 : Int) ^ (widthOf w - 1)) :
    srcS w (resultOf w v) = v := by
  rw [srcS_resultOf]
  cases w
  · exact Int.bmod_eq_of_le hl hu
  · exact Int.bmod_eq_of_le hl hu

/-- A number fits the width where it is a signed number of that width. -/
theorem fitsS_iff (w : Bool) (v : Int) :
    fitsS w v = true ↔ -(2 : Int) ^ (widthOf w - 1) ≤ v ∧ v < (2 : Int) ^ (widthOf w - 1) := by
  rw [fitsS, beq_iff_eq]
  constructor
  · intro h
    rw [← h]
    exact ⟨le_srcS w _, srcS_lt w _⟩
  · rintro ⟨hl, hu⟩
    exact srcS_resultOf_of_fits hl hu

theorem ccSign_ne_three (v : Int) : ccSign v ≠ 3 := by
  unfold ccSign
  split
  · decide
  · split <;> decide

/-- CC 3 is signed overflow alone (R95). -/
theorem ccArith_eq_three_iff (w : Bool) (v : Int) :
    ccArith w v = 3 ↔ v < -(2 : Int) ^ (widthOf w - 1) ∨ (2 : Int) ^ (widthOf w - 1) ≤ v := by
  have hf := fitsS_iff w v
  cases hv : fitsS w v with
  | true =>
    obtain ⟨hl, hu⟩ := hf.1 hv
    simp only [ccArith, hv, if_true, ccSign_ne_three, false_iff]
    omega
  | false =>
    have hn : ¬(-(2 : Int) ^ (widthOf w - 1) ≤ v ∧ v < (2 : Int) ^ (widthOf w - 1)) := fun h => Bool.eq_false_iff.1 hv (hf.2 h)
    simp only [ccArith, hv, Bool.false_eq_true, if_false, true_iff]
    omega

/-! ### Shifts and rotates -/

theorem shiftCount_eq (x : Word) : shiftCount x = x.toNat % 256 := by
  simp [shiftCount, Word.field]

/-- A shift to the left below the width, with zero fill. -/
theorem srcU_shiftLeft {w : Bool} {c : Nat} (m : Nat) (h : c < widthOf w) :
    srcU w (resultOf w (shiftLeft w m c)) = m * 2 ^ c % 2 ^ widthOf w := by
  rw [shiftLeft, if_neg (Nat.not_le.2 h), srcU_resultOf]

theorem srcU_shiftRight {w : Bool} {c : Nat} (x : Word) (h : c < widthOf w) :
    srcU w (resultOf w (shiftRight w (srcU w x) c)) = srcU w x / 2 ^ c := by
  rw [shiftRight, if_neg (Nat.not_le.2 h), srcU_resultOf, Nat.mod_eq_of_lt (Nat.lt_of_le_of_lt (Nat.div_le_self _ _) (srcU_lt w x))]

theorem srcU_zero (w : Bool) : srcU w (resultOf w 0) = 0 := by cases w <;> rfl

theorem shiftLeft_over {w : Bool} {c : Nat} (m : Nat) (h : widthOf w ≤ c) : shiftLeft w m c = 0 := if_pos h

theorem shiftRight_over {w : Bool} {c : Nat} (m : Nat) (h : widthOf w ≤ c) : shiftRight w m c = 0 := if_pos h

/-- An arithmetic shift to the right does not leave the signed range. -/
theorem srcS_shiftArith (w : Bool) (x : Word) (c : Nat) :
    srcS w (resultOf w (shiftArith w (srcS w x) c)) = shiftArith w (srcS w x) c := by
  have hl := le_srcS w x
  have hu := srcS_lt w x
  have hp : (0 : Int) < 2 ^ min c (widthOf w) := Int.pow_pos (by decide)
  have ht : (0 : Int) < 2 ^ (widthOf w - 1) := Int.pow_pos (by decide)
  have hm : (2 : Int) ^ (widthOf w - 1) ≤ 2 ^ (widthOf w - 1) * 2 ^ min c (widthOf w) := by
    simpa only [Int.mul_one] using Int.mul_le_mul_of_nonneg_left (show (1 : Int) ≤ 2 ^ min c (widthOf w) from hp) (Int.le_of_lt ht)
  refine srcS_resultOf_of_fits ?_ ?_
  · exact (Int.le_ediv_iff_mul_le hp).2 (by rw [Int.neg_mul]; omega)
  · exact (Int.ediv_lt_iff_lt_mul hp).2 (by omega)

theorem shiftArith_under {w : Bool} {c : Nat} (x : Int) (h : c < widthOf w) : shiftArith w x c = x / 2 ^ c := by
  rw [shiftArith, Nat.min_eq_left (Nat.le_of_lt h)]

/-- At or above the width, only copies of the sign bit are left. -/
theorem shiftArith_over {w : Bool} {c : Nat} (x : Word) (h : widthOf w ≤ c) :
    shiftArith w (srcS w x) c = if srcS w x < 0 then -1 else 0 := by
  have hl := le_srcS w x
  have hu := srcS_lt w x
  have hp : (2 : Int) ^ (widthOf w - 1) ≤ 2 ^ widthOf w := by cases w <;> decide
  rw [shiftArith, Nat.min_eq_right h]
  split
  next hn => exact Int.ediv_eq_neg_one_of_neg_of_le hn (by omega)
  next hn => exact Int.ediv_eq_zero_of_lt (by omega) (by omega)

/-- The low bits of a result are the bits of its value. -/
theorem resultOf_bit {w : Bool} {j : Nat} (v : Nat) (h : j < widthOf w) : (resultOf w v).getLsbD j = v.testBit j := by
  rw [← srcU_testBit h, srcU_resultOf, Nat.testBit_mod_two_pow]
  simp [h]

/-- The bits of a rotated number: those below the count come from the top, and the others move up. -/
theorem testBit_rotate {n m x : Nat} (hm : m ≤ n) (hx : x < 2 ^ n) (j : Nat) :
    (x * 2 ^ m + x / 2 ^ (n - m)).testBit j = if j < m then x.testBit (j + (n - m)) else x.testBit (j - m) := by
  have hd : x / 2 ^ (n - m) < 2 ^ m := by
    rwa [Nat.div_lt_iff_lt_mul (Nat.two_pow_pos _), ← Nat.pow_add, Nat.add_sub_cancel' hm]
  rw [Nat.mul_comm x, Nat.testBit_two_pow_mul_add x hd, Nat.testBit_div_two_pow]

/-- A rotate moves bit `i` by the count modulo the width. -/
theorem rotateLeft_bit {w : Bool} {i : Nat} (x : Word) (c : Nat) (h : i < widthOf w) :
    (resultOf w (rotateLeft w (srcU w x) c)).getLsbD ((i + c) % widthOf w) = x.getLsbD i := by
  have hm : c % widthOf w < widthOf w := Nat.mod_lt _ (widthOf_pos w)
  rw [rotateLeft, resultOf_bit _ (Nat.mod_lt _ (widthOf_pos w)), testBit_rotate (Nat.le_of_lt hm) (srcU_lt w x), ← srcU_testBit h,
    ← Nat.add_mod_mod]
  rcases Nat.lt_or_ge (i + c % widthOf w) (widthOf w) with hi | hi
  · rw [Nat.mod_eq_of_lt hi, if_neg (by omega), Nat.add_sub_cancel]
  · rw [Nat.mod_eq_sub_mod hi, Nat.mod_eq_of_lt (by omega), if_pos (by omega)]
    congr 1
    omega

end Sys2Proof.Machine
end

section
/-! PROOFS. Integer instructions, immediates, moves and LA (R59, R61, R62, R92-R97). -/

namespace Sys2Proof.Machine

/-! ### Instructions of one architectural effect -/

section
variable {s : State} {k : Fin 48} {len : Nat} {c : Instr} {f : Arch → Arch} {a : Arch} (h : Ready s k len)
include h

theorem simple_completes (hc : exec c s = s.run fun s => s.simple k len f) (ha : f (s.found k len) = a) :
    Completes c s (s.executed k len a) := by
  subst ha
  exact hc.trans (run_of_ready h (simple_of_ready h))

/-- An instruction with a required condition on its fields that holds. -/
theorem checked_completes {ok : Bool}
    (hc : exec c s = s.run fun s => s.instr k len (State.checked ok fun s => (s.setArch k (f (s.arch k)), .next))) (hok : ok = true)
    (ha : f (s.found k len) = a) : Completes c s (s.executed k len a) := by
  subst ha
  exact hc.trans (run_of_ready h ((instr_of_check h rfl hok).trans (simple_of_ready h)))

end

/-! ### The integer instructions (R92-R96) -/

section
variable {s : State} {k : Fin 48} (w : Bool) (r1 r2 r3 : BitVec 5) (h : Ready s k 4)
include h

theorem add_completes :
    Completes (.add k w r1 r2 r3) s
      (s.executed k 4 ((s.found k 4).putArith w r1 ((s.found k 4).s2 w r2 + (s.found k 4).s2 w r3))) :=
  simple_completes h rfl rfl

theorem sub_completes :
    Completes (.sub k w r1 r2 r3) s
      (s.executed k 4 ((s.found k 4).putArith w r1 ((s.found k 4).s2 w r2 - (s.found k 4).s2 w r3))) :=
  simple_completes h rfl rfl

theorem neg_completes :
    Completes (.neg k w r1 r2 0) s (s.executed k 4 ((s.found k 4).putArith w r1 (0 - (s.found k 4).s2 w r2))) :=
  checked_completes h (f := fun a => a.putArith w r1 (0 - a.s2 w r2)) rfl rfl rfl

theorem sll_completes :
    Completes (.sll k w r1 r2 r3) s (s.executed k 4 ((s.found k 4).setG r1
      (resultOf w (shiftLeft w (srcU w ((s.found k 4).gr r2)) (shiftCount ((s.found k 4).gr r3)))))) :=
  simple_completes h rfl rfl

theorem srl_completes :
    Completes (.srl k w r1 r2 r3) s (s.executed k 4 ((s.found k 4).setG r1
      (resultOf w (shiftRight w (srcU w ((s.found k 4).gr r2)) (shiftCount ((s.found k 4).gr r3)))))) :=
  simple_completes h rfl rfl

theorem sra_completes :
    let v := shiftArith w (srcS w ((s.found k 4).gr r2)) (shiftCount ((s.found k 4).gr r3))
    Completes (.sra k w r1 r2 r3) s (s.executed k 4 (((s.found k 4).setG r1 (resultOf w v)).setCc (ccSign v))) :=
  simple_completes h rfl rfl

theorem rotl_completes :
    Completes (.rotl k w r1 r2 r3) s (s.executed k 4 ((s.found k 4).setG r1
      (resultOf w (rotateLeft w (srcU w ((s.found k 4).gr r2)) (shiftCount ((s.found k 4).gr r3)))))) :=
  simple_completes h rfl rfl

/-- DIV into an even pair, with the quotient, remainder and CC of its case (R94). -/
theorem div_completes {d : Int × Int × Nat} (he : isEven r1 = true)
    (hd : divSigned w ((s.found k 4).s2 w r2) ((s.found k 4).s2 w r3) = d) :
    Completes (.div k w r1 r2 r3) s (s.executed k 4 ((s.found k 4).putDiv w r1 d)) :=
  checked_completes h (f := fun a => a.putDiv w r1 (divSigned w (a.s2 w r2) (a.s2 w r3))) rfl he (congrArg _ hd)

theorem divu_completes {d : Int × Int × Nat} (he : isEven r1 = true)
    (hd : divUnsigned ((s.found k 4).u2 w r2) ((s.found k 4).u2 w r3) = d) :
    Completes (.divu k w r1 r2 r3) s (s.executed k 4 ((s.found k 4).putDiv w r1 d)) :=
  checked_completes h (f := fun a => a.putDiv w r1 (divUnsigned (a.u2 w r2) (a.u2 w r3))) rfl he (congrArg _ hd)

end

/-! ### The cases of division (R94) -/

theorem divSigned_zero (w : Bool) {x y : Int} (hy : y = 0) : divSigned w x y = (-1, x, 3) := if_pos hy

theorem divSigned_overflow {w : Bool} {x y : Int} (hx : x = -(2 ^ (widthOf w - 1) : Int)) (hy : y = -1) :
    divSigned w x y = (x, 0, 3) := by
  rw [divSigned, if_neg (by omega), if_pos ⟨hx, hy⟩]

theorem divSigned_quotient {w : Bool} {x y : Int} (hy : y ≠ 0) (ho : ¬(x = -(2 ^ (widthOf w - 1) : Int) ∧ y = -1)) :
    divSigned w x y = (x.tdiv y, x.tmod y, ccSign (x.tdiv y)) := by
  rw [divSigned, if_neg hy, if_neg ho]

theorem divUnsigned_zero (x : Nat) {y : Nat} (hy : y = 0) : divUnsigned x y = (-1, (x : Int), 3) := if_pos hy

theorem divUnsigned_quotient (x : Nat) {y : Nat} (hy : y ≠ 0) :
    divUnsigned x y = (((x / y : Nat) : Int), ((x % y : Nat) : Int), if x / y = 0 then 0 else 2) := if_neg hy

/-- Settles O5: each instruction is one architectural effect, behind the check of the field that must be 0 or of the even target. -/
theorem integerInstructionsDeliverResults : Obligations.IntegerInstructionsDeliverResults := by
  unfold Obligations.IntegerInstructionsDeliverResults
  intro s k w r1 r2 r3 h a x y m n c logic put least spec
  refine ⟨add_completes w r1 r2 r3 h, simple_completes h rfl rfl, sub_completes w r1 r2 r3 h, simple_completes h rfl rfl,
    simple_completes h rfl rfl, simple_completes h rfl rfl, simple_completes h rfl rfl, ?_, fun hz => ?_,
    simple_completes h rfl rfl, simple_completes h rfl rfl, simple_completes h rfl rfl,
    sll_completes w r1 r2 r3 h, srl_completes w r1 r2 r3 h, sra_completes w r1 r2 r3 h, rotl_completes w r1 r2 r3 h,
    ?_, fun hz => ?_, ?_, fun hz => ?_, fun he hy => ?_, fun he hx hy => ?_, fun he hy ho => ?_, fun he hn => ?_, fun he hn => ?_,
    fun he => ?_, fun he => ?_⟩
  · rintro rfl
    exact neg_completes w r1 r2 h
  · exact spec_completes h rfl rfl (beq_eq_false_iff_ne.2 hz)
  · rintro rfl
    exact checked_completes h (f := fun a => a.setCc (ccCompare (a.s2 w r2) (a.s2 w r3))) rfl rfl rfl
  · exact spec_completes h rfl rfl (beq_eq_false_iff_ne.2 hz)
  · rintro rfl
    exact checked_completes h (f := fun a => a.setCc (ccCompare (a.u2 w r2) (a.u2 w r3))) rfl rfl rfl
  · exact spec_completes h rfl rfl (beq_eq_false_iff_ne.2 hz)
  · exact div_completes w r1 r2 r3 h he (d := (-1, x, 3)) (divSigned_zero w hy)
  · exact div_completes w r1 r2 r3 h he (d := (x, 0, 3)) (divSigned_overflow hx hy)
  · exact div_completes w r1 r2 r3 h he (d := (x.tdiv y, x.tmod y, ccSign (x.tdiv y))) (divSigned_quotient hy ho)
  · exact divu_completes w r1 r2 r3 h he (d := (-1, m, 3)) (divUnsigned_zero m hn)
  · exact divu_completes w r1 r2 r3 h he (d := ((m / n : Nat), (m % n : Nat), if m / n = 0 then 0 else 2)) (divUnsigned_quotient m hn)
  · exact spec_completes h rfl rfl he
  · exact spec_completes h rfl rfl he

/-! ### Overflow, shifts and rotates (R95, R96) -/

/-- The instruction delivers the value `exact` wrapped to its width, with CC 3 on signed overflow alone. -/
def DeliversWrapped (s : State) (k : Fin 48) (w : Bool) (r1 : BitVec 5) (c : Instr) (exact : Int) : Prop :=
  let top : Int := 2 ^ (widthOf w - 1)
  ∃ (v : Word) (cc : Nat) (q : Int),
    Completes c s (s.executed k 4 (((s.found k 4).setG r1 v).setCc cc)) ∧ srcS w v = exact + q * 2 ^ widthOf w ∧
      -top ≤ srcS w v ∧ srcS w v < top ∧ (cc = 3 ↔ exact < -top ∨ top ≤ exact)

theorem deliversWrapped_of_putArith {s : State} {k : Fin 48} {w : Bool} {r1 : BitVec 5} {c : Instr} {v : Int}
    (hc : Completes c s (s.executed k 4 ((s.found k 4).putArith w r1 v))) : DeliversWrapped s k w r1 c v :=
  ⟨resultOf w v, ccArith w v, _, hc, srcS_resultOf_add_mul w v, le_srcS w _, srcS_lt w _, ccArith_eq_three_iff w v⟩

/-- NEG of the most negative number overflows to that number. -/
theorem srcS_resultOf_top (w : Bool) : srcS w (resultOf w (2 ^ (widthOf w - 1))) = -(2 : Int) ^ (widthOf w - 1) := by
  cases w <;> decide

/-- Settles O60: the results of O5 read as numbers, by the laws of wrapped results, of shifts and of rotates. -/
theorem overflowAndShiftsFollowTheirTables : Obligations.OverflowAndShiftsFollowTheirTables := by
  unfold Obligations.OverflowAndShiftsFollowTheirTables
  intro s k w r1 r2 r3 h a n x y m c top wraps gives
  have hcount : shiftCount (a.gr r3) = c := shiftCount_eq _
  have hsll := sll_completes w r1 r2 r3 h
  have hsrl := srl_completes w r1 r2 r3 h
  have hsra := sra_completes w r1 r2 r3 h
  have hrotl := rotl_completes w r1 r2 r3 h
  rw [hcount] at hsll hsrl hrotl
  rw [hcount] at hsra
  refine ⟨deliversWrapped_of_putArith (add_completes w r1 r2 r3 h), deliversWrapped_of_putArith (sub_completes w r1 r2 r3 h), ?_, ?_,
    fun hc => ⟨⟨_, hsll, srcU_shiftLeft m hc⟩, _, hsrl, srcU_shiftRight _ hc⟩, fun hc => ⟨⟨_, hsll, ?_⟩, _, hsrl, ?_⟩,
    ⟨_, _, hsra, fun hc => ?_, fun hc => ?_⟩, _, hrotl, fun i hi => rotateLeft_bit _ c hi⟩
  · rintro rfl
    exact deliversWrapped_of_putArith (neg_completes w r1 r2 h)
  · rintro rfl hx
    have hneg := neg_completes w r1 r2 h
    have he : 0 - (s.found k 4).s2 w r2 = (2 : Int) ^ (widthOf w - 1) := (congrArg (0 - ·) hx).trans (by simp [top, n, widthOf])
    have hcc : ccArith w ((2 : Int) ^ (widthOf w - 1)) = 3 := (ccArith_eq_three_iff w _).2 (.inr (Int.le_refl _))
    rw [he, Arch.putArith, hcc] at hneg
    exact ⟨_, hneg, srcS_resultOf_top w⟩
  · exact shiftLeft_over m hc ▸ srcU_zero w
  · exact shiftRight_over m hc ▸ srcU_zero w
  · exact (srcS_shiftArith w _ c).trans (shiftArith_under _ hc)
  · exact (srcS_shiftArith w _ c).trans (shiftArith_over _ hc)

/-! ### Immediates (R61, R97) -/

/-- The wrapped sum with an immediate is the sum of the words. -/
theorem resultOf_add_toInt {n : Nat} (x : Word) (i : BitVec n) : resultOf false (x.toInt + i.toInt) = x + i.signExtend 64 :=
  (BitVec.ofInt_add x.toInt i.toInt).trans (congrArg (· + i.signExtend 64) BitVec.ofInt_toInt)

theorem resultOf_toNat (z : Word) : resultOf false z.toNat = z :=
  (BitVec.ofInt_natCast 64 z.toNat).trans ((BitVec.ofNat_toNat 64 z).trans (BitVec.setWidth_eq z))

theorem putLogic_eq (a : Arch) (r1 : BitVec 5) (z : Word) : a.putLogic false r1 z = (a.setG r1 z).setCc (if z = 0 then 0 else 1) := by
  rw [Arch.putLogic, resultOf_toNat, ccLogic]

theorem putArith_immediate {n : Nat} (a : Arch) (r1 : BitVec 5) (i : BitVec n) :
    a.putArith false r1 ((a.gr r1).toInt + i.toInt) =
      (a.setG r1 (a.gr r1 + i.signExtend 64)).setCc (ccArith false ((a.gr r1).toInt + i.toInt)) := by
  rw [Arch.putArith, resultOf_add_toInt]

/-! ### LA (R59, R62) -/

section
variable {s : State} {k : Fin 48} (r1 : BitVec 5) {f : AddrForm} (h : Ready s k f.length)
include h

theorem la_completes {ea : Word} (ha : (s.found k f.length).address f = some ea) :
    Completes (.la k r1 f) s (s.executed k f.length ((s.found k f.length).setG r1 ea)) := by
  refine run_of_ready h (instr_next_of_ready h ?_)
  rw [show ((s.fetched k f.length).arch k).address f = some ea from ha]
  rfl

theorem la_spec (ha : (s.found k f.length).address f = none) :
    Completes (.la k r1 f) s (s.nullified k (s.fetched k f.length) (.program 3 0)) := by
  refine run_of_ready h (instr_nullified_of_ready h ?_)
  rw [show ((s.fetched k f.length).arch k).address f = none from ha]
  rfl

end

/-- Settles O6: each instruction is one architectural effect, behind the check of the field or index that must be 0. -/
theorem immediatesAndMovesDeliverResults : Obligations.ImmediatesAndMovesDeliverResults := by
  unfold Obligations.ImmediatesAndMovesDeliverResults
  intro s k r1 r2 r3 i v f
  refine ⟨fun h => ⟨simple_completes h rfl rfl, simple_completes h rfl rfl⟩, fun h => ⟨?_, simple_completes h rfl rfl, ?_, ?_, ?_,
      simple_completes h rfl rfl, ?_, ?_, fun hz => ?_, fun hz => ?_⟩,
    fun h => ⟨simple_completes h rfl rfl, simple_completes h rfl rfl, ?_, simple_completes h rfl rfl⟩,
    fun h => ⟨fun ea ha => la_completes r1 h ha, la_spec r1 h⟩⟩
  · exact simple_completes h rfl (putArith_immediate _ r1 i)
  · exact simple_completes h rfl (putLogic_eq _ r1 _)
  · exact simple_completes h rfl (putLogic_eq _ r1 _)
  · exact simple_completes h rfl (putLogic_eq _ r1 _)
  · rintro rfl
    exact checked_completes h (f := fun a => a.setG r1 (a.fr r2)) rfl rfl rfl
  · rintro rfl
    exact checked_completes h (f := fun a => a.setF r1 (a.gr r2)) rfl rfl rfl
  · exact spec_completes h rfl rfl (beq_eq_false_iff_ne.2 hz)
  · exact spec_completes h rfl rfl (beq_eq_false_iff_ne.2 hz)
  · exact simple_completes h rfl (putArith_immediate _ r1 v)

end Sys2Proof.Machine
end

section
/-! PROOFS. Binary floating point (R101, R102, R106-R109). -/

namespace Sys2Proof.Machine

/-- A binary floating-point instruction that raises `r` and would leave `b`, in the state that taking the rounding mode leaves: it delivers,
or is nullified by its trap. -/
def DeliversBinary (s : State) (k : Fin 48) (c : Instr) (r : Raised) (b : Arch) : Prop :=
  let t := ((s.fetched k 4).roundMode k false).1
  (trapCause (t.arch k) r = none →
    Completes c s ((t.setArch k (b.setFlags r)).completed k ((s.found k 4).ia + 4) false)) ∧
  (∀ cause, trapCause (t.arch k) r = some cause → Completes c s (s.nullified k t (.program (8 + cause * 65536) 0)))

section
variable {s : State} {k : Fin 48} {c : Instr} {ok : Bool} {op : RMode → Arch → Raised × (Arch → Arch)} (h : Ready s k 4)
  (hc : exec c s = s.run fun s => s.fpInstr k false ok op)
include h hc

/-- The instruction by the exceptions it raises and what it delivers, once its rounding mode is taken. -/
theorem binary_delivers {r : Raised × (Arch → Arch)} (hok : ok = true)
    (hr : op ((s.fetched k 4).roundMode k false).2 (((s.fetched k 4).roundMode k false).1.arch k) = r) :
    DeliversBinary s k c r.1 (r.2 (((s.fetched k 4).roundMode k false).1.arch k)) := by
  subst hok hr
  have hi := fpInstr_of_ready (decimal := false) (op := op) h nofun
  refine ⟨fun ht => hc.trans (run_of_ready h (hi.trans ?_)), fun cause ht => hc.trans (run_of_ready h (hi.trans ?_))⟩
  · simp only [State.fpStart, Bool.false_eq_true, if_false, ht]
  · simp only [State.fpStart, Bool.false_eq_true, if_false, ht]

end

/-! ### FPC (R101) -/

section
variable {s : State} {k : Fin 48} {r1 : BitVec 5} (h : Ready s k 4)
include h

theorem lfpc_valid (hv : fpcValid ((s.found k 4).gr r1) = true) :
    Completes (.lfpc k r1) s (s.executed k 4 { s.found k 4 with fpc := (s.found k 4).gr r1 }) :=
  run_of_ready h (instr_next_of_ready h (if_pos hv))

theorem lfpc_invalid (hv : fpcValid ((s.found k 4).gr r1) = false) :
    Completes (.lfpc k r1) s (s.nullified k (s.fetched k 4) (.program 3 0)) :=
  run_of_ready h (instr_nullified_of_ready h (if_neg (Bool.eq_false_iff.1 hv)))

end

/-- Settles O10: every instruction of R102 that rounds, compares or converts is `binary_delivers` with its own operation; the others are one
architectural effect. -/
theorem binaryFloatingInstructionsDeliver : Obligations.BinaryFloatingInstructionsDeliver := by
  unfold Obligations.BinaryFloatingInstructionsDeliver
  intro s k r1 r2 r3 h q a m x y ia fp put
  refine ⟨?_, ?_, ?_, ?_, ?_, ?_, ?_, ?_, ?_, ?_, ?_, fun hz => ?_, fun hz => ?_, fun hz => ?_, simple_completes h rfl rfl,
    simple_completes h rfl rfl, simple_completes h rfl rfl, lfpc_valid h, lfpc_invalid h⟩
  · exact binary_delivers (r := putBinary r1 (fAdd m x y)) h rfl rfl rfl
  · exact binary_delivers (r := putBinary r1 (fSub m x y)) h rfl rfl rfl
  · exact binary_delivers (r := putBinary r1 (fMul m x y)) h rfl rfl rfl
  · exact binary_delivers (r := putBinary r1 (fDiv m x y)) h rfl rfl rfl
  · exact binary_delivers (r := putBinary r1 (fMa m x y (a.fb r1))) h rfl rfl rfl
  · rintro rfl
    exact binary_delivers (r := putBinary r1 (fSqrt m x)) h rfl rfl rfl
  · exact binary_delivers (r := putBinary r1 (fRound m x)) h rfl rfl rfl
  · exact binary_delivers (r := putBinary r1 (fOfInt m (a.gr r2))) h rfl rfl rfl
  · rintro rfl
    exact binary_delivers (r := putCompare (fpCompare 2 false x y)) h rfl rfl rfl
  · rintro rfl
    exact binary_delivers (r := putCompare (fpCompare 2 true x y)) h rfl rfl rfl
  · exact binary_delivers (r := putInteger r1 (toInt64 2 m x)) h rfl rfl rfl
  · exact spec_completes h rfl rfl (beq_eq_false_iff_ne.2 hz)
  · exact spec_completes h rfl rfl (beq_eq_false_iff_ne.2 hz)
  · exact spec_completes h rfl rfl (beq_eq_false_iff_ne.2 hz)

end Sys2Proof.Machine
end

section
/-! PROOFS. Bytes as numbers, and the bytes of a line after a masked write (R4, R289). -/

namespace Sys2Proof.Machine

/-! ### Bytes as numbers (R4) -/

/-- The number read so far moves up by a byte for each byte that follows. -/
theorem beNat_from (a : Nat) (l : List Byte) : l.foldl (fun a b => a * 256 + b.toNat) a = a * 256 ^ l.length + beNat l := by
  induction l generalizing a with
  | nil => exact (Nat.mul_one a).symm
  | cons b l ih =>
    rw [beNat, List.foldl_cons, List.foldl_cons, ih, ih (0 * 256 + b.toNat), List.length_cons, Nat.pow_succ', Nat.zero_mul, Nat.zero_add,
      Nat.add_mul, Nat.mul_assoc, Nat.add_assoc]

theorem beNat_append (l m : List Byte) : beNat (l ++ m) = beNat l * 256 ^ m.length + beNat m := by
  rw [← beNat_from, beNat, beNat, List.foldl_append]

theorem beNat_cons (b : Byte) (l : List Byte) : beNat (b :: l) = b.toNat * 256 ^ l.length + beNat l := by
  rw [beNat, List.foldl_cons, beNat_from, Nat.zero_mul, Nat.zero_add]

theorem beNat_lt (l : List Byte) : beNat l < 256 ^ l.length := by
  induction l with
  | nil => simp [beNat]
  | cons b l ih =>
    rw [beNat_cons, List.length_cons, Nat.pow_succ']
    calc
      _ < b.toNat * 256 ^ l.length + 256 ^ l.length := Nat.add_lt_add_left ih _
      _ = (b.toNat + 1) * 256 ^ l.length := (Nat.succ_mul ..).symm
      _ ≤ 256 * 256 ^ l.length := Nat.mul_le_mul_right _ b.isLt

/-- A byte of the number that `n` bytes spell. -/
theorem beNat_digit {l : List Byte} {n i : Nat} (hn : l.length = n) (h : i < n) :
    beNat l / 256 ^ (n - 1 - i) % 256 = (l.getD i 0).toNat := by
  subst hn
  have hl : l = l.take i ++ l[i] :: l.drop (i + 1) := by rw [← List.drop_eq_getElem_cons h, List.take_append_drop]
  have hd : (l.drop (i + 1)).length = l.length - 1 - i := by rw [List.length_drop]; omega
  have hlt := beNat_lt (l.drop (i + 1))
  have hv : beNat l = beNat (l.drop (i + 1)) + (beNat (l.take i) * 256 + l[i].toNat) * 256 ^ (l.length - 1 - i) := by
    conv => lhs; rw [hl]
    rw [beNat_append, beNat_cons, List.length_cons, hd, Nat.pow_succ', ← Nat.mul_assoc, ← Nat.add_assoc, ← Nat.add_mul, Nat.add_comm]
  rw [hd] at hlt
  rw [hv, Nat.add_mul_div_right _ _ (Nat.pow_pos (by decide)), Nat.div_eq_of_lt hlt, Nat.zero_add, Nat.mul_add_mod',
    List.getD_eq_getElem?_getD, List.getElem?_eq_getElem h, Option.getD_some, Nat.mod_eq_of_lt l[i].isLt]

theorem beBytes_length (n v : Nat) : (beBytes n v).length = n := by simp [beBytes]

theorem beBytes_succ (n v : Nat) : beBytes (n + 1) v = BitVec.ofNat 8 (v / 256 ^ n) :: beBytes n v := by
  simp [beBytes, List.range_succ_eq_map, Nat.shiftRight_eq_div_pow, Nat.pow_mul, Nat.sub_add_eq, Nat.sub_right_comm]

/-- The number that the `n` low bytes of a number spell. -/
theorem beNat_beBytes (n v : Nat) : beNat (beBytes n v) = v % 256 ^ n := by
  induction n with
  | zero => simp [beBytes, beNat, Nat.mod_one]
  | succ n ih =>
    rw [beBytes_succ, beNat_cons, ih, beBytes_length, Nat.mod_pow_succ, BitVec.toNat_ofNat]
    exact (Nat.add_comm ..).trans (congrArg _ (Nat.mul_comm ..))

theorem padTo_getD {n i : Nat} (l : List Byte) (h : i < n) : (padTo n l).getD i 0 = l.getD i 0 := by
  by_cases hl : i < l.length
  · simp [padTo, List.getElem?_take_of_lt h, List.getElem?_append_left hl]
  · have hl := Nat.not_lt.1 hl
    have hr : i - l.length < n := Nat.lt_of_le_of_lt (Nat.sub_le ..) h
    simp [padTo, List.getElem?_take_of_lt h, List.getElem?_append_right hl, List.getElem?_eq_none hl, hr]

/-! ### Bytes of a line (R4) -/

theorem lineByte_getLsbD (d : BitVec 1024) (i : Nat) {j : Nat} (h : j < 8) :
    (lineByte d i).getLsbD j = d.getLsbD (8 * (127 - i) + j) := by
  simp [lineByte, h]

theorem lineByte_toNat (d : BitVec 1024) (i : Nat) : (lineByte d i).toNat = d.toNat / 256 ^ (127 - i) % 256 := by
  simp [lineByte, Nat.shiftRight_eq_div_pow, Nat.pow_mul]

theorem lineByte_lineOfBytes {i : Nat} (l : List Byte) (h : i < 128) : lineByte (lineOfBytes l) i = l.getD i 0 := by
  have hn : (padTo 128 l).length = 128 := by simp [padTo]
  have hlt := beNat_lt (padTo 128 l)
  rw [hn, show 256 = 2 ^ 8 from rfl, ← Nat.pow_mul, show 8 * 128 = 1024 from rfl] at hlt
  refine BitVec.eq_of_toNat_eq ?_
  rw [lineByte_toNat, lineOfBytes, BitVec.toNat_ofNat, Nat.mod_eq_of_lt hlt, ← padTo_getD l h]
  exact beNat_digit hn h

/-- A fold that sets bits: a bit is set at the end if it was at the start, or if an element that sets it is chosen. -/
theorem foldl_or_getLsbD {α : Type} {n : Nat} (p : α → Bool) (c : α → BitVec n) (l : List α) (a : BitVec n) (b : Nat) :
    (l.foldl (fun a i => if p i then a ||| c i else a) a).getLsbD b = (a.getLsbD b || l.any fun i => p i && (c i).getLsbD b) := by
  induction l generalizing a with
  | nil => simp
  | cons x l ih => cases hx : p x <;> simp [ih, hx, Bool.or_assoc]

/-- A byte mask selects all bits of the bytes that it selects. -/
theorem maskBits_getLsbD (m : BitVec 128) {i j : Nat} (hi : i < 128) (hj : j < 8) :
    (maskBits m).getLsbD (8 * (127 - i) + j) = maskBit m i := by
  have hbyte : ∀ x < 128, (0xFF#1024 <<< (8 * (127 - x))).getLsbD (8 * (127 - i) + j) = decide (x = i) := by
    intro x hx
    have hff (n : Nat) : (255 : Nat).testBit n = decide (n < 8) := Nat.testBit_two_pow_sub_one 8 n
    have hb : 8 * (127 - i) + j < 1024 := by omega
    rw [BitVec.getLsbD_shiftLeft, BitVec.getLsbD_ofNat, hff, Bool.eq_iff_iff]
    simp only [hb, decide_true, Bool.true_and, Bool.and_eq_true, Bool.not_eq_true', decide_eq_true_iff, decide_eq_false_iff_not]
    omega
  rw [maskBits, foldl_or_getLsbD, Bool.eq_iff_iff]
  simp only [BitVec.ofNat_eq_ofNat, BitVec.getLsbD_zero, Bool.false_or, List.any_eq_true, List.mem_range, Bool.and_eq_true]
  constructor
  · rintro ⟨x, hx, hm, hb⟩
    rw [hbyte x hx, decide_eq_true_iff] at hb
    exact hb ▸ hm
  · exact fun hm => ⟨i, hi, hm, by rw [hbyte i hi, decide_eq_true_iff]⟩

/-- Merging takes the selected bytes from the new data and the others from the old (R289). -/
theorem lineByte_mergeLine (old : LineData) (m : BitVec 128) (new : BitVec 1024) (p : BitVec 16) {i : Nat} (h : i < 128) :
    lineByte (mergeLine old m new p).data i = if maskBit m i then lineByte new i else lineByte old.data i := by
  refine BitVec.eq_of_getLsbD_eq fun j hj => ?_
  have hb : 8 * (127 - i) + j < 1024 := by omega
  rw [lineByte_getLsbD _ _ hj]
  simp only [mergeLine, BitVec.getLsbD_or, BitVec.getLsbD_and, BitVec.getLsbD_not, maskBits_getLsbD m h hj, hb, decide_true, Bool.true_and]
  cases maskBit m i <;> simp [lineByte_getLsbD _ _ hj]

theorem maskBit_maskRange {off n i : Nat} (hr : off + n ≤ 128) (hi : i < 128) :
    maskBit (maskRange off n) i = decide (off ≤ i ∧ i < off + n) := by
  rw [maskBit, maskRange, BitVec.getLsbD_ofNat, Nat.testBit_shiftLeft, Nat.testBit_two_pow_sub_one, Bool.eq_iff_iff]
  simp only [Bool.and_eq_true, decide_eq_true_iff]
  omega

end Sys2Proof.Machine
end

section
/-! PROOFS. Atomic instructions: what they leave in their line, and how they complete (R122, R123, R182). -/

namespace Sys2Proof.Machine

/-! ### The line that an atomic leaves (R122) -/

/-- The number that an atomic writes at its operand, before it is cut to the operand's size (R122). -/
def AtomicReq.written (r : AtomicReq) (old : Nat) : Nat :=
  match r.op with
  | .cswp => if old = r.cmp.toNat % 2 ^ (8 * r.size) then r.val.toNat else old
  | .swp => r.val.toNat
  | .ladd => old + r.val.toNat

theorem AtomicReq.perform_eq (r : AtomicReq) (d : LineData) :
    r.perform d = mergeLine d (maskRange r.off r.size) (lineAtOffset r.off (beBytes r.size (r.written (d.value r.off r.size)))) d.poison :=
  rfl

theorem LineData.value_lt (d : LineData) (off size : Nat) : d.value off size < 2 ^ (8 * size) := by
  simpa [LineData.value, Nat.pow_mul] using beNat_lt ((List.range size).map fun i => lineByte d.data (off + i))

section
variable {r : AtomicReq} (d : LineData) (hr : r.off + r.size ≤ 128)
include hr

theorem AtomicReq.perform_outside {i : Nat} (hi : i < 128) (ho : i < r.off ∨ r.off + r.size ≤ i) :
    lineByte (r.perform d).data i = lineByte d.data i := by
  rw [AtomicReq.perform_eq, lineByte_mergeLine _ _ _ _ hi, maskBit_maskRange hr hi, if_neg]
  rw [decide_eq_true_iff]
  omega

theorem AtomicReq.perform_inside {i : Nat} (hi : i < r.size) :
    lineByte (r.perform d).data (r.off + i) = (beBytes r.size (r.written (d.value r.off r.size))).getD i 0 := by
  have hlt : r.off + i < 128 := by omega
  rw [AtomicReq.perform_eq, lineByte_mergeLine _ _ _ _ hlt, maskBit_maskRange hr hlt, if_pos (decide_eq_true (by omega)), lineAtOffset,
    lineByte_lineOfBytes _ hlt]
  simp [List.getElem?_append_right]

/-- The operand holds what the atomic writes, cut to its size. -/
theorem AtomicReq.value_perform : (r.perform d).value r.off r.size = r.written (d.value r.off r.size) % 2 ^ (8 * r.size) := by
  have hb : (List.range r.size).map (fun i => lineByte (r.perform d).data (r.off + i)) =
      beBytes r.size (r.written (d.value r.off r.size)) := by
    refine List.ext_getElem (by rw [List.length_map, List.length_range, beBytes_length]) fun i hi hb => ?_
    rw [List.getElem_map, List.getElem_range, AtomicReq.perform_inside d hr (by rwa [beBytes_length] at hb),
      List.getD_eq_getElem?_getD, List.getElem?_eq_getElem hb, Option.getD_some]
  rw [LineData.value, hb, beNat_beBytes, Nat.pow_mul]

end

/-- Settles O16: the operand holds what the operation writes, cut to its size, and the mask leaves the other bytes. -/
theorem atomicLeavesItsValueInTheLine : Obligations.AtomicLeavesItsValueInTheLine := by
  unfold Obligations.AtomicLeavesItsValueInTheLine
  intro d r _ _ hr old m new
  have hv : new = r.written old % m := AtomicReq.value_perform d hr
  refine ⟨fun ho => ?_, fun ho => ?_, fun ho he => ?_, fun ho hn => ?_, fun i hi ho => AtomicReq.perform_outside d hr hi ho⟩
  · rw [hv, AtomicReq.written, ho]
  · rw [hv, AtomicReq.written, ho]
  · rw [hv, AtomicReq.written, ho]
    exact congrArg (· % m) (if_pos he)
  · rw [hv, AtomicReq.written, ho]
    exact (congrArg (· % m) (if_neg hn)).trans (Nat.mod_eq_of_lt (d.value_lt r.off r.size))

/-! ### CSWP, SWP and LADD (R122, R123, R182) -/

/-- The place that carries an atomic on memory out (R182). -/
def State.atomicAt (v : State) (k : Fin 48) (mt : MemType) (phys : Nat) (req : AtomicReq) (ea : Word) : AtomicEnd :=
  if mt = .uncached then v.atomicUncached (v.seamOf k) (phys / 128) req ea else v.atomicCached k (phys / 128) (v.seamOf k) req ea

section
variable {s u : State} {k : Fin 48} {c : Instr} {op : AtomicOp} {w : Bool} {r1 r2 r3 : BitVec 5} {r : Reached} (h : Ready s k 4)
  (hc : exec c s = s.run fun s => s.atomic k op w r1 r2 r3)
include h hc

theorem atomic_unaligned (ha : ((s.found k 4).gr r2).toNat % (widthOf w / 8) ≠ 0) :
    Completes c s (s.nullified k (s.fetched k 4) (.program 3 0)) :=
  hc.trans (run_of_ready h (instr_nullified_of_ready h (if_pos ha)))

variable (ha : ((s.found k 4).gr r2).toNat % (widthOf w / 8) = 0)
  (hr : (s.fetched k 4).reach k ((s.found k 4).gr r2) .store = (u, .ok r))
include ha hr

theorem atomic_device (hd : r.place.isDevice = true) : Completes c s (s.nullified k u (.program 3 0)) := by
  refine hc.trans (run_of_ready h (instr_nullified_of_ready h ((if_neg (not_not_intro ha)).trans ?_)))
  rw [show (s.fetched k 4).arch k = s.found k 4 from rfl, hr]
  dsimp only
  cases hp : r.place with
  | device => rfl
  | memory phys mt =>
    rw [hp] at hd
    cases mt with
    | device => rfl
    | _ => exact absurd hd Bool.false_ne_true

/-- An atomic on memory, performed once at its place with the old value `old`. -/
theorem atomic_performed {v t : State} {phys old : Nat} {mt : MemType} (hp : r.place = .memory phys mt) (hm : mt ≠ .device)
    (hv : PerformsFrom (u.markReached k r .store) v k)
    (hq : v.atomicAt k mt phys { op := op, off := phys % 128, size := widthOf w / 8, cmp := (v.arch k).gr r1, val := (v.arch k).gr r3 }
      ((s.found k 4).gr r2) = (t, .ok old)) :
    Completes c s (v.performed
      ((t.setArch k ((v.arch k).afterAtomic op w r1 r3 old)).response k [resultOf w (Int.ofNat old)]) k 4) := by
  refine hc.trans (run_of_ready h (instr_left_of_ready h ((if_neg (not_not_intro ha)).trans ?_)))
  rw [show (s.fetched k 4).arch k = s.found k 4 from rfl, hr]
  dsimp only
  rw [hp]
  split
  · next e => cases e
  · next e =>
    cases e
    exact absurd rfl hm
  · next e =>
    cases e
    refine onceOnly_of_performs hv (.inr ?_)
    unfold State.atomicAt at hq
    rw [hq]

end

/-- Settles O15: each instruction is `State.atomic` with its operation; what it leaves in CC is that of `Arch.afterAtomic`. -/
theorem atomicsActOnceAndReturnTheOldValue : Obligations.AtomicsActOnceAndReturnTheOldValue := by
  unfold Obligations.AtomicsActOnceAndReturnTheOldValue
  intro s k w r1 r2 r3 h a ea size spec
  refine ⟨fun ha => ⟨atomic_unaligned h rfl ha, atomic_unaligned h rfl ha, atomic_unaligned h rfl ha⟩, fun u r ha hr hd c hc => ?_,
    fun u r phys mt v ha hr hp hm hv => ⟨fun t old hq => ?_, fun t old hq => ?_, fun t old hq => ?_⟩⟩
  · simp only [List.mem_cons, List.not_mem_nil, or_false] at hc
    rcases hc with rfl | rfl | rfl
    · exact atomic_device h rfl ha hr hd
    · exact atomic_device h rfl ha hr hd
    · exact atomic_device h rfl ha hr hd
  · exact atomic_performed (op := .cswp) h rfl ha hr hp hm hv hq
  · exact atomic_performed (op := .swp) h rfl ha hr hp hm hv hq
  · exact atomic_performed (op := .ladd) h rfl ha hr hp hm hv hq

end Sys2Proof.Machine
end

section
/-! PROOFS. Preloads, lock releases and sweeps of the caches (R126, R150, R151, R158, R165, R166). -/

namespace Sys2Proof.Machine

/-! ### Preloads (R151, R165, R166) -/

/-- A write of a preload control with START 1: WAYS and LINES take their values. -/
abbrev State.preloadTaken (s : State) (u : UnitId) (ctl : Field × Field × Field × Field) (ways : BitVec 8) (lines : Nat) : State :=
  (s.wr u ctl.1 ways.toNat).wr u ctl.2.1 lines

/-- A preload that is not refused begins: DONE and MISSED read 0. -/
abbrev State.preloadBegun (s : State) (u : UnitId) (ctl : Field × Field × Field × Field) (missed : Field) (ways : BitVec 8) (lines : Nat) :
    State := ((s.preloadTaken u ctl ways lines).wr u ctl.2.2.1 0).wr u missed 0

section
variable {s : State} {u : UnitId} {cache : CacheId} {base missed : Field} {ctl : Field × Field × Field × Field} {ways : BitVec 8}
  {lines : Nat}

theorem startPreload_busy (h : (s.preloadTaken u ctl ways lines).preloading cache = true) :
    s.startPreload u cache base ctl missed ways lines = s.preloadTaken u ctl ways lines := if_pos h

theorem startPreload_empty (h : (s.preloadTaken u ctl ways lines).preloading cache = false) (he : ways = 0 ∨ lines = 0) :
    s.startPreload u cache base ctl missed ways lines = (s.preloadBegun u ctl missed ways lines).wr u ctl.2.2.1 1 :=
  (if_neg (Bool.eq_false_iff.1 h)).trans (if_pos he)

theorem startPreload_starts (h : (s.preloadTaken u ctl ways lines).preloading cache = false) (he : ¬(ways = 0 ∨ lines = 0)) :
    let b := s.preloadBegun u ctl missed ways lines
    let v := State.each (b.linesInWays cache ways) (fun l s => s.cleanRemoveAt cache l) b
    s.startPreload u cache base ctl missed ways lines =
      { v with cacheJobs := v.cacheJobs ++ [.preload cache (v.rd u base) lines ways] } :=
  (if_neg (Bool.eq_false_iff.1 h)).trans (if_neg he)

/-- A preload command, by whether a preload of its cache runs and whether there is anything to load. -/
theorem preload_completes {sender : Sender} {off : Nat} {c : Instr} {lines : BitVec 24} (hp : s.hasPower) (ha : Admits s sender u off)
    (hc : exec c s = s.run fun s => s.command sender u off fun s => s.startPreload u cache base ctl missed ways lines.toNat) :
    let taken := s.preloadTaken u ctl ways lines.toNat
    let b := s.preloadBegun u ctl missed ways lines.toNat
    (taken.preloading cache = true → Completes c s taken) ∧
    (taken.preloading cache = false → ways = 0 ∨ lines = 0 → Completes c s (b.wr u ctl.2.2.1 1)) ∧
    (taken.preloading cache = false → ways ≠ 0 → lines ≠ 0 →
      let v := State.each (b.linesInWays cache ways) (fun l s => s.cleanRemoveAt cache l) b
      Completes c s { v with cacheJobs := v.cacheJobs ++ [.preload cache (v.rd u base) lines.toNat ways] }) := by
  have hz : lines.toNat = 0 ↔ lines = 0 := by rw [← BitVec.toNat_inj]; rfl
  have run {t : State} (ht : s.startPreload u cache base ctl missed ways lines.toNat = t) : Completes c s t :=
    hc.trans (run_of_eq hp ((command_of_admits ha).trans ht))
  refine ⟨fun h => run (startPreload_busy h), fun h he => run (startPreload_empty h ?_), fun h hw hl => run (startPreload_starts h ?_)⟩
  · rwa [hz]
  · rw [hz, not_or]
    exact ⟨hw, hl⟩

end

/-- What the end of a preload leaves: the range is loaded, and MISSED, LOCKED and DONE are set. -/
def State.preloadEnded (s : State) (u : UnitId) (cache : CacheId) (done lock missed : Field) (base n : Nat) (mask : BitVec 8) : State :=
  let r := (preloadLines cache base n).foldl (fun (a : State × Nat) l =>
    let q := a.1.preloadLine cache mask l
    (q.1, if q.2 then a.2 else a.2 + 1)) (s, 0)
  let v := { r.1 with cacheJobs := r.1.cacheJobs.filter fun j => !j.preloads cache }.wr u missed r.2
  (v.wr u lock ((BitVec.ofNat 8 (v.rd u lock)) ||| mask).toNat).wr u done 1

section
variable {s : State} {base m : Nat} {mask : BitVec 8}

theorem onPreloadDone_l2 {k : Fin 48} (h : s.cacheJobs.find? (CacheJob.preloads (.l2 k)) = some (.preload (.l2 k) base m mask)) :
    onPreloadDone (uCore k) s = s.preloadEnded (uCore k) (.l2 k) Reg.L2_PRELOAD_CTL.DONE Reg.L2_LOCK.LOCKED
      Reg.L2_PRELOAD_MISSED.PRELOAD_MISSED base m mask := by
  simp only [onPreloadDone, show lockCache (uCore k) = some (.l2 k) from rfl, h]
  rfl

theorem onPreloadDone_l3 {n : Fin 32} (h : s.cacheJobs.find? (CacheJob.preloads (.l3 n)) = some (.preload (.l3 n) base m mask)) :
    onPreloadDone (uL3 n) s = s.preloadEnded (uL3 n) (.l3 n) Reg.L3_PRELOAD_CTL.DONE Reg.L3_LOCK.LOCKED
      Reg.L3_PRELOAD_MISSED.PRELOAD_MISSED base m mask := by
  simp only [onPreloadDone, show lockCache (uL3 n) = some (.l3 n) from rfl, h]
  rfl

end

/-! ### Sweeps of a slice (R158) -/

/-- The code of an operation in L3_FLUSH.OP. -/
def MaintOp.flushCode : MaintOp → Nat
  | .clean => 1
  | .inval => 2
  | .cleanInval => 3

/-- A write of L3_FLUSH with START 1: OP and INCL_LOCKED take their values. -/
abbrev State.flushTaken (s : State) (n : Nat) (op : MaintOp) (incl : Bool) : State :=
  (s.wr (uL3 n) Reg.L3_FLUSH.OP op.flushCode).wr (uL3 n) Reg.L3_FLUSH.INCL_LOCKED (if incl then 1 else 0)

section
variable {s : State} {n : Nat} {op : MaintOp} {incl : Bool}

theorem startFlush_busy (h : (s.flushTaken n op incl).sweeping n = true) : s.startFlush n op incl = s.flushTaken n op incl := by
  cases op <;> exact if_pos h

theorem startFlush_starts (h : (s.flushTaken n op incl).sweeping n = false) :
    let a := s.flushTaken n op incl
    let queued := (a.wbq.filter fun e => e.core.isNone && sliceId e.tile e.line == .l3 n).map WbEntry.line
    let b := State.each queued (fun l s => s.awaitLine l) (a.wr (uL3 n) Reg.L3_FLUSH.DONE 0)
    s.startFlush n op incl = { b with cacheJobs := b.cacheJobs ++ [.flush n op incl 0 b.now] } := by
  cases op <;> exact if_neg (Bool.eq_false_iff.1 h)

/-- A command that starts a sweep, by whether one of its slice runs. -/
theorem flush_completes {sender : Sender} {off : Nat} {c : Instr} (hp : s.hasPower) (ha : Admits s sender (uL3 n) off)
    (hc : exec c s = s.run fun s => s.command sender (uL3 n) off fun s => s.startFlush n op incl) :
    let a := s.flushTaken n op incl
    let queued := (a.wbq.filter fun e => e.core.isNone && sliceId e.tile e.line == .l3 n).map WbEntry.line
    let b := State.each queued (fun l s => s.awaitLine l) (a.wr (uL3 n) Reg.L3_FLUSH.DONE 0)
    (a.sweeping n = true → Completes c s a) ∧
    (a.sweeping n = false → Completes c s { b with cacheJobs := b.cacheJobs ++ [.flush n op incl 0 b.now] }) :=
  ⟨fun h => hc.trans (run_of_eq hp ((command_of_admits ha).trans (startFlush_busy h))),
    fun h => hc.trans (run_of_eq hp ((command_of_admits ha).trans (startFlush_starts h)))⟩

end

/-- Settles O39: each command is a write of its register, by whether a job of its cache runs. -/
theorem cacheCommandsAct : Obligations.CacheCommandsAct := by
  unfold Obligations.CacheCommandsAct
  intro s sender k n ways lines hp taken begun preload ended
  refine ⟨fun ha => preload_completes hp ha rfl, fun ha => preload_completes hp ha rfl,
    fun base m mask h => run_of_eq hp (onPreloadDone_l2 h), fun base m mask h => run_of_eq hp (onPreloadDone_l3 h),
    fun ha => run_of_eq hp (command_of_admits ha), fun ha => run_of_eq hp (command_of_admits ha), fun incl ha => ?_,
    fun h => run_of_eq hp (if_pos h), fun h => run_of_eq hp (if_neg (Bool.eq_false_iff.1 h))⟩
  intro rows c op code hrow
  simp only [rows, List.mem_cons, List.not_mem_nil, or_false, Prod.mk.injEq] at hrow
  rcases hrow with ⟨rfl, rfl, rfl⟩ | ⟨rfl, rfl, rfl⟩ | ⟨rfl, rfl, rfl⟩
  · exact flush_completes (op := .clean) hp ha rfl
  · exact flush_completes (op := .inval) hp ha rfl
  · exact flush_completes (op := .cleanInval) hp ha rfl

end Sys2Proof.Machine
end

section
/-! PROOFS. The cache maintenance instructions (R154-R157, R160). -/

namespace Sys2Proof.Machine

theorem arch_fetched (s : State) (k len : Nat) : (s.fetched k len).arch k = s.found k len := rfl

/-! ### Maintenance of a line and of a core's buffers (R154, R262) -/

/-- A maintenance instruction is performed once what comes before it is compared and the buffers of its core have drained. -/
theorem maintOnce_performed {k : Fin 48} {body : State → State × Done} {x u v : State}
    (hs : x.settleEarlier k = u ∧ u.holdsWork k = true) (hb : body u = (v, .close)) :
    State.maintOnce k body x = (u.performed v k 4, .left) := by
  obtain ⟨rfl, hw⟩ := hs
  simp only [State.maintOnce, hw, Bool.not_true, Bool.false_eq_true, if_false, hb]
  rfl

/-- A line that its home lets the seam maintain, and that no transaction holds back. -/
theorem maintainFor_ok {u : State} {seam line : Nat} {op : MaintOp} {skip : Bool} (ho : u.ownerAllows seam line = true)
    (hq : (u.awaitLine line).quiet line = true) :
    u.maintainFor seam line op skip = ((u.maintain line op skip).1, .ok (u.maintain line op skip).2) := by
  simp only [State.maintainFor, ho, hq, Bool.not_true, Bool.false_eq_true, if_false]

/-- What an address form does at the place of its address (R155). -/
def State.maintainPlace (u : State) (k : Nat) (op : MaintOp) : Place → State × Done
  | .device _ => (u, .close)
  | .memory phys _ =>
    match u.maintainFor (u.seamOf k) (phys / 128) op false with
    | (v, .ok _) => (v, .close)
    | (v, .error e) => (v, .exc e)

/-- What a set-way form does at the way that it names, once that way's transaction has ended (R157). -/
def State.maintainWay (u : State) (k : Nat) (op : MaintOp) (c : CacheId) (set n : Nat) : State × Done :=
  let v := if (u.way c set n).st = .i then u else u.awaitLine (u.way c set n).line
  let l := v.way c set n
  if l.st = .i then (v, .close)
  else if !v.quiet l.line then (v, .exc .wait)
  else (v.maintWay k c l op, .close)

section
variable {s : State} {k : Fin 48} {c : Instr} {op : MaintOp} (h : Ready s k 4) (hp : (s.found k 4).problem = false)
include h hp

/-! ### Address forms (R155) -/

section
variable {r2 : BitVec 5} (hc : exec c s = s.run fun s => s.maintAddress k op 0 r2 0)
  {x u : State} {r : Reached} (hr : (s.fetched k 4).reach k ((s.found k 4).gr r2) op.acc = (x, .ok r))
  (hs : x.settleEarlier k = u ∧ u.holdsWork k = true)
include hc hr hs

/-- An address form whose address is reached is performed at its place. -/
theorem maintAddress_performed {v : State} (hb : u.maintainPlace k op r.place = (v, .close)) : Completes c s (u.performed v k 4) := by
  refine hc.trans (run_of_ready h ((instr_of_super h hp).trans ((instr_of_check h rfl rfl).trans (instr_left_of_ready h ?_))))
  rw [arch_fetched, hr]
  exact maintOnce_performed hs hb

theorem maintAddress_device {t : DeviceTarget} (hd : r.place = .device t) : Completes c s (u.performed u k 4) :=
  maintAddress_performed h hp hc hr hs (by rw [hd]; rfl)

theorem maintAddress_memory {phys : Nat} {mt : MemType} (hm : r.place = .memory phys mt)
    (ho : u.ownerAllows (u.seamOf k) (phys / 128) = true) (hq : (u.awaitLine (phys / 128)).quiet (phys / 128) = true) :
    Completes c s (u.performed (u.maintain (phys / 128) op false).1 k 4) :=
  maintAddress_performed h hp hc hr hs (by rw [hm, State.maintainPlace, maintainFor_ok ho hq])

end

/-! ### Range forms (R156, R160) -/

/-- A range form that no interruption stops, at the end of its range. -/
theorem maintRange_completes {r1 r2 r3 : BitVec 5} (hc : exec c s = s.run fun s => s.maintRange k op r1 r2 r3 none)
    {u v : State} {q : RangeRun} (hz : ((s.found k 4).gr r1).field 0 60 = 0)
    (hs : (s.fetched k 4).settleEarlier k = u ∧ u.holdsWork k = true)
    (hq : State.maintRun k op (!((s.found k 4).gr r1).bit 63) (((u.arch k).gr r3).toNat / 128 + 2) u
      { addr := (u.arch k).gr r2, left := ((u.arch k).gr r3).toNat, page := false, locked := false } = (v, .ok q))
    (hl : q.left = 0) :
    let g := rangeFlags ((s.found k 4).gr r1) q
    let b := (((v.arch k).setG r1 g).setG r3 0).setCc (rangeCc g)
    Completes c s (u.performed ((v.setArch k b).response k [g, BitVec.ofNat 64 (rangeCc g)]) k 4) := by
  refine hc.trans (run_of_ready h ((instr_of_super h hp).trans (Eq.trans (instr_of_check h rfl ?_) (instr_left_of_ready h ?_))))
  · exact beq_iff_eq.2 hz
  · refine maintOnce_performed hs ?_
    dsimp only
    rw [arch_fetched, hq]
    exact if_pos hl

/-! ### Set-way forms (R157) -/

section
variable {r2 : BitVec 5} (hc : exec c s = s.run fun s => s.maintSetWay k op 0 r2 0)
include hc

theorem maintSetWay_otherSeam (hn : (s.fetched k 4).seamOf k ≠ 0) : Completes c s (s.nullified k (s.fetched k 4) (.program 2 0)) :=
  hc.trans (run_of_ready h ((instr_of_super h hp).trans (instr_nullified_of_ready h (if_pos hn))))

variable (hn : (s.fetched k 4).seamOf k = 0)
include hn

theorem maintSetWay_unnamed (hw : setWayOf k ((s.found k 4).gr r2) = none) :
    Completes c s (s.nullified k (s.fetched k 4) (.program 3 0)) := by
  refine hc.trans (run_of_ready h ((instr_of_super h hp).trans (instr_nullified_of_ready h ((if_neg (not_not_intro hn)).trans ?_))))
  rw [arch_fetched, hw]
  rfl

variable {u : State} {cache : CacheId} {set n : Nat} (hw : setWayOf k ((s.found k 4).gr r2) = some (cache, set, n))
  (hs : (s.fetched k 4).settleEarlier k = u ∧ u.holdsWork k = true)
include hw hs

/-- A set-way form that names a way is performed there. -/
theorem maintSetWay_performed {v : State} (hb : u.maintainWay k op cache set n = (v, .close)) :
    Completes c s (u.performed v k 4) := by
  refine hc.trans (run_of_ready h ((instr_of_super h hp).trans (instr_left_of_ready h ((if_neg (not_not_intro hn)).trans ?_))))
  rw [arch_fetched, hw]
  exact maintOnce_performed hs hb

theorem maintSetWay_empty (hi : (u.way cache set n).st = .i) : Completes c s (u.performed u k 4) :=
  maintSetWay_performed h hp hc hn hw hs (by simp only [State.maintainWay, hi, if_true])

section
variable (hi : (u.way cache set n).st ≠ .i)
include hi

/-- A way whose line has left it while its transaction ended. -/
theorem maintSetWay_emptied (he : ((u.awaitLine (u.way cache set n).line).way cache set n).st = .i) :
    Completes c s (u.performed (u.awaitLine (u.way cache set n).line) k 4) :=
  maintSetWay_performed h hp hc hn hw hs (by simp only [State.maintainWay, hi, he, if_true, if_false])

theorem maintSetWay_held (he : ((u.awaitLine (u.way cache set n).line).way cache set n).st ≠ .i)
    (hq : let v := u.awaitLine (u.way cache set n).line
      v.quiet (v.way cache set n).line = true) :
    let v := u.awaitLine (u.way cache set n).line
    Completes c s (u.performed (v.maintWay k cache (v.way cache set n) op) k 4) :=
  maintSetWay_performed h hp hc hn hw hs (by
    dsimp only at hq
    simp only [State.maintainWay, hi, he, hq, Bool.not_true, Bool.false_eq_true, if_false])

end
end
end

/-- Settles O17: the three forms of an operation differ in what they name, and each is performed once its core's buffers have drained. -/
theorem maintenanceInstructionsAct : Obligations.MaintenanceInstructionsAct := by
  unfold Obligations.MaintenanceInstructionsAct
  intro s k r1 r2 r3 h hp w a settled rows op address range way hrow
  obtain ⟨ha, hr, hw⟩ : exec address s = s.run (fun s => s.maintAddress k op 0 r2 0) ∧
      exec range s = s.run (fun s => s.maintRange k op r1 r2 r3 none) ∧ exec way s = s.run (fun s => s.maintSetWay k op 0 r2 0) := by
    simp only [rows, List.mem_cons, List.not_mem_nil, or_false, Prod.mk.injEq] at hrow
    rcases hrow with ⟨rfl, rfl, rfl, rfl⟩ | ⟨rfl, rfl, rfl, rfl⟩ | ⟨rfl, rfl, rfl, rfl⟩
    · exact ⟨rfl, rfl, rfl⟩
    · exact ⟨rfl, rfl, rfl⟩
    · exact ⟨rfl, rfl, rfl⟩
  refine ⟨fun x r u hx hs => ⟨fun t => maintAddress_device h hp ha hx hs, fun phys mt => maintAddress_memory h hp ha hx hs⟩,
    fun u v q hz hs hq hl => maintRange_completes h hp hr hz hs hq hl, maintSetWay_otherSeam h hp hw, maintSetWay_unnamed h hp hw,
    fun u c set n hn hc hs => ⟨maintSetWay_empty h hp hw hn hc hs, fun hi => ⟨maintSetWay_emptied h hp hw hn hc hs hi,
      maintSetWay_held h hp hw hn hc hs hi⟩⟩⟩

end Sys2Proof.Machine
end

section
/-! PROOFS. Messages that arrive (R169, R187), and the snoops that reach a tile (R145, R171, R172, R177). -/

namespace Sys2Proof.Machine

/-! ### Arrivals (R169, R187) -/

section
variable {s t : State} {kind : MsgKind} {src dst line : Nat} {f : State → Option Msg → Answer}

/-- A message that waits at its stop for a slot does not arrive yet. -/
theorem arrival_waits (hb : (!s.blocked kind src dst line) = false) : s.arrival kind src dst line f = .next s :=
  if_pos ((Bool.not_eq_false' _).mp hb)

theorem arrival_answers (hb : (!s.blocked kind src dst line) = true)
    (hf : f (s.bring kind src dst line).1 (s.bring kind src dst line).2 = .next t) :
    s.arrival kind src dst line f = .next t.isolations := by
  refine (if_neg (Bool.eq_false_iff.1 ((Bool.not_eq_true' _).mp hb))).trans ?_
  simp only [hf]

variable {c : Instr} (hp : s.hasPower) (hc : exec c s = s.runAnswer fun s => s.fromHome kind dst line f)
include hp hc

theorem fromHome_waits (hb : (!s.blocked kind (s.stopOf line) dst line) = false) : Completes c s s :=
  hc.trans (runAnswer_next hp (arrival_waits hb))

theorem fromHome_completes (hb : (!s.blocked kind (s.stopOf line) dst line) = true)
    (hf : f (s.bring kind (s.stopOf line) dst line).1 (s.bring kind (s.stopOf line) dst line).2 = .next t) :
    Completes c s t.isolations :=
  hc.trans (runAnswer_next hp (arrival_answers hb hf))

end

/-! ### The answers of a tile, row by row (R172) -/

section
variable {u : State} {t line : Nat} {skip clean : Bool}

section
variable (ht : u.tileTx t line = none)
include ht

theorem atInv_invalid (hs : u.tileState t line = .i) : u.atInv t line skip = .next (u.reply .invAck t line) := by
  simp only [State.atInv, ht, hs, State.answer]

theorem atInv_shared (hs : u.tileState t line = .s) :
    let r := u.killOrKeep t line skip
    u.atInv t line skip = .next ((r.1.keptUpgrade t line r.2.2).reply .invAck t line none r.2.2) := by
  simp only [State.atInv, ht, hs, State.answer]

theorem atSnpS_invalid (hs : u.tileState t line = .i) : u.atSnpS t line clean = .next (u.reply .snpAck t line) := by
  simp only [State.atSnpS, ht, hs, State.answer]

theorem atSnpS_exclusive (hs : u.tileState t line = .e) :
    u.atSnpS t line clean = .next ((u.tileDown t line clean).1.reply .snpAck t line) := by
  simp only [State.atSnpS, ht, hs, State.answer]

/-- A tile that is shared because TDOWN came first answers with the data that TDOWN kept. -/
theorem atSnpS_supplied (hd : (u.supplied.any fun x => x.1 == t && x.2.1 == line) = true) (hs : u.tileState t line = .s) :
    u.atSnpS t line clean = .next (u.reply .snpD t line) := by
  simp only [State.atSnpS, ht, hs, hd, if_true, State.answer]

theorem atSnpS_dirty (hs : u.tileState t line = .o ∨ u.tileState t line = .m) :
    let r := u.tileDown t line clean
    u.atSnpS t line clean = .next (r.1.reply .snpD t line r.2) := by
  rcases hs with hs | hs
  · simp only [State.atSnpS, ht, hs, State.answer]
  · simp only [State.atSnpS, ht, hs, State.answer]

theorem atSnpX_invalid (hs : u.tileState t line = .i) : u.atSnpX t line skip = .next (u.reply .snpAck t line) := by
  simp only [State.atSnpX, ht, hs, State.answer]

section
variable (hs : u.tileState t line = .e ∨ u.tileState t line = .o ∨ u.tileState t line = .m)
include hs

theorem atSnpX_owner_dirty {d : LineData} (hd : (u.killOrKeep t line skip).2.1 = some d) :
    let r := u.killOrKeep t line skip
    u.atSnpX t line skip = .next (r.1.reply .snpD t line (some d) r.2.2) := by
  rcases hs with hs | hs | hs
  all_goals simp only [State.atSnpX, ht, hs, hd, State.answer]

theorem atSnpX_owner_clean (hd : (u.killOrKeep t line skip).2.1 = none) :
    let r := u.killOrKeep t line skip
    u.atSnpX t line skip = .next (r.1.reply .snpAck t line none r.2.2) := by
  rcases hs with hs | hs | hs
  all_goals simp only [State.atSnpX, ht, hs, hd, State.answer]

end

end

section
variable {x : TileTrans} (ht : u.tileTx t line = some x)
include ht

theorem atInv_upgrading (hx : x.tx = .sm) :
    let r := u.killOrKeep t line skip
    u.atInv t line skip = .next ((r.1.keptUpgrade t line r.2.2).reply .invAck t line none r.2.2) := by
  simp only [State.atInv, ht, hx, State.answer]

theorem atSnpS_upgrading (hx : x.tx = .om) :
    let r := u.tileDown t line clean
    u.atSnpS t line clean = .next ((if clean then r.1.setTileTx { x with tx := .sm } else r.1).reply .snpD t line r.2) := by
  simp only [State.atSnpS, ht, hx, State.answer]

theorem atSnpS_leaving (hx : x.tx = .mi) : u.atSnpS t line clean = .next (u.reply .snpD t line (u.leaving t line)) := by
  simp only [State.atSnpS, ht, hx, State.answer]

theorem atSnpX_upgrading (hx : x.tx = .om) :
    let r := u.killOrKeep t line skip
    u.atSnpX t line skip = .next ((r.1.keptUpgrade t line r.2.2).reply .snpD t line r.2.1 r.2.2) := by
  simp only [State.atSnpX, ht, hx, State.answer]

theorem atSnpX_leaving (hx : x.tx = .mi) :
    u.atSnpX t line skip = .next ((u.setTileTx { x with tx := .ii }).reply .snpD t line (u.leaving t line)) := by
  simp only [State.atSnpX, ht, hx, State.answer]

/-- In the other transient states the tile holds no copy and has nothing to give. -/
theorem atSnoop_without_copy (hx : x.tx = .is ∨ x.tx = .im ∨ x.tx = .ci ∨ x.tx = .ii) :
    u.atInv t line skip = .next (u.reply .invAck t line) ∧ u.atSnpS t line clean = .next (u.reply .snpAck t line) ∧
      u.atSnpX t line skip = .next (u.reply .snpAck t line) := by
  rcases hx with hx | hx | hx | hx
  all_goals simp only [State.atInv, State.atSnpS, State.atSnpX, ht, hx, State.answer, and_self]

end
end

/-! ### Hints (R145, R172) -/

section
variable {u : State} {target : HintTarget} {line seam : Nat} {m : Bool} {d : LineData}

theorem atHint_invalid (ht : u.tileTx target.tile line = none) (hs : u.tileState target.tile line = .i) :
    let v := u.hintInstall target line seam (if m then .m else .e) d
    (v.2.isSome = true → u.atHint target line seam m d = .next (v.1.reply .hintAck target.tile line)) ∧
    (v.2.isSome = false → u.atHint target line seam m d = .next (v.1.reply .hintDecl target.tile line)) := by
  simp only [State.atHint, ht, hs, ne_eq, not_true_eq_false, if_false]
  rcases u.hintInstall target line seam (if m then .m else .e) d with ⟨v, _ | _⟩
  · exact ⟨fun h => absurd h Bool.false_ne_true, fun _ => rfl⟩
  · exact ⟨fun _ => rfl, fun h => absurd h.symm Bool.false_ne_true⟩

theorem atHint_without_copy {x : TileTrans} (ht : u.tileTx target.tile line = some x)
    (hx : x.tx = .is ∨ x.tx = .im ∨ x.tx = .ci ∨ x.tx = .ii) :
    u.atHint target line seam m d = .next (u.reply .hintDecl target.tile line) := by
  rcases hx with hx | hx | hx | hx
  all_goals simp only [State.atHint, ht, hx, State.answer]

end

/-- Settles O32: each snoop arrives or waits, and the tile's answer is that of its row of R172. -/
theorem tilesAnswerSnoops : Obligations.TilesAnswerSnoops := by
  unfold Obligations.TilesAnswerSnoops
  intro s t line skip clean dirty seam data hp ln arrives brought to_ n
  refine ⟨fromHome_waits hp rfl, fromHome_waits hp rfl, fromHome_waits hp rfl, fun hb => ?inv, fun hb => ?snpS, fun hb => ?snpX,
    fun tgt => ?hint⟩
  case inv =>
    intro a u r c
    have answers {v : State} (hf : u.atInv n ln (msgFlag a.2 skip) = .next v) : to_ c v := fromHome_completes hp rfl hb hf
    exact ⟨fun ht => ⟨fun hs => answers (atInv_invalid ht hs), fun hs => answers (atInv_shared ht hs)⟩,
      fun x ht => ⟨fun hx => answers (atInv_upgrading ht hx), fun hx => answers (atSnoop_without_copy (clean := clean) ht hx).1⟩⟩
  case snpS =>
    intro u r c
    have answers {v : State} (hf : u.atSnpS n ln clean = .next v) : to_ c v := fromHome_completes hp rfl hb hf
    exact ⟨fun ht => ⟨fun hs => answers (atSnpS_invalid ht hs), fun hs => answers (atSnpS_exclusive ht hs),
        fun hd hs => answers (atSnpS_supplied ht hd hs), fun hs => answers (atSnpS_dirty ht hs)⟩,
      fun x ht => ⟨fun hx => answers (atSnpS_upgrading ht hx), fun hx => answers (atSnpS_leaving ht hx),
        fun hx => answers (atSnoop_without_copy (skip := skip) ht hx).2.1⟩⟩
  case snpX =>
    intro a u r c
    have answers {v : State} (hf : u.atSnpX n ln (msgFlag a.2 skip) = .next v) : to_ c v := fromHome_completes hp rfl hb hf
    exact ⟨fun ht => ⟨fun hs => answers (atSnpX_invalid ht hs), fun hs => ⟨fun d hd => answers (atSnpX_owner_dirty ht hs hd),
        fun hd => answers (atSnpX_owner_clean ht hs hd)⟩⟩,
      fun x ht => ⟨fun hx => answers (atSnpX_upgrading ht hx), fun hx => answers (atSnpX_leaving ht hx),
        fun hx => answers (atSnoop_without_copy (clean := clean) ht hx).2.2⟩⟩
  case hint =>
    intro c
    refine ⟨fromHome_waits hp rfl, fun hb => ?_⟩
    intro a u r at_ v
    have answers {x : State} (hf : u.atHint at_ ln r.seam (msgFlag a.2 dirty) (msgData a.2 data) = .next x) : to_ c x :=
      fromHome_completes hp rfl hb hf
    exact ⟨fun ht hs => ⟨fun hv => answers ((atHint_invalid ht hs).1 hv), fun hv => answers ((atHint_invalid ht hs).2 hv)⟩,
      fun x ht hx => answers (atHint_without_copy ht hx)⟩

end Sys2Proof.Machine
end

section
/-! PROOFS. Ring requests of cores, and the actions of a tile on snoops (R171, R172). -/

namespace Sys2Proof.Machine

/-! ### TRd -/

/-- A core that reads a line of its tile has it in its L2 already, or takes a shared copy there. -/
theorem ringRead_eq (s : State) (k line seam : Nat) (l : CLine) :
    s.ringRead k line seam l =
      (let u := ((s.ringCount (k / 12) (s.supplies (k / 12) line)).tileDown (k / 12) line false).1
       if (u.findWay (.l2 k) line).isSome then u.hit (.l2 k) line else u.fillL2 k line .s l.data seam false) := rfl

/-- No transaction of its tile keeps a ring read of the line waiting: none is open, or one that asks for ownership of a line that the tile
holds (R172). -/
def State.readsNow (s : State) (t line : Nat) : Prop :=
  s.tileTx t line = none ∨ ∃ y, s.tileTx t line = some y ∧ (y.tx = .sm ∨ y.tx = .om)

section
variable {s : State} {r : RingWait}

section
variable (hr : s.readsNow (r.core / 12) r.line)
include hr

/-- The line waits in the eviction buffer of the core's own L2 (R143). -/
theorem trd_buffered (hb : (s.findWay (.l2e r.core) r.line).isSome = true) : s.trd r = s.ringCount (r.core / 12) true := by
  rcases hr with ht | ⟨y, ht, hy | hy⟩
  · simp only [State.trd, ht, hb, if_true]
  · simp only [State.trd, ht, hy, hb, if_true]
  · simp only [State.trd, ht, hy, hb, if_true]

variable (hb : (s.findWay (.l2e r.core) r.line).isSome = false)
include hb

theorem trd_copied {c : CacheId} {l : CLine} (hc : s.tileCopy (r.core / 12) r.line = some (c, l)) :
    s.trd r = if s.hasWay r.core r.line r.seam then s.ringRead r.core r.line r.seam l else s.waitRing r := by
  rcases hr with ht | ⟨y, ht, hy | hy⟩
  · simp only [State.trd, ht, hb, hc, Bool.false_eq_true, if_false]
  · simp only [State.trd, ht, hy, hb, hc, Bool.false_eq_true, if_false]
  · simp only [State.trd, ht, hy, hb, hc, Bool.false_eq_true, if_false]

theorem trd_missing (hc : s.tileCopy (r.core / 12) r.line = none) :
    s.trd r = ((s.ringCount (r.core / 12) false).l3Miss (r.core / 12) r.line).openTileTx r .is := by
  rcases hr with ht | ⟨y, ht, hy | hy⟩
  · simp only [State.trd, ht, hb, hc, Bool.false_eq_true, if_false]
  · simp only [State.trd, ht, hy, hb, hc, Bool.false_eq_true, if_false]
  · simp only [State.trd, ht, hy, hb, hc, Bool.false_eq_true, if_false]

end

section
variable {y : TileTrans} (ht : s.tileTx (r.core / 12) r.line = some y)
include ht

theorem trd_waits (hy : y.tx = .is ∨ y.tx = .im ∨ y.tx = .ci ∨ y.tx = .ii) : s.trd r = s.waitRing r := by
  rcases hy with hy | hy | hy | hy
  all_goals simp only [State.trd, ht, hy]

/-- A line on its way out with WB serves the read from its entry. -/
theorem trd_leaving (hy : y.tx = .mi) : s.trd r = s.ringCount (r.core / 12) true := by
  simp only [State.trd, ht, hy]

theorem trdx_waits : s.trdx r = s.waitRing r := by
  simp only [State.trdx, ht, Option.isSome_some, if_true]

end

/-! ### TRdX -/

section
variable (ht : s.tileTx (r.core / 12) r.line = none)
include ht

theorem trdx_owned {c : CacheId} {l : CLine} (hs : s.tileState (r.core / 12) r.line = .m ∨ s.tileState (r.core / 12) r.line = .e)
    (hc : s.tileCopy (r.core / 12) r.line = some (c, l)) :
    s.trdx r = if s.hasWay r.core r.line r.seam then (s.ringCount (r.core / 12) true).tileOwn r.core r.line r.seam l.data
      else s.waitRing r := by
  rcases hs with hs | hs
  all_goals simp only [State.trdx, ht, hs, hc, Option.isSome_none, Bool.false_eq_true, if_false]

theorem trdx_shared (hs : s.tileState (r.core / 12) r.line = .s) : s.trdx r = (s.ringCount (r.core / 12) false).openTileTx r .sm := by
  simp only [State.trdx, ht, hs, Option.isSome_none, Bool.false_eq_true, if_false]

theorem trdx_dirty (hs : s.tileState (r.core / 12) r.line = .o) : s.trdx r = (s.ringCount (r.core / 12) false).openTileTx r .om := by
  simp only [State.trdx, ht, hs, Option.isSome_none, Bool.false_eq_true, if_false]

theorem trdx_missing (hs : s.tileState (r.core / 12) r.line = .i) :
    s.trdx r = ((s.ringCount (r.core / 12) false).l3Miss (r.core / 12) r.line).openTileTx r .im := by
  simp only [State.trdx, ht, hs, Option.isSome_none, Bool.false_eq_true, if_false]

end
end

/-! ### The commands -/

section
variable {s t : State} (hp : s.hasPower)
include hp

theorem trd_completes {k : Fin 48} {line : BitVec 28} {seam : Fin 64}
    (h : s.trd { core := k, line := line.toNat, seam := seam, excl := false, atomic := none } = t) : Completes (.trd k line seam) s t :=
  run_of_eq hp h

theorem trdx_completes {k : Fin 48} {line : BitVec 28} {seam : Fin 64} {a : Option AtomicReq}
    (h : s.trdx { core := k, line := line.toNat, seam := seam, excl := true, atomic := a } = t) : Completes (.trdx k line seam a) s t :=
  run_of_eq hp h

end

/-- Settles O31: TDown and TKill as the model has them, and TRd and TRdX by the transaction of the line and the copy of the tile. -/
theorem tileRingMessagesAct : Obligations.TileRingMessagesAct := by
  unfold Obligations.TileRingMessagesAct
  intro s k t line seam a clean hp n ln rd ex supplied
  refine ⟨run_of_eq hp rfl, run_of_eq hp rfl, fun hr => ⟨fun hb => trd_completes hp (trd_buffered hr hb), fun hb => ⟨fun c l hc => ?read,
    fun hc => trd_completes hp (trd_missing hr hb hc)⟩⟩, fun ht => ⟨fun c l hs hc => ?own,
    fun hs => trdx_completes hp (trdx_shared ht hs), fun hs => trdx_completes hp (trdx_dirty ht hs),
    fun hs => trdx_completes hp (trdx_missing ht hs)⟩, fun y ht => ⟨trdx_completes hp (trdx_waits (r := ex) ht),
    fun hy => trd_completes hp (trd_waits (r := rd) ht hy), fun hy => trd_completes hp (trd_leaving (r := rd) ht hy)⟩⟩
  case read =>
    have hread := trd_copied (r := rd) hr hb hc
    exact ⟨fun hw => trd_completes hp (hread.trans (if_neg (Bool.eq_false_iff.1 hw))),
      fun hw hf => trd_completes hp (((hread.trans (if_pos hw)).trans (ringRead_eq ..)).trans (if_pos hf)),
      fun hw hf => trd_completes hp (((hread.trans (if_pos hw)).trans (ringRead_eq ..)).trans (if_neg (Bool.eq_false_iff.1 hf)))⟩
  case own =>
    have hown := trdx_owned (r := ex) ht hs hc
    exact ⟨fun hw => trdx_completes hp (hown.trans (if_pos hw)),
      fun hw => trdx_completes hp (hown.trans (if_neg (Bool.eq_false_iff.1 hw)))⟩

end Sys2Proof.Machine
end

section
/-! PROOFS. Answers that reach a tile or an I/O agent, requests that are sent again, and the timeout of a tile's transaction (R170, R172,
R173, R183). -/

namespace Sys2Proof.Machine

/-! ### Answers at a tile, row by row (R172) -/

/-- A transaction of the tile is open for the line, in one of some transient states. -/
def State.opens (s : State) (t line : Nat) (l : List TileTx) : Prop := ∃ x, s.tileTx t line = some x ∧ x.tx ∈ l

/-- No request of the tile for the line is open: no transaction is, or one of a line that leaves. -/
def State.asksNothing (s : State) (t line : Nat) : Prop := s.tileTx t line = none ∨ s.opens t line [.ci, .mi, .ii]

/-- Line data have arrived for transaction `x` of a tile: it closes, the L2 of its core takes the line in state `st`, and Done is sent. -/
def State.tileFilled (s : State) (t line : Nat) (st : CState) (d : LineData) (x : TileTrans) : State :=
  (((s.closeTileTx t line).fillL2 x.core line st d x.seam false x.way).toHome .done t line).wakeRing t

section
variable {s : State} {t line : Nat} {st : CState} {d : LineData}

theorem asksNothing_cases (h : s.asksNothing t line) :
    s.tileTx t line = none ∨ ∃ x, s.tileTx t line = some x ∧ (x.tx = .ci ∨ x.tx = .mi ∨ x.tx = .ii) := by
  simpa only [State.asksNothing, State.opens, List.mem_cons, List.not_mem_nil, or_false] using h

section
variable (h : s.asksNothing t line)
include h

theorem atData_unasked : s.atData st t line d = cannot "n3" := by
  obtain ht | ⟨x, ht, hx | hx | hx⟩ := asksNothing_cases h
  · simp only [State.atData, ht]
  all_goals simp only [State.atData, ht, hx]

theorem atGntX_unasked : s.atGntX t line = cannot "n3" := by
  obtain ht | ⟨x, ht, hx | hx | hx⟩ := asksNothing_cases h
  · simp only [State.atGntX, ht]
  all_goals simp only [State.atGntX, ht, hx]

theorem atAtmR_unasked : s.atAtmR t line d = cannot "n3" := by
  obtain ht | ⟨x, ht, hx | hx | hx⟩ := asksNothing_cases h
  · simp only [State.atAtmR, ht]
  all_goals simp only [State.atAtmR, ht, hx]

theorem atRetry_unasked : s.atRetry t line = cannot "n3" := by
  obtain ht | ⟨x, ht, hx | hx | hx⟩ := asksNothing_cases h
  · simp only [State.atRetry, ht]
  all_goals simp only [State.atRetry, ht, hx]

end

/-- A read is never answered in M. -/
theorem atData_reading (h : s.opens t line [.is]) : s.atData .m t line d = cannot "n4" := by
  obtain ⟨x, ht, hx⟩ := h
  simp only [State.atData, ht, List.mem_singleton.1 hx, if_true]

/-- An ownership request is never answered in S. -/
theorem atData_owning (h : s.opens t line [.im]) : s.atData .s t line d = cannot "n4" := by
  obtain ⟨x, ht, hx⟩ := h
  simp only [State.atData, ht, List.mem_singleton.1 hx, if_true]

theorem atData_upgrading (h : s.opens t line [.sm, .om]) : s.atData st t line d = cannot "n5" := by
  obtain ⟨x, ht, hx⟩ := h
  simp only [List.mem_cons, List.not_mem_nil, or_false] at hx
  rcases hx with hx | hx
  all_goals simp only [State.atData, ht, hx]

theorem atGntX_reading (h : s.opens t line [.is]) : s.atGntX t line = cannot "n4" := by
  obtain ⟨x, ht, hx⟩ := h
  simp only [State.atGntX, ht, List.mem_singleton.1 hx]

theorem atGntX_owning (h : s.opens t line [.im]) : s.atGntX t line = cannot "n6" := by
  obtain ⟨x, ht, hx⟩ := h
  simp only [State.atGntX, ht, List.mem_singleton.1 hx]

theorem atAtmR_without_atomic (h : s.opens t line [.is, .sm, .om]) : s.atAtmR t line d = cannot "n4" := by
  obtain ⟨x, ht, hx⟩ := h
  simp only [List.mem_cons, List.not_mem_nil, or_false] at hx
  rcases hx with hx | hx | hx
  all_goals simp only [State.atAtmR, ht, hx]

theorem atWbAck_unsent (h : s.tileTx t line = none ∨ s.opens t line [.is, .im, .sm, .om]) : s.atWbAck t line = cannot "n10" := by
  rcases h with ht | ⟨x, ht, hx⟩
  · simp only [State.atWbAck, ht]
  · simp only [List.mem_cons, List.not_mem_nil, or_false] at hx
    rcases hx with hx | hx | hx | hx
    all_goals simp only [State.atWbAck, ht, hx]

variable {x : TileTrans} (ht : s.tileTx t line = some x)
include ht

theorem atData_fills (hx : (x.tx = .is ∧ st ≠ .m) ∨ (x.tx = .im ∧ st ≠ .s)) :
    s.atData st t line d = .next (s.tileFilled t line st d x) := by
  rcases hx with ⟨hx, hst⟩ | ⟨hx, hst⟩
  all_goals simp only [State.atData, ht, hx, hst, if_false, State.tileFilled]

section
variable (hx : x.tx = .sm ∨ x.tx = .om)
include hx

theorem atGntX_owns {c : CacheId} {l : CLine} (hc : s.tileCopy t line = some (c, l)) :
    s.atGntX t line =
      .next ((((s.closeTileTx t line).tileOwn x.core line x.seam l.data false x.way).toHome .done t line).wakeRing t) := by
  rcases hx with hx | hx
  all_goals simp only [State.atGntX, ht, hx, hc]

theorem atGntX_without_copy (hc : s.tileCopy t line = none) :
    s.atGntX t line = .next (((s.closeTileTx t line).toHome .done t line).wakeRing t) := by
  rcases hx with hx | hx
  all_goals simp only [State.atGntX, ht, hx, hc]

end

theorem atAtmR_delivers {a : AtomicReq} (hx : x.tx = .im) (ha : x.atomic = some a) :
    let u : State := { s.closeTileTx t line with atmVals := s.atmVals ++ [{ core := x.core, line := line, req := a, old := d }] }
    s.atAtmR t line d = .next (u.wakeRing t) := by
  simp only [State.atAtmR, ht, hx, ha]

theorem atWbAck_closes (hx : x.tx = .ci ∨ x.tx = .mi ∨ x.tx = .ii) :
    let u : State := { s.closeTileTx t line with wbq := s.wbq.filter fun e => !(e.tile == t && e.line == line) }
    s.atWbAck t line = .next (u.wakeRing t) := by
  rcases hx with hx | hx | hx
  all_goals simp only [State.atWbAck, ht, hx]

theorem atRetry_waits (hx : x.tx = .is ∨ x.tx = .im ∨ x.tx = .sm ∨ x.tx = .om) :
    s.atRetry t line =
      .next ((s.setTileTx { x with resendAt := some (s.now + 32) }).bump ⟨.ring, t⟩ Reg.SHF_TCC_STAT.RETRIED) := by
  rcases hx with hx | hx | hx | hx
  all_goals simp only [State.atRetry, ht, hx]

/-- An open transaction is of the tile and the line under which it is found. -/
theorem of_tileTx : x.tile = t ∧ x.line = line := by
  simpa only [Bool.and_eq_true, beq_iff_eq] using List.find?_some ht

end

/-! ### Requests sent again, and timeouts (R173, R183) -/

section
variable {s : State} {t : Fin 4} {line : BitVec 28} {x : TileTrans} (ht : s.tileTx t.val line.toNat = some x)
include ht

theorem onRetryResend_due {at_ : Nat} (hr : x.resendAt = some at_) (h : at_ ≤ s.now) :
    onRetryResend t line s = (s.setTileTx { x with resendAt := none }).toHome x.msgKind t.val line.toNat none false
      (some { x with resendAt := none }.request) := by
  obtain ⟨htile, hline⟩ := of_tileTx ht
  simp only [onRetryResend, ht, hr, h, if_true, State.resend, State.request, htile, hline]
  rfl

theorem onRetryResend_early {at_ : Nat} (hr : x.resendAt = some at_) (h : s.now < at_) : onRetryResend t line s = s := by
  simp only [onRetryResend, ht, hr, Nat.not_le.2 h, if_false]

/-- A request that has waited 20 µs ends, with SHF_TCC_ERR; a load or an atomic receives poison, and other stores are lost. -/
theorem onTileTransactionTimeout_ends (hx : x.tx = .is ∨ x.tx = .im ∨ x.tx = .sm ∨ x.tx = .om) (h : x.since + 20000 ≤ s.now) :
    let u := (((s.closeTileTx t.val line.toNat).stick ⟨.ring, t.val⟩ Reg.SHF_TCC_ERR.TIMEOUT none (BitVec.ofNat 64 line.toNat)).count
      ⟨.ring, t.val⟩ Reg.SHF_TCC_ERR.TIMEOUTS).wakeRing t.val
    onTileTransactionTimeout t line s =
      if x.tx = .is ∨ x.atomic.isSome then u.timedOutRead x.core else u.loseStores x.core line.toNat x.seam := by
  have hask : (x.tx == .is || x.tx == .im || x.tx == .sm || x.tx == .om) = true := by
    simpa only [Bool.or_eq_true, beq_iff_eq, or_assoc] using hx
  simp only [onTileTransactionTimeout, ht, hask, Nat.not_lt.2 h, Bool.not_true, Bool.false_eq_true, or_self, if_false]

end

/-! ### Data of an IOR (R170) -/

theorem iodata_completes {s : State} {unit : UnitId} {line : BitVec 28} {m : Msg} {d : LineData} (hp : s.hasPower)
    (hb : (!s.blocked .ioData (s.stopOf line.toNat) unit.dieSlot line.toNat) = true)
    (hm : (s.bring .ioData (s.stopOf line.toNat) unit.dieSlot line.toNat).2 = some m) (hd : m.data = some d) :
    Completes (.iodata unit line) s
      ((s.bring .ioData (s.stopOf line.toNat) unit.dieSlot line.toNat).1.atIoData unit line.toNat d).isolations :=
  fromHome_completes hp rfl hb (by simp only [hm, hd, Option.getD_some])

/-- Settles O33: each answer arrives or waits, and the tile acts by its row of R172; a resend and a timeout go by the transaction's times. -/
theorem answersCloseTileTransactions : Obligations.AnswersCloseTileTransactions := by
  unfold Obligations.AnswersCloseTileTransactions
  intro s t line data unit hp n ln arrives brought to_ fill
  refine ⟨?waits, fun hb x ht hx => ?dataS, fun hb x ht hx => ?dataE, fun hb x ht hx => ?dataM, ?gntX, ?atmR, ?wbAck, ?retry, ?times, ?cmp,
    ?ioData⟩
  case waits =>
    intro c kind hc
    simp only [List.mem_cons, List.not_mem_nil, or_false, Prod.mk.injEq] at hc
    rcases hc with ⟨rfl, rfl⟩ | ⟨rfl, rfl⟩ | ⟨rfl, rfl⟩ | ⟨rfl, rfl⟩ | ⟨rfl, rfl⟩ | ⟨rfl, rfl⟩ | ⟨rfl, rfl⟩
    all_goals exact fromHome_waits hp rfl
  case dataS => exact fromHome_completes hp rfl hb (atData_fills ht (.inl ⟨hx, CState.noConfusion⟩))
  case dataE =>
    exact fromHome_completes hp rfl hb
      (atData_fills ht (hx.imp (fun h => ⟨h, CState.noConfusion⟩) fun h => ⟨h, CState.noConfusion⟩))
  case dataM => exact fromHome_completes hp rfl hb (atData_fills ht (.inr ⟨hx, CState.noConfusion⟩))
  case gntX =>
    exact fun hb x ht hx => ⟨fun c l hc => fromHome_completes hp rfl hb (atGntX_owns ht hx hc),
      fun hc => fromHome_completes hp rfl hb (atGntX_without_copy ht hx hc)⟩
  case atmR => exact fun hb x ht hx a ha => fromHome_completes hp rfl hb (atAtmR_delivers ht hx ha)
  case wbAck => exact fun hb x ht hx => fromHome_completes hp rfl hb (atWbAck_closes ht hx)
  case retry => exact fun hb x ht hx => fromHome_completes hp rfl hb (atRetry_waits ht hx)
  case times =>
    refine fun x ht => ⟨fun at_ hr => ⟨fun h => run_of_eq hp (onRetryResend_due ht hr h),
      fun h => run_of_eq hp (onRetryResend_early ht hr h)⟩, fun hx h => ?_⟩
    have hends := onTileTransactionTimeout_ends ht hx h
    exact ⟨fun hread => run_of_eq hp (hends.trans (if_pos hread)),
      fun hread ha => run_of_eq hp (hends.trans (if_neg (not_or.2 ⟨hread, by simp [ha]⟩)))⟩
  case cmp => exact ⟨fromHome_waits hp rfl, fun hb => fromHome_completes hp rfl hb rfl⟩
  case ioData => exact ⟨fromHome_waits hp rfl, fun m d hb hm hd => iodata_completes hp hb hm hd⟩

end Sys2Proof.Machine
end

section
/-! PROOFS. Requests that reach a home agent (R174, R175, R179, R262). -/

namespace Sys2Proof.Machine

/-! ### Arrivals at a home -/

section
variable {s t : State} {kind : MsgKind} {src line : Nat} {f : State → Option Msg → Answer} {c : Instr} (hp : s.hasPower)
  (hc : exec c s = s.runAnswer fun s => s.atHome kind src line f)
include hp hc

theorem atHome_waits (hb : (!s.blocked kind src (s.stopOf line) line) = false) : Completes c s s :=
  hc.trans (runAnswer_next hp (arrival_waits hb))

theorem atHome_completes (hb : (!s.blocked kind src (s.stopOf line) line) = true)
    (hf : f (s.bring kind src (s.stopOf line) line).1 (s.bring kind src (s.stopOf line) line).2 = .next t) :
    Completes c s t.isolations :=
  hc.trans (runAnswer_next hp (arrival_answers hb hf))

end

/-! ### What a home agent does with a request (R174, R175, R262) -/

section
variable {s : State} {r : HomeReq}

theorem homeArrive_without_home (hh : s.homeAgent r.line = none) : s.homeArrive r = s := by
  simp only [State.homeArrive, hh]

section
variable {home : Nat} (hh : s.homeAgent r.line = some home)
include hh

/-- The seam of the request does not own the line (R262). -/
theorem homeArrive_refused (ho : s.ownerAllows r.seam r.line = false) : s.homeArrive r = s.refuseOwner r := by
  simp only [State.homeArrive, hh, ho, Bool.not_false, if_true]

variable (ho : s.ownerAllows r.seam r.line = true)
include ho

theorem homeArrive_taken (hn : s.homeBusy r.line = false) : s.homeArrive r = s.homeTake home r := by
  simp only [State.homeArrive, hh, ho, hn, Bool.not_true, Bool.false_eq_true, if_false]

theorem homeArrive_queued (hn : s.homeBusy r.line = true) (hq : s.queueRoom home r.seam = true) :
    let q : State := { s with homeQueue := s.homeQueue ++ [r] }
    let held := (q.homeQueue.filter fun x => q.homeAgent x.line == some home).length
    s.homeArrive r = q.wr (uHome home) Reg.HOME_QSTAT.PEAK (max held (q.rd (uHome home) Reg.HOME_QSTAT.PEAK)) := by
  simp only [State.homeArrive, hh, ho, hn, hq, Bool.not_true, Bool.false_eq_true, if_false, if_true]

theorem homeArrive_full (hn : s.homeBusy r.line = true) (hq : s.queueRoom home r.seam = false) :
    s.homeArrive r = (s.bump (uHome home) Reg.HOME_QSTAT.FULL_RETRY).send .retry (homeStop home) r.agent.stop r.line := by
  simp only [State.homeArrive, hh, ho, hn, hq, Bool.not_true, Bool.false_eq_true, if_false, if_true]

end

theorem refuseOwner_io {w : UnitId} (ha : r.agent = .io w) : s.refuseOwner r = { s with isolated := s.isolated ++ [r.seam] } := by
  simp only [State.refuseOwner, ha]

/-- A tile no longer waits for its refused request. -/
theorem refuseOwner_tile {m : Nat} (ha : r.agent = .tile m) :
    let v : State := { s with isolated := s.isolated ++ [r.seam] }
    let v' : State := { v with tileTrans := v.tileTrans.filter fun x =>
      !(x.tile == m && x.line == r.line && (x.tx == .is || x.tx == .im || x.tx == .sm || x.tx == .om)) }
    s.refuseOwner r = v'.wakeRing m := by
  simp only [State.refuseOwner, ha]

end

/-- Settles O34: each command brings its request home, and the home agent takes, queues or refuses it. -/
theorem homeAgentsTakeRequests : Obligations.HomeAgentsTakeRequests := by
  unfold Obligations.HomeAgentsTakeRequests
  intro s t unit line seam a op skip mask data hint hp ln mnt asked rows c kind src q hrow b u r to_
  have hexec : exec c s = s.runAnswer fun s => s.atHome kind src ln fun s m => .next (s.homeArrive (msgReq m q)) := by
    simp only [rows, List.mem_cons, List.not_mem_nil, or_false, Prod.mk.injEq] at hrow
    rcases hrow with ⟨rfl, rfl, rfl, rfl⟩ | ⟨rfl, rfl, rfl, rfl⟩ | ⟨rfl, rfl, rfl, rfl⟩ | ⟨rfl, rfl, rfl, rfl⟩ | ⟨rfl, rfl, rfl, rfl⟩ |
      ⟨rfl, rfl, rfl, rfl⟩ | ⟨rfl, rfl, rfl, rfl⟩
    all_goals rfl
  have ends {v : State} (hb : s.blocked kind src (s.stopOf ln) ln = false) (hv : u.homeArrive r = v) : to_ v :=
    atHome_completes hp hexec ((Bool.not_eq_true' _).mpr hb) (congrArg _ hv)
  refine ⟨fun hb => atHome_waits hp hexec ((Bool.not_eq_false' _).mpr hb), fun hb => ⟨fun hh => ends hb (homeArrive_without_home hh),
    fun home hh => ⟨fun ho hn => ends hb (homeArrive_taken hh ho hn), fun ho hn hq => ends hb (homeArrive_queued hh ho hn hq),
    fun ho hn hq => ends hb (homeArrive_full hh ho hn hq), fun ho => ?_⟩⟩⟩
  have hrefused := homeArrive_refused hh ho
  exact ⟨fun w ha => ends hb (hrefused.trans (refuseOwner_io ha)), fun m ha => ends hb (hrefused.trans (refuseOwner_tile ha))⟩

end Sys2Proof.Machine
end

section
/-! PROOFS. Answers, write-backs and time-outs at a home agent, and replays of the Shaft (R175-R177, R180, R183, R186, R188). -/

namespace Sys2Proof.Machine

/-! ### Answers to snoops (R175) -/

section
variable {s : State} {t line : Nat} {d : LineData} {kept : Bool}

section
variable (hh : s.homeTx line = none)
include hh

theorem atInvAck_unasked : s.atInvAck t line kept = cannot "h1" := by
  simp only [State.atInvAck, hh]

theorem atSnpAck_unasked : s.atSnpAck t line kept = cannot "h1" := by
  simp only [State.atSnpAck, hh]

theorem atSnpD_unasked : s.atSnpD t line d kept = cannot "h1" := by
  simp only [State.atSnpD, hh]

end

variable {h : HomeTrans} (hh : s.homeTx line = some h)
include hh

section
variable (hw : h.tx = .wh)
include hw

theorem atInvAck_hinting : s.atInvAck t line kept = cannot "h3" := by
  simp only [State.atInvAck, hh, hw]

theorem atSnpAck_hinting : s.atSnpAck t line kept = cannot "h3" := by
  simp only [State.atSnpAck, hh, hw]

theorem atSnpD_hinting : s.atSnpD t line d kept = cannot "h3" := by
  simp only [State.atSnpD, hh, hw]

end

theorem atInvAck_reading (hr : h.tx = .wr) : s.atInvAck t line kept = cannot "h2" := by
  simp only [State.atInvAck, hh, hr]

theorem atSnpAck_reading (hr : h.tx = .wr) : s.atSnpAck t line kept = .next (s.readAnswer h t none) := by
  simp only [State.atSnpAck, hh, hr]

theorem atSnpD_reading (hr : h.tx = .wr) :
    let u := if d.poison = 0 then s else s.stick (uHome h.home) Reg.HOME_ERR.POISON_WB
    s.atSnpD t line d kept = .next (u.readAnswer h t (some d)) := by
  simp only [State.atSnpD, hh, hr, bne_iff_ne, ne_eq, ite_not]

section
variable (hr : h.tx ≠ .wr) (hw : h.tx ≠ .wh)
include hr hw

theorem atInvAck_counted : s.atInvAck t line kept = .next (s.afterAnswer (h.counted t none kept)) := by
  simp only [State.atInvAck, hh]

theorem atSnpAck_counted : s.atSnpAck t line kept = .next (s.afterAnswer (h.counted t none kept)) := by
  simp only [State.atSnpAck, hh]

theorem atSnpD_counted :
    let u := if d.poison = 0 then s else s.stick (uHome h.home) Reg.HOME_ERR.POISON_WB
    s.atSnpD t line d kept = .next (u.afterAnswer (h.counted t (some d) kept)) := by
  simp only [State.atSnpD, hh, bne_iff_ne, ne_eq, ite_not]

end
end

/-! ### HintAck, HintDecl and Done (R175, R181) -/

section
variable {s : State} {t line : Nat}

theorem atHintAck_unasked (hh : ∀ h, s.homeTx line = some h → h.tx ≠ .wh) : s.atHintAck t line = cannot "h4" := by
  cases ht : s.homeTx line
  case none => simp only [State.atHintAck, ht]
  case some h => simp only [State.atHintAck, ht, hh h ht, ne_eq, not_false_eq_true, if_true]

theorem atHintDecl_unasked (hh : ∀ h, s.homeTx line = some h → h.tx ≠ .wh) : s.atHintDecl line = cannot "h4" := by
  cases ht : s.homeTx line
  case none => simp only [State.atHintDecl, ht]
  case some h => simp only [State.atHintDecl, ht, hh h ht, ne_eq, not_false_eq_true, if_true]

theorem atDone_unasked (hh : ∀ h, s.homeTx line = some h → h.tx ≠ .wr ∧ h.tx ≠ .wx) : s.atDone t line = cannot "h5" := by
  cases ht : s.homeTx line
  case none => simp only [State.atDone, ht]
  case some h => simp only [State.atDone, ht, hh h ht, ne_eq, not_false_eq_true, and_self, if_true]

variable {h : HomeTrans} (hh : s.homeTx line = some h)
include hh

theorem atHintAck_installs (hw : h.tx = .wh) :
    let e := if h.tookWb then DirEntry.empty else { DirEntry.holding h.line h.req.seam with st := .x, owner := t }
    s.atHintAck t line =
      .next (((((s.closeHomeTx h.line).setDir h.home h.line e).count (uHome h.home) Reg.HOME_HINT.INSTALLED).sendCmp h.home
        h.req).wakeQueue h.home h.line) := by
  cases hb : h.tookWb
  all_goals simp only [State.atHintAck, hh, hw, hb, ne_eq, not_true_eq_false, Bool.false_eq_true, if_false, if_true]

theorem atHintDecl_leaves (hw : h.tx = .wh) :
    let v := match h.dirty with | some d => if h.tookWb then s else s.putMemLine h.line maskAll d | none => s
    s.atHintDecl line =
      .next (((((v.closeHomeTx h.line).setDir h.home h.line DirEntry.empty).count (uHome h.home) Reg.HOME_HINT.DECLINED).sendCmp h.home
        h.req).wakeQueue h.home h.line) := by
  simp only [State.atHintDecl, hh, hw, ne_eq, not_true_eq_false, if_false] <;> rfl

theorem atDone_owns (hx : h.tx = .wx ∨ (h.tx = .wr ∧ h.recorded = true)) :
    let v := s.closeHomeTx h.line
    s.atDone t line =
      .next ((v.setDir h.home h.line (v.ownedEntry h.home h.line h.req.seam t)).wakeQueue h.home h.line) := by
  rcases hx with hx | ⟨hx, hr⟩
  · simp only [State.atDone, hh, hx, ne_eq, not_true_eq_false, and_false, if_false, true_or, if_true]
  · simp only [State.atDone, hh, hx, hr, ne_eq, not_true_eq_false, false_and, if_false, or_true, if_true]

theorem atDone_shares (hx : h.tx = .wr) (hr : h.recorded = false) :
    let v := s.closeHomeTx h.line
    let e := v.dirEntry h.home h.line
    s.atDone t line = .next ((v.setDir h.home h.line { e with present := e.present ||| tileBit t }).wakeQueue h.home h.line) := by
  simp only [State.atDone, hh, hx, hr, ne_eq, not_true_eq_false, false_and, reduceCtorEq, Bool.false_eq_true, or_self, if_false]

end

/-! ### WB and Evc (R175) -/

/-- An entry that no longer records tile `t` as a sharer. -/
def DirEntry.unshared (e : DirEntry) (t : Nat) : DirEntry := { e with present := e.present &&& ~~~(tileBit t) }

section
variable {s : State} {t line : Nat}

theorem atWb_without_home {d : LineData} (hh : s.homeAgent line = none) : s.atWb t line d = s := by
  simp only [State.atWb, hh]

theorem atEvc_without_home (hh : s.homeAgent line = none) : s.atEvc t line = .next s := by
  simp only [State.atEvc, hh]

variable {home : Nat} (hh : s.homeAgent line = some home)
include hh

theorem atWb_acknowledged (d : LineData) :
    s.atWb t line d = (s.wbArrive home t line d).send .wbAck (homeStop home) t line := by
  simp only [State.atWb, hh]

section
variable (ht : s.homeTx line = none)
include ht

theorem atEvc_idle_unrecorded (he : (s.dirEntry home line).st = .u ∨ ((s.dirEntry home line).st = .x ∧ (s.dirEntry home line).owner ≠ t)) :
    s.atEvc t line = .next (s.send .wbAck (homeStop home) t line) := by
  rcases he with he | ⟨he, ho⟩
  · simp only [State.atEvc, hh, ht, he]
  · simp only [State.atEvc, hh, ht, he, ho, if_false]

theorem atEvc_idle_shared (he : (s.dirEntry home line).st = .s) :
    s.atEvc t line =
      .next (((s.setDir home line ((s.dirEntry home line).unshared t)).tidyDir home line).send .wbAck (homeStop home) t line) := by
  simp only [State.atEvc, hh, ht, he, DirEntry.unshared]

theorem atEvc_idle_exclusive (he : (s.dirEntry home line).st = .x) (ho : (s.dirEntry home line).owner = t) :
    s.atEvc t line = .next ((s.setDir home line DirEntry.empty).send .wbAck (homeStop home) t line) := by
  simp only [State.atEvc, hh, ht, he, ho, if_true]

theorem atEvc_idle_sharer (he : (s.dirEntry home line).st = .o) (ho : (s.dirEntry home line).owner ≠ t) :
    s.atEvc t line = .next ((s.setDir home line ((s.dirEntry home line).unshared t)).send .wbAck (homeStop home) t line) := by
  simp only [State.atEvc, hh, ht, he, ho, if_false, DirEntry.unshared]

/-- The owner of a dirty line sends WB, never Evc. -/
theorem atEvc_idle_owner (he : (s.dirEntry home line).st = .o) (ho : (s.dirEntry home line).owner = t) : s.atEvc t line = cannot "h8" := by
  simp only [State.atEvc, hh, ht, he, ho, if_true]

end

section
variable {y : HomeTrans} (ht : s.homeTx line = some y)
include ht

section
variable (hw : y.tx = .wh)
include hw

theorem atEvc_hinted_target (ha : y.asked = tileBit t) :
    s.atEvc t line = .next ((s.setHomeTx { y with tookWb := true }).send .wbAck (homeStop home) t line) := by
  simp only [State.atEvc, hh, ht, hw, ha, if_true]

theorem atEvc_hinted_other (ha : y.asked ≠ tileBit t) : s.atEvc t line = .next (s.send .wbAck (homeStop home) t line) := by
  simp only [State.atEvc, hh, ht, hw, ha, if_true, if_false]

end

variable (hw : y.tx ≠ .wh)
include hw

theorem atEvc_busy_exclusive (he : (s.dirEntry home line).st = .x) (ho : (s.dirEntry home line).owner = t) :
    s.atEvc t line =
      .next ((s.setDir home line { (s.dirEntry home line).unshared t with st := .s, present := 0 }).send .wbAck (homeStop home) t line) := by
  simp only [State.atEvc, hh, ht, hw, he, ho, DirEntry.unshared, true_or, and_self, if_true, if_false]

theorem atEvc_busy_owner (he : (s.dirEntry home line).st = .o) (ho : (s.dirEntry home line).owner = t) :
    s.atEvc t line =
      .next ((s.setDir home line { (s.dirEntry home line).unshared t with st := .s }).send .wbAck (homeStop home) t line) := by
  simp only [State.atEvc, hh, ht, hw, he, ho, DirEntry.unshared, reduceCtorEq, false_or, and_self, if_true, if_false]

theorem atEvc_busy_sharer
    (he : (s.dirEntry home line).st = .s ∨ ((s.dirEntry home line).st = .o ∧ (s.dirEntry home line).owner ≠ t)) :
    s.atEvc t line = .next ((s.setDir home line ((s.dirEntry home line).unshared t)).send .wbAck (homeStop home) t line) := by
  rcases he with he | ⟨he, ho⟩
  · simp only [State.atEvc, hh, ht, hw, he, DirEntry.unshared, reduceCtorEq, or_self, false_and, true_or, if_true, if_false]
  · simp only [State.atEvc, hh, ht, hw, he, ho, DirEntry.unshared, and_false, or_true, if_true, if_false]

theorem atEvc_busy_unrecorded
    (he : (s.dirEntry home line).st = .u ∨ ((s.dirEntry home line).st = .x ∧ (s.dirEntry home line).owner ≠ t)) :
    s.atEvc t line = .next (s.send .wbAck (homeStop home) t line) := by
  rcases he with he | ⟨he, ho⟩
  · simp only [State.atEvc, hh, ht, hw, he, reduceCtorEq, or_self, false_and, if_false]
  · simp only [State.atEvc, hh, ht, hw, he, ho, reduceCtorEq, or_self, and_false, if_false]

end
end

/-! ### HOT, time-outs and replays (R180, R183, R186) -/

theorem onHotWindowExpiry_clears {s : State} {line : BitVec 28} {home : Nat} (hh : s.homeAgent line.toNat = some home)
    (hot : (s.dirEntry home line.toNat).hot = true)
    (hw : s.rd (uHome home) Reg.HOME_CFG.HOT_WINDOW ≤ 2 * (s.now - (s.dirEntry home line.toNat).hotAt)) :
    onHotWindowExpiry line s = s.setDir home line.toNat { s.dirEntry home line.toNat with hot := false } := by
  simp only [onHotWindowExpiry, hh, hot, hw, and_self, if_true]

theorem onHomeTransactionTimeout_eq {s : State} {line : BitVec 28} {h : HomeTrans} (hh : s.homeTx line.toNat = some h) :
    onHomeTransactionTimeout line s = if s.now < h.since + 20000 then s else (s.homeTimeout h).isolations := by
  simp only [onHomeTransactionTimeout, hh]

/-- An ownership transaction of a shared line that tile `n` has not answered: nobody owes dirty data, and memory stays as it is. -/
theorem homeTimeout_shared {s : State} {h : HomeTrans} {n : Nat} {rest : List Nat} (hx : h.tx = .wx)
    (he : (s.dirEntry h.home h.line).st = .s) (hd : h.dirty = none) (ha : tilesOf h.asked = n :: rest) :
    s.homeTimeout h =
      ((((s.closeHomeTx h.line).setDir h.home h.line DirEntry.empty).stick (uHome h.home) Reg.HOME_ERR.TIMEOUT (some (uTile n))
        (BitVec.ofNat 64 h.line)).bump (uHome h.home) Reg.HOME_ERR.TIMEOUTS).wakeQueue h.home h.line := by
  simp only [State.homeTimeout, hx, he, hd, ha, reduceCtorEq, or_self, decide_false, Bool.false_and, Bool.false_eq_true, if_false]

/-- What a replay leaves before its segment is judged: it is remembered with those of the last millisecond, and counted. -/
def State.replayed (s : State) (stop d : Nat) : State :=
  let u : State := { s with replays := (s.replays.filter fun r => decide (s.now < r.2.2 + 1000000)) ++ [(stop, d, s.now)] }
  (u.bump uModule (Reg.SHF_STOP_STAT.REPLAYS.ix stop)).corrected uModule (BitVec.ofNat 64 stop)

theorem onSlotReplay_eq (s : State) (stop : Fin 7) (against : Bool) :
    onSlotReplay stop against s =
      (let v := s.replayed stop.val against.toNat
       let f := if against then Reg.SHF_STOP_STAT.DN_DOWN.ix stop.val else Reg.SHF_STOP_STAT.UP_DOWN.ix stop.val
       if 16 ≤ (v.replays.filter fun r => r.1 == stop.val && r.2.1 == against.toNat).length ∧ v.flag uModule f = false
       then v.stick uModule f else v) := by
  cases against
  all_goals simp only [onSlotReplay, State.replayed, Bool.toNat_false, Bool.toNat_true, Bool.false_eq_true, if_false, if_true,
    Bool.not_eq_true']

/-- Settles O35: each answer arrives or waits, and the home acts by its row of R175; expiries, time-outs and replays have one equation each. -/
theorem homeAgentsTakeAnswersAndWriteBacks : Obligations.HomeAgentsTakeAnswersAndWriteBacks := by
  unfold Obligations.HomeAgentsTakeAnswersAndWriteBacks
  intro s t line data kept hp ln arrives from_ to_
  refine ⟨?waits, ?invAck, ?snpAck, ?snpD, ?hintAck, ?hintDecl, ?done, ?wb, ?evc, ?hot, ?timeout, ?replay⟩
  case waits =>
    intro c kind hc
    simp only [List.mem_cons, List.not_mem_nil, or_false, Prod.mk.injEq] at hc
    rcases hc with ⟨rfl, rfl⟩ | ⟨rfl, rfl⟩ | ⟨rfl, rfl⟩ | ⟨rfl, rfl⟩ | ⟨rfl, rfl⟩ | ⟨rfl, rfl⟩ | ⟨rfl, rfl⟩ | ⟨rfl, rfl⟩
    all_goals exact atHome_waits hp rfl
  case invAck => exact fun hb h hh hr hw => atHome_completes hp rfl hb (atInvAck_counted hh hr hw)
  case snpAck =>
    exact fun hb h hh => ⟨fun hr => atHome_completes hp rfl hb (atSnpAck_reading hh hr),
      fun hr hw => atHome_completes hp rfl hb (atSnpAck_counted hh hr hw)⟩
  case snpD =>
    exact fun hb h hh => ⟨fun hr => atHome_completes hp rfl hb (atSnpD_reading hh hr),
      fun hr hw => atHome_completes hp rfl hb (atSnpD_counted hh hr hw)⟩
  case hintAck => exact fun hb h hh hw => atHome_completes hp rfl hb (atHintAck_installs hh hw)
  case hintDecl => exact fun hb h hh hw => atHome_completes hp rfl hb (atHintDecl_leaves hh hw)
  case done =>
    exact fun hb h hh => ⟨fun hx => atHome_completes hp rfl hb (atDone_owns hh hx),
      fun hx hr => atHome_completes hp rfl hb (atDone_shares hh hx hr)⟩
  case wb =>
    exact fun hb => ⟨fun hh => atHome_completes hp rfl hb (congrArg _ (atWb_without_home hh)),
      fun home hh => atHome_completes hp rfl hb (congrArg _ (atWb_acknowledged hh _))⟩
  case evc =>
    intro hb u
    have evc {v : State} (hf : u.atEvc t.val ln = .next v) : to_ (.evc t line) v := atHome_completes hp rfl hb hf
    refine ⟨fun hh => evc (atEvc_without_home hh), fun home hh => ⟨fun ht => ?idle, fun y ht => ?busy⟩⟩
    case idle =>
      exact ⟨fun he => evc (atEvc_idle_unrecorded hh ht (.inl he)), fun he => evc (atEvc_idle_shared hh ht he),
        fun he ho => evc (atEvc_idle_exclusive hh ht he ho), fun he ho => evc (atEvc_idle_unrecorded hh ht (.inr ⟨he, ho⟩)),
        fun he ho => evc (atEvc_idle_sharer hh ht he ho)⟩
    case busy =>
      exact ⟨fun hw ha => evc (atEvc_hinted_target hh ht hw ha), fun hw ha => evc (atEvc_hinted_other hh ht hw ha),
        fun hw he ho => evc (atEvc_busy_exclusive hh ht hw he ho), fun hw he ho => evc (atEvc_busy_owner hh ht hw he ho),
        fun hw he => evc (atEvc_busy_sharer hh ht hw he), fun hw he => evc (atEvc_busy_unrecorded hh ht hw he)⟩
  case hot => exact fun home hh hot hw => run_of_eq hp (onHotWindowExpiry_clears hh hot hw)
  case timeout =>
    intro h hh
    have hend := onHomeTransactionTimeout_eq hh
    refine ⟨fun hn => run_of_eq hp (hend.trans (if_pos hn)), fun hn => run_of_eq hp (hend.trans (if_neg (Nat.not_lt.2 hn))), ?_⟩
    intro hn hx he hd n rest ha
    exact run_of_eq hp ((hend.trans (if_neg (Nat.not_lt.2 hn))).trans (congrArg State.isolations (homeTimeout_shared hx he hd ha)))
  case replay =>
    intro stop against d u v f n
    have hend := onSlotReplay_eq s stop against
    exact ⟨fun hn hf => run_of_eq hp (hend.trans (if_pos ⟨hn, hf⟩)),
      fun _ hf => run_of_eq hp (hend.trans (if_neg fun h => Bool.false_ne_true (h.2.symm.trans hf))),
      fun hn => run_of_eq hp (hend.trans (if_neg fun h => Nat.not_le.2 hn h.1))⟩

end Sys2Proof.Machine
end

section
/-! PROOFS. Arrivals that cannot occur (R172, R175). -/

namespace Sys2Proof.Machine

/-! ### Arrivals that stop -/

section
variable {s : State} {kind : MsgKind} {src dst line : Nat} {f : State → Option Msg → Answer} {code : String}

theorem arrival_stops (hb : s.blocked kind src dst line = false)
    (hf : f (s.bring kind src dst line).1 (s.bring kind src dst line).2 = cannot code) :
    s.arrival kind src dst line f = cannot code := by
  refine (if_neg (Bool.eq_false_iff.1 hb)).trans ?_
  simp only [hf, cannot]

variable {c : Instr} (hp : s.hasPower)
include hp

theorem fromHome_stops (hc : exec c s = s.runAnswer fun s => s.fromHome kind dst line f)
    (hf : f (s.bring kind (s.stopOf line) dst line).1 (s.bring kind (s.stopOf line) dst line).2 = cannot code)
    (hb : s.blocked kind (s.stopOf line) dst line = false) : Stops c s (.cannotOccur code) :=
  hc.trans (runAnswer_fault hp (arrival_stops hb hf))

theorem atHome_stops (hc : exec c s = s.runAnswer fun s => s.atHome kind src line f)
    (hf : f (s.bring kind src (s.stopOf line) line).1 (s.bring kind src (s.stopOf line) line).2 = cannot code)
    (hb : s.blocked kind src (s.stopOf line) line = false) : Stops c s (.cannotOccur code) :=
  hc.trans (runAnswer_fault hp (arrival_stops hb hf))

end

/-! ### Snoops and Hints that cannot occur at a tile (R172) -/

section
variable {u : State} {t line : Nat}

/-- No transaction of the tile is open for the line, which the tile holds in one of some states. -/
def State.rests (u : State) (t line : Nat) (l : List CState) : Prop := u.tileTx t line = none ∧ u.tileState t line ∈ l

/-- Inv goes to sharers alone. -/
theorem atInv_owner (skip : Bool) (h : u.rests t line [.e, .o, .m] ∨ u.opens t line [.om, .mi]) :
    u.atInv t line skip = cannot "n7" := by
  rcases h with ⟨ht, hs⟩ | ⟨x, ht, hx⟩
  · simp only [List.mem_cons, List.not_mem_nil, or_false] at hs
    rcases hs with hs | hs | hs
    all_goals simp only [State.atInv, ht, hs]
  · simp only [List.mem_cons, List.not_mem_nil, or_false] at hx
    rcases hx with hx | hx
    all_goals simp only [State.atInv, ht, hx]

/-- SnpS goes to the owner alone. -/
theorem atSnpS_sharing (clean : Bool) (h : u.opens t line [.sm]) : u.atSnpS t line clean = cannot "n8" := by
  obtain ⟨x, ht, hx⟩ := h
  simp only [State.atSnpS, ht, List.mem_singleton.1 hx]

theorem atSnpS_shared (clean : Bool) (h : u.rests t line [.s])
    (hd : (u.supplied.any fun x => x.1 == t && x.2.1 == line) = false) : u.atSnpS t line clean = cannot "n8" := by
  obtain ⟨ht, hs⟩ := h
  simp only [State.atSnpS, ht, List.mem_singleton.1 hs, hd, Bool.false_eq_true, if_false]

/-- SnpX goes to the owner alone. -/
theorem atSnpX_shared (skip : Bool) (h : u.rests t line [.s] ∨ u.opens t line [.sm]) : u.atSnpX t line skip = cannot "n8" := by
  rcases h with ⟨ht, hs⟩ | ⟨x, ht, hx⟩
  · simp only [State.atSnpX, ht, List.mem_singleton.1 hs]
  · simp only [State.atSnpX, ht, List.mem_singleton.1 hx]

/-- A Hint goes to a tile without a copy. -/
theorem atHint_with_copy {target : HintTarget} (seam : Nat) (m : Bool) (d : LineData)
    (h : u.rests target.tile line [.s, .e, .o, .m] ∨ u.opens target.tile line [.sm, .om, .mi]) :
    u.atHint target line seam m d = cannot "n9" := by
  rcases h with ⟨ht, hs⟩ | ⟨x, ht, hx⟩
  · have hi : u.tileState target.tile line ≠ .i := fun e => by simp [e] at hs
    simp only [State.atHint, ht, ne_eq, hi, not_false_eq_true, if_true]
  · simp only [List.mem_cons, List.not_mem_nil, or_false] at hx
    rcases hx with hx | hx | hx
    all_goals simp only [State.atHint, ht, hx]

end

/-- A Hint that no message carries has the target that its command gives it. -/
theorem hint_stops {s : State} {t : Fin 4} {line : BitVec 28} {seam : Fin 64} {m : Bool} {d : LineData} (hp : s.hasPower)
    (hm : (s.bring .hint (s.stopOf line.toNat) t.val line.toNat).2 = none)
    (h : (s.bring .hint (s.stopOf line.toNat) t.val line.toNat).1.rests t.val line.toNat [.s, .e, .o, .m] ∨
      (s.bring .hint (s.stopOf line.toNat) t.val line.toNat).1.opens t.val line.toNat [.sm, .om, .mi])
    (hb : s.blocked .hint (s.stopOf line.toNat) t.val line.toNat = false) :
    Stops (.hint (.l3 t.val) line seam m d) s (.cannotOccur "n9") := by
  refine fromHome_stops hp rfl ?_ hb
  simp only [HintTarget.tile, hm, msgReq, Option.bind_none, Option.getD_none, Option.getD_some]
  exact atHint_with_copy (target := .l3 t.val) _ _ _ h

/-- Settles O36: each entry of R172 and R175 that cannot occur stops its arrival with its code. -/
theorem messagesThatCannotOccurStop : Obligations.MessagesThatCannotOccurStop := by
  unfold Obligations.MessagesThatCannotOccurStop
  intro s t line data kept hp n ln tile home stop refuse open_ stable none3
  refine ⟨fun h => fromHome_stops hp rfl (atData_unasked h), fun h => fromHome_stops hp rfl (atData_unasked h),
    fun h => fromHome_stops hp rfl (atData_unasked h), fun h => fromHome_stops hp rfl (atGntX_unasked h),
    fun h => fromHome_stops hp rfl (atAtmR_unasked h), fun h => fromHome_stops hp rfl (atRetry_unasked h),
    fun h => fromHome_stops hp rfl (atData_reading h), fun h => fromHome_stops hp rfl (atGntX_reading h),
    fun h => fromHome_stops hp rfl (atData_owning h), fun h => fromHome_stops hp rfl (atAtmR_without_atomic h),
    fun h => fromHome_stops hp rfl (atData_upgrading h), fun h => fromHome_stops hp rfl (atData_upgrading h),
    fun h => fromHome_stops hp rfl (atData_upgrading h), fun h => fromHome_stops hp rfl (atGntX_owning h),
    fun h => fromHome_stops hp rfl (atInv_owner _ h), fun h => fromHome_stops hp rfl (atSnpS_sharing _ h),
    fun h hd => fromHome_stops hp rfl (atSnpS_shared _ h hd), fun h => fromHome_stops hp rfl (atSnpX_shared _ h),
    fun seam hm h => hint_stops hp hm h, fun h => fromHome_stops hp rfl (atWbAck_unsent h),
    fun hh => atHome_stops hp rfl (atInvAck_unasked hh), fun hh => atHome_stops hp rfl (atSnpAck_unasked hh),
    fun hh => atHome_stops hp rfl (atSnpD_unasked hh), fun h hh hr => atHome_stops hp rfl (atInvAck_reading hh hr),
    fun h hh hw => atHome_stops hp rfl (atInvAck_hinting hh hw), fun h hh hw => atHome_stops hp rfl (atSnpAck_hinting hh hw),
    fun h hh hw => atHome_stops hp rfl (atSnpD_hinting hh hw), fun hh => atHome_stops hp rfl (atHintAck_unasked hh),
    fun hh => atHome_stops hp rfl (atHintDecl_unasked hh), fun hh => atHome_stops hp rfl (atDone_unasked hh),
    fun a hh ht he ho => atHome_stops hp rfl (atEvc_idle_owner hh ht he ho)⟩

end Sys2Proof.Machine
end

section
/-! PROOFS. The first mismatch of a group, and the microcode of its retry (R193-R197, R216-R218). -/

namespace Sys2Proof.Machine

/-! ### Microwords that are delivered (R216, R217) -/

/-- Units of different types have keys of their own where their numbers are equal. -/
theorem key_ne_of_code_ne {u v : UnitId} (hi : u.inst = v.inst) (hc : u.type.code ≠ v.type.code) : u.key ≠ v.key := by
  unfold UnitId.key
  omega

/-- A write on a core's own page leaves the pages of its control store. -/
theorem word_wr_core (s : State) (k : Nat) {f : Field} (v : Nat) {off : Nat} (hf : f.off < 4096) (ho : off < 4096) :
    (s.wr (uCore k) f v).word (uMcs k) off = s.word (uMcs k) off :=
  word_setWord_ne s _ _ _ _ _ (pageKey_ne ho hf (.inl (key_ne_of_code_ne rfl (show UnitType.mcs.code ≠ UnitType.core.code by decide))))

theorem microMatch_wr_core (s : State) (k : Nat) {f : Field} (v ua : Nat) (hf : f.off < 4096) :
    (s.wr (uCore k) f v).microMatch k ua = s.microMatch k ua := by
  have hwords : (List.range 32).map (fun i => (s.wr (uCore k) f v).word (uMcs k) (0x100 + 8 * i)) =
      (List.range 32).map fun i => s.word (uMcs k) (0x100 + 8 * i) :=
    List.map_congr_left fun i hi => word_wr_core s k v hf (by have := List.mem_range.1 hi; omega)
  unfold State.microMatch
  rw [hwords]

theorem microFetch_wr_core (s : State) (k : Nat) {f : Field} (v ua : Nat) (hf : f.off < 4096) :
    (s.wr (uCore k) f v).microFetch k ua = s.microFetch k ua := by
  unfold State.microFetch State.microWord
  rw [microMatch_wr_core s k v ua hf]
  rfl

/-- What a core writes on its own page leaves the microwords that it fetches. -/
theorem microcodeSound_wr_core {s : State} {k : Nat} {f : Field} (v : Nat) (hf : f.off < 4096) (h : MicrocodeSound s k) :
    MicrocodeSound (s.wr (uCore k) f v) k := by
  rcases h with hv | hd
  · refine .inl ?_
    simpa only [State.flag, State.rd, word_wr_core s k v hf (show Reg.MCS_STAT.VALID.off < 4096 by decide)] using hv
  · exact .inr fun ua hua => (congrArg Option.isSome (microFetch_wr_core s k v ua hf)).trans (hd ua hua)

theorem microcodeSound_setCore {s : State} {k : Nat} (c : CoreSt) (h : MicrocodeSound s k) : MicrocodeSound (s.setCore k c) k := h

/-- Microcode whose words are all delivered changes registers and takes a free value. -/
theorem microcode_sound {s : State} {k : Nat} (h : MicrocodeSound s k) :
    ∃ r n, s.microcode k = { s with regs := r, free := n } := by
  unfold State.microcode
  rcases h with hv | hd
  · exact ⟨s.regs, s.free, if_pos (by simp [hv])⟩
  · split
    · exact ⟨s.regs, s.free, rfl⟩
    · have hgood := List.takeWhile_append_of_pos (l₂ := []) hd
      simp only [List.append_nil, List.takeWhile_nil] at hgood
      exact ⟨_, _, if_pos (congrArg List.length hgood)⟩

/-! ### What a mismatch notes (R196, R197, R199) -/

/-- Core `k` has noted its mismatches `m`; registers, and the free values taken so far, may have changed with it. -/
def State.noted (s : State) (k : Nat) (r : Table Word) (n : Nat) (m : List Nat) : State :=
  ({ s with regs := r, free := n } : State).setCore k { s.core k with mismatches := m }

theorem core_noted (s : State) (k : Nat) (r : Table Word) (n : Nat) (m : List Nat) :
    (s.noted k r n m).core k = { s.core k with mismatches := m } := core_setCore_same _ k _

theorem core_noted_ne (s : State) {k j : Nat} (r : Table Word) (n : Nat) (m : List Nat) (h : j ≠ k) :
    (s.noted k r n m).core j = s.core j := core_setCore_ne _ _ h

theorem wr_changes_regs {s t : State} {u : UnitId} {f : Field} {v : Nat} (h : ∃ r, t = { s with regs := r }) :
    ∃ r, t.wr u f v = { s with regs := r } := by
  obtain ⟨r, rfl⟩ := h
  exact ⟨_, rfl⟩

theorem mismatchesNow_wr (s : State) (k : Nat) (u : UnitId) (f : Field) (v : Nat) :
    (s.wr u f v).mismatchesNow k = s.mismatchesNow k := rfl

theorem setCore_noted {s t : State} {k : Nat} {m : List Nat} (h : ∃ r, t = { s with regs := r }) :
    ∃ r, t.setCore k { s.core k with mismatches := m } = s.noted k r s.free m := by
  obtain ⟨r, rfl⟩ := h
  exact ⟨r, rfl⟩

theorem noteMismatch_noted (s : State) (k kind : Nat) :
    ∃ r, s.noteMismatch k kind = s.noted k r s.free (s.mismatchesNow k ++ [s.now]) := by
  unfold State.noteMismatch
  simp only [mismatchesNow_wr, wr_now]
  exact setCore_noted (wr_changes_regs (wr_changes_regs (wr_changes_regs (wr_changes_regs ⟨s.regs, rfl⟩))))

theorem microcodeSound_noteMismatch {s : State} {k : Nat} (kind : Nat) (h : MicrocodeSound s k) :
    MicrocodeSound (s.noteMismatch k kind) k := by
  unfold State.noteMismatch
  refine microcodeSound_setCore _ ?_
  iterate 4 refine microcodeSound_wr_core _ (by decide) ?_
  exact h

theorem recordCorrected_noted (s : State) (k : Nat) (r : Table Word) (n : Nat) (m : List Nat) (c : Nat) :
    ∃ r', (s.noted k r n m).recordCorrected k c = s.noted k r' n m := by
  unfold State.recordCorrected
  split <;> exact ⟨_, rfl⟩

theorem microcodeSound_recordCorrected {s : State} {k : Nat} (c : Nat) (h : MicrocodeSound s k) :
    MicrocodeSound (s.recordCorrected k c) k := by
  unfold State.recordCorrected
  split
  · exact h
  · exact microcodeSound_wr_core _ (by decide) h

/-- Outside the watch, a first mismatch with fewer than 15 in the last second declares no core failed (R197, R204). -/
theorem mismatchFails_first {s : State} {k : Nat} (hr : (s.core k).role = .active) (ha : (s.core k).group.attempts = 0)
    (hm : (s.mismatchesNow k).length < 15) : s.mismatchFails k = false := by
  simp [State.mismatchFails, hr, ha, hm]

/-- A mismatch that fails no core, of a group with nothing performed, restores the checkpoint of a core that has noted it. -/
theorem mismatch_restores_noted {s : State} {k : Nat} (kind : Nat) {read : RecordRead} (hf : s.mismatchFails k = false)
    (hr : read.readable = true) (hg : (s.core k).group.performed = false) (hw : (s.core k).wu.isSome = true)
    (hs : MicrocodeSound s k) :
    ∃ r n, s.mismatch k kind read = (s.noted k r n (s.mismatchesNow k ++ [s.now])).restoreCkpt k := by
  obtain ⟨r, hnote⟩ := noteMismatch_noted s k kind
  generalize s.mismatchesNow k ++ [s.now] = m at hnote ⊢
  obtain ⟨r', hcorr⟩ := recordCorrected_noted s k r s.free m read.corr.toNat
  have hv : (s.noteMismatch k kind).recordCorrected k read.corr.toNat = s.noted k r' s.free m := hnote ▸ hcorr
  have hsound : MicrocodeSound (s.noted k r' s.free m) k :=
    hv ▸ microcodeSound_recordCorrected _ (microcodeSound_noteMismatch kind hs)
  obtain ⟨r'', n, hmicro⟩ := microcode_sound hsound
  have hu : (s.noted k r' s.free m).microcode k = s.noted k r'' n m := hmicro
  refine ⟨r'', n, ?_⟩
  rw [mismatch_restores hf hr (by rw [hv, core_noted]; exact hg), hv, hu, core_noted, if_pos hw]

/-- The core of a restored checkpoint: its group is to be executed again, and its buffers are as they were (R196). -/
theorem core_restoreCkpt_noted (s : State) (k : Nat) (r : Table Word) (n : Nat) (m : List Nat) :
    ((s.noted k r n m).restoreCkpt k).core k =
      { s.core k with
        mismatches := m, arch := (s.core k).ckpt.arch, group := { Group.empty with attempts := (s.core k).group.attempts + 1 } } := by
  unfold State.restoreCkpt
  rw [core_setCore_same, core_noted]

theorem core_restoreCkpt_noted_ne (s : State) {k j : Nat} (r : Table Word) (n : Nat) (m : List Nat) (h : j ≠ k) :
    ((s.noted k r n m).restoreCkpt k).core j = s.core j := (core_setCore_ne _ _ h).trans (core_noted_ne s r n m h)

/-- Settles O38: the mismatch fails no core, so it is noted, the microcode of the retry runs, and the checkpoint is restored. -/
theorem firstMismatchRestoresTheCheckpoint : Obligations.FirstMismatchRestoresTheCheckpoint := by
  unfold Obligations.FirstMismatchRestoresTheCheckpoint
  intro s t k kind corr c d hp ho hw hrole hkind _ hatt hperf hnow hsound hstep
  have hactive : c.active = true := by simp [CoreSt.active, hrole]
  obtain ⟨r, n, hm⟩ := mismatch_restores_noted kind.toNat (read := { readable := true, corr := corr })
    (mismatchFails_first hrole hatt hnow) rfl hperf hw hsound
  have hexec := groupCompare_differs (lane := none) hp hw hactive ho hkind hm
  cases hexec.symm.trans ((step_front _ s).symm.trans hstep)
  have hd : d = { c with
      mismatches := s.mismatchesNow k ++ [s.now], arch := c.ckpt.arch, group := { Group.empty with attempts := c.group.attempts + 1 } } :=
    core_restoreCkpt_noted s k r n _
  have hfirst : c.group.attempts + 1 = 1 := congrArg (· + 1) hatt
  rw [hd]
  exact ⟨rfl, rfl, rfl, rfl, hfirst, rfl, rfl, rfl, rfl, hrole, rfl, rfl, rfl, rfl, fun j hj => core_restoreCkpt_noted_ne s r n _ hj⟩

end Sys2Proof.Machine
end

section
/-! PROOFS. The microcode loader and patch loads (R221, R222, R226, R227). -/

namespace Sys2Proof.Machine

/-! ### MCS_LDR_DATA (R221, R226) -/

section
variable {s : State} {sender : Sender} (data : Word) (hp : s.hasPower) (ha : Admits s sender uSvcDie 0x810)
include hp ha

theorem mcsLdrData_busy (h : s.mcsRun.isSome = true) : Completes (.mcsLdrData sender data) s s :=
  run_of_eq hp ((command_of_admits ha).trans (if_pos h))

/-- Eight bytes inside the buffer are staged at ADDR, rounded down to a doubleword; the staged state clears, and ADDR advances. -/
theorem mcsLdrData_stages (hn : s.mcsRun = none) (hb : s.rd uSvcDie Reg.MCS_LDR_ADDR.ADDR / 8 * 8 < 0x8000) :
    let a := s.rd uSvcDie Reg.MCS_LDR_ADDR.ADDR / 8 * 8
    let v := State.each (List.range 8) (fun n s => { s with staging := s.staging.put 0 (a + n) ((wordBytes data).getD n 0) }) s.unstage
    Completes (.mcsLdrData sender data) s (v.wr uSvcDie Reg.MCS_LDR_ADDR.ADDR (a + 8)) := by
  refine run_of_eq hp ((command_of_admits ha).trans ?_)
  simp only [hn, Option.isSome_none, Bool.false_eq_true, if_false, Nat.not_le.2 hb]

end

/-! ### Commands of the loader -/

section
variable {s : State} {sender : Sender} {op : Nat} {act : State → State} {c : Instr} (hp : s.hasPower)
  (ha : Admits s sender uSvcDie 0x800) (hc : exec c s = s.run fun s => s.loaderCommand sender op act)
include hp ha hc

/-- A command given while the loader is BUSY writes OP, and starts nothing. -/
theorem loaderCommand_busy (h : s.mcsRun.isSome = true) : Completes c s (s.wr uSvcDie Reg.MCS_LDR_CTL.OP op) :=
  hc.trans (run_of_eq hp ((command_of_admits ha).trans (if_pos h)))

/-- A command given to an idle loader writes OP, and is performed. -/
theorem loaderCommand_idle (hn : s.mcsRun = none) : Completes c s (act (s.wr uSvcDie Reg.MCS_LDR_CTL.OP op)) :=
  hc.trans (run_of_eq hp ((command_of_admits ha).trans (if_neg (by simp [hn]))))

end

/-! ### ACTIVATE -/

section
variable {s : State}

theorem activateDue_activates (hr : s.mcsRun = some (2, 0)) (hl : s.loadsRun = false) : s.activateDue = s.activate := if_pos ⟨hr, hl⟩

theorem activateDue_waits (hl : s.loadsRun = true) : s.activateDue = s := if_neg (by simp [hl])

variable {sender : Sender} (hp : s.hasPower) (ha : Admits s sender uSvcDie 0x800) (hn : s.mcsRun = none)
include hp ha hn

theorem activate_staged (hs : (s.wr uSvcDie Reg.MCS_LDR_CTL.OP 2).flag uSvcDie Reg.MCS_LDR_STAT.STAGED = true) :
    Completes (.activate sender) s
      (State.activateDue { s.wr uSvcDie Reg.MCS_LDR_CTL.OP 2 with mcsRun := some (2, 0) }) := by
  have h := loaderCommand_idle (c := .activate sender) hp ha rfl hn
  rwa [if_pos hs] at h

theorem activate_unstaged (hs : (s.wr uSvcDie Reg.MCS_LDR_CTL.OP 2).flag uSvcDie Reg.MCS_LDR_STAT.STAGED = false) :
    Completes (.activate sender) s ((s.wr uSvcDie Reg.MCS_LDR_CTL.OP 2).wr uSvcDie Reg.MCS_LDR_CTL.RESULT 0x11) := by
  have h := loaderCommand_idle (c := .activate sender) hp ha rfl hn
  rwa [if_neg (Bool.eq_false_iff.1 hs)] at h

end

/-! ### MCS_LDR_DONE -/

section
variable {s : State} (hp : s.hasPower)
include hp

/-- A VERIFY that fails ends with the RESULT of its check alone. -/
theorem mcsLdrDone_verifyFails {r : Nat} (hr : s.mcsRun = some (1, r)) (hne : r ≠ 1) :
    Completes .mcsLdrDone s (State.wr { s with mcsRun := none } uSvcDie Reg.MCS_LDR_CTL.RESULT r) :=
  run_of_eq hp (by simp only [onMcsLdrDone, hr, if_neg hne, State.loaderResult])

/-- A VERIFY that passes leaves the bundle staged, with its generation. -/
theorem mcsLdrDone_verifyPasses (hr : s.mcsRun = some (1, 1)) :
    let v := (State.wr { s with mcsRun := none } uSvcDie Reg.MCS_LDR_CTL.RESULT 1).wr uSvcDie Reg.MCS_LDR_STAT.STAGED 1
    Completes .mcsLdrDone s (v.wr uSvcDie Reg.MCS_LDR_GEN.STAGED_GEN (bunGen (v.staged 0x140))) :=
  run_of_eq hp (by simp only [onMcsLdrDone, hr, if_true, State.loaderResult]; rfl)

theorem mcsLdrDone_discards (hr : s.mcsRun = some (3, 0)) : Completes .mcsLdrDone s (State.unstage { s with mcsRun := none }) :=
  run_of_eq hp (by simp only [onMcsLdrDone, hr, if_true])

/-- A RAISE_FLOOR that blows fuses ends with FLOOR at the lesser of ACTIVE_GEN and 64. -/
theorem mcsLdrDone_raisesFloor (hr : s.mcsRun = some (4, 0x12)) :
    let v := State.wr { s with mcsRun := none } uSvcDie Reg.MCS_LDR_CTL.RESULT 0x12
    Completes .mcsLdrDone s (v.wr uSvcDie Reg.MCS_LDR_STAT.FLOOR (min (v.rd uSvcDie Reg.MCS_LDR_GEN.ACTIVE_GEN) 64)) :=
  run_of_eq hp (by simp only [onMcsLdrDone, hr, if_true, State.loaderResult])

theorem mcsLdrDone_activates (hr : s.mcsRun = some (2, 0)) (hl : s.loadsRun = false) : Completes .mcsLdrDone s s.activate :=
  run_of_eq hp (by simp only [onMcsLdrDone, hr, activateDue_activates hr hl])

end

/-! ### PATCH_LOAD and PATCH_LOAD_DONE (R222) -/

section
variable {s : State} {k : Fin 48} (hp : s.hasPower)
include hp

/-- A powered core that owes a load, or is pending, and holds no work unit begins it when no load runs in its tile and no ACTIVATE
waits. -/
theorem patchLoad_begins (hr : s.mcsRun ≠ some (2, 0)) (hd : s.loadDue k.val = true ∨ s.mcsPending.contains k.val = true)
    (ht : ((List.range 12).all fun j => (s.patchRuns.look none (12 * (k.val / 12) + j)).isNone) = true) (hw : (s.core k).wu = none)
    (hon : s.powered (uCore k) = true) :
    let due := s.patchDue.look 0 k.val
    Completes (.patchLoad k) s (State.wr
      { s with patchRuns := s.patchRuns.put none k.val (some (if due ≠ 0 then due else 2, s.now)) } (uMcs k) Reg.MCS_STAT.LOADING 1) := by
  have hidle : ((List.range 12).any fun j => (s.patchRuns.look none (12 * (k.val / 12) + j)).isSome) = false := by
    simpa using ht
  refine run_of_eq hp (if_neg ?_)
  rintro (⟨hdue, hpending⟩ | h | h | h | h)
  · exact hd.elim (Bool.eq_false_iff.1 (Bool.not_eq_true' _ ▸ hdue)) (Bool.eq_false_iff.1 (Bool.not_eq_true' _ ▸ hpending))
  · exact Bool.false_ne_true (hidle.symm.trans h)
  · simp [hw] at h
  · simp [hon] at h
  · exact hr h

theorem patchLoadDone_ends {cause since : Nat} (hr : s.patchRuns.look none k.val = some (cause, since)) :
    Completes (.patchLoadDone k) s
      (((s.patchLoad k cause ((s.now - since) / 1000)).leaveRollout k false).rolloutNext.activateDue) :=
  run_of_eq hp (by simp only [onPatchLoadDone, hr])

end

/-- Settles O43: a command acts by whether the loader is busy, MCS_LDR_DONE by the run that it ends, and a load by the core that owes it. -/
theorem microcodeCommandsAct : Obligations.MicrocodeCommandsAct := by
  unfold Obligations.MicrocodeCommandsAct
  intro s sender k data ecc hp
  refine ⟨fun ha => ⟨mcsLdrData_busy data hp ha, mcsLdrData_stages data hp ha⟩, fun ha => ⟨fun hb => ?_, fun hn => ?_⟩,
    ⟨fun _ => mcsLdrDone_verifyFails hp, mcsLdrDone_verifyPasses hp, mcsLdrDone_discards hp, mcsLdrDone_raisesFloor hp⟩,
    mcsLdrDone_activates hp, patchLoad_begins hp, fun _ _ => patchLoadDone_ends hp⟩
  · exact ⟨loaderCommand_busy hp ha rfl hb, loaderCommand_busy hp ha rfl hb, loaderCommand_busy hp ha rfl hb,
      loaderCommand_busy hp ha rfl hb⟩
  · refine ⟨loaderCommand_idle (c := .verify sender ecc) hp ha rfl hn, fun hs => ?_,
      activate_unstaged hp ha hn, loaderCommand_idle (c := .mcsLdrDiscard sender) hp ha rfl hn,
      loaderCommand_idle (c := .raiseFloor sender) hp ha rfl hn⟩
    have h := activate_staged hp ha hn hs
    exact ⟨fun hl => activateDue_activates rfl hl ▸ h, fun hl => activateDue_waits hl ▸ h⟩

end Sys2Proof.Machine
end

section
/-! PROOFS. Commands of the seam controller (R256-R266, R273). -/

namespace Sys2Proof.Machine

/-! ### SEAM_CMD with START (R256) -/

/-- SEAM_CMD with the fields that are written beside START. -/
def State.seamBegun (s : State) (op n field : Nat) : State :=
  ((s.wr uSeamCtl Reg.SEAM_CMD.OP op).wr uSeamCtl Reg.SEAM_CMD.SEAM n).wr uSeamCtl Reg.SEAM_CMD.FIELD field

/-- A command in progress, with the argument that it found when it began, in `b`, and the RESULT that it will show. -/
def State.seamRuns (t : State) (op n result : Nat) (b : State) : State :=
  { t with seamCmd := some { op := op, seam := n, arg := b.rd uSeamCtl Reg.SEAM_ARG.ARG, result := result } }

section
variable {s : State} {sender : Sender} {op n field : Nat} {check : State → Nat} {act : State → State × Nat} {c : Instr}
  (hp : s.hasPower) (ha : Admits s sender uSeamCtl 0x080)
  (hc : exec c s = s.run fun s => s.seamCommand sender op n field check act)
include hp ha hc

/-- START while BUSY writes SEAM_CMD alone. -/
theorem seamCommand_busy (h : s.seamCmd.isSome = true) : Completes c s (s.seamBegun op n field) :=
  hc.trans (run_of_eq hp ((command_of_admits ha).trans (if_pos h)))

variable (hn : s.seamCmd = none)
include hn

/-- A check that fails leaves its RESULT for SEAM_CMD_DONE, and nothing else. -/
theorem seamCommand_refused (hr : check (s.seamBegun op n field) ≠ 0) :
    let b := s.seamBegun op n field
    Completes c s (b.seamRuns op n (check b) b) :=
  hc.trans (run_of_eq hp ((command_of_admits ha).trans ((if_neg (by simp [hn])).trans (if_pos hr))))

/-- A command that passes its check acts at its start, and leaves the RESULT of its act for SEAM_CMD_DONE. -/
theorem seamCommand_performed (hr : check (s.seamBegun op n field) = 0) :
    let b := s.seamBegun op n field
    let v := act (b.seamRuns op n (check b) b)
    Completes c s (v.1.seamRuns op n v.2 b) :=
  hc.trans (run_of_eq hp ((command_of_admits ha).trans ((if_neg (by simp [hn])).trans (if_neg (not_not_intro hr)))))

end

/-- The three outcomes of a seam command. -/
theorem seamCommand_outcomes {s : State} {sender : Sender} {op n field : Nat} {check : State → Nat} {act : State → State × Nat}
    {c : Instr} (hp : s.hasPower) (ha : Admits s sender uSeamCtl 0x080)
    (hc : exec c s = s.run fun s => s.seamCommand sender op n field check act) :
    let b := s.seamBegun op n field
    (s.seamCmd.isSome = true → Completes c s b) ∧
    (s.seamCmd = none → check b ≠ 0 → Completes c s (b.seamRuns op n (check b) b)) ∧
    (s.seamCmd = none → check b = 0 →
      let v := act (b.seamRuns op n 0 b)
      Completes c s (v.1.seamRuns op n v.2 b)) :=
  ⟨seamCommand_busy hp ha hc, seamCommand_refused hp ha hc, fun hn hr => hr ▸ seamCommand_performed hp ha hc hn hr⟩

/-! ### GRANT (R260) -/

/-- The check of GRANT: the common checks, the limit of a seam, and the free granules. -/
def State.grantCheck (s : State) (n : Nat) : Nat :=
  let r := s.seamRefusal n true [1] true
  let k := s.seamArg 44 63
  if r ≠ 0 then r else if 524288 < s.seamLimit n + k then 0x0C else if s.freeGranules < k then 6 else 0

/-- What GRANT does: an error after fewer granules than asked for ends it there, with RESULT 0x0B. -/
def State.grantAct (s : State) (n : Nat) (stop : Option (BitVec 20)) : State × Nat :=
  let k := s.seamArg 44 63
  let short := match stop with | some e => decide (e.toNat < k) | none => false
  (grantLoop n (if short then (stop.getD 0).toNat else k) (List.replicate 16 0) s, if short then 0x0B else 1)

theorem grantAct_stops (n : Nat) (e : BitVec 20) (s : State) :
    s.grantAct n (some e) =
      if e.toNat < s.seamArg 44 63 then (grantLoop n e.toNat (List.replicate 16 0) s, 0x0B)
      else (grantLoop n (s.seamArg 44 63) (List.replicate 16 0) s, 1) := by
  by_cases h : e.toNat < s.seamArg 44 63
  · simp only [State.grantAct, h, if_true, decide_true, Option.getD_some]
  · simp only [State.grantAct, h, if_false, decide_false, Bool.false_eq_true]

theorem onGrant_eq (sender : Sender) (seam : BitVec 8) (stop : Option (BitVec 20)) (s : State) :
    onGrant sender seam stop s =
      s.seamCommand sender 2 seam.toNat 0 (fun s => s.grantCheck seam.toNat) (fun s => s.grantAct seam.toNat stop) := by
  cases stop with
  | none => rfl
  | some e => simp only [grantAct_stops]; rfl

/-! ### SEAM_CMD_DONE (R257) -/

/-- What a command that ends does beyond its RESULT: RESET and DESTROY that passed their checks end their S reset. -/
def State.seamCmdEnd (s : State) (c : SeamCmd) : State :=
  if c.result = 1 ∧ c.op = 7 then (s.seamResetEnd c.seam).count uSeamCtl (Reg.SEAM_COUNT.RESETS.ix c.seam)
  else if c.result = 1 ∧ c.op = 8 then s.destroyEnd c.seam else s

theorem seamCmdEnd_refused {c : SeamCmd} (s : State) (h : c.result ≠ 1) : s.seamCmdEnd c = s := by
  simp [State.seamCmdEnd, h]

theorem seamCmdEnd_performed {c : SeamCmd} (s : State) (h : c.result = 1) :
    s.seamCmdEnd c = if c.op = 7 then (s.seamResetEnd c.seam).count uSeamCtl (Reg.SEAM_COUNT.RESETS.ix c.seam)
      else if c.op = 8 then s.destroyEnd c.seam else s := by
  simp [State.seamCmdEnd, h]

/-- The end of a command shows its RESULT, writes its Tally record, and lets the checkstops that waited for it take effect. -/
theorem onSeamCmdDone_ends {s : State} {c : SeamCmd} (h : s.seamCmd = some c) :
    onSeamCmdDone s =
      let w := (State.seamCmdEnd { s with seamCmd := none } c).wr uSeamCtl Reg.SEAM_CMD.RESULT c.result
      let gen := if c.seam < 64 then w.seamGen c.seam else 0
      (w.tallyEvent (some uSeamCtl) 0x04 c.op 7 (if c.seam < 64 then c.seam else 0xFF)
        (payload8 c.result (beBytes 1 c.result ++ beBytes 4 gen ++ beBytes 8 c.arg))).heldStopsNow := by
  unfold onSeamCmdDone
  rw [h]
  by_cases hr : c.result = 1
  · simp only [seamCmdEnd_performed _ hr, if_neg (not_not_intro hr)]
  · simp only [seamCmdEnd_refused _ hr, if_pos hr]

/-- Settles O45: the eight commands are one operation with a check and an act of their own, and SEAM_CMD_DONE ends the one in
progress. The order of the checks, RESULT 0x0C for a seam of 64 or more, the act at the start and the checkstops that wait are the
model's choice (log entry 39), and so is SEAL of a sealed seam refused with 0x04. -/
theorem seamCommandsAct : Obligations.SeamCommandsAct := by
  unfold Obligations.SeamCommandsAct
  intro s sender seam field stop hp
  refine ⟨fun ha => ?_, fun c hc => run_of_eq hp (onSeamCmdDone_ends hc)⟩
  have grants : exec (.grant sender seam stop) s = s.run fun s => s.seamCommand sender 2 seam.toNat 0
      (fun s => s.grantCheck seam.toNat) (fun s => s.grantAct seam.toNat stop) :=
    congrArg s.run (funext (onGrant_eq sender seam stop))
  exact ⟨seamCommand_outcomes (c := .create sender seam) hp ha rfl, seamCommand_outcomes hp ha grants,
    seamCommand_outcomes (c := .revoke sender seam) hp ha rfl, seamCommand_outcomes (c := .set sender seam field) hp ha rfl,
    seamCommand_outcomes (c := .seal sender seam) hp ha rfl, seamCommand_outcomes (c := .checkstop sender seam) hp ha rfl,
    seamCommand_outcomes (c := .reset sender seam) hp ha rfl, seamCommand_outcomes (c := .destroy sender seam) hp ha rfl⟩

end Sys2Proof.Machine
end

section
/-! PROOFS. A module without power (R474, R484, R490; log entry 67). -/

namespace Sys2Proof.Machine

/-! ### What a module without power may change -/

/-- The state `t` with the clock, the queue, the power unit and the test access port of `s`. -/
def State.withOutside (t s : State) : State := { t with pending := s.pending, now := s.now, power := s.power, tap := s.tap }

/-- Everything in `t` but the clock, the queue, the power unit and the test access port is as in `s`; of the power unit the level of MRST_N
and the mark that VIN must fall first may differ. -/
def OnlyOutsideDiffers (s t : State) : Prop :=
  t.withOutside s = s ∧ { t.power with mrstLow := s.power.mrstLow, offUntilVin := s.power.offUntilVin } = s.power

theorem OnlyOutsideDiffers.refl (s : State) : OnlyOutsideDiffers s s := ⟨rfl, rfl⟩

theorem OnlyOutsideDiffers.trans {s u t : State} (h : OnlyOutsideDiffers s u) (h' : OnlyOutsideDiffers u t) : OnlyOutsideDiffers s t := by
  obtain ⟨hs, hp⟩ := h
  obtain ⟨hs', hp'⟩ := h'
  refine ⟨(congrArg (State.withOutside · s) hs').trans hs, ?_⟩
  exact (congrArg (fun p : Power => { p with mrstLow := s.power.mrstLow, offUntilVin := s.power.offUntilVin }) hp').trans hp

/-- A power unit that differs only in the level of MRST_N and in the mark is off where the other is. -/
theorem OnlyOutsideDiffers.mode {s t : State} (h : OnlyOutsideDiffers s t) : t.power.mode = s.power.mode := by
  have same := congrArg Power.mode h.2
  exact same

/-! ### Commands and time without power -/

theorem exec_off {c : Instr} {s : State} (hoff : s.power.mode = .off) (ha : isAlways c = false) : exec c s = .next s := by
  have run_off (f : State → State) : s.run f = .next s := congrArg Host.Outcome.next (if_pos hoff)
  have answer_off (f : State → Answer) : s.runAnswer f = .next s := if_pos hoff
  cases hr : isArrival c
  · cases hm : isTakenMessage c
    · obtain ⟨f, hf⟩ := exec_plain ha hm hr s
      exact hf.trans (run_off f)
    · obtain ⟨f, hf, -⟩ := exec_takenMessage hm s
      exact hf.trans (answer_off f)
  · obtain ⟨f, hf⟩ := exec_arrival hr s
    exact hf.trans (answer_off f)

/-- MRST_N is low, and EXTEST drives the lands (R484, R503). -/
def State.mrstLowered (s : State) : State :=
  { s with power := { s.power with mrstLow := true }, tap := if s.tap.ir = .extest then { s.tap with driving := true } else s.tap }

theorem onMrstNLow_eq (s : State) :
    onMrstNLow s =
      match s.power.mode with
      | .off => { s.mrstLowered with power := { s.mrstLowered.power with offUntilVin := false } }
      | .holdup => s.mrstLowered
      | .standby => { s.mrstLowered.mStart with power := { s.mrstLowered.mStart.power with mode := .standby } }
      | .on => s.mrstLowered.mStart := rfl

theorem onMrstNLow_off {s : State} (hoff : s.power.mode = .off) :
    onMrstNLow s = { s.mrstLowered with power := { s.mrstLowered.power with offUntilVin := false } } := by
  rw [onMrstNLow_eq, hoff]

/-- Each command that acts without power, POWER_ON apart, changes only what may differ. -/
theorem always_off {c : Instr} {s : State} (hoff : s.power.mode = .off) (ha : isAlways c = true)
    (hc : ∀ vin removed, c ≠ .powerOn vin removed) : ∃ f, exec c s = s.runAlways f ∧ OnlyOutsideDiffers s (f s) := by
  cases c <;> cases ha
  case powerOn vin removed => exact absurd rfl (hc vin removed)
  case mrstNLow => exact ⟨onMrstNLow, rfl, by rw [onMrstNLow_off hoff]; exact ⟨rfl, rfl⟩⟩
  case mrstNHigh => exact ⟨onMrstNHigh, rfl, rfl, rfl⟩
  case bypass => exact ⟨onBypass, rfl, rfl, rfl⟩
  case samplePreload lands cells => exact ⟨onSamplePreload lands cells, rfl, rfl, rfl⟩
  case extest lands cells => exact ⟨onExtest lands cells, rfl, by unfold onExtest; split <;> exact ⟨rfl, rfl⟩⟩
  case idcode => exact ⟨onIdcode, rfl, rfl, rfl⟩
  case trstNLow => exact ⟨onTrstNLow, rfl, rfl, rfl⟩

theorem exec_keeps_off {c : Instr} {s t : State} (hoff : s.power.mode = .off) (hc : ∀ vin removed, c ≠ .powerOn vin removed)
    (h : exec c s = .next t) : OnlyOutsideDiffers s t := by
  cases ha : isAlways c
  · cases (exec_off hoff ha).symm.trans h
    exact .refl s
  · obtain ⟨f, hf, hd⟩ := always_off hoff ha hc
    cases hf.symm.trans h
    exact hd

theorem idle_off {s : State} (hoff : s.power.mode = .off) : s.idle = { s with now := s.now + 10 } := if_pos hoff

/-! ### Steps and runs without power -/

theorem steps_withoutPower {s t : State} (hs : WithoutPower s) (h : Steps s t) : WithoutPower t ∧ OnlyOutsideDiffers s t := by
  obtain ⟨hoff, hq⟩ := hs
  have differs : OnlyOutsideDiffers s t := by
    unfold Steps at h
    cases hp : s.pending with
    | nil =>
      rw [step_idle hp, idle_off hoff] at h
      cases h
      exact ⟨rfl, rfl⟩
    | cons c rest =>
      rw [step_command hp] at h
      have hc : ∀ vin removed, c ≠ .powerOn vin removed := fun vin removed hc =>
        hq vin removed (by rw [hp, hc]; exact List.mem_cons_self ..)
      have front : OnlyOutsideDiffers s { s with pending := rest } := ⟨rfl, rfl⟩
      exact front.trans (exec_keeps_off hoff hc h)
  have queue : t.pending = s.pending.drop 1 := (steps_queue h).1
  refine ⟨⟨differs.mode.trans hoff, fun vin removed hm => hq vin removed ?_⟩, differs⟩
  exact List.mem_of_mem_drop (queue ▸ hm)

theorem reaches_withoutPower {n : Nat} {s t : State} (hs : WithoutPower s) (h : Reaches n s t) :
    WithoutPower t ∧ OnlyOutsideDiffers s t := by
  induction n generalizing s with
  | zero => cases h; exact ⟨hs, .refl _⟩
  | succ n ih =>
    obtain ⟨u, hu, ht⟩ := h
    obtain ⟨hwu, hsu⟩ := steps_withoutPower hs hu
    obtain ⟨hwt, hut⟩ := ih hwu ht
    exact ⟨hwt, hsu.trans hut⟩

/-- Settles O3: a command of a module without power changes at most the power unit's MRST_N level, its mark and the test access port, and
so does the passing of time; runs follow by induction on the steps. That commands have no effect is the model's reading (log entry 67). -/
theorem aModuleWithoutPowerIsInert : Obligations.AModuleWithoutPowerIsInert := by
  unfold Obligations.AModuleWithoutPowerIsInert
  exact ⟨fun c s hoff ha => exec_off hoff ha, fun s t hs h => (steps_withoutPower hs h).1, fun n s t hs h => reaches_withoutPower hs h⟩

end Sys2Proof.Machine
end

section
/-! PROOFS. Power-up, MRST_N, standby, the hold-up drain and the test access port (R474, R483, R484, R489, R490, R502, R503). -/

namespace Sys2Proof.Machine

/-! ### POWER_ON and MRST_N (R474, R484) -/

theorem powerOn_starts {s : State} {vin : BitVec 16} {removed : Bool} (hoff : s.power.mode = .off) (hv : 9500 < vin.toNat)
    (hr : s.power.offUntilVin = false ∨ removed = true) : Completes (.powerOn vin removed) s (s.powerUp vin.toNat) :=
  runAlways_of_eq (if_neg (by
    rintro (h | h | ⟨h, h'⟩)
    · exact h hoff
    · omega
    · rcases hr with hr | hr
      · exact absurd (hr.symm.trans h) (by decide)
      · rw [hr] at h'; exact absurd h' (by decide)))

theorem powerOn_ignored {s : State} {vin : BitVec 16} {removed : Bool}
    (h : s.hasPower ∨ vin.toNat ≤ 9500 ∨ (s.power.offUntilVin = true ∧ removed = false)) : Completes (.powerOn vin removed) s s :=
  runAlways_of_eq (if_pos (h.imp_right (Or.imp_right fun ⟨hu, hr⟩ => ⟨hu, by rw [hr]; rfl⟩)))

theorem mrstNLow_off {s : State} (hm : s.power.mode = .off) :
    Completes .mrstNLow s { s.mrstLowered with power := { s.mrstLowered.power with offUntilVin := false } } :=
  runAlways_of_eq (onMrstNLow_off hm)

theorem mrstNLow_holdup {s : State} (hm : s.power.mode = .holdup) : Completes .mrstNLow s s.mrstLowered :=
  runAlways_of_eq (by rw [onMrstNLow_eq, hm])

theorem mrstNLow_on {s : State} (hm : s.power.mode = .on) : Completes .mrstNLow s s.mrstLowered.mStart :=
  runAlways_of_eq (by rw [onMrstNLow_eq, hm])

theorem mrstNLow_standby {s : State} (hm : s.power.mode = .standby) :
    Completes .mrstNLow s { s.mrstLowered.mStart with power := { s.mrstLowered.mStart.power with mode := .standby } } :=
  runAlways_of_eq (by rw [onMrstNLow_eq, hm])

theorem mrstNHigh_extest {s : State} (h : s.tap.ir = .extest) :
    Completes .mrstNHigh s { s with power := { s.power with mrstLow := false }, tap := { s.tap with driving := false } } :=
  runAlways_of_eq (by rw [onMrstNHigh, if_pos h])

theorem mrstNHigh_other {s : State} (h : s.tap.ir ≠ .extest) :
    Completes .mrstNHigh s { s with power := { s.power with mrstLow := false } } :=
  runAlways_of_eq (by rw [onMrstNHigh, if_neg h])

/-! ### PWR_CMD (R483, R490, R493) -/

section
variable {s : State} {sender : Sender} (hp : s.hasPower) (ha : Admits s sender uPower 0x0A0)
include hp ha

theorem standby_admitted {t : State} (h : (s.wr uPower Reg.PWR_CMD.OP 1).pwrStart 1 = t) : Completes (.standby sender) s t :=
  run_of_eq hp ((command_of_admits ha).trans h)

theorem wake_admitted {t : State} (h : (s.wr uPower Reg.PWR_CMD.OP 2).pwrStart 2 = t) : Completes (.wake sender) s t :=
  run_of_eq hp ((command_of_admits ha).trans h)

theorem off_admitted {t : State} (h : (s.wr uPower Reg.PWR_CMD.OP 3).pwrStart 3 = t) : Completes (.off sender) s t :=
  run_of_eq hp ((command_of_admits ha).trans h)

end

theorem onInput_of_mode {s : State} (h : s.power.mode = .on ∨ s.power.mode = .standby) : s.onInput = true := by
  unfold State.onInput
  rcases h with h | h <;> rw [h]

theorem pwrStart_ignored {s : State} (op : Nat) (h : s.power.cmdBusy = true ∨ s.power.mode = .holdup) : s.pwrStart op = s := by
  refine if_pos (h.imp_right fun hm => ?_)
  rw [State.onInput, hm]
  rfl

section
variable {s : State} (hb : s.power.cmdBusy = false)
include hb

/-- An operation starts in a module on its input that performs none. -/
theorem pwrStart_starts (op : Nat) (hi : s.onInput = true) :
    s.pwrStart op = match op with
      | 1 => if s.power.mode = .standby then s.wr uPower Reg.PWR_CMD.RESULT 1
        else if s.mayStandby then s.enterStandby.wr uPower Reg.PWR_CMD.RESULT 1 else s.wr uPower Reg.PWR_CMD.RESULT 3
      | 2 => if s.power.mode = .standby then s.leaveStandby.wr uPower Reg.PWR_CMD.RESULT 1 else s.wr uPower Reg.PWR_CMD.RESULT 4
      | 3 =>
        let v := s.tallyEvent (some uModule) 0x00 0x05
        State.holdup { v with power := { v.power with cmdBusy := true, offCmd := true, offUntilVin := true } }
      | _ => s.wr uPower Reg.PWR_CMD.RESULT 2 :=
  if_neg (by simp [hb, hi])

theorem pwrStart_standby (hm : s.power.mode = .on) (h : s.mayStandby = true) :
    s.pwrStart 1 = s.enterStandby.wr uPower Reg.PWR_CMD.RESULT 1 := by
  simp [pwrStart_starts hb 1 (onInput_of_mode (.inl hm)), hm, h]

theorem pwrStart_standby_refused (hm : s.power.mode = .on) (h : s.mayStandby = false) :
    s.pwrStart 1 = s.wr uPower Reg.PWR_CMD.RESULT 3 := by
  simp [pwrStart_starts hb 1 (onInput_of_mode (.inl hm)), hm, h]

theorem pwrStart_wake (hm : s.power.mode = .standby) : s.pwrStart 2 = s.leaveStandby.wr uPower Reg.PWR_CMD.RESULT 1 := by
  simp [pwrStart_starts hb 2 (onInput_of_mode (.inr hm)), hm]

theorem pwrStart_wake_refused (hm : s.power.mode = .on) : s.pwrStart 2 = s.wr uPower Reg.PWR_CMD.RESULT 4 := by
  simp [pwrStart_starts hb 2 (onInput_of_mode (.inl hm)), hm]

theorem pwrStart_off (hi : s.onInput = true) :
    s.pwrStart 3 =
      let v := s.tallyEvent (some uModule) 0x00 0x05
      State.holdup { v with power := { v.power with cmdBusy := true, offCmd := true, offUntilVin := true } } :=
  pwrStart_starts hb 3 hi

end

/-! ### Hold-up drain (R489, R490) -/

theorem powerFailDeclare_holds {s : State} {cause : BitVec 8} {vin mean : BitVec 16} (hi : s.onInput = true)
    (hf : s.failing cause.toNat vin.toNat mean.toNat = true) :
    let a : State := { s with power := { s.power with declared := cause.toNat } }
    let b := ((a.wr uPower Reg.PWR_FAIL.CAUSE cause.toNat).wr uPower Reg.PWR_FAIL.VIN vin.toNat).wr uPower Reg.PWR_FAIL.VMEAN_1S mean.toNat
    Completes (.powerFailDeclare cause vin mean) s (State.holdup (b.tallyEvent (some uModule) 0x00 0x03 7 0xFF
      (payload8 cause.toNat (beBytes 2 vin.toNat ++ beBytes 2 mean.toNat ++ beBytes 4 b.power.eMj)))) := by
  have hp : s.hasPower := fun hoff => by rw [State.onInput, hoff] at hi; cases hi
  exact run_of_eq hp (if_neg (by simp [hi, hf]))

theorem hasPower_of_holdup {s : State} (h : s.power.mode = .holdup) : s.hasPower := fun hoff => by
  rw [h] at hoff; cases hoff

theorem holdupPowerDown_ends {s : State} (hm : s.power.mode = .holdup) (h0 : s.draining.look false 0 = false)
    (h1 : s.draining.look false 1 = false) :
    let v := (s.tallyFlush 1024).commitTime
    Completes .holdupPowerDown s { v with power := { v.power with mode := .off } } :=
  run_of_eq (hasPower_of_holdup hm) (if_neg (by simp [hm, h0, h1]))

/-- What the cut-off leaves, with the Tally's slots `m`. -/
def State.cutOff (s : State) (m : Table MramSlot) : State :=
  { s with tallyStore := m, tallyBuf := [], draining := [], power := { s.power with mode := .off } }

theorem onHoldupCutoff_eq {s : State} (writing : Bool) (hm : s.power.mode = .holdup) :
    onHoldupCutoff writing s = s.cutOff (match s.tallyBuf with
      | r :: _ => if writing then s.tallyStore.put .blank (r.seq % tallySlots) .torn else s.tallyStore
      | [] => s.tallyStore) := by
  unfold onHoldupCutoff
  rw [if_neg (not_not_intro hm)]
  cases hb : s.tallyBuf <;> cases writing <;> rfl

theorem holdupCutoff_torn {s : State} {r : TallyRec} {rest : List TallyRec} (hm : s.power.mode = .holdup) (hb : s.tallyBuf = r :: rest) :
    Completes (.holdupCutoff true) s (s.cutOff (s.tallyStore.put .blank (r.seq % tallySlots) .torn)) :=
  run_of_eq (hasPower_of_holdup hm) (by rw [onHoldupCutoff_eq true hm, hb]; rfl)

theorem holdupCutoff_plain {s : State} {writing : Bool} (hm : s.power.mode = .holdup) (h : writing = false ∨ s.tallyBuf = []) :
    Completes (.holdupCutoff writing) s (s.cutOff s.tallyStore) :=
  run_of_eq (hasPower_of_holdup hm) (by
    rw [onHoldupCutoff_eq writing hm]
    rcases h with h | h
    · subst h; cases s.tallyBuf <;> rfl
    · rw [h])

/-! ### The test access port (R503) -/

theorem extest_drives {s : State} (lands cells : BitVec 3312) (h : s.power.mrstLow = true) :
    Completes (.extest lands cells) s { s with tap := { ir := .extest, boundary := cells, driving := true, dr := lands } } :=
  runAlways_of_eq (if_pos h)

theorem extest_bypasses {s : State} (lands cells : BitVec 3312) (h : s.power.mrstLow = false) :
    Completes (.extest lands cells) s { s with tap := { s.tap with ir := .extest, driving := false, dr := 0 } } :=
  runAlways_of_eq (if_neg (by simp [h]))

/-- Settles O58: each command by its condition; the commands of PWR_CMD go by `pwrStart_starts`. STANDBY and WAKE complete within
their command (log entry 52), the payload of a declaration is that of log entry 25, and the port's reset state is presumed (log
entry 8). -/
theorem modulePowerCommandsAct : Obligations.ModulePowerCommandsAct := by
  unfold Obligations.ModulePowerCommandsAct
  intro s sender cause vin mean removed writing lands cells
  refine ⟨powerOn_starts, powerOn_ignored, ⟨mrstNLow_off, mrstNLow_holdup, mrstNLow_on, mrstNLow_standby⟩, mrstNHigh_extest,
    mrstNHigh_other, fun hp ha => ⟨fun h => ⟨standby_admitted hp ha (pwrStart_ignored 1 h), wake_admitted hp ha (pwrStart_ignored 2 h),
      off_admitted hp ha (pwrStart_ignored 3 h)⟩, fun hb => ⟨fun hm h => standby_admitted hp ha (pwrStart_standby hb hm h),
        fun hm h => standby_admitted hp ha (pwrStart_standby_refused hb hm h), fun hm => wake_admitted hp ha (pwrStart_wake hb hm),
        fun hm => wake_admitted hp ha (pwrStart_wake_refused hb hm), fun hi => off_admitted hp ha (pwrStart_off hb hi)⟩⟩,
    powerFailDeclare_holds, holdupPowerDown_ends, fun hm => ⟨?_, holdupCutoff_plain hm⟩, runAlways_of_eq rfl, runAlways_of_eq rfl,
    extest_drives lands cells, extest_bypasses lands cells, runAlways_of_eq rfl, runAlways_of_eq rfl⟩
  rintro r rest rfl hb
  exact holdupCutoff_torn hm hb

end Sys2Proof.Machine
end

section
/-! PROOFS. The power and environment unit (R475-R481, R486-R488, R491). -/

namespace Sys2Proof.Machine

variable {s : State} (hp : s.hasPower)

/-! ### Envelopes and P_CUT (R475-R477) -/

section
include hp

theorem envelopeChange_stays {vavg : BitVec 16} (h : (s.setVavg vavg.toNat).envelopeFor = (s.setVavg vavg.toNat).power.envelope) :
    Completes (.envelopeChange vavg) s (s.setVavg vavg.toNat) :=
  run_of_eq hp (if_pos h)

theorem envelopeChange_moves {vavg : BitVec 16} (h : (s.setVavg vavg.toNat).envelopeFor ≠ (s.setVavg vavg.toNat).power.envelope) :
    Completes (.envelopeChange vavg) s ((s.setVavg vavg.toNat).moveEnvelope (s.setVavg vavg.toNat).envelopeFor) :=
  run_of_eq hp (if_neg h)

end

/-- A condition of R477 that has held: the input over P_AVAIL for more than 1 ms, or the input current limit. -/
def State.overloaded (s : State) (limit : Bool) : Bool :=
  limit || (match s.power.overSince with | some t => decide (t + 1000000 < s.now) | none => false)

/-- P_CUT rises by 16 W. -/
def State.cutRises (s : State) : State :=
  State.newCoreW { s with power := { s.power with pCut := min (s.power.pCut + 16) 0xFFFF, lastStress := s.now } }

/-- P_CUT falls by 16 W. -/
def State.cutFalls (s : State) : State := State.newCoreW { s with power := { s.power with pCut := s.power.pCut - 16 } }

theorem onPCutStep_eq (limit : Bool) (s : State) :
    onPCutStep limit s =
      let a := if s.overloaded limit then s.stickOnce Reg.PWR_ERR.OVERLOAD else s
      let b := if s.hotterThan s.throtC then a.stickOnce Reg.PWR_ERR.THERMAL else a
      if s.overloaded limit || s.hotterThan s.throtC then b.cutRises
      else if b.power.lastStress + 100000000 ≤ b.now then b.cutFalls
      else b := rfl

section
include hp
variable {limit : Bool}

theorem pCutStep_overload (he : s.overloaded limit = true) (hh : s.hotterThan s.throtC = false) :
    Completes (.pCutStep limit) s (s.stickOnce Reg.PWR_ERR.OVERLOAD).cutRises :=
  run_of_eq hp (by simp [onPCutStep_eq, he, hh])

theorem pCutStep_hot (he : s.overloaded limit = false) (hh : s.hotterThan s.throtC = true) :
    Completes (.pCutStep limit) s (s.stickOnce Reg.PWR_ERR.THERMAL).cutRises :=
  run_of_eq hp (by simp [onPCutStep_eq, he, hh])

variable (he : s.overloaded limit = false) (hh : s.hotterThan s.throtC = false)
include he hh

theorem pCutStep_falls (ht : s.power.lastStress + 100000000 ≤ s.now) : Completes (.pCutStep limit) s s.cutFalls :=
  run_of_eq hp (by simp [onPCutStep_eq, he, hh, ht])

theorem pCutStep_waits (ht : s.now < s.power.lastStress + 100000000) : Completes (.pCutStep limit) s s :=
  run_of_eq hp (by simp [onPCutStep_eq, he, hh, Nat.not_le.2 ht])

end

/-! ### Single failures and clocks (R478, R479, R481) -/

section
include hp

theorem phaseFail_good {phase : Fin 12} (h : s.power.phases.getLsbD phase = true) :
    Completes (.phaseFail phase) s (State.stick
      { s with power := { s.power with phases := s.power.phases &&& ~~~(BitVec.ofNat 12 (2 ^ phase.val)) } } uPower Reg.PWR_ERR.PHASE_FAIL) :=
  run_of_eq hp (if_neg (by simp [h]))

theorem phaseFail_failed {phase : Fin 12} (h : s.power.phases.getLsbD phase = false) : Completes (.phaseFail phase) s s :=
  run_of_eq hp (if_pos (by rw [h]; rfl))

theorem aoSupplyLoss_good {which : Fin 2} (h : s.power.regulators.getLsbD which = true) :
    Completes (.aoSupplyLoss which) s (State.stick
      { s with power := { s.power with regulators := s.power.regulators &&& ~~~(BitVec.ofNat 2 (2 ^ which.val)) } } uPower
      Reg.PWR_ERR.AO_SUPPLY) :=
  run_of_eq hp (if_neg (by simp [h]))

theorem aoSupplyLoss_lost {which : Fin 2} (h : s.power.regulators.getLsbD which = false) : Completes (.aoSupplyLoss which) s s :=
  run_of_eq hp (if_pos (by simp [h]))

theorem xtalFail_good (h : s.power.xtalBad = false) :
    Completes .xtalFail s (State.stick { s with power := { s.power with xtalBad := true } } uPower Reg.CLK_STAT.XTAL_FAIL) :=
  run_of_eq hp (if_neg (by simp [h]))

theorem xtalFail_failed (h : s.power.xtalBad = true) : Completes .xtalFail s s := run_of_eq hp (if_pos h)

theorem refLost_sound (h : s.power.refLost = none) :
    let a := s.stick uPower Reg.CLK_STAT.REF_LOST
    Completes .refLost s { a with power := { a.power with refLost := some s.now } } :=
  run_of_eq hp (if_neg (by simp [h]))

theorem refLost_again (h : s.power.refLost.isSome = true) : Completes .refLost s s := run_of_eq hp (if_pos h)

/-! ### The hold-up bank (R486-R488) -/

theorem bankTest_admitted {sender : Sender} {testEn : Bool} {hours : BitVec 8} (ha : Admits s sender uPower 0x0C0) :
    Completes (.bankTest sender testEn hours) s
      ((s.wrl uPower Reg.HLD_CFG.TEST_EN (if testEn then 1 else 0)).wrl uPower Reg.HLD_CFG.TEST_HOURS hours.toNat).bankTestStart :=
  run_of_eq hp (command_of_admits ha)

theorem bankTestPeriodic_first (ht : s.power.tested = false) (hv : 55000 ≤ s.power.holdMv) (hr : s.power.testing = false)
    (hm : s.power.mode = .on) : Completes .bankTestPeriodic s { s with power := { s.power with testing := true, charging := 0 } } :=
  run_of_eq hp (by simp [onBankTestPeriodic, State.bankTestStart, ht, hv, hr, hm])

theorem bankTestPeriodic_not_full (ht : s.power.tested = false) (hv : s.power.holdMv < 55000) : Completes .bankTestPeriodic s s :=
  run_of_eq hp (by simp [onBankTestPeriodic, ht, Nat.not_le.2 hv])

theorem bankTestDone_idle {c : BitVec 24} {esr : BitVec 16} (ht : s.power.testing = false) : Completes (.bankTestDone c esr) s s :=
  run_of_eq hp (if_pos (by simp [ht]))

/-- What a test of the bank has found is recorded. -/
def State.bankTested (s : State) (c : BitVec 24) (esr : BitVec 16) : State :=
  let a := (s.wr uPower Reg.HLD_TEST.C_UF c.toNat).wr uPower Reg.HLD_TEST.ESR_MOHM esr.toNat
  { a with power := { a.power with testing := false, tested := true, testedAt := a.opTime } }

theorem bankTestDone_fails {c : BitVec 24} {esr : BitVec 16} (ht : s.power.testing = true) (h : c.toNat < 10000 ∨ 200 < esr.toNat) :
    Completes (.bankTestDone c esr) s ((s.bankTested c esr).stick uPower Reg.HLD_ERR.TEST_FAIL) :=
  run_of_eq hp ((if_neg (by simp [ht])).trans (if_pos h))

theorem bankTestDone_passes {c : BitVec 24} {esr : BitVec 16} (ht : s.power.testing = true) (hc : 10000 ≤ c.toNat)
    (he : esr.toNat ≤ 200) : Completes (.bankTestDone c esr) s (s.bankTested c esr) :=
  run_of_eq hp ((if_neg (by simp [ht])).trans (if_neg (by omega)))

theorem chargeTimeout_due (hc : s.power.charging = 1500) (ht : s.power.fullSince + 10000000000 ≤ s.now) (hv : s.power.holdMv < 55000) :
    Completes .chargeTimeout s (s.stickOnce Reg.HLD_ERR.CHARGE_FAIL) :=
  run_of_eq hp (if_pos ⟨hc, ht, hv⟩)

theorem chargeTimeout_full (hv : 55000 ≤ s.power.holdMv) : Completes .chargeTimeout s s :=
  run_of_eq hp (if_neg (by omega))

/-! ### The environmental monitor (R491) -/

/-- A code is the latest of its channel, and on channel 3 that of the bank. -/
def State.sampled (s : State) (c code : Nat) : State :=
  { s with power := { s.power with samples := s.power.samples.put 0 c code, holdV := if c = 3 then code else s.power.holdV } }

variable {channel : Fin 32} {code : BitVec 14}

theorem envSample_disabled (h : (fixedChannel channel || s.bitOf uPower Reg.ENV_EN.EN channel) = false) :
    Completes (.envSample channel code) s s :=
  run_of_eq hp (if_pos (by rw [h]; rfl))

section
variable (h : (fixedChannel channel || s.bitOf uPower Reg.ENV_EN.EN channel) = true)
include h

omit hp in
theorem onEnvSample_enabled :
    onEnvSample channel code s =
      let a := s.sampled channel code.toNat
      if (decide (code.toNat < a.rd uPower (Reg.ENV_LIMIT.LOW.ix channel)) ||
          decide (a.rd uPower (Reg.ENV_LIMIT.HIGH.ix channel) < code.toNat)) && !a.bitOf uPower Reg.ENV_ALARM.ALARM channel then
        (a.setBit uPower Reg.ENV_ALARM.ALARM channel true).raise uPower (sourceIndex uPower Reg.ENV_ALARM.ALARM) none code.toNat
      else a :=
  if_neg (by rw [h]; exact Bool.false_ne_true)

theorem envSample_alarms
    (ho : code.toNat < (s.sampled channel code.toNat).rd uPower (Reg.ENV_LIMIT.LOW.ix channel) ∨
      (s.sampled channel code.toNat).rd uPower (Reg.ENV_LIMIT.HIGH.ix channel) < code.toNat)
    (ha : (s.sampled channel code.toNat).bitOf uPower Reg.ENV_ALARM.ALARM channel = false) :
    Completes (.envSample channel code) s
      (((s.sampled channel code.toNat).setBit uPower Reg.ENV_ALARM.ALARM channel true).raise uPower
        (sourceIndex uPower Reg.ENV_ALARM.ALARM) none code.toNat) :=
  run_of_eq hp ((onEnvSample_enabled h).trans (if_pos (by simpa [ha] using ho)))

theorem envSample_quiet
    (hq : ¬(code.toNat < (s.sampled channel code.toNat).rd uPower (Reg.ENV_LIMIT.LOW.ix channel) ∨
        (s.sampled channel code.toNat).rd uPower (Reg.ENV_LIMIT.HIGH.ix channel) < code.toNat) ∨
      (s.sampled channel code.toNat).bitOf uPower Reg.ENV_ALARM.ALARM channel = true) :
    Completes (.envSample channel code) s (s.sampled channel code.toNat) :=
  run_of_eq hp ((onEnvSample_enabled h).trans (if_neg (by
    rcases hq with hq | hq
    · simpa using fun ho => absurd ho hq
    · simp [hq])))

end

end

/-- Settles O59: each command by its condition. Quadrant q feeds phases 3q to 3q + 2 without PHASE_FAIL, no phase runs without a
controller, and the bank counts as full at 55 V (log entry 51). -/
theorem powerAndEnvironmentCommandsAct : Obligations.PowerAndEnvironmentCommandsAct := by
  unfold Obligations.PowerAndEnvironmentCommandsAct
  intro s sender vavg inW esr v limit testEn phase which quadrant hours c channel code hp
  exact ⟨⟨envelopeChange_stays hp, envelopeChange_moves hp⟩, run_of_eq hp rfl,
    ⟨pCutStep_overload hp, pCutStep_hot hp, pCutStep_falls hp, pCutStep_waits hp⟩, phaseFail_good hp, phaseFail_failed hp,
    run_of_eq hp rfl, run_of_eq hp rfl, aoSupplyLoss_good hp, aoSupplyLoss_lost hp, xtalFail_good hp, xtalFail_failed hp,
    refLost_sound hp, refLost_again hp, bankTest_admitted hp, bankTestPeriodic_first hp, bankTestPeriodic_not_full hp,
    bankTestDone_idle hp, fun ht => ⟨bankTestDone_fails hp ht, bankTestDone_passes hp ht⟩, run_of_eq hp rfl, chargeTimeout_due hp,
    chargeTimeout_full hp, envSample_disabled hp, envSample_alarms hp, envSample_quiet hp⟩

end Sys2Proof.Machine
end

section
/-! PROOFS. The memory channels (R287-R297). -/

namespace Sys2Proof.Machine

/-! ### The bytes of a stored line (R287, R292) -/

/-- The store of the selected bytes of a line, one at a time. -/
def State.storeSelected (s : State) (base : Nat) (mask : BitVec 128) (data : BitVec 1024) (l : List Nat) : State :=
  State.each l (fun i t => if maskBit mask i then t.putByte (base + i) (lineByte data i) else t) s

theorem byteAt_storeSelected (base : Nat) (mask : BitVec 128) (data : BitVec 1024) (l : List Nat) (n : Nat) (s : State) :
    (s.storeSelected base mask data l).byteAt (base + n) =
      if n ∈ l ∧ maskBit mask n then lineByte data n else s.byteAt (base + n) := by
  induction l generalizing s with
  | nil => simp [State.storeSelected]
  | cons i l ih =>
    have first : (if maskBit mask i then s.putByte (base + i) (lineByte data i) else s).byteAt (base + n) =
        if n = i ∧ maskBit mask n then lineByte data n else s.byteAt (base + n) := by
      by_cases hn : n = i
      · subst hn
        split <;> simp_all
      · split <;> simp [hn, byteAt_putByte_ne]
    have rest := ih (if maskBit mask i then s.putByte (base + i) (lineByte data i) else s)
    rw [first] at rest
    refine rest.trans ?_
    by_cases hn : n = i
    · subst hn; by_cases hm : maskBit mask n <;> simp [hm]
    · simp [hn]

/-- The marks of a line's words are no bytes. -/
theorem byteAt_putLineAt (s : State) (base : Nat) (mask : BitVec 128) (d : LineData) (a : Nat) :
    (s.putLineAt base mask d).byteAt a = (s.storeSelected base mask d.data (List.range 128)).byteAt a := by
  unfold State.putLineAt
  refine each_keeps (P := fun t => t.byteAt a = (s.storeSelected base mask d.data (List.range 128)).byteAt a) _ ?_ rfl
  intro w _ t ht
  exact ht

/-- Settles O41: a byte of the line is stored when its turn comes and its mask bit is set; no other byte has its address. -/
theorem channelWritesStoreSelectedBytes : Obligations.ChannelWritesStoreSelectedBytes := by
  unfold Obligations.ChannelWritesStoreSelectedBytes
  refine fun s base mask d => ⟨fun n hn => ?_, fun a ha => ?_⟩
  · rw [byteAt_putLineAt, byteAt_storeSelected]
    simp [hn]
  · rw [byteAt_putLineAt]
    refine each_keeps (P := fun t => t.byteAt a = s.byteAt a) _ (fun i hi t ht => ?_) rfl
    have hne : a ≠ base + i := by have := List.mem_range.1 hi; omega
    split
    · rw [byteAt_putByte_ne t _ hne, ht]
    · exact ht

end Sys2Proof.Machine
end

section
/-! PROOFS. Commands of the memory channels (R287-R297). -/

namespace Sys2Proof.Machine

variable {s : State} {ch : Fin 16} (hp : s.hasPower)

/-! ### Accesses (R287, R289, R291, R292) -/

section
include hp

/-- The line as the channel stores it. -/
abbrev State.lineStored (s : State) (ch : Nat) (line : BitVec 24) (mask : BitVec 128) (d : LineData) : State :=
  s.putLineAt (ch * 2 ^ 31 + line.toNat * 128) mask d

variable {line : BitVec 24} {mask : BitVec 128} {data : BitVec 1024} {poison : BitVec 16} (hl : s.channelLine ch line.toNat = true)
include hl

theorem channelWrite_single (hm : (s.lineStored ch line mask ⟨data, poison⟩).pairServes ch = false) :
    Completes (.channelWrite ch line mask data poison) s (s.lineStored ch line mask ⟨data, poison⟩) :=
  run_of_eq hp ((if_pos hl).trans (if_neg (ne_true_of_eq_false hm)))

theorem channelWrite_mirrored (hm : (s.lineStored ch line mask ⟨data, poison⟩).pairServes ch = true) :
    Completes (.channelWrite ch line mask data poison) s
      ((s.lineStored ch line mask ⟨data, poison⟩).lineStored (partnerOf ch) line mask ⟨data, poison⟩) :=
  run_of_eq hp ((if_pos hl).trans (if_pos hm))

end

/-- A store of bytes changes memory and its marks alone. -/
theorem putLineAt_frame (s : State) (base : Nat) (mask : BitVec 128) (d : LineData) :
    ∃ m p b, s.putLineAt base mask d = { s with mem := m, poison := p, badWords := b } := by
  unfold State.putLineAt
  refine each_keeps (P := fun t => ∃ m p b, t = { s with mem := m, poison := p, badWords := b }) _ ?_
    (each_keeps (P := fun t => ∃ m p b, t = { s with mem := m, poison := p, badWords := b }) _ ?_ ⟨_, _, _, rfl⟩)
  · rintro w - t ⟨m, p, b, rfl⟩
    exact ⟨_, _, _, rfl⟩
  · rintro i - t ⟨m, p, b, rfl⟩
    split <;> exact ⟨_, _, _, rfl⟩

theorem pairServes_putLineAt (s : State) (c base : Nat) (mask : BitVec 128) (d : LineData) :
    (s.putLineAt base mask d).pairServes c = s.pairServes c := by
  obtain ⟨m, p, b, h⟩ := putLineAt_frame s base mask d
  rw [h]
  rfl

section
include hp

theorem channelRead_serves {line : BitVec 24} {single double : BitVec 16} (hl : s.channelLine ch line.toNat = true) :
    Completes (.channelRead ch line single double) s (s.readErrors ch line.toNat single double).1 :=
  run_of_eq hp (if_pos hl)

/-- The state after patrol scrub has read the line at POS and moved on. -/
abbrev State.scrubbed (s : State) (c : Nat) (single double : BitVec 16) : State :=
  let pos := s.rd (uMem c) Reg.MEM_SCRUB.POS
  let r := s.readErrors c pos single double
  (r.1.count (uMem c) Reg.MEM_SCRUB_COUNT.FIXED (markCount r.2)).wr (uMem c) Reg.MEM_SCRUB.POS ((pos + 1) % (s.capacity c * 512))

section
variable {single double : BitVec 16} (he : s.flag (uMem ch) Reg.MEM_SCRUB.EN = true)
  (hl : s.channelLine ch (s.rd (uMem ch) Reg.MEM_SCRUB.POS) = true)
include he hl

theorem scrubAccess_within (hn : s.rd (uMem ch) Reg.MEM_SCRUB.POS + 1 ≠ s.capacity ch * 512) :
    Completes (.scrubAccess ch single double) s (s.scrubbed ch single double) :=
  run_of_eq hp ((if_neg (by simp [he, hl])).trans (if_neg hn))

theorem scrubAccess_last (hn : s.rd (uMem ch) Reg.MEM_SCRUB.POS + 1 = s.capacity ch * 512) :
    Completes (.scrubAccess ch single double) s ((s.scrubbed ch single double).count (uMem ch) Reg.MEM_SCRUB_COUNT.PASSES) :=
  run_of_eq hp ((if_neg (by simp [he, hl])).trans (if_pos hn))

end

theorem zqCalibration_operates {code : BitVec 16} (ho : s.operates (uMem ch) = true) :
    Completes (.zqCalibration ch code) s ((s.wr (uMem ch) Reg.MEM_IO.ZQ_CODE code.toNat).bump (uMem ch) Reg.MEM_IO.ZQ_UPDATES) :=
  run_of_eq hp (if_pos ho)

theorem channelDown_up (hd : s.down.look false ch = false) : Completes (.channelDown ch) s (s.channelLost ch) :=
  run_of_eq hp (if_neg (ne_true_of_eq_false hd))

end

/-! ### Training and RESYNC (R288, R295-R297) -/

/-- MEM_TRAIN with the OP that is written beside START. -/
abbrev State.trainNamed (s : State) (c op : Nat) : State := s.wr (uMem c) Reg.MEM_TRAIN.OP op

/-- A command of a channel runs from now on. -/
abbrev State.trainBegins (v : State) (c op : Nat) : State := { v with trainRuns := v.trainRuns.put none c (some (op, v.now)) }

theorem memTrain_busy {c op : Nat} (h : s.trainRun c ≠ none) : s.memTrain c op = s.trainNamed c op :=
  if_pos (Option.isSome_iff_ne_none.2 h)

theorem memTrain_idle {c : Nat} (op : Nat) (h : s.trainRun c = none) :
    s.memTrain c op =
      let v := s.trainNamed c op
      if op = 1 then ((v.wr (uMem c) Reg.MEM_TRAIN.TRAINED 0).clearChannel c).trainBegins c 1
      else if op = 2 then
        if !v.flag (uMem c) Reg.MEM_CFG.MIRROR ∨ !v.flag (uMem (partnerOf c)) Reg.MEM_TRAIN.TRAINED then
          v.wr (uMem c) Reg.MEM_TRAIN.RESULT 9
        else v.trainBegins c 2
      else v :=
  if_neg fun hs => by
    have hs : (s.trainRun c).isSome = true := hs
    rw [h] at hs
    cases hs

theorem memTrain_resync {c : Nat} (h : s.trainRun c = none) (hm : (s.trainNamed c 2).flag (uMem c) Reg.MEM_CFG.MIRROR = true)
    (ht : (s.trainNamed c 2).flag (uMem (partnerOf c)) Reg.MEM_TRAIN.TRAINED = true) :
    s.memTrain c 2 = (s.trainNamed c 2).trainBegins c 2 := by
  rw [memTrain_idle 2 h]
  exact (if_neg (by decide)).trans ((if_pos rfl).trans (if_neg (by simp [hm, ht])))

theorem memTrain_resync_refused {c : Nat} (h : s.trainRun c = none)
    (hr : (s.trainNamed c 2).flag (uMem c) Reg.MEM_CFG.MIRROR = false ∨
      (s.trainNamed c 2).flag (uMem (partnerOf c)) Reg.MEM_TRAIN.TRAINED = false) :
    s.memTrain c 2 = (s.trainNamed c 2).wr (uMem c) Reg.MEM_TRAIN.RESULT 9 := by
  rw [memTrain_idle 2 h]
  exact (if_neg (by decide)).trans ((if_pos rfl).trans (if_pos (by simpa using hr)))

section
variable {sender : Sender} (ha : Admits s sender (uMem ch) 0x090)
include hp ha

theorem train_admitted {t : State} (h : s.memTrain ch 1 = t) : Completes (.train sender ch) s t :=
  run_of_eq hp ((command_of_admits ha).trans h)

theorem resync_admitted {t : State} (h : s.memTrain ch 2 = t) : Completes (.resync sender ch) s t :=
  run_of_eq hp ((command_of_admits ha).trans h)

end

/-- The state at the end of a command of a channel that began at `t0`. -/
abbrev State.trainTimed (s : State) (c t0 : Nat) : State :=
  ({ s with trainRuns := s.trainRuns.put none c none } : State).wr (uMem c) Reg.MEM_TRAIN.LAST_US (min ((s.now - t0) / 1000) 0xFFFFFFFF)

theorem onMemTrainDone_ends {op t0 : Nat} (found lane : BitVec 8) (h : s.trainRun ch = some (op, t0)) :
    onMemTrainDone ch found lane s =
      let v := s.trainTimed ch t0
      if op = 1 then v.trainEnds ch (v.trainResult ch found.toNat) lane.toNat else v.resyncEnds ch := by
  unfold onMemTrainDone
  rw [h]
  rfl

/-- Settles O40: each command by its condition; TRAIN and RESYNC are `memTrain_idle` and `memTrain_busy`. The contents are lost when TRAIN
starts (log entry 89), MIRROR and the capacity are those of log entry 98, and a START while a command runs writes OP (log entry 55). -/
theorem memoryChannelCommandsAct : Obligations.MemoryChannelCommandsAct := by
  unfold Obligations.MemoryChannelCommandsAct
  intro s sender ch hp
  refine ⟨fun line mask data poison hl => ⟨fun hm => channelWrite_single hp hl ((pairServes_putLineAt ..).trans hm),
      channelWrite_mirrored hp hl⟩,
    fun line single double hl => channelRead_serves hp hl,
    fun single double he hl => ⟨scrubAccess_within hp he hl, scrubAccess_last hp he hl⟩,
    fun code ho => zqCalibration_operates hp ho, channelDown_up hp,
    fun ha hn => ⟨train_admitted hp ha (memTrain_idle 1 hn), fun hm ht => resync_admitted hp ha (memTrain_resync hn hm ht),
      fun hr => resync_admitted hp ha (memTrain_resync_refused hn hr)⟩,
    fun ha hr => ⟨train_admitted hp ha (memTrain_busy hr), resync_admitted hp ha (memTrain_busy hr)⟩,
    fun op t0 found lane hr => ⟨fun ho => run_of_eq hp ((onMemTrainDone_ends found lane hr).trans (if_neg ho)),
      fun ho => run_of_eq hp ((onMemTrainDone_ends found lane hr).trans (if_pos ho))⟩⟩

end Sys2Proof.Machine
end

section
/-! PROOFS. Instructions of the haulers: how they end, and arithmetic, logic, moves and shifts (R351, R352, R354-R356). -/

namespace Sys2Proof.Machine

/-! ### Ends of an instruction -/

/-- Counting a cycle leaves every hauler. -/
@[simp] theorem hauler_cycled (s : State) (h g : Nat) : (s.cycled h).hauler g = s.hauler g := rfl

section
variable {s w : State} {h : Fin 64} {cond : Option (Fin 14)} {len : Nat} {kind : HKind} {body : State → State × List Late × HNext}
  {ws : List Late} {c : Instr} (hc : exec c s = s.run fun s => s.hexec h cond len kind body)
include hc

theorem hauler_next (hr : HaulerReady s h cond .plain) (hk : kind = .plain) (hb : body (s.cycled h) = (w, ws, .next)) :
    Completes c s (w.hdone h cond len ws) := by
  subst hk
  exact hc.trans (run_of_eq hr.1 (by rw [hexec_of_ready hr, hb]; rfl))

theorem hauler_traps {cause : Nat} (hr : HaulerReady s h cond kind) (hb : body (s.cycled h) = (w, ws, .trap cause)) :
    Completes c s (w.trapHauler h cause (withCond cond len)) :=
  hc.trans (run_of_eq hr.1 (by rw [hexec_of_ready hr, hb]))

end

/-! ### Results and flags (R352, R354) -/

/-- A result and FLAGS at distance 1. -/
def resultAndFlags (rd : Nat) (v : Half) (g : HFlags) : List Late := [lateReg rd v 1, lateSpec 0x10 g.word 1]

/-- A result with N and Z as it says, at distance 1. -/
def resultSets (rd : Nat) (v : Half) (g : HFlags) : List Late :=
  resultAndFlags rd v { n := v.getLsbD 15, z := v == 0, c := g.c, v := g.v }

theorem hadd_fst (a b : Half) : (hadd a b false).1 = a + b := by
  refine BitVec.eq_of_toNat_eq ?_
  simp [hadd]

theorem hsub_fst (a b : Half) : (hsub a b true).1 = a - b := by
  refine BitVec.eq_of_toNat_eq ?_
  have hb := b.isLt
  simp only [hsub, hadd, if_true, BitVec.toNat_ofNat, BitVec.toNat_not, BitVec.toNat_sub]
  congr 1
  omega

section
variable (rd : Nat) (a b : Half) (f : HFlags)

theorem hopWrites_mov : hopWrites .mov rd a b f = [lateReg rd b 1] := rfl
theorem hopWrites_add : hopWrites .add rd a b f = resultAndFlags rd (a + b) (hadd a b false).2 := by rw [← hadd_fst]; rfl
theorem hopWrites_adc : hopWrites .adc rd a b f = resultAndFlags rd (hadd a b f.c).1 (hadd a b f.c).2 := rfl
theorem hopWrites_sub : hopWrites .sub rd a b f = resultAndFlags rd (a - b) (hsub a b true).2 := by rw [← hsub_fst]; rfl
theorem hopWrites_sbc : hopWrites .sbc rd a b f = resultAndFlags rd (hsub a b f.c).1 (hsub a b f.c).2 := rfl
theorem hopWrites_and : hopWrites .and rd a b f = resultSets rd (a &&& b) { f with v := false } := rfl
theorem hopWrites_or : hopWrites .or rd a b f = resultSets rd (a ||| b) { f with v := false } := rfl
theorem hopWrites_xor : hopWrites .xor rd a b f = resultSets rd (a ^^^ b) { f with v := false } := rfl
theorem hopWrites_cmp : hopWrites .cmp rd a b f = [lateSpec 0x10 (hsub a b true).2.word 1] := rfl
theorem hopWrites_tst : hopWrites .tst rd a b f = (resultSets rd (a &&& b) { f with v := false }).drop 1 := rfl
theorem hopWrites_oca :
    hopWrites .oca rd a b f =
      resultSets rd (BitVec.ofNat 16 ((a.toNat + b.toNat) % 65536 + (a.toNat + b.toNat) / 65536)) f := rfl

end

theorem shiftWrites_eq (kind rd : Nat) (x : Hauler) (n : Nat) :
    shiftWrites kind rd x n = resultAndFlags rd (hshift kind (x.reg rd) n x.flags).1 (hshift kind (x.reg rd) n x.flags).2 := rfl

/-- A rotate leaves C and V. -/
theorem hshift_rotate (a : Half) (n : Nat) (f : HFlags) :
    hshift 3 a n f = (a.rotateLeft (n % 16), { hnz f (a.rotateLeft (n % 16)) with c := f.c }) := by
  unfold hshift
  rw [if_pos (Or.inr rfl)]
  rfl

theorem shiftWrites_rotate (rd : Nat) (x : Hauler) (n : Nat) :
    shiftWrites 3 rd x n = resultSets rd ((x.reg rd).rotateLeft (n % 16)) x.flags := by
  rw [shiftWrites_eq, hshift_rotate]
  rfl

/-! ### The forms of R351 -/

section
variable {s : State} {h : Fin 64} {cond : Option (Fin 14)} {rd rs : Fin 16} {wide : Bool} {imm : Half} {imm8 : Byte} {ws : List Late}
  {op : HOp} {c : Instr} (hr : HaulerReady s h cond .plain)
include hr

theorem formR_completes (hc : exec c s = s.run fun s => s.formR h cond op rd rs)
    (hw : hopWrites op rd ((s.hauler h).reg rd) ((s.hauler h).reg rs) (s.hauler h).flags = ws) :
    Completes c s ((s.cycled h).hdone h cond (2 + xpfx (decide (8 ≤ rd.val) || decide (8 ≤ rs.val))) ws) :=
  hauler_next hc hr rfl (by rw [← hw]; rfl)

theorem formI_completes {zero : Bool} (hc : exec c s = s.run fun s => s.formI h cond op rd wide imm zero)
    (hw : hopWrites op rd ((s.hauler h).reg rd) (extended wide (!zero) imm) (s.hauler h).flags = ws) :
    Completes c s ((s.cycled h).hdone h cond ((if wide then 4 else 3) + xpfx (decide (8 ≤ rd.val) || wide)) ws) :=
  hauler_next hc hr rfl (by rw [← hw]; rfl)

theorem shiftR_completes {kind : Nat} (hc : exec c s = s.run fun s => s.shiftR h cond kind rd rs)
    (hw : shiftWrites kind rd (s.hauler h) (hfield ((s.hauler h).reg rs) 11 15) = ws) :
    Completes c s ((s.cycled h).hdone h cond (2 + xpfx (decide (8 ≤ rd.val) || decide (8 ≤ rs.val))) ws) :=
  hauler_next hc hr rfl (by rw [← hw]; rfl)

theorem shiftI_completes {kind : Nat} (hc : exec c s = s.run fun s => s.shiftI h cond kind rd imm8)
    (hw : shiftWrites kind rd (s.hauler h) (imm8.toNat % 32) = ws) :
    Completes c s ((s.cycled h).hdone h cond (3 + xpfx (decide (8 ≤ rd.val))) ws) :=
  hauler_next hc hr rfl (by rw [← hw]; rfl)

end

/-- Settles O18: each instruction is one of the four forms with its own operation; MUL and MULH have a result of distance 2. -/
theorem haulerComputingInstructionsWriteTheirResults : Obligations.HaulerComputingInstructionsWriteTheirResults := by
  unfold Obligations.HaulerComputingInstructionsWriteTheirResults
  intro s h cond rd rs wide imm imm8 hr
  exact ⟨formR_completes hr rfl (hopWrites_mov ..), formR_completes hr rfl (hopWrites_add ..), formR_completes hr rfl (hopWrites_adc ..),
    formR_completes hr rfl (hopWrites_sub ..), formR_completes hr rfl (hopWrites_sbc ..), formR_completes hr rfl (hopWrites_and ..),
    formR_completes hr rfl (hopWrites_or ..), formR_completes hr rfl (hopWrites_xor ..), formR_completes hr rfl (hopWrites_cmp ..),
    formR_completes hr rfl (hopWrites_tst ..), formR_completes hr rfl (hopWrites_oca ..),
    ⟨shiftR_completes hr rfl (shiftWrites_eq 0 ..), shiftR_completes hr rfl (shiftWrites_eq 1 ..),
      shiftR_completes hr rfl (shiftWrites_eq 2 ..), shiftR_completes hr rfl (shiftWrites_rotate ..)⟩,
    hauler_next rfl hr rfl rfl, hauler_next rfl hr rfl rfl,
    formI_completes hr rfl (hopWrites_mov ..), formI_completes hr rfl (hopWrites_add ..), formI_completes hr rfl (hopWrites_sub ..),
    formI_completes hr rfl (hopWrites_and ..), formI_completes hr rfl (hopWrites_or ..), formI_completes hr rfl (hopWrites_xor ..),
    formI_completes hr rfl (hopWrites_cmp ..), formI_completes hr rfl (hopWrites_tst ..),
    shiftI_completes hr rfl (shiftWrites_eq 0 ..), shiftI_completes hr rfl (shiftWrites_eq 1 ..),
    shiftI_completes hr rfl (shiftWrites_eq 2 ..), shiftI_completes hr rfl (shiftWrites_rotate ..)⟩

end Sys2Proof.Machine
end

section
/-! PROOFS. Instructions of the haulers: pit and ports, control, and conditions (R347, R351-R353, R358, R360, R362, R364, R366, R368). -/

namespace Sys2Proof.Machine

/-! ### The pit and the ports (R366, R368) -/

theorem pitLoad_sound {s : State} {h : Nat} {addr : Half} (rd : Nat) (also : List Late) (hb : s.pitIsBad h addr.toNat = false) :
    s.pitLoad h addr rd also = (s, also ++ [lateReg rd (s.pitWord h addr.toNat) 2], .next) :=
  if_neg (ne_true_of_eq_false hb)

theorem pitLoad_bad {s : State} {h : Nat} {addr : Half} (rd : Nat) (also : List Late) (hb : s.pitIsBad h addr.toNat = true) :
    s.pitLoad h addr rd also = (s.pitError h addr.toNat, [], .trap 6) :=
  if_pos hb

theorem rsUpdate_eq (mode : Fin 3) (rs : Nat) (v : Half) :
    rsUpdate mode rs v = if mode = 0 then [] else [lateReg rs (if mode = 1 then v + 1 else v - 1) 1] := by
  match mode with
  | 0 => rfl
  | 1 => rfl
  | 2 => rfl

theorem inPort_value {s : State} {h port rd : Nat} {v : Half} (hv : (s.portRead h port).2 = some v) :
    s.inPort h port rd = ((s.portRead h port).1, [lateReg rd v 2], .next) := by
  unfold State.inPort
  generalize s.portRead h port = p at hv
  obtain ⟨t, o⟩ := p
  cases hv
  rfl

theorem inPort_reserved {s : State} {h port rd : Nat} (hv : (s.portRead h port).2 = none) :
    s.inPort h port rd = (s, [], .trap 4) := by
  unfold State.inPort
  generalize s.portRead h port = p at hv
  obtain ⟨t, o⟩ := p
  cases hv
  rfl

theorem outPort_written {s : State} {h port : Nat} {v : Half} (hv : (s.portWrite h port v).2 = true) :
    s.outPort h port v = ((s.portWrite h port v).1, [], .next) := by
  unfold State.outPort
  generalize s.portWrite h port v = p at hv
  obtain ⟨t, o⟩ := p
  cases hv
  rfl

theorem outPort_reserved {s : State} {h port : Nat} {v : Half} (hv : (s.portWrite h port v).2 = false) :
    s.outPort h port v = (s, [], .trap 4) := by
  unfold State.outPort
  generalize s.portWrite h port v = p at hv
  obtain ⟨t, o⟩ := p
  cases hv
  rfl

/-- Settles O19: each instruction's body in its cases; a load's word is sound or not, and a port is there or reserved. -/
theorem haulerMemoryAndPortInstructionsAct : Obligations.HaulerMemoryAndPortInstructionsAct := by
  unfold Obligations.HaulerMemoryAndPortInstructionsAct
  intro s h cond rd rs mode wide imm hr
  refine ⟨fun hb => ?_, fun hb => ?_, ?_, fun hb => ?_, fun hb => ?_, hauler_next rfl hr rfl rfl, ⟨⟨fun v hv => ?_, fun hv => ?_⟩,
    fun v hv => ?_, fun hv => ?_⟩, ⟨fun hv => ?_, fun hv => ?_⟩, fun hv => ?_, fun hv => ?_⟩
  · rw [← rsUpdate_eq]
    exact hauler_next rfl hr rfl (pitLoad_sound (s := s.cycled h) _ _ hb)
  · exact hauler_traps rfl hr (pitLoad_bad (s := s.cycled h) _ _ hb)
  · rw [← rsUpdate_eq]
    exact hauler_next rfl hr rfl rfl
  · exact hauler_next rfl hr rfl (pitLoad_sound (s := s.cycled h) _ [] hb)
  · exact hauler_traps rfl hr (pitLoad_bad (s := s.cycled h) _ _ hb)
  · exact hauler_next rfl hr rfl (inPort_value hv)
  · exact hauler_traps rfl hr (inPort_reserved hv)
  · exact hauler_next rfl hr rfl (inPort_value hv)
  · exact hauler_traps rfl hr (inPort_reserved hv)
  · exact hauler_next rfl hr rfl (outPort_written hv)
  · exact hauler_traps rfl hr (outPort_reserved hv)
  · exact hauler_next rfl hr rfl (outPort_written hv)
  · exact hauler_traps rfl hr (outPort_reserved hv)

end Sys2Proof.Machine
end

section
/-! PROOFS. Control instructions of the haulers, and conditions (R347, R352, R353, R358, R360, R364). -/

namespace Sys2Proof.Machine

/-! ### Ends of control instructions -/

section
variable {s w : State} {h : Fin 64} {cond : Option (Fin 14)} {len : Nat} {kind : HKind} {body : State → State × List Late × HNext}
  {ws : List Late} {c : Instr} (hc : exec c s = s.run fun s => s.hexec h cond len kind body)
include hc

theorem hauler_branches {target : Half} (hr : HaulerReady s h cond .branch) (hk : kind = .branch)
    (hb : body (s.cycled h) = (w, ws, .branch target)) : Completes c s (w.hjumped h cond len target ws) := by
  subst hk
  exact hc.trans (run_of_eq hr.1 (by rw [hexec_of_ready hr, hb]; rfl))

theorem hauler_halts (hr : HaulerReady s h cond kind) (hb : body (s.cycled h) = (w, ws, .halt)) :
    Completes c s ((w.bound h (withCond cond len) kind none ws).haltHauler h) :=
  hc.trans (run_of_eq hr.1 (by rw [hexec_of_ready hr, hb]))

theorem hauler_resumes (hr : HaulerReady s h cond kind) (hb : body (s.cycled h) = (w, ws, .resume)) :
    Completes c s (w.haltAsked h) :=
  hc.trans (run_of_eq hr.1 (by rw [hexec_of_ready hr, hb]))

/-- An instruction that the rules of R358 and R361 forbid at its place traps, whatever its condition. -/
theorem hauler_breaks {cause : Nat} (hp : s.hasPower) (hrun : s.haulerRuns h = true)
    (hb : (s.hauler h).ruleBroken kind = some cause) : Completes c s ((s.cycled h).trapHauler h cause (withCond cond len)) := by
  refine hc.trans (run_of_eq hp ?_)
  have hb' : ((s.count (uHauler h) Reg.HLR_CYCLES.CYCLES).hauler h).ruleBroken kind = some cause := hb
  simp only [State.hexec, hrun, hb', Bool.not_true, Bool.false_eq_true, if_false]
  rfl

/-- An instruction whose condition does not hold only passes. -/
theorem hauler_passes {q : Fin 14} (hq : cond = some q) (hp : s.hasPower) (hrun : s.haulerRuns h = true) (hk : kind ≠ .lset)
    (hb : (s.hauler h).ruleBroken kind = none) (hn : condHolds (s.hauler h).flags q.val = false) :
    Completes c s (((s.cycled h).bound h (len + 1) kind none []).haltAsked h) := by
  subst hq
  exact hc.trans (run_of_eq hp ((hexec_failed hrun hb hn).resolve_right hk))

end

/-! ### What a boundary leaves of a hauler (R355, R357, R359) -/

theorem foldl_land_frame (l : List Late) (x : Hauler) : ∃ h sp, l.foldl Hauler.land x = { x with h := h, sp := sp } := by
  induction l generalizing x with
  | nil => exact ⟨_, _, rfl⟩
  | cons a l ih =>
    obtain ⟨h, sp, ih⟩ := ih (x.land a)
    have first : ∃ h sp, x.land a = { x with h := h, sp := sp } := by
      unfold Hauler.land
      split <;> exact ⟨_, _, rfl⟩
    obtain ⟨h', sp', first⟩ := first
    rw [List.foldl_cons, ih, first]
    exact ⟨_, _, rfl⟩

theorem boundary_frame (x : Hauler) (ws : List Late) : ∃ h sp late, x.boundary ws = { x with h := h, sp := sp, late := late } := by
  unfold Hauler.boundary
  obtain ⟨h, sp, hl⟩ := foldl_land_frame _ _
  exact ⟨h, sp, _, hl⟩

theorem loopBack_frame (x : Hauler) (pc : Half) : ∃ sp, (x.loopBack pc).1 = { x with sp := sp } := by
  unfold Hauler.loopBack
  suffices h : ∀ (l : List Nat) (a : Hauler × Option Half), (∃ sp, a.1 = { x with sp := sp }) →
      ∃ sp, (l.foldl (fun (a : Hauler × Option Half) n =>
        if a.2.isSome then a
        else
          let c := a.1.spec (8 + n)
          if 1 < c.toNat then (a.1.setSpec (8 + n) (c - 1), some (a.1.spec n))
          else (a.1.setSpec (8 + n) 0, none)) a).1 = { x with sp := sp } from h _ _ ⟨_, rfl⟩
  intro l
  induction l with
  | nil => exact fun a h => h
  | cons n l ih =>
    rintro a ⟨sp, ha⟩
    refine ih _ ?_
    dsimp only
    split
    · exact ⟨sp, ha⟩
    · split <;> exact ⟨_, by rw [Hauler.setSpec, ha]⟩

theorem advance_frame (x : Hauler) (len : Nat) (branch : Bool) (target : Option Half) :
    ∃ sp pc delay, x.advance len branch target = { x with sp := sp, pc := pc, delay := delay } := by
  unfold Hauler.advance
  cases x.trapped
  · obtain ⟨sp, h⟩ := loopBack_frame x x.pc
    generalize x.loopBack x.pc = q at h
    obtain ⟨y, back⟩ := q
    obtain rfl : y = { x with sp := sp } := h
    exact ⟨_, _, _, rfl⟩
  · exact ⟨_, _, _, rfl⟩

/-- A boundary leaves the events and their masks. -/
theorem hauler_bound_frame (w : State) (h len : Nat) (kind : HKind) (target : Option Half) (ws : List Late) :
    ∃ g sp pc late delay left, (w.bound h len kind target ws).hauler h =
      { w.hauler h with h := g, sp := sp, pc := pc, late := late, delay := delay, lsetLeft := left } := by
  obtain ⟨sp, pc, delay, ha⟩ := advance_frame (w.hauler h) len (kind == .branch) target
  obtain ⟨g, sp', late, hb⟩ := boundary_frame ((w.hauler h).advance len (kind == .branch) target) ws
  unfold State.bound
  rw [hauler_setHauler_same]
  dsimp only
  rw [hb, ha]
  exact ⟨_, _, _, _, _, _, rfl⟩

/-! ### Waiting for events (R347) -/

/-- No unmasked event is pending. -/
abbrev Hauler.noEvent (x : Hauler) : Prop := x.evtDma &&& x.maskDma = 0 ∧ x.evtMisc &&& x.maskMisc = 0

theorem noEvent_bound (w : State) (h len : Nat) (kind : HKind) (target : Option Half) (ws : List Late) :
    ((w.bound h len kind target ws).hauler h).noEvent ↔ (w.hauler h).noEvent := by
  obtain ⟨g, sp, pc, late, delay, left, hb⟩ := hauler_bound_frame w h len kind target ws
  rw [hb]

section
variable {s : State} {h : Fin 64} {cond : Option (Fin 14)} (hr : HaulerReady s h cond .plain)
include hr

/-- WFE: the boundary, and then the wait where no unmasked event is pending. -/
theorem onWfe_ready :
    onWfe h cond s =
      let t := (s.cycled h).bound h (withCond cond 1) .plain none []
      if (t.hauler h).noEvent then t.setHauler h { t.hauler h with mode := .wfe } else t.haltAsked h := by
  unfold onWfe
  rw [hexec_of_ready hr]

theorem wfe_waits (he : (s.hauler h).noEvent) :
    let t := (s.cycled h).bound h (withCond cond 1) .plain none []
    Completes (.wfe h cond) s (t.setHauler h { t.hauler h with mode := .wfe }) :=
  run_of_eq hr.1 ((onWfe_ready hr).trans (if_pos ((noEvent_bound ..).2 he)))

theorem wfe_passes (he : ¬(s.hauler h).noEvent) : Completes (.wfe h cond) s ((s.cycled h).hdone h cond 1 []) :=
  run_of_eq hr.1 ((onWfe_ready hr).trans (if_neg (mt (noEvent_bound ..).1 he)))

end

theorem wfeResume_goes {s : State} {h : Fin 64} (hp : s.hasPower) (hm : (s.hauler h).mode = .wfe)
    (he : (s.hauler h).evtDma &&& (s.hauler h).maskDma ≠ 0 ∨ (s.hauler h).evtMisc &&& (s.hauler h).maskMisc ≠ 0) :
    Completes (.wfeResume h) s ((s.setHauler h { s.hauler h with mode := (s.hauler h).runMode }).haltAsked h) :=
  run_of_eq hp (if_pos ⟨hm, fun ⟨hd, hm⟩ => he.elim (· hd) (· hm)⟩)

/-! ### Special registers, traps and reserved encodings (R347, R354, R362, R364) -/

/-- The hauler that RTT leaves. -/
def Hauler.returned (x : Hauler) : Hauler :=
  let y := (x.setSpec 0x10 (mtsValue 0x10 (x.spec 0x15))).setSpec 0x14 (x.spec 0x14 &&& ~~~(hbit 0))
  let q := y.loopBack (x.spec 0x11)
  { q.1.boundary [] with pc := q.2.getD (x.spec 0x12), delay := none, lsetLeft := x.lsetLeft - 1, mode := .running }

section
variable {s : State} {h : Fin 64} {cond : Option (Fin 14)} (hr : HaulerReady s h cond .plain)
include hr

theorem rtt_resumes :
    Completes (.rtt h cond) s
      ((((s.cycled h).setHauler h (s.hauler h).returned).count (uHauler h) Reg.HLR_CYCLES.CYCLES).haltAsked h) := by
  refine hauler_resumes (ws := []) rfl hr ?_
  dsimp only [Hauler.returned, hauler_cycled]
  rcases Hauler.loopBack _ _ with ⟨y, back⟩
  cases back <;> rfl

variable {rd : Fin 16} {n : Byte}

theorem mts_writes {d : Nat} (hd : mtsDistance n.toNat = some d) :
    Completes (.mts h cond rd n) s ((s.cycled h).hdone h cond (3 + xpfx (decide (8 ≤ rd.val)))
      [lateSpec n.toNat (mtsValue n.toNat ((s.hauler h).reg rd)) d]) :=
  hauler_next rfl hr rfl (by rw [hd]; rfl)

theorem mts_traps (hd : mtsDistance n.toNat = none) :
    Completes (.mts h cond rd n) s ((s.cycled h).trapHauler h 5 (withCond cond (3 + xpfx (decide (8 ≤ rd.val))))) :=
  hauler_traps (ws := []) rfl hr (by rw [hd])

theorem mfs_reads {v : Half} (hv : (s.cycled h).specRead h n.toNat = some v) :
    Completes (.mfs h cond rd n) s ((s.cycled h).hdone h cond (3 + xpfx (decide (8 ≤ rd.val))) [lateReg rd v 1]) :=
  hauler_next rfl hr rfl (by rw [hv])

theorem mfs_traps (hv : (s.cycled h).specRead h n.toNat = none) :
    Completes (.mfs h cond rd n) s ((s.cycled h).trapHauler h 5 (withCond cond (3 + xpfx (decide (8 ≤ rd.val))))) :=
  hauler_traps (ws := []) rfl hr (by rw [hv])

end

theorem lset_completes {s : State} {h : Fin 64} {level : Fin 4} {stop count : Half} (hr : HaulerReady s h none .lset) :
    let first := (s.hauler h).pc.toNat + 6
    let second := first + s.lengthAt h first
    Completes (.lset h level stop count) s (((s.cycled h).bound h 6 .lset none
      [lateSpec level (BitVec.ofNat 16 (second + s.lengthAt h second)) 1, lateSpec (4 + level) stop 3,
       lateSpec (8 + level) count 3]).haltAsked h) :=
  run_of_eq hr.1 (hexec_of_ready hr)

theorem reservedEncoding_traps {s : State} {h : Fin 64} (hp : s.hasPower) (hrun : s.haulerRuns h = true)
    (hg : grecelAt (s.grecelBytes h) = none) : Completes (.reservedEncoding h) s ((s.cycled h).trapHauler h 1 1) :=
  run_of_eq hp (if_pos (by rw [hrun, hg]; rfl))

theorem reservedEncoding_spells {s : State} {h : Fin 64} (hp : s.hasPower) (hg : (grecelAt (s.grecelBytes h)).isSome = true) :
    Completes (.reservedEncoding h) s s :=
  run_of_eq hp (if_neg (by simp [Option.isSome_iff_ne_none.1 hg]))

/-- A branch may not stand in a delay slot (R358). -/
theorem ruleBroken_branch {x : Hauler} (hd : x.delay.isSome = true) : x.ruleBroken .branch = some 2 := if_pos ⟨rfl, hd⟩

/-- Settles O20: each instruction's body, by how it goes on. A branch in a delay slot traps before its condition is judged (log entry 96),
and RTT counts a second cycle, writes in flight keeping their distance (log entry 117). -/
theorem haulerControlInstructionsAct : Obligations.HaulerControlInstructionsAct := by
  unfold Obligations.HaulerControlInstructionsAct
  intro s h cond rd rs target count n level
  exact ⟨fun hr => ⟨hauler_branches rfl hr rfl rfl, hauler_branches rfl hr rfl rfl, hauler_branches rfl hr rfl rfl,
      hauler_branches rfl hr rfl rfl⟩,
    fun hr => ⟨hauler_next rfl hr rfl rfl, hauler_halts rfl hr rfl, wfe_waits hr, wfe_passes hr, rtt_resumes hr,
      fun d hd => mts_writes hr hd, mts_traps hr, fun v hv => mfs_reads hr hv, mfs_traps hr⟩,
    fun hr => lset_completes hr, wfeResume_goes, reservedEncoding_traps, reservedEncoding_spells,
    fun hp hrun hd => ⟨hauler_breaks rfl hp hrun (ruleBroken_branch hd), hauler_breaks rfl hp hrun (ruleBroken_branch hd)⟩⟩

/-- Settles O21: with a condition that does not hold, every instruction but LSET is `hauler_passes`. -/
theorem conditionedOutInstructionsOnlyPass : Obligations.ConditionedOutInstructionsOnlyPass := by
  unfold Obligations.ConditionedOutInstructionsOnlyPass
  refine ⟨fun f => rfl, fun s h c rd rs imm n mode hp hrun hn => ⟨fun hb => ?_, fun hb => ?_⟩⟩
  · exact ⟨hauler_passes rfl rfl hp hrun (by decide) hb hn, hauler_passes rfl rfl hp hrun (by decide) hb hn,
      hauler_passes rfl rfl hp hrun (by decide) hb hn, hauler_passes rfl rfl hp hrun (by decide) hb hn,
      hauler_passes rfl rfl hp hrun (by decide) hb hn, hauler_passes rfl rfl hp hrun (by decide) hb hn⟩
  · exact hauler_passes rfl rfl hp hrun (by decide) hb hn

end Sys2Proof.Machine
end

section
/-! PROOFS. When results of haulers are seen, and trap entry (R355-R357, R362-R365). -/

namespace Sys2Proof.Machine

/-! ### Registers after a write -/

theorem reg_setReg (x : Hauler) (r q : Nat) (v : Half) : (x.setReg r v).reg q = if q = r then v else x.reg q := Table.look_put ..

@[simp] theorem reg_setReg_same (x : Hauler) (r : Nat) (v : Half) : (x.setReg r v).reg r = v := by simp [reg_setReg]

theorem spec_setSpec (x : Hauler) (n m : Nat) (v : Half) : (x.setSpec n v).spec m = if m = n then v else x.spec m := Table.look_put ..

/-! ### Boundaries with one write in flight (R355-R357) -/

section
variable {x : Hauler} (r q : Nat) (v u : Half)

theorem boundary_distance_one (hx : x.late = []) : x.boundary [lateReg r v 1] = { x with late := [] }.setReg r v := by
  simp only [Hauler.boundary, hx]
  rfl

theorem boundary_distance_two (hx : x.late = []) : x.boundary [lateReg r v 2] = { x with late := [lateReg r v 1] } := by
  simp only [Hauler.boundary, hx]
  rfl

theorem boundary_distance_three (hx : x.late = []) : x.boundary [lateSpec r v 3] = { x with late := [lateSpec r v 2] } := by
  simp only [Hauler.boundary, hx]
  rfl

theorem boundary_special_waits (hx : x.late = [lateSpec r v 2]) : x.boundary [] = { x with late := [lateSpec r v 1] } := by
  simp only [Hauler.boundary, hx]
  rfl

theorem boundary_special_lands (hx : x.late = [lateSpec r v 1]) : x.boundary [] = { x with late := [] }.setSpec r v := by
  simp only [Hauler.boundary, hx]
  rfl

variable (hx : x.late = [lateReg r v 1])
include hx

theorem boundary_lands : x.boundary [] = { x with late := [] }.setReg r v := by
  simp only [Hauler.boundary, hx]
  rfl

/-- A write of distance 1 lands before the older one that is due, which prevails (R357). -/
theorem boundary_lands_after_fresh : x.boundary [lateReg q u 1] = ({ x with late := [] }.setReg q u).setReg r v := by
  simp only [Hauler.boundary, hx]
  rfl

theorem boundary_lands_before_later : x.boundary [lateReg q u 2] = { x with late := [lateReg q u 1] }.setReg r v := by
  simp only [Hauler.boundary, hx]
  rfl

end

/-- Settles O22: one boundary, by the distance of the write and by what is in flight. -/
theorem haulerResultsLandAtTheirDistance : Obligations.HaulerResultsLandAtTheirDistance := by
  unfold Obligations.HaulerResultsLandAtTheirDistance
  intro x r q v u hr hq hx
  rw [boundary_distance_one r v hx, boundary_distance_two r v hx, boundary_distance_three (8 + q % 4) v hx]
  refine ⟨⟨reg_setReg_same .., rfl, fun hn => ?_, rfl⟩, ⟨rfl, rfl, ?_, ?_⟩, ⟨?_, fun hn => ?_⟩, ⟨?_, ?_⟩, rfl, ?_, ?_⟩
  · rw [reg_setReg, if_neg hn]
    rfl
  · rw [boundary_lands r v rfl, reg_setReg_same]
  · rw [boundary_lands r v rfl]
    rfl
  · rw [boundary_lands_after_fresh r q v u rfl, reg_setReg_same]
  · rw [boundary_lands_after_fresh r q v u rfl, reg_setReg, if_neg hn, reg_setReg_same]
  · rw [boundary_lands_before_later r r v u rfl, reg_setReg_same]
  · rw [boundary_lands_before_later r r v u rfl, boundary_lands r u rfl, reg_setReg_same]
  · rw [boundary_special_waits (8 + q % 4) v rfl]
  · rw [boundary_special_waits (x := { x with late := [lateSpec (8 + q % 4) v 2] }) (8 + q % 4) v rfl,
      boundary_special_lands (8 + q % 4) v rfl, spec_setSpec, if_pos rfl]

/-! ### Trap entry (R362, R363, R365) -/

/-- Landing everything that is in flight leaves nothing in flight, and all but the registers as it is. -/
theorem landAll_frame (x : Hauler) : ∃ h sp, x.landAll = { x with h := h, sp := sp, late := [] } := by
  obtain ⟨h, sp, hl⟩ := foldl_land_frame (sortBy (fun (a b : Late) => decide (a.left ≤ b.left)) x.late) { x with late := [] }
  exact ⟨h, sp, hl⟩

/-- TNPC: the target of the branch in whose delay slot the trap is, if it is taken, else the next instruction. -/
def Hauler.trapFollow (x : Hauler) (cause len : Nat) : Half :=
  match x.delay with
  | some (some t) => t
  | _ => if cause = 1 then x.pc + 1 else x.pc + BitVec.ofNat 16 len

/-- TSTATE: TRAPPED, and the delay slot. -/
def Hauler.trapState (x : Hauler) : Half :=
  let taken := match x.delay with | some (some _) => true | _ => false
  hbit 0 ||| (if x.landAll.delay.isSome then hbit 1 else 0) ||| (if taken then hbit 2 else 0)

/-- Two bytes of the instruction store at the trapped instruction. -/
def State.trapTop (s : State) (h : Nat) (pc : Half) (i : Nat) : Half :=
  BitVec.ofNat 16 ((s.istoreByte h (pc.toNat + 2 * i)).toNat * 256 + (s.istoreByte h (pc.toNat + 2 * i + 1)).toNat)

/-- The hauler after trap entry. -/
def State.trapEntered (s : State) (h cause len : Nat) : Hauler :=
  let x := s.hauler h
  let y := ((((x.landAll.setSpec 0x11 x.pc).setSpec 0x12 (x.trapFollow cause len)).setSpec 0x13 (BitVec.ofNat 16 cause)).setSpec 0x14
    x.trapState).setSpec 0x15 (x.landAll.spec 0x10)
  let z := ((y.setSpec 0x16 (s.trapTop h x.pc 0)).setSpec 0x17 (s.trapTop h x.pc 1)).setSpec 0x18 (s.trapTop h x.pc 2)
  { z with pc := 0xFF00, delay := none, lsetLeft := 0, mode := .trapped }

section
variable {s : State} {h : Nat} {cause len : Nat}

theorem trapHauler_enters (hn : (s.hauler h).trapped = false) :
    s.trapHauler h cause len =
      (((s.setHauler h (s.trapEntered h cause len)).count (uHauler h) Reg.HLR_CYCLES.CYCLES 3).wr (uHauler h)
        Reg.HLR_STAT.TCAUSE cause).bump (uHauler h) Reg.HLR_COUNT.TRAPS :=
  if_neg (ne_true_of_eq_false hn)

theorem trapHauler_faults (ht : (s.hauler h).trapped = true) : s.trapHauler h cause len = s.faultHauler h Reg.HLR_FAULT.DOUBLE_TRAP :=
  if_pos ht

theorem hauler_trapHauler_same (hn : (s.hauler h).trapped = false) : (s.trapHauler h cause len).hauler h = s.trapEntered h cause len := by
  rw [trapHauler_enters hn]
  exact hauler_setHauler_same s h (s.trapEntered h cause len)

theorem hauler_trapHauler_ne (hn : (s.hauler h).trapped = false) {g : Nat} (hg : g ≠ h) :
    (s.trapHauler h cause len).hauler g = s.hauler g := by
  rw [trapHauler_enters hn]
  exact hauler_setHauler_ne s (s.trapEntered h cause len) hg

end

/-- Trap entry leaves the pit and memory. -/
theorem trapHauler_memory {s : State} {h : Nat} (cause len : Nat) (hn : (s.hauler h).trapped = false) :
    (s.trapHauler h cause len).pit = s.pit ∧ (s.trapHauler h cause len).mem = s.mem := by
  rw [trapHauler_enters hn]
  exact ⟨rfl, rfl⟩

theorem trapped_trapState (x : Hauler) : hfield x.trapState 0 0 = 1 := by
  have bits : ∀ slot taken : Bool, hfield (hbit 0 ||| (if slot then hbit 1 else 0) ||| (if taken then hbit 2 else 0)) 0 0 = 1 := by
    decide
  exact bits ..

/-- The special registers that trap entry writes, one after the other. -/
theorem saved_specs (x : Hauler) (a b c d e f g i : Half) :
    let y := (((((((x.setSpec 0x11 a).setSpec 0x12 b).setSpec 0x13 c).setSpec 0x14 d).setSpec 0x15 e).setSpec 0x16 f).setSpec 0x17
      g).setSpec 0x18 i
    y.spec 0x11 = a ∧ y.spec 0x12 = b ∧ y.spec 0x13 = c ∧ y.spec 0x14 = d ∧ y.spec 0x15 = e := by
  simp [spec_setSpec]

/-- What trap entry saves in TPC, TNPC, TCAUSE, TSTATE and TFLAGS (R362, R363). -/
theorem trapEntered_saved (s : State) (h cause len : Nat) :
    let x := s.hauler h
    let y := s.trapEntered h cause len
    y.spec 0x11 = x.pc ∧ y.spec 0x12 = x.trapFollow cause len ∧ y.spec 0x13 = BitVec.ofNat 16 cause ∧ y.spec 0x14 = x.trapState ∧
      y.spec 0x15 = x.landAll.spec 0x10 :=
  saved_specs ..

theorem trapEntered_late (s : State) (h cause len : Nat) : (s.trapEntered h cause len).late = [] := by
  obtain ⟨gr, sp, hl⟩ := landAll_frame (s.hauler h)
  simp only [State.trapEntered, Hauler.setSpec, hl]

theorem trapEntered_registers (s : State) (h cause len : Nat) : (s.trapEntered h cause len).h = (s.hauler h).landAll.h := by
  simp only [State.trapEntered, Hauler.setSpec]

theorem trapEntered_flow (s : State) (h cause len : Nat) :
    let y := s.trapEntered h cause len
    y.pc = 0xFF00 ∧ y.mode = .trapped ∧ y.delay = none := by
  simp only [State.trapEntered, and_self]

theorem trapFollow_next {x : Hauler} {cause : Nat} (len : Nat) (hd : x.delay = none) :
    x.trapFollow cause len = if cause = 1 then x.pc + 1 else x.pc + BitVec.ofNat 16 len := by
  rw [Hauler.trapFollow, hd]

theorem trapFollow_branch {x : Hauler} {d : Half} (cause len : Nat) (hd : x.delay = some (some d)) : x.trapFollow cause len = d := by
  rw [Hauler.trapFollow, hd]

/-- Settles O23: the saved registers read as trap entry wrote them, and the rest of the hauler as landing its writes left it. -/
theorem haulerTrapEntrySavesAndEnters : Obligations.HaulerTrapEntrySavesAndEnters := by
  unfold Obligations.HaulerTrapEntrySavesAndEnters
  intro s h g cause len _
  refine ⟨fun hn => ?_, trapHauler_faults⟩
  rw [hauler_trapHauler_same hn]
  obtain ⟨tpc, tnpc, tcause, tstate, tflags⟩ := trapEntered_saved s h cause len
  have trapped : (s.trapEntered h cause len).trapped = true := by
    rw [Hauler.trapped, tstate, trapped_trapState]
    rfl
  obtain ⟨pc, mode, delay⟩ := trapEntered_flow s h cause len
  exact ⟨pc, tpc, tcause, tflags, trapped, mode, trapEntered_late .., delay, trapEntered_registers ..,
    fun hd hc => tnpc.trans ((trapFollow_next len hd).trans (if_neg hc)),
    fun hd hc => tnpc.trans ((trapFollow_next len hd).trans (if_pos hc)),
    fun d hd => tnpc.trans (trapFollow_branch cause len hd), hauler_trapHauler_ne hn, trapHauler_memory cause len hn⟩

end Sys2Proof.Machine
end

section
/-! PROOFS. Commands and events of the haulers, image loads and march tests (R366-R379, R391). -/

namespace Sys2Proof.Machine

theorem toNat_eq_ite (b : Bool) : b.toNat = if b then 1 else 0 := by cases b <;> rfl

/-! ### RUN (R373) -/

section
variable {s : State} {h : Nat}

theorem runWrite_resumes (hr : s.flag (uHauler h) Reg.HLR_CTL.RUN = true) (hm : (s.hauler h).mode = .halted) :
    s.runWrite h = s.setHauler h { s.hauler h with mode := (s.hauler h).runMode } :=
  (if_pos hr).trans (if_pos hm)

theorem runWrite_runs (hr : s.flag (uHauler h) Reg.HLR_CTL.RUN = true) (hm : (s.hauler h).mode ≠ .halted) : s.runWrite h = s :=
  (if_pos hr).trans (if_neg hm)

theorem runWrite_halts_wfe (hr : s.flag (uHauler h) Reg.HLR_CTL.RUN = false) (hm : (s.hauler h).mode = .wfe) :
    s.runWrite h = s.haltHauler h :=
  (if_neg (ne_true_of_eq_false hr)).trans (if_pos hm)

theorem runWrite_asks (hr : s.flag (uHauler h) Reg.HLR_CTL.RUN = false) (hm : (s.hauler h).mode ≠ .wfe) :
    s.runWrite h = s.haltAsked h :=
  (if_neg (ne_true_of_eq_false hr)).trans (if_neg hm)

end

section
variable {s : State} {sender : Sender} {h : Fin 64} (hp : s.hasPower)
include hp

theorem run_admitted {run autorun : Bool} {t : State} (ha : Admits s sender (uHauler h) 0x080)
    (ht : ((s.wr (uHauler h) Reg.HLR_CTL.RUN run.toNat).wrl (uHauler h) Reg.HLR_CTL.AUTORUN autorun.toNat).runWrite h = t) :
    Completes (.run sender h run autorun) s t := by
  rw [toNat_eq_ite, toNat_eq_ite] at ht
  exact run_of_eq hp ((command_of_admits ha).trans ht)

/-! ### PIT_DATA and the mailbox (R379) -/

theorem pitData_writes {v : Half} (ha : Admits s sender (uHauler h) 0x100) (hi : s.haulerIdle h = true) :
    let w := s.rd (uHauler h) Reg.PIT_SEL.ADDR
    Completes (.pitData sender h v) s { s.setPit h w v with pitBad := s.pitBad.put false (pitKey h w) false } :=
  run_of_eq hp ((command_of_admits ha).trans (if_neg (by simp [hi])))

theorem pitData_refused {v : Half} (ha : Admits s sender (uHauler h) 0x100) (hi : s.haulerIdle h = false) :
    Completes (.pitData sender h v) s (s.pageError sender (uHauler h) 0x100) :=
  run_of_eq hp ((command_of_admits ha).trans (if_pos (by simp [hi])))

theorem hlrMboxTo_admitted {v : Word} (ha : Admits s sender (uHauler h) 0x108) :
    Completes (.hlrMboxTo sender h v) s ((s.writeFields (uHauler h) 0x108 v).mailboxEvent h) :=
  run_of_eq hp (command_of_admits ha)

/-! ### PIT_CLEAR_DONE, OUTBOUND_DONE and TIMER_COMPARE (R367, R368, R391) -/

theorem pitClearDone_ends {m : HState} (hc : (s.hauler h).mode = .clearing)
    (hm : (if (s.hauler h).after = .faulted then HState.faulted
      else if s.flag (uHauler h) Reg.HLR_CTL.RUN then (s.hauler h).runMode else .halted) = m) :
    Completes (.pitClearDone h) s (s.setHauler h { s.hauler h with mode := m, after := .halted }) := by
  subst hm
  exact run_of_eq hp (if_neg (not_not_intro hc))

/-- OBCTL at the end of an access: not busy, with its result. -/
abbrev Hauler.outboundEnd (x : Hauler) (result : Fin 3) : Half :=
  (x.obctl &&& ~~~(hbit 1 ||| hbit 6 ||| hbit 7)) ||| BitVec.ofNat 16 (result.val * 256)

omit hp in
theorem onOutboundDone_busy {result : Fin 3} {data : Word} (hb : hfield (s.hauler h).obctl 1 1 = 1) :
    onOutboundDone h result data s = s.setHauler h { s.hauler h with
      obctl := (s.hauler h).outboundEnd result
      obdata := if hfield (s.hauler h).obctl 2 3 % 2 == 1 ∧ result.val = 0 then
          (if hfield (s.hauler h).obctl 4 4 = 1 then data else data &&& 0xFFFFFFFF#64)
        else (s.hauler h).obdata } :=
  if_neg (by rw [hb]; decide)

omit hp in
/-- The kinds 1 and 3 of an outbound access are reads. -/
theorem outbound_read_iff (w : Half) : (hfield w 2 3 % 2 == 1) = true ↔ hfield w 2 3 = 1 ∨ hfield w 2 3 = 3 := by
  have hlt : hfield w 2 3 < 4 := Nat.mod_lt _ (by decide)
  simp only [beq_iff_eq]
  omega

theorem outboundDone_reads {result : Fin 3} {data : Word} (hb : hfield (s.hauler h).obctl 1 1 = 1)
    (hk : hfield (s.hauler h).obctl 2 3 = 1 ∨ hfield (s.hauler h).obctl 2 3 = 3) (hr : result = 0) :
    Completes (.outboundDone h result data) s (s.setHauler h { s.hauler h with
      obctl := (s.hauler h).outboundEnd result
      obdata := if hfield (s.hauler h).obctl 4 4 = 1 then data else data &&& 0xFFFFFFFF#64 }) :=
  run_of_eq hp ((onOutboundDone_busy hb).trans (by rw [if_pos ⟨(outbound_read_iff _).2 hk, congrArg Fin.val hr⟩]))

theorem outboundDone_writes {result : Fin 3} {data : Word} (hb : hfield (s.hauler h).obctl 1 1 = 1)
    (hn : ¬(hfield (s.hauler h).obctl 2 3 = 1 ∨ hfield (s.hauler h).obctl 2 3 = 3) ∨ result ≠ 0) :
    Completes (.outboundDone h result data) s
      (s.setHauler h { s.hauler h with obctl := (s.hauler h).outboundEnd result }) := by
  have hno : ¬((hfield (s.hauler h).obctl 2 3 % 2 == 1) = true ∧ result.val = 0) := fun ⟨hk, hr⟩ =>
    hn.elim (fun hn => hn ((outbound_read_iff _).1 hk)) fun hn => hn (Fin.ext hr)
  exact run_of_eq hp ((onOutboundDone_busy hb).trans (by rw [if_neg hno]))

theorem timerCompare_reached (ht : (s.hauler h).tcmp ≤ s.timer h) :
    Completes (.timerCompare h) s (s.setHauler h { s.hauler h with evtMisc := (s.hauler h).evtMisc ||| hbit 3 }) :=
  run_of_eq hp (if_pos ht)

end

/-- Settles O24: each command and event by its condition. -/
theorem haulerCommandsAct : Obligations.HaulerCommandsAct := by
  unfold Obligations.HaulerCommandsAct
  intro s sender h hp
  exact ⟨fun run autorun ha => ⟨fun hr hm => run_admitted hp ha (runWrite_resumes hr hm),
      fun hr hm => run_admitted hp ha (runWrite_runs hr hm), fun hr hm => run_admitted hp ha (runWrite_halts_wfe hr hm),
      fun hr hm => run_admitted hp ha (runWrite_asks hr hm)⟩,
    fun v ha => ⟨pitData_writes hp ha, pitData_refused hp ha⟩, fun v ha => hlrMboxTo_admitted hp ha,
    fun hc => ⟨fun hf => pitClearDone_ends hp hc (if_pos hf),
      fun hf hr => pitClearDone_ends hp hc ((if_neg hf).trans (if_pos hr)),
      fun hf hr => pitClearDone_ends hp hc ((if_neg hf).trans (if_neg (ne_true_of_eq_false hr)))⟩,
    fun result data hb => ⟨outboundDone_reads hp hb, outboundDone_writes hp hb⟩, timerCompare_reached hp⟩

/-! ### Image loads (R371, R372) -/

section
variable {s : State} {sender : Sender} {d : Fin 2} (hp : s.hasPower)

theorem loadStart_busy {s : State} {d : Nat} (h : (s.loadRuns.look none d).isSome = true) : s.loadStart d = s := if_pos h

/-- The RESULT of an image load is shown. -/
abbrev State.loadShown (s : State) (d : Nat) (r : LoadRun) : State :=
  ({ s with loadRuns := s.loadRuns.put none d none } : State).wr (uIoDie d) Reg.HLR_IMG_CTL.RESULT r.result

/-- A target takes the image. -/
abbrev State.loadInto (s : State) (h : Nat) (r : LoadRun) : State :=
  ((((s.storeCode h r.code).wr (uHauler h) Reg.HLR_IMG.GEN r.gen).count (uHauler h) Reg.HLR_IMG.LOADS).wrDigest (uHauler h)
    Reg.HLR_DIGEST.DIGEST r.digest).haulerFresh h

/-- The die, its log and the Tally record the image. -/
abbrev State.loadRecorded (s : State) (d : Nat) (r : LoadRun) : State :=
  ((((s.wr (uIoDie d) Reg.HLR_IMG_STAT.GEN r.gen).count (uIoDie d) Reg.HLR_IMG_STAT.LOADS).wrDigest (uIoDie d)
    Reg.HLR_IMG_DIGEST.DIGEST r.digest).extendLog 0x03 d r.gen false r.digest).tallyEvent (some (uIoDie d)) 0x0A 0x01 7 0xFF
      (payload8 r.result (beBytes 4 r.targets ++ beBytes 4 r.gen))

theorem onLoadDone_ends {r : LoadRun} (hr : s.loadRuns.look none d = some r) :
    onLoadDone d s = if r.result ≠ 1 then s.loadShown d r
      else (State.each (loadTargets d r.targets) (fun h s => s.loadInto h r) (s.loadShown d r)).loadRecorded d r := by
  unfold onLoadDone
  rw [hr]

/-! ### March tests (R374-R377) -/

theorem marchStart_busy {s : State} {d : Nat} (h : (s.marchRuns.look none d).isSome = true) : s.marchStart d = s := if_pos h

theorem marchStart_refused {s : State} {d : Nat} (h : s.marchRuns.look none d = none)
    (hn : s.marchRefusal d (s.rd (uIoDie d) Reg.MCH_CMD.OP) (s.rd (uIoDie d) Reg.MCH_CMD.FORM) (s.rd (uIoDie d) Reg.MCH_CMD.KIND)
      (s.rd (uIoDie d) Reg.MCH_CMD.INDEX) ≠ 0) :
    s.marchStart d = s.wr (uIoDie d) Reg.MCH_CMD.RESULT (s.marchRefusal d (s.rd (uIoDie d) Reg.MCH_CMD.OP)
      (s.rd (uIoDie d) Reg.MCH_CMD.FORM) (s.rd (uIoDie d) Reg.MCH_CMD.KIND) (s.rd (uIoDie d) Reg.MCH_CMD.INDEX)) :=
  (if_neg (by rw [h]; exact Bool.false_ne_true)).trans (if_pos hn)

/-- MCH_CMD with the fields of the command. -/
abbrev State.marchNamed (s : State) (d : Nat) (op : Nat) (form : Bool) (kind : BitVec 2) (index : BitVec 6) : State :=
  (((s.wr (uIoDie d) Reg.MCH_CMD.OP op).wr (uIoDie d) Reg.MCH_CMD.FORM form.toNat).wr (uIoDie d) Reg.MCH_CMD.KIND kind.toNat).wr
    (uIoDie d) Reg.MCH_CMD.INDEX index.toNat

/-- A run that found nothing ends: its arrays are released and, after a destructive one, zero. -/
abbrev State.marchFound (s : State) (d : Nat) (r : MarchRun) : State :=
  let t := ({ s with marchRuns := s.marchRuns.put none d none } : State).marchRelease r
  let v := if r.form = 0 then State.each (r.units d) (fun v s => s.marchZero v) t else t
  ((v.wr (uIoDie d) Reg.MCH_CMD.RESULT (if r.skip then 7 else 1)).count (uIoDie d) Reg.MCH_COUNT.RUNS).count (uIoDie d)
    Reg.MCH_COUNT.FAILS 0

theorem onMarchDone_sound {r : MarchRun} (hr : s.marchRuns.look none d = some r) (ho : r.op ≠ 2) :
    onMarchDone d none s = (s.marchFound d r).tallyEvent (some (uIoDie d)) 0x0A 0x02 7 0xFF
      (payload8 (if r.skip then 7 else 1) (wordBytes ((s.marchFound d r).word (uIoDie d) Reg.MCH_FAIL.KIND.off))) := by
  unfold onMarchDone
  rw [hr]
  dsimp only [MarchRun.failed]
  simp only [ho, or_false, if_false]
  rfl

include hp

theorem march_admitted {form : Bool} {kind : BitVec 2} {index : BitVec 6} (ha : Admits s sender (uIoDie d) 0x100) :
    Completes (.march sender d form kind index) s ((s.marchNamed d 1 form kind index).marchStart d) := by
  rw [State.marchNamed, toNat_eq_ite]
  exact run_of_eq hp (command_of_admits ha)

theorem sweep_admitted {form : Bool} {kind : BitVec 2} {index : BitVec 6} (ha : Admits s sender (uIoDie d) 0x100) :
    Completes (.sweep sender d form kind index) s ((s.marchNamed d 2 form kind index).marchStart d) := by
  rw [State.marchNamed, toNat_eq_ite]
  exact run_of_eq hp (command_of_admits ha)

theorem load_admitted {targets : BitVec 32} {t : State} (ha : Admits s sender (uIoDie d) 0x148)
    (ht : (s.wr (uIoDie d) Reg.HLR_IMG_CTL.TARGETS targets.toNat).loadStart d = t) : Completes (.load sender d targets) s t :=
  run_of_eq hp ((command_of_admits ha).trans ht)

theorem loadDone_fails {r : LoadRun} (hr : s.loadRuns.look none d = some r) (hn : r.result ≠ 1) :
    Completes (.loadDone d) s (s.loadShown d r) :=
  run_of_eq hp ((onLoadDone_ends hr).trans (if_pos hn))

theorem loadDone_loads {r : LoadRun} (hr : s.loadRuns.look none d = some r) (h1 : r.result = 1) :
    Completes (.loadDone d) s
      ((State.each (loadTargets d r.targets) (fun h s => s.loadInto h r) (s.loadShown d r)).loadRecorded d r) :=
  run_of_eq hp ((onLoadDone_ends hr).trans (if_neg (not_not_intro h1)))

end

/-- Settles O25: each command by its condition. The order of the checks of LOAD and MARCH is that of log entries 41 and 47, and the items
of the payloads are those of log entry 25. -/
theorem imageLoadsAndMarchTestsRun : Obligations.ImageLoadsAndMarchTestsRun := by
  unfold Obligations.ImageLoadsAndMarchTestsRun
  intro s sender d hp
  refine ⟨fun targets ha => ⟨load_admitted hp ha rfl, fun hb => load_admitted hp ha (loadStart_busy hb)⟩,
    fun r hr => ⟨loadDone_fails hp hr, fun h1 => ?_⟩,
    fun form kind index ha => ⟨march_admitted hp ha, sweep_admitted hp ha, fun op _ => marchStart_busy,
      fun op _ hn => marchStart_refused hn⟩,
    fun r hr ho _ => run_of_eq hp (onMarchDone_sound hr ho)⟩
  have done := loadDone_loads hp hr h1
  rwa [State.loadRecorded, h1] at done

end Sys2Proof.Machine
end

section
/-! PROOFS. Channel command entries (R304-R310, R314). -/

namespace Sys2Proof.Machine

variable {s : State} {die : Fin 2} {ctx : Fin 131072}

/-! ### ENTRY_FETCH (R304, R308, R314) -/

section
variable (hs : (s.exch (exKey die ctx)).st = .start)
include hs

theorem onEntryFetch_long (hi : 256 ≤ (s.exch (exKey die ctx)).index) : onEntryFetch die ctx s = s.finish (exKey die ctx) 0x10 5 :=
  (if_neg (not_not_intro hs)).trans (if_pos hi)

variable (hi : (s.exch (exKey die ctx)).index < 256)
include hi

theorem onEntryFetch_outside (ha : s.inAllotment (s.exch (exKey die ctx)).seam (s.exch (exKey die ctx)).cur 16 = false) :
    onEntryFetch die ctx s = s.finish (exKey die ctx) 0x10 8 :=
  (if_neg (not_not_intro hs)).trans ((if_neg (Nat.not_le.2 hi)).trans (if_pos (by rw [ha]; rfl)))

/-- The entry that has been read is checked, and then taken. -/
theorem onEntryFetch_read (ha : s.inAllotment (s.exch (exKey die ctx)).seam (s.exch (exKey die ctx)).cur 16 = true)
    (hd : (s.agentRead (s.exch (exKey die ctx)).seam (s.exch (exKey die ctx)).cur 16).2.2 = .done) :
    onEntryFetch die ctx s =
      let key := exKey die ctx
      let x := s.exch key
      let r := s.agentRead x.seam x.cur 16
      let w0 := wordOf r.2.1 0
      let w1 := wordOf r.2.1 1
      match r.1.entryBad die x w0 w1 with
      | some dev => (r.1.setExch key { x with word0 := w0, word1 := w1, moved := 0 }).finish key 0x10 dev
      | none =>
        if entrySecured w0 then
          if entryLink w0 then
            r.1.setExch key { x with sec := some (w0, w1), index := x.index + 1, cur := x.cur + 16, moved := 0 }
          else r.1.setExch key { x with st := .journal, word0 := w0, word1 := w1, moved := 0, tgt := none }
        else r.1.setExch key
          { x with st := .active, word0 := w0, word1 := w1, moved := 0, placed := 0, performed := false, entryAt := r.1.now } :=
  (if_neg (not_not_intro hs)).trans ((if_neg (Nat.not_le.2 hi)).trans ((if_neg (by rw [ha]; decide)).trans
    (if_neg (by rw [hd]; decide))))

end

/-! ### The channel commands (R305-R307) -/

theorem doing_of_active {key cmd : Nat} (hs : (s.exch key).st = .active) (hn : (s.exch key).performed = false)
    (hc : entryCmd (s.exch key).word0 = cmd) : s.doing key cmd = some (s.exch key) :=
  if_pos ⟨hs, hc, by rw [hn]; rfl⟩

section
variable (hp : s.hasPower) (hs : (s.exch (exKey die ctx)).st = .active) (hn : (s.exch (exKey die ctx)).performed = false)
include hp hs hn

theorem write_completes (hc : entryCmd (s.exch (exKey die ctx)).word0 = 1) :
    let x := s.exch (exKey die ctx)
    Completes (.write die ctx) s
      ((s.submitNvme (exKey die ctx) x .write).setExch (exKey die ctx) { x with performed := true, moved := entryCount x.word0 }) :=
  run_of_eq hp (by unfold onWrite; dsimp only; rw [doing_of_active hs hn hc])

theorem channelFlush_completes (hc : entryCmd (s.exch (exKey die ctx)).word0 = 3) :
    let x := s.exch (exKey die ctx)
    Completes (.flush die ctx) s
      ((s.submitNvme (exKey die ctx) x .flush).setExch (exKey die ctx) { x with performed := true }) :=
  run_of_eq hp (by unfold onFlush; dsimp only; rw [doing_of_active hs hn hc])

theorem locate_completes (hc : entryCmd (s.exch (exKey die ctx)).word0 = 7) :
    let x := s.exch (exKey die ctx)
    Completes (.locate die ctx) s (s.setExch (exKey die ctx) { x with performed := true, lba := x.word1.toNat }) :=
  run_of_eq hp (by unfold onLocate; dsimp only; rw [doing_of_active hs hn hc])

theorem nop_completes (hc : entryCmd (s.exch (exKey die ctx)).word0 = 8) :
    Completes (.nop die ctx) s (s.setExch (exKey die ctx) { s.exch (exKey die ctx) with performed := true }) :=
  run_of_eq hp (by unfold onNop; dsimp only; rw [doing_of_active hs hn hc])

theorem target_completes {w0 w1 : Word} (hc : entryCmd (s.exch (exKey die ctx)).word0 = 9)
    (hw : (s.exch (exKey die ctx)).sec = some (w0, w1)) :
    let x := s.exch (exKey die ctx)
    Completes (.target die ctx) s (s.setExch (exKey die ctx) { x with
      st := .journal, tgt := some (entryCount x.word0, x.word1.toNat), word0 := w0, word1 := w1, sec := none, performed := true }) :=
  run_of_eq hp (by unfold onTarget; dsimp only; rw [doing_of_active hs hn hc]; dsimp only; rw [hw])

/-- A frame that is read goes out with the exchange sequence where MODIFIER says. -/
theorem send_completes (hc : entryCmd (s.exch (exKey die ctx)).word0 = 0x11)
    (hd : (s.agentRead (s.exch (exKey die ctx)).seam (s.exch (exKey die ctx)).word1.toNat
      (entryCount (s.exch (exKey die ctx)).word0)).2.2 = .done) :
    let x := s.exch (exKey die ctx)
    let r := s.agentRead x.seam x.word1.toNat (entryCount x.word0)
    let m := entryModifier x.word0
    let w := r.1.setExch (exKey die ctx) { x with performed := true, moved := entryCount x.word0 }
    Completes (.send die ctx) s { w with outbox := w.outbox ++
      [Out.frame (pathLane (r.1.pathOf (exKey die ctx))) (withFcs (if m = 0xFFFF then r.2.1 else overlay r.2.1 m (wordBytes x.seq)))] } :=
  run_of_eq hp (by
    unfold onSend
    dsimp only
    rw [doing_of_active hs hn hc]
    exact if_neg (by rw [hd]; decide))

end

/-! ### READ (R305, R306) -/

/-- The drive has read, and `bytes` have been delivered. -/
def State.readSubmitted (s : State) (key : Nat) (bytes : List Byte) : State :=
  (s.submitNvme key (s.exch key) .read).setExch key { s.exch key with performed := true, moved := bytes.length }

/-- The bytes are stored at ADDRESS with hints. -/
def State.readStored (v : State) (x : Exchange) (bytes : List Byte) (hint : Nat → Option HintTarget) : State :=
  (v.agentWrite x.seam x.word1.toNat bytes hint).1.agentFault x.seam (v.agentWrite x.seam x.word1.toNat bytes hint).2

section
variable (hs : (s.exch (exKey die ctx)).st = .active) (hn : (s.exch (exKey die ctx)).performed = false)
  (hc : entryCmd (s.exch (exKey die ctx)).word0 = 2) (data : List Byte)
include hs hn hc

theorem onRead_doing :
    onRead die ctx data s =
      let x := s.exch (exKey die ctx)
      let bytes := data.take (entryCount x.word0)
      let v := s.readSubmitted (exKey die ctx) bytes
      if entryDiscard x.word0 then v
      else v.readStored x bytes fun i => if entryLink x.word0 then none else v.hintAt x.hint i := by
  unfold onRead
  dsimp only
  rw [doing_of_active hs hn hc]
  rfl

theorem onRead_discards (hd : entryDiscard (s.exch (exKey die ctx)).word0 = true) :
    onRead die ctx data s = s.readSubmitted (exKey die ctx) (data.take (entryCount (s.exch (exKey die ctx)).word0)) :=
  (onRead_doing hs hn hc data).trans (if_pos hd)

theorem onRead_links (hd : entryDiscard (s.exch (exKey die ctx)).word0 = false)
    (hl : entryLink (s.exch (exKey die ctx)).word0 = true) :
    let x := s.exch (exKey die ctx)
    let bytes := data.take (entryCount x.word0)
    onRead die ctx data s = (s.readSubmitted (exKey die ctx) bytes).readStored x bytes fun _ => none := by
  refine (onRead_doing hs hn hc data).trans ((if_neg (ne_true_of_eq_false hd)).trans ?_)
  simp only [hl, if_true]

theorem onRead_hints (hd : entryDiscard (s.exch (exKey die ctx)).word0 = false)
    (hl : entryLink (s.exch (exKey die ctx)).word0 = false) :
    let x := s.exch (exKey die ctx)
    let bytes := data.take (entryCount x.word0)
    let v := s.readSubmitted (exKey die ctx) bytes
    onRead die ctx data s = v.readStored x bytes fun i => v.hintAt x.hint i := by
  refine (onRead_doing hs hn hc data).trans ((if_neg (ne_true_of_eq_false hd)).trans ?_)
  simp only [hl, Bool.false_eq_true, if_false]

end

/-! ### RECEIVE (R305, R309) -/

/-- RECEIVE takes a frame, or stops: the state, the bytes moved, the frames placed and taken, and whether it has stopped. -/
def receiveStep (x : Exchange) (a : State × Nat × Nat × Nat × Bool) (f : Nat × List Byte) : State × Nat × Nat × Nat × Bool :=
  let (s, moved, placed, taken, stop) := a
  let bytes := placedFrame f.1 f.2
  if stop ∨ wantedFrames x.word0 ≤ placed then (s, moved, placed, taken, true)
  else if entryDiscard x.word0 then (s, moved + f.2.length, placed + 1, taken + 1, false)
  else if entryCount x.word0 < moved + bytes.length then (s, moved, placed, taken, true)
  else
    let first := (x.word1.toNat + moved) / 128 - x.word1.toNat / 128
    let hint (i : Nat) : Option HintTarget := if entryLink x.word0 then none else s.hintAt x.hint (first + i)
    let r := s.agentWrite x.seam (x.word1.toNat + moved) bytes hint
    (r.1.agentFault x.seam r.2, moved + bytes.length, placed + 1, taken + 1, false)

/-- What RECEIVE leaves when it has taken frames of the queue `q` with the outcome `r`. -/
def State.receiveEnds (key : Nat) (x : Exchange) (q : List (Nat × List Byte)) (r : State × Nat × Nat × Nat × Bool) : State :=
  let s : State := { r.1 with ethQueue := r.1.ethQueue.put [] x.sch (q.drop r.2.2.2.1) }
  let s := State.each (((q.take r.2.2.2.1).map Prod.fst).eraseDups) (fun lane s => s.pfcCheck lane) s
  let moved := r.2.1
  let placed := r.2.2.1
  let full := decide (wantedFrames x.word0 ≤ placed) || (match (q.drop r.2.2.2.1).head? with
    | some f => !entryDiscard x.word0 && decide (entryCount x.word0 < moved + (placedFrame f.1 f.2).length)
    | none => false)
  if (s.exch key).st = .active then
    s.setExch key { x with moved := moved, placed := placed, performed := full, lba := entryCount x.word0 - moved }
  else s

theorem onReceive_doing (hs : (s.exch (exKey die ctx)).st = .active) (hn : (s.exch (exKey die ctx)).performed = false)
    (hc : entryCmd (s.exch (exKey die ctx)).word0 = 0x12) :
    onReceive die ctx s =
      let x := s.exch (exKey die ctx)
      let q := s.ethQueue.look [] x.sch
      State.receiveEnds (exKey die ctx) x q (q.foldl (receiveStep x) (s, x.moved, x.placed, 0, false)) := by
  unfold onReceive
  dsimp only
  rw [doing_of_active hs hn hc]
  rfl

/-- With the frames that it wants placed, RECEIVE takes no more. -/
theorem foldl_receiveStep_full {x : Exchange} {moved placed taken : Nat} (hw : wantedFrames x.word0 ≤ placed) (l : List (Nat × List Byte))
    (s : State) (stop : Bool) :
    ∃ stop', l.foldl (receiveStep x) (s, moved, placed, taken, stop) = (s, moved, placed, taken, stop') := by
  induction l generalizing stop with
  | nil => exact ⟨stop, rfl⟩
  | cons f l ih =>
    have first : receiveStep x (s, moved, placed, taken, stop) f = (s, moved, placed, taken, true) := if_pos (.inr hw)
    rw [List.foldl_cons, first]
    exact ih true

/-- A frame that fits is placed. -/
theorem receiveStep_places {x : Exchange} {lane : Nat} {frame : List Byte} {moved placed taken : Nat}
    (hw : placed < wantedFrames x.word0) (hd : entryDiscard x.word0 = false) (hl : entryLink x.word0 = true)
    (hf : moved + (placedFrame lane frame).length ≤ entryCount x.word0) :
    receiveStep x (s, moved, placed, taken, false) (lane, frame) =
      let r := s.agentWrite x.seam (x.word1.toNat + moved) (placedFrame lane frame) fun _ => none
      (r.1.agentFault x.seam r.2, moved + (placedFrame lane frame).length, placed + 1, taken + 1, false) := by
  refine (if_neg (not_or.2 ⟨Bool.false_ne_true, Nat.not_le.2 hw⟩)).trans ((if_neg (ne_true_of_eq_false hd)).trans
    ((if_neg (Nat.not_lt.2 hf)).trans ?_))
  simp only [hl, if_true]

/-- RECEIVE that has taken one frame, the last that it wants. -/
theorem receiveEnds_last {key lane moved placed : Nat} {x : Exchange} {frame : List Byte} {rest : List (Nat × List Byte)} {w : State}
    {stop : Bool} (hw : wantedFrames x.word0 ≤ placed)
    (ht : ((State.pfcCheck { w with ethQueue := w.ethQueue.put [] x.sch rest } lane).exch key).st = .active) :
    State.receiveEnds key x ((lane, frame) :: rest) (w, moved, placed, 1, stop) =
      (State.pfcCheck { w with ethQueue := w.ethQueue.put [] x.sch rest } lane).setExch key
        { x with moved := moved, placed := placed, performed := true, lba := entryCount x.word0 - moved } := by
  refine (if_pos ht).trans ?_
  simp only [hw, decide_true, Bool.true_or]
  rfl

/-- The last frame that RECEIVE wants is placed, and the command has been performed. -/
theorem onReceive_last {lane : Nat} {frame : List Byte} {rest : List (Nat × List Byte)}
    (hs : (s.exch (exKey die ctx)).st = .active) (hn : (s.exch (exKey die ctx)).performed = false)
    (hc : entryCmd (s.exch (exKey die ctx)).word0 = 0x12)
    (hw : wantedFrames (s.exch (exKey die ctx)).word0 = (s.exch (exKey die ctx)).placed + 1)
    (hd : entryDiscard (s.exch (exKey die ctx)).word0 = false) (hl : entryLink (s.exch (exKey die ctx)).word0 = true)
    (hq : s.ethQueue.look [] (s.exch (exKey die ctx)).sch = (lane, frame) :: rest)
    (hf : (s.exch (exKey die ctx)).moved + (placedFrame lane frame).length ≤ entryCount (s.exch (exKey die ctx)).word0) :
    let key := exKey die ctx
    let x := s.exch key
    let bytes := placedFrame lane frame
    let r := s.agentWrite x.seam (x.word1.toNat + x.moved) bytes fun _ => none
    let w := r.1.agentFault x.seam r.2
    let t := State.pfcCheck { w with ethQueue := w.ethQueue.put [] x.sch rest } lane
    (t.exch key).st = .active → onReceive die ctx s = t.setExch key
      { x with moved := x.moved + bytes.length, placed := x.placed + 1, performed := true, lba := entryCount x.word0 - (x.moved + bytes.length) } := by
  intro key x bytes r w t ht
  obtain ⟨stop, hfold⟩ := foldl_receiveStep_full (x := x) (moved := x.moved + bytes.length) (taken := 1) hw.le rest w false
  have first : receiveStep x (s, x.moved, x.placed, 0, false) (lane, frame) = (w, x.moved + bytes.length, x.placed + 1, 1, false) :=
    receiveStep_places (hw ▸ Nat.lt_succ_self _) hd hl hf
  rw [onReceive_doing hs hn hc]
  dsimp only
  rw [hq, List.foldl_cons, first, hfold]
  exact receiveEnds_last hw.le ht

/-- Settles O46: the entry that is fetched goes by its checks, and each channel command is performed where the exchange is active with it. -/
theorem channelCommandEntriesArePerformed : Obligations.ChannelCommandEntriesArePerformed := by
  unfold Obligations.ChannelCommandEntriesArePerformed
  intro s die ctx hp
  refine ⟨fun hs => ⟨fun hi => run_of_eq hp (onEntryFetch_long hs hi), fun hi ha => run_of_eq hp (onEntryFetch_outside hs hi ha),
      fun hi ha hd => ⟨fun dev hb => ?_, fun hb => ⟨fun hsec hl => ?_, fun hsec hl => ?_, fun hsec => ?_⟩⟩⟩,
    fun hs hn => ⟨write_completes hp hs hn, fun hc data => ⟨fun hd => run_of_eq hp (onRead_discards hs hn hc data hd),
        fun hd hl => run_of_eq hp (onRead_links hs hn hc data hd hl), fun hd hl => run_of_eq hp (onRead_hints hs hn hc data hd hl)⟩,
      channelFlush_completes hp hs hn, locate_completes hp hs hn, nop_completes hp hs hn, fun hc w0 w1 hw => target_completes hp hs hn hc hw,
      send_completes hp hs hn, fun hc hw hd hl lane frame rest hq hf ht => run_of_eq hp (onReceive_last hs hn hc hw hd hl hq hf ht)⟩⟩
  · exact run_of_eq hp ((onEntryFetch_read hs hi ha hd).trans (by dsimp only; rw [hb]))
  · exact run_of_eq hp ((onEntryFetch_read hs hi ha hd).trans (by dsimp only; rw [hb]; exact (if_pos hsec).trans (if_pos hl)))
  · exact run_of_eq hp ((onEntryFetch_read hs hi ha hd).trans
      (by dsimp only; rw [hb]; exact (if_pos hsec).trans (if_neg (ne_true_of_eq_false hl))))
  · exact run_of_eq hp ((onEntryFetch_read hs hi ha hd).trans (by dsimp only; rw [hb]; exact if_neg (ne_true_of_eq_false hsec)))

end Sys2Proof.Machine
end

section
/-! PROOFS. The ends of channel commands and exchanges (R302, R313-R315). -/

namespace Sys2Proof.Machine

variable {s : State} {die : Fin 2} {ctx : Fin 131072}

/-! ### ENTRY_END (R314, R315) -/

/-- A command that has been performed, in an exchange that is active or halting, ends as the drive reports. -/
theorem onEntryEnd_performed (result : NvmeEnd) (hn : (s.exch (exKey die ctx)).performed = true)
    (hs : (s.exch (exKey die ctx)).st = .active ∨ (s.exch (exKey die ctx)).st = .halting) :
    onEntryEnd die ctx result s =
      let key := exKey die ctx
      let x := s.exch key
      match result with
      | .success => s.entryDone key x
      | .error sct code =>
        if x.st = .halting then s.finish key x.endCode 0
        else if sct = 3 then s.pathFail key false
        else s.finish key 0x12 code.toNat sct.toNat := by
  refine (if_neg ?_).trans ?_
  · rintro (h | ⟨ha, hh⟩)
    · rw [hn] at h; cases h
    · exact hs.elim ha hh
  · cases result <;> rfl

section
variable (hp : s.hasPower) (hn : (s.exch (exKey die ctx)).performed = true)
include hp hn

theorem entryEnd_succeeds (hs : (s.exch (exKey die ctx)).st = .active ∨ (s.exch (exKey die ctx)).st = .halting) :
    Completes (.entryEnd die ctx .success) s (s.entryDone (exKey die ctx) (s.exch (exKey die ctx))) :=
  run_of_eq hp (onEntryEnd_performed .success hn hs)

theorem entryEnd_halting {sct : BitVec 3} {code : BitVec 8} (hs : (s.exch (exKey die ctx)).st = .halting) :
    Completes (.entryEnd die ctx (.error sct code)) s (s.finish (exKey die ctx) (s.exch (exKey die ctx)).endCode 0) :=
  run_of_eq hp ((onEntryEnd_performed _ hn (.inr hs)).trans (if_pos hs))

variable (hs : (s.exch (exKey die ctx)).st = .active)
include hs

omit hp hn in
theorem not_halting_of_active : (s.exch (exKey die ctx)).st ≠ .halting := by
  rw [hs]
  decide

theorem entryEnd_path_error {sct : BitVec 3} {code : BitVec 8} (h3 : sct = 3) :
    Completes (.entryEnd die ctx (.error sct code)) s (s.pathFail (exKey die ctx) false) :=
  run_of_eq hp ((onEntryEnd_performed _ hn (.inl hs)).trans ((if_neg (not_halting_of_active hs)).trans (if_pos h3)))

theorem entryEnd_error {sct : BitVec 3} {code : BitVec 8} (h3 : sct ≠ 3) :
    Completes (.entryEnd die ctx (.error sct code)) s (s.finish (exKey die ctx) 0x12 code.toNat sct.toNat) :=
  run_of_eq hp ((onEntryEnd_performed _ hn (.inl hs)).trans ((if_neg (not_halting_of_active hs)).trans (if_neg h3)))

end

/-! ### Timeouts, orphans and repairs (R313-R315) -/

section
variable (hp : s.hasPower)
include hp

theorem entryTimeout_exchange (hs : (s.exch (exKey die ctx)).st = .active)
    (ht : (s.exch (exKey die ctx)).entryAt + s.entryLimit die ≤ s.now) :
    Completes (.entryTimeout (.exchange die ctx)) s (s.pathFail (exKey die ctx) true) :=
  run_of_eq hp (if_pos ⟨hs, ht⟩)

theorem entryTimeout_target {slot : Fin 16384} {second : Bool} {w : TargetWrite} (hw : s.targetOf slot second = some w)
    (ht : w.since + s.entryLimit (s.targetLane w / 64) ≤ s.now) :
    Completes (.entryTimeout (.target slot second)) s
      ((s.count (uCtx (s.targetLane w / 64)) Reg.CHS_COUNT2.TIMEOUTS).targetFail slot second) :=
  run_of_eq hp (by
    unfold onEntryTimeout
    dsimp only
    rw [hw]
    exact if_pos ht)

theorem haltingTimeout_due (hs : (s.exch (exKey die ctx)).st = .halting) (ht : (s.exch (exKey die ctx)).haltAt + 1000000 ≤ s.now) :
    Completes (.haltingTimeout die ctx) s (s.finish (exKey die ctx) (s.exch (exKey die ctx)).endCode 0) :=
  run_of_eq hp (if_pos ⟨hs, ht⟩)

theorem abortConfirmed_halting (hs : (s.exch (exKey die ctx)).st = .halting) :
    Completes (.abortConfirmed die ctx) s (s.finish (exKey die ctx) (s.exch (exKey die ctx)).endCode 0) :=
  run_of_eq hp (if_pos hs)

theorem orphaning_context (hs : (s.exch (exKey die ctx)).st ≠ .idle) (ha : s.storeAvail die = true) :
    Completes (.orphaning die ctx) s ((s.stick (uCtx die) Reg.CHS_ERR.CTX_UNCORR).takeover (exKey die ctx) 0x26) :=
  run_of_eq hp ((if_neg hs).trans (if_pos ha))

theorem orphaning_store (hs : (s.exch (exKey die ctx)).st ≠ .idle) (ha : s.storeAvail die = false) :
    Completes (.orphaning die ctx) s ((s.wr (uCtx (1 - die.val)) Reg.CHS_ERR.PEER_LOST 1).takeover (exKey die ctx) 0x22) :=
  run_of_eq hp ((if_neg hs).trans (if_neg (ne_true_of_eq_false ha)))

theorem unpairedRepair_one {key : Nat} {p : Peer} (h0 : s.storeAvail 0 = true) (h1 : s.storeAvail 1 = true)
    (hk : (s.exchanges.filter fun e => exDie e.1 == die.val && !e.2.paired).map Prod.fst = [key])
    (hq : s.peers.look none (peerKey die (s.exch key).sch) = some p) :
    Completes (.unpairedRepair die) s
      ((State.setPeer { s with peers := s.peers.put none (peerKey die (s.exch key).sch) none } (1 - die.val) (s.exch key).sch p).setExch
        key { s.exch key with paired := true }) := by
  refine run_of_eq hp ((if_neg (by rw [h0, h1]; decide)).trans ?_)
  rw [hk, each_cons, each_nil]
  dsimp only
  rw [hq]

end

/-- Settles O47: the end of an entry goes by the report and the state of its exchange; the other events by their conditions. -/
theorem exchangeEndsAndFailuresAct : Obligations.ExchangeEndsAndFailuresAct := by
  unfold Obligations.ExchangeEndsAndFailuresAct
  intro s die ctx slot second hp
  exact ⟨fun hn => ⟨entryEnd_succeeds hp hn, fun sct code hs => entryEnd_halting hp hn hs,
      fun sct code hs h3 => entryEnd_path_error hp hn hs h3, fun sct code hs h3 => entryEnd_error hp hn hs h3⟩,
    run_of_eq hp rfl, run_of_eq hp rfl, entryTimeout_exchange hp, fun w hw ht => entryTimeout_target hp hw ht, haltingTimeout_due hp,
    abortConfirmed_halting hp, run_of_eq hp rfl, orphaning_context hp, orphaning_store hp,
    fun h0 h1 key hk p hq => unpairedRepair_one hp h0 h1 hk hq⟩

end Sys2Proof.Machine
end

section
/-! PROOFS. The secured journal (R329-R344). -/

namespace Sys2Proof.Machine

variable {s : State} {die : Fin 2} {ctx : Fin 131072}

/-! ### JOURNAL_COMMIT (R329, R330) -/

/-- The record of an exchange takes slot `n` and pages: its entry, and the commit in progress. -/
def State.commitTaken (s : State) (key n : Nat) : State :=
  { s.putEntry n (s.newEntry key) with
    jcount := s.jcount + 1
    commits := s.commits ++ [{ ex := key, slot := n, sentAt := s.now, acked := !(s.newEntry key).xmod, orphan := false }] }

section
variable (hs : (s.exch (exKey die ctx)).st = .journal) (hn : s.commitOf (exKey die ctx) = none)
include hs hn

theorem onJournalCommit_journal :
    onJournalCommit die ctx s =
      let key := exKey die ctx
      let x := s.exch key
      match s.commitCheck die x.seam x.count with
      | some dev => (if dev = 2 then s.stick uPower Reg.HLD_ERR.LOW_ENERGY else s).refuseCommit key dev
      | none =>
        let e := s.newEntry key
        let r := (s.commitTaken key ((lowestFree s.usedSlots 16384 1).getD 0 0)).agentRead x.seam x.word1.toNat e.len
        if r.2.2 != .done then (r.1.agentFault x.seam r.2.2).refuseCommit key 8
        else
          let w := State.each (List.range 2) (fun b s => s.putPayload b e.pages r.2.1) r.1
          if e.xmod then w.sendCopy die e r.2.1 else w :=
  if_neg (by rw [hn]; rintro (h | h); exacts [h hs, Bool.false_ne_true h])

theorem onJournalCommit_refused {dev : Nat} (hc : s.commitCheck die (s.exch (exKey die ctx)).seam (s.exch (exKey die ctx)).count = some dev)
    (h2 : dev ≠ 2) : onJournalCommit die ctx s = s.refuseCommit (exKey die ctx) dev := by
  rw [onJournalCommit_journal hs hn]
  dsimp only
  rw [hc]
  dsimp only
  rw [if_neg h2]

variable (hc : s.commitCheck die (s.exch (exKey die ctx)).seam (s.exch (exKey die ctx)).count = none)
include hc

theorem onJournalCommit_unread :
    let key := exKey die ctx
    let x := s.exch key
    let r := (s.commitTaken key ((lowestFree s.usedSlots 16384 1).getD 0 0)).agentRead x.seam x.word1.toNat (s.newEntry key).len
    r.2.2 ≠ .done → onJournalCommit die ctx s = (r.1.agentFault x.seam r.2.2).refuseCommit key 8 := by
  intro key x r hr
  rw [onJournalCommit_journal hs hn]
  dsimp only
  rw [hc]
  exact if_pos (bne_iff_ne.2 hr)

theorem onJournalCommit_copied :
    let key := exKey die ctx
    let x := s.exch key
    let e := s.newEntry key
    let r := (s.commitTaken key ((lowestFree s.usedSlots 16384 1).getD 0 0)).agentRead x.seam x.word1.toNat e.len
    r.2.2 = .done →
      let w := State.each (List.range 2) (fun b s => s.putPayload b e.pages r.2.1) r.1
      onJournalCommit die ctx s = if e.xmod then w.sendCopy die e r.2.1 else w := by
  intro key x e r hr
  rw [onJournalCommit_journal hs hn]
  dsimp only
  rw [hc]
  exact if_neg (by rw [bne_iff_ne]; exact not_not_intro hr)

end

/-! ### COMMIT_POINT and PEER_ACK_TIMEOUT (R330, R332, R336) -/

section
variable {c : Commit} (hc : s.commitOf (exKey die ctx) = some c)
include hc

theorem onCommitPoint_commit :
    onCommitPoint die ctx s =
      let key := exKey die ctx
      let e := s.jentry c.slot
      if !c.orphan ∧ (s.exch key).haltNoted then ((s.freeSlot c.slot).dropCommit key).finish key 0x04 0
      else if s.powerFailing then s.refuseCommit key 7
      else if !(s.bankAvail 0 && s.bankAvail 1) then s.refuseCommit key 3
      else if !c.acked then s
      else
        let v := ((s.putEntry c.slot { e with marked := true }).dropCommit key).bump (uBank die) Reg.JNL_COUNT.COMMITTED
        let w := if c.orphan then v else v.setExch key { v.exch key with moved := e.len }
        (w.answerCommit key c.orphan e 0x02 0).startTargets c.slot := by
  unfold onCommitPoint
  dsimp only
  rw [hc]

theorem onCommitPoint_halted (ho : c.orphan = false) (hh : (s.exch (exKey die ctx)).haltNoted = true) :
    onCommitPoint die ctx s = ((s.freeSlot c.slot).dropCommit (exKey die ctx)).finish (exKey die ctx) 0x04 0 :=
  (onCommitPoint_commit hc).trans (if_pos ⟨by rw [ho]; rfl, hh⟩)

theorem onPeerAckTimeout_due (hk : c.acked = false)
    (ht : c.sentAt + (if s.rd (uBank die) Reg.JNL_CFG.PEER_US = 0 then 4 else s.rd (uBank die) Reg.JNL_CFG.PEER_US) * 1000 ≤ s.now) :
    onPeerAckTimeout die ctx s = s.refuseCommit (exKey die ctx) 6 := by
  unfold onPeerAckTimeout
  dsimp only
  rw [hc]
  exact if_neg (by rintro (h | h); exacts [absurd (hk ▸ h) Bool.false_ne_true, absurd h (Nat.not_lt.2 ht)])

variable (hh : (s.exch (exKey die ctx)).haltNoted = false)
include hh

theorem onCommitPoint_failing (hf : s.powerFailing = true) : onCommitPoint die ctx s = s.refuseCommit (exKey die ctx) 7 :=
  (onCommitPoint_commit hc).trans ((if_neg (by rw [hh]; exact fun h => Bool.false_ne_true h.2)).trans (if_pos hf))

variable (hf : s.powerFailing = false)
include hf

theorem onCommitPoint_lost (hb : s.bankAvail 0 = false ∨ s.bankAvail 1 = false) :
    onCommitPoint die ctx s = s.refuseCommit (exKey die ctx) 3 :=
  (onCommitPoint_commit hc).trans ((if_neg (by rw [hh]; exact fun h => Bool.false_ne_true h.2)).trans
    ((if_neg (ne_true_of_eq_false hf)).trans (if_pos (by rcases hb with hb | hb <;> rw [hb] <;> simp))))

/-- With both sides there the entry is marked, secured status is placed, and the target writes start. -/
theorem onCommitPoint_commits (ho : c.orphan = false) (h0 : s.bankAvail 0 = true) (h1 : s.bankAvail 1 = true) (hk : c.acked = true) :
    let key := exKey die ctx
    let e := s.jentry c.slot
    let v := ((s.putEntry c.slot { e with marked := true }).dropCommit key).bump (uBank die) Reg.JNL_COUNT.COMMITTED
    onCommitPoint die ctx s =
      ((v.setExch key { v.exch key with moved := e.len }).answerCommit key false e 0x02 0).startTargets c.slot := by
  refine (onCommitPoint_commit hc).trans ((if_neg (by rw [hh]; exact fun h => Bool.false_ne_true h.2)).trans
    ((if_neg (ne_true_of_eq_false hf)).trans ((if_neg (by rw [h0, h1]; decide)).trans ((if_neg (by rw [hk]; decide)).trans ?_))))
  simp only [ho, Bool.false_eq_true, if_false]

end

/-! ### TARGET_WRITE_DONE (R333, R334) -/

/-- The entry with one more target written. -/
abbrev JEntry.written (e : JEntry) (second : Bool) : JEntry := if second then { e with wr1 := true } else { e with wr0 := true }

section
variable {slot : Fin 16384} {second : Bool} {w : TargetWrite} (hw : s.targetOf slot second = some w)
include hw

theorem onTargetWriteDone_running (result : NvmeEnd) :
    onTargetWriteDone slot second result s =
      match result with
      | .error sct _ => if sct = 3 then s.targetFail slot second else (s.dropTarget slot second).holdEntry slot
      | .success =>
        let v := s.dropTarget slot second
        let e := (v.jentry slot).written second
        let u := v.putEntry slot e
        if e.wr0 && (e.wr1 || e.ntgt == 1) then u.retireEntry slot else u := by
  unfold onTargetWriteDone
  cases result <;> rw [hw] <;> rfl

theorem onTargetWriteDone_success :
    let v := s.dropTarget slot second
    let e := (v.jentry slot).written second
    let u := v.putEntry slot e
    onTargetWriteDone slot second .success s = if e.wr0 ∧ (e.wr1 = true ∨ e.ntgt = 1) then u.retireEntry slot else u := by
  simp only [onTargetWriteDone_running hw, Bool.and_eq_true, Bool.or_eq_true, beq_iff_eq]

end

/-! ### Journal commands (R334, R341, R342, R344) -/

section
variable {b : Nat}

theorem jnlRestore_busy (h : s.jcmd.isSome = true) : s.jnlRestore b = s := if_pos h
theorem jnlRedrive_busy (h : s.jcmd.isSome = true) : s.jnlRedrive b = s := if_pos h
theorem jnlDiscard_busy (h : s.jcmd.isSome = true) : s.jnlDiscard b = s := if_pos h

variable (h : s.jcmd = none)
include h

theorem jcmd_idle : ¬s.jcmd.isSome = true := by
  rw [h]
  exact Bool.false_ne_true

theorem jnlRestore_waits (hw : s.restoreWaits = true) : s.jnlRestore b = { s with jcmd := some (1, 0, b) } :=
  (if_neg (jcmd_idle h)).trans (if_pos hw)

theorem jnlRestore_runs (hw : s.restoreWaits = false) :
    s.jnlRestore b = { (s.doRestore (uBank b)).1 with jcmd := some (1, (s.doRestore (uBank b)).2, b) } :=
  (if_neg (jcmd_idle h)).trans (if_neg (ne_true_of_eq_false hw))

theorem jnlRedrive_all (ha : s.rd (uBank b) Reg.JNL_ARG.ARG = 0) :
    s.jnlRedrive b =
      { State.each (s.liveSlots.filter fun n => (s.jentry n).held) (fun n s => s.redriveEntry n) s with jcmd := some (2, 1, b) } :=
  (if_neg (jcmd_idle h)).trans (if_pos ha)

variable (ha : s.rd (uBank b) Reg.JNL_ARG.ARG ≠ 0)
include ha

theorem jnlRedrive_named :
    s.jnlRedrive b = match s.slotOfEntry (s.rd (uBank b) Reg.JNL_ARG.ARG) false with
      | none => s.startJnl b 2 4
      | some i => if (s.jentry i).held then (s.redriveEntry i).startJnl b 2 1 else s.startJnl b 2 3 :=
  (if_neg (jcmd_idle h)).trans (if_neg ha)

theorem jnlRedrive_unknown (hn : s.slotOfEntry (s.rd (uBank b) Reg.JNL_ARG.ARG) false = none) :
    s.jnlRedrive b = { s with jcmd := some (2, 4, b) } := by
  rw [jnlRedrive_named h ha, hn]
  rfl

theorem jnlRedrive_held {n : Nat} (hn : s.slotOfEntry (s.rd (uBank b) Reg.JNL_ARG.ARG) false = some n) (hh : (s.jentry n).held = true) :
    s.jnlRedrive b = { s.redriveEntry n with jcmd := some (2, 1, b) } := by
  rw [jnlRedrive_named h ha, hn]
  exact if_pos hh

theorem jnlRedrive_not_held {n : Nat} (hn : s.slotOfEntry (s.rd (uBank b) Reg.JNL_ARG.ARG) false = some n)
    (hh : (s.jentry n).held = false) : s.jnlRedrive b = { s with jcmd := some (2, 3, b) } := by
  rw [jnlRedrive_named h ha, hn]
  exact if_neg (ne_true_of_eq_false hh)

end

section
variable {sender : Sender} {bank : Fin 2} (hp : s.hasPower) (ha : Admits s sender (uBank bank) Reg.JNL_CMD.START.off)
include hp ha

theorem restore_admitted {t : State} (h : (s.wr (uBank bank) Reg.JNL_CMD.OP 1).jnlRestore bank = t) :
    Completes (.restore sender bank) s t :=
  run_of_eq hp ((command_of_admits ha).trans h)

theorem redrive_admitted {t : State} (h : (s.wr (uBank bank) Reg.JNL_CMD.OP 2).jnlRedrive bank = t) :
    Completes (.redrive sender bank) s t :=
  run_of_eq hp ((command_of_admits ha).trans h)

theorem discard_admitted {t : State} (h : (s.wr (uBank bank) Reg.JNL_CMD.OP 3).jnlDiscard bank = t) :
    Completes (.discard sender bank) s t :=
  run_of_eq hp ((command_of_admits ha).trans h)

end

/-! ### JNL_CMD_DONE and DRAIN_DONE (R338, R344) -/

/-- RESULT is shown, and no command runs. -/
abbrev State.jnlShown (s : State) (b r : Nat) : State := { s.wr (uBank b) Reg.JNL_CMD.RESULT r with jcmd := none }

/-- RESTORE that has run ends with its record. -/
abbrev State.restoreShown (s : State) (b r : Nat) : State :=
  let v := s.jnlShown b r
  let w : State := { v with restored := v.restored || r == 1 || r == 5 || r == 6 }
  w.tallyEvent (some (uBank b)) 0x09 0x04 7 0xFF (payload8 r (beBytes 8 0 ++ beBytes 2 (w.rd (uBank b) Reg.JNL_COUNT2.ONE_SIDED)))

theorem onJnlCmdDone_restore {result b : Nat} (h : s.jcmd = some (1, result, b)) (hr : result ≠ 0) :
    onJnlCmdDone s = s.restoreShown b result := by
  unfold onJnlCmdDone
  rw [h]
  exact (if_neg fun h => hr h.2).trans (if_neg fun h => absurd h.1 (by decide))

theorem onJnlCmdDone_discard {result b : Nat} (h : s.jcmd = some (3, result, b)) : onJnlCmdDone s = s.jnlShown b result := by
  unfold onJnlCmdDone
  rw [h]
  exact (if_neg fun h => absurd h.1 (by decide)).trans (if_neg fun h => absurd h.1 (by decide))

theorem onJnlCmdDone_redrive {b : Nat} (h : s.jcmd = some (2, 1, b)) (ht : s.targetWrites = []) :
    onJnlCmdDone s = s.jnlShown b (if s.liveSlots.any fun n => (s.jentry n).held then 5 else 1) := by
  unfold onJnlCmdDone
  rw [h]
  exact (if_neg fun h => absurd h.1 (by decide)).trans ((if_pos ⟨rfl, rfl⟩).trans (if_neg (by rw [ht]; decide)))

/-- What a drain writes of a bank. -/
abbrev State.drainImage (s : State) (d : Nat) : DrainImage :=
  { pcycle := s.pcycle, next := s.jcount % 2 ^ 32, whole := true
    entries := ((s.jslots.filter fun e => e.1 / 16384 == d && e.2.live).map Prod.snd).map fun e => (e, s.payload d e) }

theorem onDrainDone_first (hd : s.draining.look false die = true) (ho : (s.draining.put false die false).look false (1 - die.val) = true) :
    onDrainDone die s = State.wr
      { s with draining := s.draining.put false die false, images := s.images.put none die (some (s.drainImage die)) } (uDrain die)
        Reg.DRN_LAST.LAST_US (drainUs (s.drainImage die).size) :=
  (if_neg (by rw [hd]; decide)).trans (if_pos ho)

/-- Settles O48: each command and event by its checks, in their order. COMMITTED is counted in the bank of the exchange's die, what RESTORE
erases is that of log entry 91, the items of the payloads are those of log entry 25, and the commit point judges the power before the
banks, which is the model's choice. -/
theorem journalCommandsAct : Obligations.JournalCommandsAct := by
  unfold Obligations.JournalCommandsAct
  intro s sender die bank ctx slot second hp
  have named (n : Nat) : (s.wr (uBank bank) Reg.JNL_CMD.OP n).jcmd = s.jcmd := rfl
  refine ⟨fun hs hn => ⟨fun dev hc h2 => run_of_eq hp (onJournalCommit_refused hs hn hc h2),
      fun hc => ⟨fun hr => run_of_eq hp (onJournalCommit_unread hs hn hc hr), fun hr => run_of_eq hp (onJournalCommit_copied hs hn hc hr)⟩⟩,
    fun c hc => ⟨fun ho hh => run_of_eq hp (onCommitPoint_halted hc ho hh),
      fun ho hh => ⟨fun hf => run_of_eq hp (onCommitPoint_failing hc hh hf), fun hf hb => run_of_eq hp (onCommitPoint_lost hc hh hf hb),
        fun hf h0 h1 hk => run_of_eq hp (onCommitPoint_commits hc hh hf ho h0 h1 hk)⟩,
      fun hk ht => run_of_eq hp (onPeerAckTimeout_due hc hk ht)⟩,
    fun w hw => ⟨fun sct code h3 => run_of_eq hp ((onTargetWriteDone_running hw _).trans (if_pos h3)),
      fun sct code h3 => run_of_eq hp ((onTargetWriteDone_running hw _).trans (if_neg h3)),
      run_of_eq hp (onTargetWriteDone_success hw)⟩,
    fun ha => ⟨fun hb => ⟨restore_admitted hp ha (jnlRestore_busy ((named 1).symm ▸ hb)),
        redrive_admitted hp ha (jnlRedrive_busy ((named 2).symm ▸ hb)), discard_admitted hp ha (jnlDiscard_busy ((named 3).symm ▸ hb))⟩,
      fun hi => ⟨fun hw => restore_admitted hp ha (jnlRestore_waits ((named 1).trans hi) hw),
        fun hw => restore_admitted hp ha (jnlRestore_runs ((named 1).trans hi) hw),
        ⟨fun h0 => redrive_admitted hp ha (jnlRedrive_all ((named 2).trans hi) h0),
          fun h0 hn => redrive_admitted hp ha (jnlRedrive_unknown ((named 2).trans hi) h0 hn),
          fun n h0 hn hh => redrive_admitted hp ha (jnlRedrive_held ((named 2).trans hi) h0 hn hh),
          fun n h0 hn hh => redrive_admitted hp ha (jnlRedrive_not_held ((named 2).trans hi) h0 hn hh)⟩,
        discard_admitted hp ha rfl⟩⟩,
    fun result b h hr => run_of_eq hp (onJnlCmdDone_restore h hr), fun result b h => run_of_eq hp (onJnlCmdDone_discard h),
    fun b h ht => run_of_eq hp (onJnlCmdDone_redrive h ht), fun hd ho => run_of_eq hp (onDrainDone_first hd ho)⟩

end Sys2Proof.Machine
end

section
/-! PROOFS. Lane links and the coupling link layer (R382-R398). -/

namespace Sys2Proof.Machine

variable {s : State}

/-! ### Lane links (R383) -/

section
variable {b : BitVec 7}

theorem onRetrainAttempt_due (hu : (s.link b.toNat).up = false) (he : s.isEth b.toNat = false)
    (ht : (s.trainable b.toNat).isSome = true) (hd : (s.link b.toNat).downAt + 100000000 ≤ s.now) :
    onRetrainAttempt b s = s.setLink b.toNat { s.link b.toNat with downAt := s.now } :=
  if_pos ⟨by rw [hu]; rfl, by rw [he]; rfl, ht, hd⟩

/-- Does a link of width code `code` fit its configuration (R383, R387)? -/
def State.linkFits (s : State) (lane code : Nat) (width : Fin 5) (rate : BitVec 8) : Bool :=
  if s.isEth lane then width.val == code
  else decide (width.val ≤ code) && decide (1 ≤ rate.toNat) && decide (rate.toNat ≤ s.rd (laneUnit lane) Reg.LNK_CFG.MAXRATE)

theorem linkFits_true {lane code : Nat} {width : Fin 5} {rate : BitVec 8} (he : s.isEth lane = true → width.val = code)
    (hpc : s.isEth lane = false → width.val ≤ code ∧ 1 ≤ rate.toNat ∧ rate.toNat ≤ s.rd (laneUnit lane) Reg.LNK_CFG.MAXRATE) :
    s.linkFits lane code width rate = true := by
  unfold State.linkFits
  cases h : s.isEth lane with
  | true => simp [he h]
  | false => simp [hpc h]

theorem onLinkUp_trainable {code : Nat} {width : Fin 5} {rate : BitVec 8} (ht : s.trainable b.toNat = some code)
    (hu : (s.link b.toNat).up = false) (hf : s.linkFits b.toNat code width rate = true) :
    onLinkUp b width rate s = s.setLink b.toNat
      { s.link b.toNat with up := true, degraded := decide (width.val < code), width := width.val, rate := rate.toNat } := by
  unfold onLinkUp
  dsimp only
  rw [ht]
  refine if_neg (not_or.2 ⟨ne_true_of_eq_false hu, ?_⟩)
  rw [show (if s.isEth b.toNat then _ else _) = true from hf]
  decide

end

/-! ### Inbound requests (R384) -/

section
variable {b : BitVec 7} {addr : Word} (hu : (s.link b.toNat).up = true) (he : s.isEth b.toNat = false)
include hu he

/-- An up PCI Express lane passes the first check of an inbound request. -/
theorem lane_serves : ¬((!(s.link b.toNat).up) = true ∨ s.isEth b.toNat = true) := by
  rw [hu, he]
  decide

theorem onInboundRequest_read (h1 : addr.field 0 1 = 1) (len : BitVec 13) :
    onInboundRequest b addr (.read len) s =
      if addr.field 8 15 ≠ 0 ∨ (!s.inboundAccepts b.toNat (addr.field 2 7) (addr.field 16 63) len.toNat) = true then
        s.inboundRefuse b.toNat
      else
        let r := s.agentRead (addr.field 2 7) (addr.field 16 63) len.toNat
        if r.2.2 = .done then { r.1 with outbox := r.1.outbox ++ [Out.completion b.toNat true r.2.1] }
        else (r.1.agentFault (addr.field 2 7) r.2.2).inboundRefuse b.toNat := by
  refine (if_neg (lane_serves hu he)).trans ?_
  rw [h1]
  rfl

theorem onInboundRequest_write (h1 : addr.field 0 1 = 1) (data : List Byte) :
    onInboundRequest b addr (.write data) s =
      if addr.field 8 15 ≠ 0 ∨ (!s.inboundAccepts b.toNat (addr.field 2 7) (addr.field 16 63) data.length) = true then
        s.inboundRefuse b.toNat
      else
        let r := s.agentWrite (addr.field 2 7) (addr.field 16 63) data
        if r.2 = .done then r.1 else (r.1.agentFault (addr.field 2 7) r.2).inboundRefuse b.toNat := by
  refine (if_neg (lane_serves hu he)).trans ?_
  rw [h1]
  rfl

theorem onInboundRequest_msi (h2 : addr.field 0 1 = 2) (data : List Byte) :
    onInboundRequest b addr (.write data) s =
      let h := b.toNat / 64 * 32 + addr.field 48 52
      let v := s.setLink b.toNat { s.link b.toNat with
        rx := (s.link b.toNat).rx ++
          [{ bytes := [], msi := some ((data.getD 0 0).toNat + 256 * (data.getD 1 0).toNat), hauler := some h }] }
      v.setHauler h { v.hauler h with evtMisc := (v.hauler h).evtMisc ||| hbit 0 } := by
  refine (if_neg (lane_serves hu he)).trans ?_
  rw [h2]
  rfl

theorem onInboundRequest_other (req : Inbound) (h : addr.field 0 1 = 0 ∨ addr.field 0 1 = 3) :
    onInboundRequest b addr req s = s.inboundRefuse b.toNat := by
  refine (if_neg (lane_serves hu he)).trans ?_
  rcases h with h | h <;> rw [h] <;> cases req <;> rfl

end

section
variable {b : BitVec 7} {addr : Word} {lane tag a n : Nat}

/-- What refuses an inbound memory access before it is made (R384). -/
theorem inbound_refused (h : addr.field 8 15 ≠ 0 ∨ s.inboundAccepts lane tag a n = false) :
    addr.field 8 15 ≠ 0 ∨ (!s.inboundAccepts lane tag a n) = true :=
  h.imp_right fun h => by rw [h]; rfl

theorem inbound_accepted (h0 : addr.field 8 15 = 0) (h : s.inboundAccepts lane tag a n = true) :
    ¬(addr.field 8 15 ≠ 0 ∨ (!s.inboundAccepts lane tag a n) = true) := by
  rw [h0, h]
  decide

end

/-- The requests of an up PCI Express lane, by the class of their address. -/
theorem inboundRequests_act {b : BitVec 7} {addr : Word} (hp : s.hasPower) (hu : (s.link b.toNat).up = true)
    (he : s.isEth b.toNat = false) :
    let n := b.toNat
    let tag := addr.field 2 7
    let a := addr.field 16 63
    (∀ len, addr.field 0 1 = 1 →
      let i : Instr := .inboundRequest b addr (.read len)
      (addr.field 8 15 ≠ 0 ∨ s.inboundAccepts n tag a len.toNat = false → Completes i s (s.inboundRefuse n)) ∧
      (let r := s.agentRead tag a len.toNat
       addr.field 8 15 = 0 → s.inboundAccepts n tag a len.toNat = true →
        (r.2.2 = .done → Completes i s { r.1 with outbox := r.1.outbox ++ [Out.completion n true r.2.1] }) ∧
        (r.2.2 ≠ .done → Completes i s ((r.1.agentFault tag r.2.2).inboundRefuse n)))) ∧
    (∀ data, addr.field 0 1 = 1 →
      let i : Instr := .inboundRequest b addr (.write data)
      (addr.field 8 15 ≠ 0 ∨ s.inboundAccepts n tag a data.length = false → Completes i s (s.inboundRefuse n)) ∧
      (let r := s.agentWrite tag a data (fun _ => none)
       addr.field 8 15 = 0 → s.inboundAccepts n tag a data.length = true →
        (r.2 = .done → Completes i s r.1) ∧ (r.2 ≠ .done → Completes i s ((r.1.agentFault tag r.2).inboundRefuse n)))) ∧
    (∀ data, addr.field 0 1 = 2 →
      let h := n / 64 * 32 + addr.field 48 52
      let v := s.setLink n { s.link n with
        rx := (s.link n).rx ++ [{ bytes := [], msi := some ((data.getD 0 0).toNat + 256 * (data.getD 1 0).toNat), hauler := some h }] }
      Completes (.inboundRequest b addr (.write data)) s
        (v.setHauler h { v.hauler h with evtMisc := (v.hauler h).evtMisc ||| hbit 0 })) ∧
    (∀ req, addr.field 0 1 = 0 ∨ addr.field 0 1 = 3 → Completes (.inboundRequest b addr req) s (s.inboundRefuse n)) := by
  refine ⟨fun len h1 => ⟨fun hr => ?_, fun h0 ha => ?_⟩, fun data h1 => ⟨fun hr => ?_, fun h0 ha => ?_⟩,
    fun data h2 => run_of_eq hp (onInboundRequest_msi hu he h2 data), fun req h => run_of_eq hp (onInboundRequest_other hu he req h)⟩
  · exact run_of_eq hp ((onInboundRequest_read hu he h1 len).trans (if_pos (inbound_refused hr)))
  · have accepted := (onInboundRequest_read hu he h1 len).trans (if_neg (inbound_accepted h0 ha))
    exact ⟨fun hd => run_of_eq hp (accepted.trans (if_pos hd)), fun hd => run_of_eq hp (accepted.trans (if_neg hd))⟩
  · exact run_of_eq hp ((onInboundRequest_write hu he h1 data).trans (if_pos (inbound_refused hr)))
  · have accepted := (onInboundRequest_write hu he h1 data).trans (if_neg (inbound_accepted h0 ha))
    exact ⟨fun hd => run_of_eq hp (accepted.trans (if_pos hd)), fun hd => run_of_eq hp (accepted.trans (if_neg hd))⟩

/-! ### Received frames (R388, R389) -/

section
variable {b : BitVec 7} {frame : List Byte}

/-- The receive buffer of a group (R388). -/
def State.rxBufferSize (s : State) (lane : Nat) : Nat := 524288 * (match s.widthAt lane with | some 2 => 4 | _ => 1)

theorem rxBufferSize_eq (lane : Nat) : s.rxBufferSize lane = 524288 * (if s.widthAt lane = some 2 then 4 else 1) := by
  unfold State.rxBufferSize
  split
  next h => rw [if_pos h]
  next h => rw [if_neg h]

variable (hu : (s.link b.toNat).up = true) (he : s.isEth b.toNat = true)
include hu he

theorem onFrameReceive_length (h : ¬(64 ≤ frame.length ∧ frame.length ≤ 9604)) :
    onFrameReceive b frame s = s.bump (laneUnit b.toNat) (Reg.LNK_ETH_STAT.RX_LEN.ix (b.toNat % 4)) :=
  (if_neg (by rw [hu, he]; decide)).trans (if_pos (by omega))

variable (hl : 64 ≤ frame.length ∧ frame.length ≤ 9604)
include hl

theorem onFrameReceive_fcs (h : withFcs (frame.take (frame.length - 4)) ≠ frame) :
    onFrameReceive b frame s = s.bump (laneUnit b.toNat) (Reg.LNK_ETH_STAT.RX_FCS.ix (b.toNat % 4)) :=
  (if_neg (by rw [hu, he]; decide)).trans ((if_neg (by omega)).trans (if_pos h))

variable (hf : withFcs (frame.take (frame.length - 4)) = frame)
include hf

theorem onFrameReceive_checksum (h : badChecksum (frame.take (frame.length - 4)) = true) :
    onFrameReceive b frame s = s.bump (laneUnit b.toNat) (Reg.LNK_ETH_STAT.RX_CSUM.ix (b.toNat % 4)) :=
  (if_neg (by rw [hu, he]; decide)).trans ((if_neg (by omega)).trans ((if_neg (not_not_intro hf)).trans (if_pos h)))

theorem onFrameReceive_delivered {sch : Nat} (hc : badChecksum (frame.take (frame.length - 4)) = false)
    (hm : recNum (frame.take (frame.length - 4)) 12 2 ≠ 0x8808)
    (hr : s.bufferedAll b.toNat + (frame.take (frame.length - 4)).length ≤ s.rxBufferSize b.toNat)
    (ht : s.frameTaker b.toNat (frame.take (frame.length - 4)) = some sch) :
    onFrameReceive b frame s = State.pfcCheck
      { s with ethQueue := s.ethQueue.put [] sch (s.ethQueue.look [] sch ++ [(b.toNat, frame.take (frame.length - 4))]) } b.toNat := by
  refine (if_neg (by rw [hu, he]; decide)).trans ((if_neg (by omega)).trans ((if_neg (not_not_intro hf)).trans
    ((if_neg (ne_true_of_eq_false hc)).trans ((if_neg hm).trans ((if_neg (Nat.not_lt.2 hr)).trans ?_)))))
  rw [ht]

end

/-- The checks of a received frame, in order, and its delivery. -/
theorem frameReceive_acts {b : BitVec 7} {frame : List Byte} (hp : s.hasPower) (hu : (s.link b.toNat).up = true)
    (he : s.isEth b.toNat = true) :
    let n := b.toNat
    let u := laneUnit n
    let f := frame.take (frame.length - 4)
    let size := 524288 * (if s.widthAt n = some 2 then 4 else 1)
    let i : Instr := .frameReceive b frame
    let sized := 64 ≤ frame.length ∧ frame.length ≤ 9604
    (¬sized → Completes i s (s.bump u (Reg.LNK_ETH_STAT.RX_LEN.ix (n % 4)))) ∧
    (sized → withFcs f ≠ frame → Completes i s (s.bump u (Reg.LNK_ETH_STAT.RX_FCS.ix (n % 4)))) ∧
    (sized → withFcs f = frame → badChecksum f = true → Completes i s (s.bump u (Reg.LNK_ETH_STAT.RX_CSUM.ix (n % 4)))) ∧
    (∀ sch, sized → withFcs f = frame → badChecksum f = false → recNum f 12 2 ≠ 0x8808 → s.bufferedAll n + f.length ≤ size →
      s.frameTaker n f = some sch → Completes i s
        (State.pfcCheck { s with ethQueue := s.ethQueue.put [] sch (s.ethQueue.look [] sch ++ [(n, f)]) } n)) :=
  ⟨fun h => run_of_eq hp (onFrameReceive_length hu he h), fun hl h => run_of_eq hp (onFrameReceive_fcs hu he hl h),
    fun hl hf h => run_of_eq hp (onFrameReceive_checksum hu he hl hf h), fun _ hl hf hc hm hr ht =>
    run_of_eq hp (onFrameReceive_delivered hu he hl hf hc hm (rxBufferSize_eq (s := s) b.toNat ▸ hr) ht)⟩

/-! ### The coupling link layer (R392-R395) -/

section
variable {g : Fin 4} {head : FrameHead}

/-- The state after a failed lane has been noted. -/
def State.laneFailed (s : State) (g lane : Fin 4) : State :=
  (s.setCpl g { s.cpl g with failed := (s.cpl g).failed ||| (1#4 <<< lane.val) }).stick (uCpl g) Reg.CPL_ERR.LANE_FAIL

theorem onCouplingLaneFail_runs {lane : Fin 4} (h : 2 ≤ ((s.laneFailed g lane).cpl g).good) :
    onCouplingLaneFail g lane s = s.laneFailed g lane := if_neg (Nat.not_lt.2 h)

theorem onCouplingLaneFail_down {lane : Fin 4} (h : ((s.laneFailed g lane).cpl g).good < 2) :
    onCouplingLaneFail g lane s = ((s.laneFailed g lane).cplDown g).cplSettle g := if_pos h

theorem onInit_down {c0 c1 c2 c3 : BitVec 16} (hu : (s.cpl g).up = false) (he : s.flag (uCpl g) Reg.CPL_LINK.ENABLE = true)
    (ho : s.operates (uCpl g) = true) (hs : s.stopped = false) (hg : 2 ≤ (s.cpl g).good) :
    onInit g c0 c1 c2 c3 s =
      let credits : Table Nat := (((Table.put 0 [] 0 c0.toNat).put 0 1 c1.toNat).put 0 2 c2.toNat).put 0 3 c3.toNat
      ((s.setCpl g { Coupling.reset with up := true, failed := (s.cpl g).failed, credits := credits, heard := s.now }).cplPlain g 0x02 0 0
        (beBytes 2 64 ++ beBytes 2 2048 ++ beBytes 2 64 ++ beBytes 2 64)).enumOnUp g := by
  refine if_neg ?_
  rw [hu, he, ho, hs]
  simpa [Nat.lt_iff_add_one_le] using hg

variable (hp : s.hasPower) (hu : (s.cpl g).up = true)
include hp hu

/-- What an up group does with a frame without a SEQ, a bad frame, and silence. -/
theorem upGroup_acts :
    Completes (.idle g head) s (s.cplAck g head) ∧
    Completes (.nak g head) s ((s.cplReplay g head.ack.toNat).cplSettle g) ∧
    ((s.cpl g).heard + 10000 ≤ s.now → Completes (.couplingSilence g) s ((s.cplDown g).cplSettle g)) ∧
    Completes (.couplingFrameCrcError g) s ((s.setCpl g { s.cpl g with heard := s.now }).cplPlain g 0x01 0 0 []) ∧
    (∀ type : BitVec 8, knownType type.toNat = false →
      Completes (.reservedFrameType g type) s ((s.creditError g).cplSettle g)) :=
  ⟨run_of_eq hp (if_pos hu), run_of_eq hp (if_pos hu), fun h => run_of_eq hp (if_pos ⟨hu, h⟩), run_of_eq hp (if_pos hu),
    fun _ h => run_of_eq hp (if_pos ⟨hu, by rw [h]; rfl⟩)⟩

end

/-- Settles O49, command by command: each check that fails ends a request or a frame, and each group and lane acts on its own state.
INIT's own credits are log entry 16, the little-endian MSI data and the width and rate of LINK_UP log entry 42, and two good lanes as
the limit of a group log entry 118: these clauses are the model's choice. -/
theorem linksAndCouplingLayerAct : Obligations.LinksAndCouplingLayerAct := by
  unfold Obligations.LinksAndCouplingLayerAct
  intro s b g lane head hp
  exact ⟨run_of_eq hp rfl, fun hu he ht hd => run_of_eq hp (onRetrainAttempt_due hu he ht hd),
    fun code width rate ht hu he hpc => run_of_eq hp (onLinkUp_trainable ht hu (linkFits_true he hpc)),
    fun hu he addr => inboundRequests_act hp hu he, fun hu he frame => frameReceive_acts hp hu he,
    fun hu => upGroup_acts hp hu, fun c0 c1 c2 c3 hu he ho hs hg => run_of_eq hp (onInit_down hu he ho hs hg),
    fun h => run_of_eq hp (onCouplingLaneFail_runs h), fun h => run_of_eq hp (onCouplingLaneFail_down h)⟩

end Sys2Proof.Machine
end

section
/-! PROOFS. Coupling frames, enumeration and remote page accesses (R395-R400). -/

namespace Sys2Proof.Machine

/-- The state in which a frame of `bytes` bytes has been received (R394). -/
abbrev State.received (s : State) (g : Fin 4) (head : FrameHead) (vc bytes : Nat) : State :=
  (s.cplTake g head vc ((bytes + 31) / 32)).1

/-- Is the frame accepted in order? -/
abbrev State.inOrder (s : State) (g : Fin 4) (head : FrameHead) (vc bytes : Nat) : Prop :=
  (s.cplTake g head vc ((bytes + 31) / 32)).2 = true

variable {s : State} {sender : Sender} {g : Fin 4} {head : FrameHead}

/-! ### HELLO, ROSTER and STATUS (R395, R398, R399) -/

section
variable {lot : BitVec 40} {cxid : BitVec 16} {group : BitVec 8} {lots : List (BitVec 40)}

/-- What a HELLO says of a group's peer. -/
abbrev Coupling.told (c : Coupling) (lot : BitVec 40) (cxid : BitVec 16) (group : BitVec 8) (lots : List (BitVec 40)) : Coupling :=
  { c with peerLot := lot.toNat, peerGroup := group.toNat, peerCxid := cxid.toNat, peerLots := lots.map BitVec.toNat }

/-- What a HELLO brings about that changed what is known of the peer: it is told on every up group, and the enumeration is judged. -/
def State.peerChanged (v : State) (g lot : Nat) : State :=
  let u := if v.flag uModule Reg.CPL_CX.EN = true ∧ v.rd uModule Reg.CPL_CX.CXID ≠ 0 then
      State.each (List.range 4) (fun i s => if (s.cpl i).up then s.sendHello i else s) v
    else v
  if u.rd uModule Reg.CPL_ENUM.RESULT = 1 then
    if u.complex.lots.head? = some ownLot ∧ u.complex.lots.contains lot then u.sendRoster g u.complex.lots else u
  else u.enumCheck

theorem peerChanged_disabled {v : State} {g lot : Nat} (he : v.flag uModule Reg.CPL_CX.EN = false)
    (hr : v.rd uModule Reg.CPL_ENUM.RESULT ≠ 1) : v.peerChanged g lot = v.enumCheck := by
  unfold State.peerChanged
  have off : ¬(v.flag uModule Reg.CPL_CX.EN = true ∧ v.rd uModule Reg.CPL_CX.CXID ≠ 0) := fun e =>
    Bool.false_ne_true (he.symm.trans e.1)
  rw [if_neg off]
  exact if_neg hr

variable (ht : s.inOrder g head 0 (8 + 5 * lots.length))
include ht

theorem onHello_same :
    let w := s.received g head 0 (8 + 5 * lots.length)
    w.cpl g = (w.cpl g).told lot cxid group lots → onHello g head lot cxid group lots s = w.enumCheck := by
  intro w h
  exact (cplFrame_accepted _ ht).trans (if_pos h)

/-- With the complex not enabled nothing is told, and the enumeration is judged. -/
theorem onHello_changed :
    let w := s.received g head 0 (8 + 5 * lots.length)
    let v := w.setCpl g ((w.cpl g).told lot cxid group lots)
    w.cpl g ≠ (w.cpl g).told lot cxid group lots → v.flag uModule Reg.CPL_CX.EN = false → v.rd uModule Reg.CPL_ENUM.RESULT ≠ 1 →
      onHello g head lot cxid group lots s = v.enumCheck := by
  intro w v h he hr
  exact (cplFrame_accepted _ ht).trans ((if_neg h).trans (peerChanged_disabled (v := v) he hr))

end

section
variable {l0 l1 l2 l3 : BitVec 40} (ht : s.inOrder g head 0 20)
include ht

theorem onRoster_accepted :
    onRoster g head l0 l1 l2 l3 s =
      let w := s.received g head 0 20
      let lots := ([l0, l1, l2, l3].map BitVec.toNat).filter (· != 0)
      if w.flag uModule Reg.CPL_CX.EN = true ∧ w.rd uModule Reg.CPL_CX.CXID ≠ 0 ∧
        (w.cpl g).peerCxid = w.rd uModule Reg.CPL_CX.CXID ∧ lots.contains ownLot = true then
        if w.rd uModule Reg.CPL_ENUM.RESULT = 1 ∧ w.complex.lots = lots then w else w.enumDone lots
      else w :=
  cplFrame_accepted _ ht

end

theorem roster_acts (hp : s.hasPower) (l0 l1 l2 l3 : BitVec 40) (ht : s.inOrder g head 0 20) :
    let w := s.received g head 0 20
    let lots := ([l0, l1, l2, l3].map BitVec.toNat).filter (· != 0)
    let mine := w.flag uModule Reg.CPL_CX.EN = true ∧ w.rd uModule Reg.CPL_CX.CXID ≠ 0 ∧
      (w.cpl g).peerCxid = w.rd uModule Reg.CPL_CX.CXID ∧ lots.contains ownLot = true
    let done := w.rd uModule Reg.CPL_ENUM.RESULT = 1 ∧ w.complex.lots = lots
    (mine → ¬done → Completes (.roster g head l0 l1 l2 l3) s (w.enumDone lots)) ∧
    (¬mine ∨ done → Completes (.roster g head l0 l1 l2 l3) s w) := by
  intro w lots mine done
  have roster := onRoster_accepted (l0 := l0) (l1 := l1) (l2 := l2) (l3 := l3) ht
  refine ⟨fun hm hd => run_of_eq hp (roster.trans ((if_pos hm).trans (if_neg hd))), fun h => ?_⟩
  by_cases hm : mine
  · exact run_of_eq hp (roster.trans ((if_pos hm).trans (if_pos (h.resolve_left (not_not_intro hm)))))
  · exact run_of_eq hp (roster.trans (if_neg hm))

theorem onStatus_accepted {sticky live : Word} {m : Nat} (ht : s.inOrder g head 0 16) :
    let w := s.received g head 0 16
    w.memberAt g = some m →
      onStatus g head sticky live s = { w with complex := { w.complex with
        summary := w.complex.summary.put 0 m ((if sticky = 0 then 0 else 2) + (if live = 0 then 0 else 1)) } } := by
  intro w hm
  refine (cplFrame_accepted _ ht).trans ?_
  dsimp only
  rw [hm]

theorem onStatusPeriod_member (h : s.complex.lots ≠ []) : onStatusPeriod s = s.tellStatus :=
  if_neg (by rwa [List.isEmpty_iff])

/-! ### Mirrored journals (R396, R397) -/

section
variable {w : State}

/-- The copies that were arriving on a group are abandoned. -/
abbrev State.copiesAbandoned (w : State) (g : Nat) : State :=
  let a := State.each (w.jrecv.filter fun r => r.group == g) (fun r s => s.freeSlot r.slot) w
  { a with jrecv := a.jrecv.filter fun (r : JRecv) => r.group != g }

/-- The slots of an announced copy that is held without a mark are free again. -/
abbrev State.copyRestarted (v : State) (again : List Nat) : State :=
  let f := State.each again (fun n s => s.freeSlot n) v
  { f with jrecv := f.jrecv.filter fun (r : JRecv) => !again.contains r.slot }

end

section
variable {header : BitVec 1024} {m : Nat}

/-- What an announced copy of member `m` brings about (R396). -/
def State.announceCopy (w : State) (g : Fin 4) (head : FrameHead) (header : BitVec 1024) (m : Nat) : State :=
  let e := entryOfBytes (lineBytes header)
  let v := w.copiesAbandoned g
  if ((v.copySlot? m e.num).any fun n => (v.jentry n).marked) = true then v.cplSend g 0x32 0 (beBytes 8 e.num)
  else
    let y := v.copyRestarted (v.copySlot? m e.num).toList
    if (!y.copyRoom e.len) = true then y.cplSend g 0x33 1 (beBytes 8 e.num)
    else
      let n := (lowestFree y.usedSlots 16384 1).getD 0 0
      let x := y.putEntry n
        { e with seam := 0x40 + m, pages := lowestFree y.usedPages 16384 (pagesOf e.len), used := true, marked := false }
      { x with
        jrecv := x.jrecv ++ [{ group := g.val, slot := n, header := lineBytes header, chunks := head.tag.toNat, got := [] }] }

theorem onJmHdr_eq :
    onJmHdr g head header s = s.cplFrame g head 1 128 fun w =>
      match w.memberAt g with
      | none => w
      | some m => w.announceCopy g head header m := rfl

theorem onJmHdr_member (ht : s.inOrder g head 1 128) (hm : (s.received g head 1 128).memberAt g = some m) :
    onJmHdr g head header s = (s.received g head 1 128).announceCopy g head header m := by
  rw [onJmHdr_eq, cplFrame_accepted _ ht, hm]

end

section
variable {payload : List Byte} {r : JRecv} (ht : s.inOrder g head 1 payload.length)
  (hr : ((s.received g head 1 payload.length).jrecv.find? fun r => r.group == g.val) = some r)
include ht hr

/-- The copy that arrives, with one more chunk. -/
abbrev JRecv.gets (r : JRecv) (n : Nat) (payload : List Byte) : JRecv := { r with got := r.got.put [] n (payload.take 256) }

theorem onJmData_arriving :
    onJmData g head payload s =
      let w := s.received g head 1 payload.length
      let r' := r.gets head.tag.toNat payload
      let rest := w.jrecv.filter fun (q : JRecv) => q.group != g.val
      if r'.got.length < r'.chunks then { w with jrecv := rest ++ [r'] }
      else
        let v : State := { w with jrecv := rest }
        let e := v.jentry r'.slot
        if (!(v.bankAvail 0 && v.bankAvail 1)) = true then (v.freeSlot r'.slot).cplSend g 0x33 2 (beBytes 8 e.num)
        else
          let bytes := ((List.range r'.chunks).flatMap fun n => r'.got.look [] n).take e.len
          let x := State.each (List.range 2) (fun d s => s.putPayload d e.pages bytes) v
          (x.putEntry r'.slot { e with marked := true }).cplSend g 0x32 0 (beBytes 8 e.num) := by
  refine (cplFrame_accepted _ ht).trans ?_
  dsimp only
  rw [hr]

end

section
variable {num : Word} {c : Commit} (ht : s.inOrder g head 2 8) (hc : (s.received g head 2 8).commitNumbered num.toNat = some c)
include ht hc

theorem onJmAck_commit :
    let w := s.received g head 2 8
    onJmAck g head num s = { w with commits := w.commits.map fun (x : Commit) => if x.ex = c.ex then { x with acked := true } else x } := by
  refine (cplFrame_accepted _ ht).trans ?_
  rw [hc]

theorem onJmNack_commit (hk : c.acked = false) : onJmNack g head num s = (s.received g head 2 8).refuseCommit c.ex 6 := by
  refine (cplFrame_accepted _ ht).trans ?_
  rw [hc]
  exact if_neg (ne_true_of_eq_false hk)

end

theorem onJmRetire_copy {num : Word} {m n : Nat} (ht : s.inOrder g head 1 8) :
    let w := s.received g head 1 8
    w.memberAt g = some m → w.copySlot? m num.toNat = some n →
      onJmRetire g head num s = if (w.jentry n).marked then w.freeSlot n else w := by
  intro w hm hn
  refine (cplFrame_accepted _ ht).trans ?_
  rw [hm]
  dsimp only
  rw [hn]

/-! ### Remote page accesses (R400) -/

section
variable {result : RemoteEnd} {tag since : Nat} (ht : s.inOrder g head 3 9)
  (ha : (s.received g head 3 9).complex.access = some (tag, since)) (hn : tag = head.tag.toNat)
include ht ha hn

theorem onPageRsp_access :
    onPageRsp g head result s =
      let w := s.received g head 3 9
      let v : State := { w with complex := { w.complex with access := none } }
      match result with
      | .data d => (v.wr uComplex Reg.CPL_RA_DATA.DATA d.toNat).wr uComplex Reg.CPL_RA_CTL.RESULT 1
      | .done => v.wr uComplex Reg.CPL_RA_CTL.RESULT 1
      | .error => v.wr uComplex Reg.CPL_RA_CTL.RESULT 2
      | .refused => v.wr uComplex Reg.CPL_RA_CTL.RESULT 3 := by
  refine (cplFrame_accepted _ ht).trans ?_
  dsimp only
  rw [ha]
  exact if_neg (not_not_intro hn)

end

theorem onCplRaTimeout_due {tag since : Nat} (ha : s.complex.access = some (tag, since)) (hd : since + 5000 ≤ s.now) :
    onCplRaTimeout s = State.wr { s with complex := { s.complex with access := none } } uComplex Reg.CPL_RA_CTL.RESULT 4 := by
  unfold onCplRaTimeout
  rw [ha]
  exact if_pos hd

/-! ### The obligation -/

theorem jmHdr_acts (hp : s.hasPower) (header : BitVec 1024) (m : Nat) :
    let w := s.received g head 1 128
    s.inOrder g head 1 128 → w.memberAt g = some m →
    let bytes := lineBytes header
    let e := entryOfBytes bytes
    let v := w.copiesAbandoned g
    let i : Instr := .jmHdr g head header
    let y := v.copyRestarted (v.copySlot? m e.num).toList
    let dup := (v.copySlot? m e.num).any fun n => (v.jentry n).marked
    (dup = true → Completes i s (v.cplSend g 0x32 0 (beBytes 8 e.num))) ∧
    (dup = false → y.copyRoom e.len = false → Completes i s (y.cplSend g 0x33 1 (beBytes 8 e.num))) ∧
    (dup = false → y.copyRoom e.len = true →
      let n := (lowestFree y.usedSlots 16384 1).getD 0 0
      let x := y.putEntry n
        { e with seam := 0x40 + m, pages := lowestFree y.usedPages 16384 (pagesOf e.len), used := true, marked := false }
      Completes i s { x with
        jrecv := x.jrecv ++ [{ group := g.val, slot := n, header := bytes, chunks := head.tag.toNat, got := [] }] }) := by
  intro w ht hm bytes e v i y dup
  have announced := onJmHdr_member (header := header) ht hm
  refine ⟨fun h => run_of_eq hp (announced.trans (if_pos h)), fun h hr => ?_, fun h hr => ?_⟩
  · exact run_of_eq hp (announced.trans ((if_neg (ne_true_of_eq_false h)).trans (if_pos (by rw [hr]; rfl))))
  · exact run_of_eq hp (announced.trans ((if_neg (ne_true_of_eq_false h)).trans (if_neg (by rw [hr]; decide))))

theorem jmData_acts (hp : s.hasPower) (payload : List Byte) (r : JRecv) :
    let w := s.received g head 1 payload.length
    s.inOrder g head 1 payload.length → (w.jrecv.find? fun r => r.group == g.val) = some r →
    let r' := r.gets head.tag.toNat payload
    let rest := w.jrecv.filter fun (q : JRecv) => q.group != g.val
    let i : Instr := .jmData g head payload
    (r'.got.length < r'.chunks → Completes i s { w with jrecv := rest ++ [r'] }) ∧
    (r'.chunks ≤ r'.got.length →
      let v : State := { w with jrecv := rest }
      let e := v.jentry r'.slot
      (v.bankAvail 0 = false ∨ v.bankAvail 1 = false →
        Completes i s ((v.freeSlot r'.slot).cplSend g 0x33 2 (beBytes 8 e.num))) ∧
      (v.bankAvail 0 = true → v.bankAvail 1 = true →
        let bytes := ((List.range r'.chunks).flatMap fun n => r'.got.look [] n).take e.len
        let x := State.each (List.range 2) (fun d s => s.putPayload d e.pages bytes) v
        Completes i s ((x.putEntry r'.slot { e with marked := true }).cplSend g 0x32 0 (beBytes 8 e.num)))) := by
  intro w ht hr r' rest i
  have arriving := onJmData_arriving ht hr
  refine ⟨fun h => run_of_eq hp (arriving.trans (if_pos h)), fun h => ?_⟩
  have last := arriving.trans (if_neg (Nat.not_lt.2 h))
  refine ⟨fun hb => ?_, fun h0 h1 => ?_⟩
  · exact run_of_eq hp (last.trans (if_pos (by rcases hb with hb | hb <;> rw [hb] <;> simp)))
  · exact run_of_eq hp (last.trans (if_neg (by rw [h0, h1]; decide)))

/-- Settles O50, frame by frame: a frame in order is `cplFrame_accepted`, and what it then does is its own lemma. HELLO and the
enumeration, adoption within its command and CPL_RA while an access is in progress are log entry 44, STATUS and its credits log entry
118: these clauses are the model's choice. -/
theorem couplingFramesAct : Obligations.CouplingFramesAct := by
  unfold Obligations.CouplingFramesAct
  intro s sender g head hp
  refine ⟨fun lot cxid group lots ht => ⟨fun h => run_of_eq hp (onHello_same ht h), fun h he hr =>
      run_of_eq hp (onHello_changed ht h he hr)⟩,
    fun l0 l1 l2 l3 => roster_acts hp l0 l1 l2 l3, fun sticky live m ht hm => run_of_eq hp (onStatus_accepted ht hm),
    fun h => run_of_eq hp (onStatusPeriod_member h), fun header m => jmHdr_acts hp header m, fun payload r => jmData_acts hp payload r,
    fun num c ht hc => ⟨run_of_eq hp (onJmAck_commit ht hc), fun hk => run_of_eq hp (onJmNack_commit ht hc hk)⟩,
    fun num m n ht hm hn => run_of_eq hp (onJmRetire_copy ht hm hn), fun nums ht => run_of_eq hp (cplFrame_accepted _ ht),
    fun result tag since ht ha hn => ?_, fun num result => ⟨fun hd => ⟨?_, ?_⟩, fun hd => ?_⟩,
    fun ha => run_of_eq hp (command_of_admits ha),
    fun member ha => ⟨run_of_eq hp (command_of_admits ha), run_of_eq hp (command_of_admits ha)⟩,
    fun ha => ⟨run_of_eq hp (command_of_admits ha), run_of_eq hp (command_of_admits ha)⟩,
    fun tag since ha hd => run_of_eq hp (onCplRaTimeout_due ha hd)⟩
  · have ended := run_of_eq hp (onPageRsp_access (result := result) ht ha hn)
    exact ⟨fun d h => by subst h; exact ended, fun h => by subst h; exact ended, fun h => by subst h; exact ended,
      fun h => by subst h; exact ended⟩
  · exact run_of_eq hp (cplFrame_discarded _ hd)
  · exact run_of_eq hp (cplFrame_discarded _ hd)
  · exact run_of_eq hp (cplFrame_discarded _ hd)

end Sys2Proof.Machine
end

section
/-! PROOFS. Jobs of the engines (R405-R416). -/

namespace Sys2Proof.Machine

variable {s : State} {e : EngineId} {seam : Nat}

/-! ### Taking and ending jobs (R406, R407) -/

/-- The job of the descriptor `line` at HEAD, not performed yet. -/
abbrev State.readJob (s : State) (e : EngineId) (seam : Nat) (line : List Byte) (check : Word) : Job :=
  { addr := s.headAddr e seam, line := line, performed := false, status := 0, outLen := 0, check := check, saved := false }

/-- HEAD moves on and the server turns to the seam with a job taken there. -/
abbrev State.takes (v : State) (e : EngineId) (seam : Nat) (j : Job) : State :=
  let f := (e.ring seam).2.2
  let w := v.wr e.unit f ((v.rd e.unit f + 1) % 2 ^ v.jobK e seam)
  (w.setEngine e { w.engine e with seamNow := some seam, lastSeam := seam }).setJob e seam (some j)

section
variable (hs : s.serves1 e seam = true) (hj : s.job e seam = none)
include hs hj

theorem ring_idle : ¬((!s.serves1 e seam) = true ∨ (s.job e seam).isSome = true) := by
  rw [hs, hj]
  decide

theorem pickUp_unread : let r := s.agentRead seam (s.headAddr e seam) 128
    r.2.2 ≠ .done → s.pickUp e seam = r.1.agentFault seam r.2.2 := by
  intro r h
  exact (if_neg (ring_idle hs hj)).trans (if_pos h)

theorem pickUp_noGo : let r := s.agentRead seam (s.headAddr e seam) 128
    r.2.2 = .done → fieldAt r.2.1 0x78 1 < 128 → s.pickUp e seam = r.1 := by
  intro r h hg
  exact (if_neg (ring_idle hs hj)).trans ((if_neg (not_not_intro h)).trans (if_pos hg))

/-- A job with GO is taken; a bad descriptor ends it at once with its STATUS (R408). -/
theorem pickUp_taken : let r := s.agentRead seam (s.headAddr e seam) 128
    let j := s.readJob e seam r.2.1 r.1.freeCheck.2
    r.2.2 = .done → 128 ≤ fieldAt r.2.1 0x78 1 → ∀ o, descStatus e j = o →
      s.pickUp e seam = r.1.freeCheck.1.takes e seam (match o with | some st => j.ends st 0 r.1.freeCheck.2 | none => j) := by
  intro r j h hg o ho
  refine (if_neg (ring_idle hs hj)).trans ((if_neg (not_not_intro h)).trans ((if_neg (Nat.not_lt.2 hg)).trans ?_))
  dsimp only
  cases o <;> rw [show descStatus e _ = _ from ho]

end

theorem onJobEnd_performed {seam : Fin 64} {j : Job} (hs : s.serves1 e seam = true) (hj : s.job e seam = some j)
    (hp : j.performed = true) (hv : j.saved = false) :
    onJobEnd e seam s =
      let v := ((s.writeEnd seam j j.status (s.jobHint j)).countJob e j.status).setJob e seam none
      if j.flags / 128 = 1 then v.pendSeam seam { cls := 4, code := 0x1003, xaddr := BitVec.ofNat 64 j.addr } else v := by
  refine (if_neg (by rw [hs]; decide)).trans ?_
  rw [hj]
  exact if_neg (by rw [hp, hv]; decide)

/-! ### Quanta (R409, R410) -/

/-- The job in progress on the ring of the quantum, if one has the quantum, is saved. -/
abbrev State.saveCurrent (u : State) (e : EngineId) (c : Option Nat) : State :=
  match c with
  | some n => u.saveJob e n
  | none => u

theorem onQuantumEnd_reserved (ho : s.operates e.unit = true) (hr : s.resMode = true) :
    onQuantumEnd e s =
      let c := (s.engine e).seamNow
      let q := ((s.engine e).quantum + 1) % 32
      let v := (s.saveCurrent e c).setEngine e { (s.saveCurrent e c).engine e with quantum := q }
      let o := if v.quantumOwner e q = 0xFF then 0 else v.quantumOwner e q
      let x := v.applyRing e o
      if o < 64 ∧ x.serving e = true then (x.turnTo e (some o)).restoreJob e o else x.turnTo e none :=
  (if_neg (by rw [ho]; decide)).trans (if_pos hr)

/-- The turn of an engine without reserved mode to the ring that it serves next. -/
def State.turnsTo (s x : State) (e : EngineId) (n : Option Nat) : State :=
  let v := (if n = (s.engine e).seamNow then x else x.saveCurrent e (s.engine e).seamNow).turnTo e n
  match n with
  | some n => v.restoreJob e n
  | none => v

theorem onQuantumEnd_shared (ho : s.operates e.unit = true) (hr : s.resMode = false) :
    onQuantumEnd e s =
      let v := s.setEngine e { s.engine e with quantum := ((s.engine e).quantum + 1) % 32 }
      let x := State.each ((s.engine e).ringWrites.map Prod.fst) (fun n s => s.applyRing e n) v
      s.turnsTo x e (if x.serving e then x.nextRing e else none) :=
  (if_neg (by rw [ho]; decide)).trans (if_neg (by rw [hr]; decide))

section
variable {x : State} {c n : Option Nat} (hc : (s.engine e).seamNow = c)
include hc

theorem turnsTo_none_same (hn : n = none) (h : c = none) : s.turnsTo x e n = x.turnTo e none := by
  subst hn
  unfold State.turnsTo
  rw [if_pos (hc.trans h).symm]

theorem turnsTo_none_saved (hn : n = none) (h : c ≠ none) : s.turnsTo x e n = (x.saveCurrent e c).turnTo e none := by
  subst hn hc
  unfold State.turnsTo
  rw [if_neg h.symm]

theorem turnsTo_some_same {m : Nat} (hn : n = some m) (h : c = some m) :
    s.turnsTo x e n = (x.turnTo e (some m)).restoreJob e m := by
  subst hn
  unfold State.turnsTo
  rw [if_pos (hc.trans h).symm]

theorem turnsTo_some_saved {m : Nat} (hn : n = some m) (h : c ≠ some m) :
    s.turnsTo x e n = ((x.saveCurrent e c).turnTo e (some m)).restoreJob e m := by
  subst hn hc
  unfold State.turnsTo
  rw [if_neg h.symm]

end

/-! ### The Crusher (R414, R415) -/

section
variable {m : Fin 4} {seam : Fin 64} {j : Job}

/-- The source and the dictionary of a Crusher job have been read. -/
abbrev State.crusherRead (s : State) (seam : Nat) (j : Job) : State × Option JobRead :=
  (s.jobRead seam j.src j.srcLen).1.jobDict seam j

section
variable {src : List Byte} {dict : Option (List Byte)} (hr : (s.jobRead seam j.src j.srcLen).2 = .bytes src)
  (hd : ((s.crusherRead seam j).2 = none ∧ dict = none) ∨ ∃ l, (s.crusherRead seam j).2 = some (.bytes l) ∧ dict = some l)
include hr hd

theorem onCompress_read (hj : s.toPerform (.crusher m) seam 1 = some j) :
    onCompress m seam s = (s.crusherRead seam j).1.finishJob (.crusher m) seam j 1 (deflateStream (j.optBits 0 1) (j.optBits 2 3) dict src)
      (checkWord (containerCheck (j.optBits 0 1) src) src.length) := by
  unfold onCompress
  dsimp only
  rw [hj]
  dsimp only
  rw [hr]
  obtain ⟨h, rfl⟩ | ⟨l, h, rfl⟩ := hd <;> rw [h]

/-- What a body inflates to, in its container (R415). -/
abbrev Job.inflates (j : Job) (dict : Option (List Byte)) (src : List Byte) : Except InflateErr (List Byte × Nat) :=
  if j.optBits 0 1 = 0 then inflateRaw (dict.getD []) src j.dstLen
  else if j.optBits 0 1 = 1 then inflateZlib dict src j.dstLen else inflateGzip src j.dstLen

/-- The STATUS of a body that does not inflate. -/
abbrev InflateErr.status : InflateErr → Nat
  | .bad => 0x13
  | .full => 0x12
  | .check => 0x14

theorem onDecompress_read (hj : s.toPerform (.crusher m) seam 2 = some j) :
    onDecompress m seam s =
      match j.inflates dict src with
      | .ok (o, used) => (s.crusherRead seam j).1.finishJob (.crusher m) seam j 1 o (checkWord (containerCheck (j.optBits 0 1) o) used)
      | .error err =>
        (s.crusherRead seam j).1.freeCheck.1.partJob (.crusher m) seam j err.status (s.crusherRead seam j).1.freeCheck.2 := by
  unfold onDecompress
  dsimp only
  rw [hj]
  dsimp only
  rw [hr]
  obtain ⟨h, rfl⟩ | ⟨l, h, rfl⟩ := hd <;> rw [h] <;> rfl

end

section
variable {st : Nat} (hr : (s.jobRead seam j.src j.srcLen).2 = .fails st)
  (hd : (s.crusherRead seam j).2 = none ∨ ∃ l, (s.crusherRead seam j).2 = some (.bytes l))
include hr hd

theorem onCompress_unread (hj : s.toPerform (.crusher m) seam 1 = some j) :
    onCompress m seam s = (s.crusherRead seam j).1.partJob (.crusher m) seam j st j.check := by
  unfold onCompress
  dsimp only
  rw [hj]
  dsimp only
  rw [hr]
  obtain h | ⟨l, h⟩ := hd <;> rw [h]

theorem onDecompress_unread (hj : s.toPerform (.crusher m) seam 2 = some j) :
    onDecompress m seam s = (s.crusherRead seam j).1.partJob (.crusher m) seam j st j.check := by
  unfold onDecompress
  dsimp only
  rw [hj]
  dsimp only
  rw [hr]
  obtain h | ⟨l, h⟩ := hd <;> rw [h]

end

end

/-! ### Cipher jobs (R416) -/

section
variable {n : Fin 8} {op : Nat} {j : Job} {aux : List Byte} (hj : s.toPerform (.cipher n) seam op = some j)
  (ha : (s.jobRead seam j.aux j.auxLen).2 = .bytes aux)
include hj ha

/-- A cipher job ends with what its operation gives; its CHECK is a free value. -/
abbrev State.cipherEnds (u : State) (n : Fin 8) (seam : Nat) (j : Job) (out : CipherEnd) : State :=
  u.freeCheck.1.finishJob (.cipher n) seam j out.1 out.2 u.freeCheck.2

theorem cipherJob_source {src : List Byte} (f : Job → List Byte → List Byte → CipherEnd) :
    let r := (s.jobRead seam j.aux j.auxLen).1.jobRead seam j.src j.srcLen
    r.2 = .bytes src → s.cipherJob n seam op true f = r.1.cipherEnds n seam j (f j aux src) := by
  intro r hr
  unfold State.cipherJob
  dsimp only
  rw [hj]
  dsimp only
  rw [ha, if_pos rfl, hr]

theorem cipherJob_block (f : Job → List Byte → List Byte → CipherEnd) :
    s.cipherJob n seam op false f = (s.jobRead seam j.aux j.auxLen).1.cipherEnds n seam j (f j aux []) := by
  unfold State.cipherJob
  dsimp only
  rw [hj]
  dsimp only
  rw [ha]
  rfl

theorem gcmJob_source {aad src : List Byte} (f : Nat → List Byte → List Byte → List Byte → CipherEnd) :
    let d := (s.jobRead seam j.aux j.auxLen).1.jobRead seam (fieldAt aux 48 8) (fieldAt aux 56 4)
    let r := d.1.jobRead seam j.src j.srcLen
    fieldAt aux 44 4 = 0 → fieldAt aux 60 4 = 0 → d.2 = .bytes aad → r.2 = .bytes src →
      s.gcmJob n seam op f = r.1.cipherEnds n seam j (f (j.optBits 0 1) aux aad src) := by
  intro d r h44 h60 hd hr
  unfold State.gcmJob
  dsimp only
  rw [hj]
  dsimp only
  rw [ha]
  refine (if_neg (by rw [h44, h60]; decide)).trans ?_
  rw [show (State.jobRead _ _ (fieldAt aux 48 8) (fieldAt aux 56 4)).2 = _ from hd, hr]

end

/-! ### The commands -/

theorem pickUp_acts {seam : Fin 64} (hp : s.hasPower) (hs : s.serves1 e seam = true) (hj : s.job e seam = none) :
    let r := s.agentRead seam (s.headAddr e seam) 128
    let j := s.readJob e seam r.2.1 r.1.freeCheck.2
    ∀ c ∈ [Instr.ringPoll e seam, .jobPickup e seam],
      (r.2.2 ≠ .done → Completes c s (r.1.agentFault seam r.2.2)) ∧
      (r.2.2 = .done → fieldAt r.2.1 0x78 1 < 128 → Completes c s r.1) ∧
      (r.2.2 = .done → 128 ≤ fieldAt r.2.1 0x78 1 → ∀ o, descStatus e j = o →
        Completes c s (r.1.freeCheck.1.takes e seam (match o with | some st => j.ends st 0 r.1.freeCheck.2 | none => j))) := by
  intro r j c hc
  have picks {t : State} (h : s.pickUp e seam = t) : Completes c s t := by
    simp only [List.mem_cons, List.not_mem_nil, or_false] at hc
    rcases hc with rfl | rfl
    · exact run_of_eq hp h
    · exact run_of_eq hp h
  exact ⟨fun h => picks (pickUp_unread hs hj h), fun h hg => picks (pickUp_noGo hs hj h hg),
    fun h hg o ho => picks (pickUp_taken hs hj h hg o ho)⟩

theorem quantumEnd_acts (hp : s.hasPower) (ho : s.operates e.unit = true) :
    let c := (s.engine e).seamNow
    let q := ((s.engine e).quantum + 1) % 32
    (s.resMode = true →
      let v := (s.saveCurrent e c).setEngine e { (s.saveCurrent e c).engine e with quantum := q }
      let o := if v.quantumOwner e q = 0xFF then 0 else v.quantumOwner e q
      let x := v.applyRing e o
      (o < 64 → x.serving e = true → Completes (.quantumEnd e) s ((x.turnTo e (some o)).restoreJob e o)) ∧
      (64 ≤ o ∨ x.serving e = false → Completes (.quantumEnd e) s (x.turnTo e none))) ∧
    (s.resMode = false →
      let v := s.setEngine e { s.engine e with quantum := q }
      let x := State.each ((s.engine e).ringWrites.map Prod.fst) (fun n s => s.applyRing e n) v
      let n := if x.serving e then x.nextRing e else none
      (n = none → c = none → Completes (.quantumEnd e) s (x.turnTo e none)) ∧
      (n = none → c ≠ none → Completes (.quantumEnd e) s ((x.saveCurrent e c).turnTo e none)) ∧
      (∀ m, n = some m → c = some m → Completes (.quantumEnd e) s ((x.turnTo e (some m)).restoreJob e m)) ∧
      (∀ m, n = some m → c ≠ some m → Completes (.quantumEnd e) s (((x.saveCurrent e c).turnTo e (some m)).restoreJob e m))) := by
  intro c q
  refine ⟨fun hr => ?_, fun hr => ?_⟩
  · have reserved := onQuantumEnd_reserved ho hr
    refine ⟨fun h hs => run_of_eq hp (reserved.trans (if_pos ⟨h, hs⟩)), fun h => run_of_eq hp (reserved.trans (if_neg ?_))⟩
    rintro ⟨hlt, hs⟩
    exact h.elim (Nat.not_le.2 hlt) fun hf => Bool.false_ne_true (hf.symm.trans hs)
  · have shared := onQuantumEnd_shared ho hr
    exact ⟨fun hn h => run_of_eq hp (shared.trans (turnsTo_none_same rfl hn h)),
      fun hn h => run_of_eq hp (shared.trans (turnsTo_none_saved rfl hn h)),
      fun m hn h => run_of_eq hp (shared.trans (turnsTo_some_same rfl hn h)),
      fun m hn h => run_of_eq hp (shared.trans (turnsTo_some_saved rfl hn h))⟩

/-- The cipher operations that read a parameter block and a source. -/
theorem cipherSources_act {n : Fin 8} {seam : Fin 64} {j : Job} {aux src : List Byte} (hp : s.hasPower)
    (ha : (s.jobRead seam j.aux j.auxLen).2 = .bytes aux) :
    let r := (s.jobRead seam j.aux j.auxLen).1.jobRead seam j.src j.srcLen
    let key := j.optBits 0 1
    r.2 = .bytes src → ∀ op c out, (op, c, out) ∈
      [(0x12, Instr.aesXtsEncrypt n seam, xtsOp true key aux src), (0x13, .aesXtsDecrypt n seam, xtsOp false key aux src),
       (0x14, .aesCbcEncrypt n seam, cbcOp true key aux src), (0x15, .aesCbcDecrypt n seam, cbcOp false key aux src),
       (0x20, .hash n seam, hashOp key src), (0x32, .ed25519Sign n seam, edSignOp aux src),
       (0x33, .ed25519Verify n seam, edVerifyOp aux src), (0x34, .rsaVerify n seam, rsaOp j aux src)] →
      s.toPerform (.cipher n) seam op = some j → Completes c s (r.1.cipherEnds n seam j out) := by
  intro r key hr op c out hmem hj
  simp only [List.mem_cons, Prod.mk.injEq, List.not_mem_nil, or_false] at hmem
  have performs (f : Job → List Byte → List Byte → CipherEnd) := cipherJob_source hj ha f hr
  obtain ⟨rfl, rfl, rfl⟩ | ⟨rfl, rfl, rfl⟩ | ⟨rfl, rfl, rfl⟩ | ⟨rfl, rfl, rfl⟩ | ⟨rfl, rfl, rfl⟩ | ⟨rfl, rfl, rfl⟩ | ⟨rfl, rfl, rfl⟩ |
    ⟨rfl, rfl, rfl⟩ := hmem
  all_goals exact run_of_eq hp (performs _)

/-- Settles O51: a ring's job is taken or left by what its descriptor reads, quanta turn the server, and each operation ends its job
with what it computes. An unreadable descriptor that leaves the ring idle is log entry 33, the free length of a failed job's output log
entry 34, and the free CHECK log entry 86: these clauses are the model's choice. -/
theorem engineJobsArePerformed : Obligations.EngineJobsArePerformed := by
  unfold Obligations.EngineJobsArePerformed
  intro s e seam m n hp
  refine ⟨fun hs hj c hc => ?_, fun j hs hj hd hv => run_of_eq hp (onJobEnd_performed hs hj hd hv), fun ho => quantumEnd_acts hp ho,
    fun j src dict hr hd => ⟨fun hj => run_of_eq hp (onCompress_read hr hd hj), fun hj => ?_⟩,
    fun j st hr hd => ⟨fun hj => run_of_eq hp (onCompress_unread hr hd hj), fun hj => run_of_eq hp (onDecompress_unread hr hd hj)⟩,
    fun j aux src ha => ⟨cipherSources_act hp ha, fun hj => run_of_eq hp (cipherJob_block hj ha _),
      fun hj => run_of_eq hp (cipherJob_block hj ha _), fun aad h44 h60 hd hr => ⟨fun hj => ?_, fun hj => ?_⟩⟩⟩
  · obtain ⟨unread, noGo, taken⟩ := pickUp_acts hp hs hj c hc
    refine ⟨unread, noGo, fun h hg => ?_⟩
    dsimp only
    generalize ho : descStatus e _ = o
    cases o with
    | none => exact taken h hg none ho
    | some st => exact taken h hg (some st) ho
  · have read := onDecompress_read hr hd hj
    refine ⟨fun o used ho => ?_, fun err he => ?_⟩
    · exact run_of_eq hp (read.trans (by rw [show j.inflates dict src = _ from ho]))
    · exact run_of_eq hp (read.trans (by rw [show j.inflates dict src = _ from he] <;> cases err <;> rfl))
  · exact run_of_eq hp (gcmJob_source hj ha _ h44 h60 hd hr)
  · exact run_of_eq hp (gcmJob_source hj ha _ h44 h60 hd hr)

end Sys2Proof.Machine
end

section
/-! PROOFS. The entropy source and attestation (R418-R428). -/

namespace Sys2Proof.Machine

variable {s : State}

/-! ### Health tests and the start-up test (R418, R419) -/

/-- Did a test fail? -/
theorem anyFailed_iff (p : Bool × Bool) : (p.1 || p.2) = true ↔ p ≠ (false, false) := by
  obtain ⟨a, b⟩ := p
  cases a <;> cases b <;> decide

theorem anyFailed_eq_false {p : Bool × Bool} (h : p = (false, false)) : (p.1 || p.2) = false := by
  rw [h]
  rfl

section
variable {raw : BitVec 896}

theorem onEntropyBlock_raw (h : s.entropy.state = .raw) :
    onEntropyBlock raw s = { s with entropy := { s.entropy with raw := (raw >>> 832).setWidth 64 } } := by
  unfold onEntropyBlock
  rw [h]

/-- A block that has passed the tests, conditioned and counted. -/
def State.conditioned (s : State) (x : Entropy) (raw : BitVec 896) : State :=
  ({ s with entropy := { x with blocks := x.blocks ++ [bytesNat (sha384 (natBytes 112 raw.toNat))] } } : State).bump uEntropy
    Reg.ENT_COUNT.BLOCKS

theorem onEntropyBlock_healthy {r : Entropy × Bool × Bool} (h : s.entropy.state = .healthy)
    (hr : s.entropy.health (rawBits raw) = r) :
    onEntropyBlock raw s =
      if (r.2.1 || r.2.2) = true then State.healthFail { s with entropy := r.1 } r.2.1 r.2.2 false else s.conditioned r.1 raw := by
  unfold onEntropyBlock
  rw [h]
  dsimp only
  rw [hr]
  rfl

end

/-- The end of a start-up test: after a RESTART, RESULT, and every DRBG is due for a reseed. -/
def State.startupResult (v : State) (restart bad : Bool) : State :=
  if !restart then v
  else
    let w := v.wr uEntropy Reg.ENT_CTL.RESULT (if bad then 2 else 1)
    if bad then w else { w with drbg := w.drbg.map fun (e : Nat × Option Drbg) => (e.1, e.2.map fun d => { d with due := true }) }

section
variable {raw : BitVec 65536} {r : Entropy × Bool × Bool} (hs : s.entropy.state = .starting) (hr : s.entropy.health (rawBits raw) = r)
include hs hr

theorem onStartupTestDone_starting :
    onStartupTestDone raw s =
      let a : State := { s with entropy := { r.1 with busy := none } }
      let bad := r.2.1 || r.2.2
      State.startupResult (if bad then a.healthFail r.2.1 r.2.2 true else { a with entropy := { a.entropy with state := .healthy } })
        s.entropy.busy.isSome bad := by
  refine (if_neg (not_not_intro hs)).trans ?_
  rw [hr]
  rfl

theorem onStartupTestDone_passed (h : r.2 = (false, false)) :
    let a : State := { s with entropy := { r.1 with busy := none } }
    onStartupTestDone raw s = State.startupResult { a with entropy := { a.entropy with state := .healthy } } s.entropy.busy.isSome false := by
  refine (onStartupTestDone_starting hs hr).trans ?_
  rw [anyFailed_eq_false h]
  rfl

theorem onStartupTestDone_failed (h : r.2 ≠ (false, false)) :
    let a : State := { s with entropy := { r.1 with busy := none } }
    onStartupTestDone raw s = State.startupResult (a.healthFail r.2.1 r.2.2 true) s.entropy.busy.isSome true := by
  refine (onStartupTestDone_starting hs hr).trans ?_
  rw [(anyFailed_iff _).2 h]
  rfl

end

theorem entropyCommand_idle {op : Nat} (hb : s.entropy.busy = none) :
    s.entropyCommand op =
      let v := s.wr uEntropy Reg.ENT_CTL.OP op
      if op = 1 then
        let w := ((v.bump uEntropy Reg.ENT_COUNT.RESTARTS).tallyEvent (some uEntropy) 0x0C 0x03 7 0xFF (payload8 0 [])).entropyStart
        { w with entropy := { w.entropy with busy := some 1 } }
      else if op = 2 then
        State.wr { v with entropy := { v.entropy with state := .raw, blocks := [] } } uEntropy Reg.ENT_CTL.RESULT 4
      else v.wr uEntropy Reg.ENT_CTL.RESULT 3 :=
  if_neg (show ¬s.entropy.busy.isSome = true by rw [hb]; exact Bool.false_ne_true)

/-! ### GENERATE and RESEED (R421) -/

section
variable {seam : Fin 64} {j : Job}

section
variable {st : Nat} (hst : s.drbgStatus seam (j.optBits 0 2) = some st)
include hst

theorem onGenerate_refused (hj : s.toPerform .entropy seam 0x40 = some j) :
    onGenerate seam s = s.freeCheck.1.failJob .entropy seam j st s.freeCheck.2 := by
  unfold onGenerate
  rw [hj]
  dsimp only
  rw [hst]

theorem onReseed_refused (hj : s.toPerform .entropy seam 0x41 = some j) :
    onReseed seam s = s.freeCheck.1.failJob .entropy seam j st s.freeCheck.2 := by
  unfold onReseed
  rw [hj]
  dsimp only
  rw [hst]

end

section
variable {d : Drbg} {add : List Byte} (hst : s.drbgStatus seam (j.optBits 0 2) = none) (hd : s.drbgOf seam (j.optBits 0 2) = some d)
  (ha : (s.jobRead seam j.aux j.auxLen).2 = .bytes add)
include hst hd ha

theorem onGenerate_instance (hj : s.toPerform .entropy seam 0x40 = some j) :
    onGenerate seam s =
      let v := (s.jobRead seam j.aux j.auxLen).1
      let inst := j.optBits 0 2
      let again := j.optBits 3 3 = 1 ∨ d.due = true ∨ 2 ^ 20 ≤ d.served
      let r := if again then v.reseedInst seam inst d add else (v, d)
      let g := r.2.generate j.dstLen (if again then [] else add)
      let w := ((r.1.setDrbg seam inst (some g.1)).bump uEntropy (Reg.ENT_INST.GENERATES.ix seam)).freeCheck
      w.1.finishJob .entropy seam j 1 g.2 w.2 := by
  unfold onGenerate
  rw [hj]
  dsimp only
  rw [hst, hd]
  dsimp only
  rw [ha]

theorem onReseed_instance (hj : s.toPerform .entropy seam 0x41 = some j) :
    onReseed seam s =
      let w := ((s.jobRead seam j.aux j.auxLen).1.reseedInst seam (j.optBits 0 2) d add).1.freeCheck
      w.1.finishJob .entropy seam j 1 [] w.2 := by
  unfold onReseed
  rw [hj]
  dsimp only
  rw [hst, hd]
  dsimp only
  rw [ha]

end

end

/-! ### Attestation (R424, R425, R428) -/

theorem attCommand_idle {op kind subject : Nat} {act : State → State × AttRun} (h : s.att = none) :
    s.attCommand op kind subject act =
      let r := act (((s.wr uSvcDie Reg.ATT_CTL.OP op).wr uSvcDie Reg.ATT_CTL.KIND kind).wr uSvcDie Reg.ATT_CTL.SUBJECT subject)
      { r.1 with att := some r.2 } :=
  if_neg (show ¬s.att.isSome = true by rw [h]; exact Bool.false_ne_true)

section
variable {a : AttRun} (h : s.att = some a)
include h

/-- The end of an attestation command, in the state in which none runs any more. -/
def State.attEnds (v : State) (a : AttRun) : State :=
  match a.entry with
  | some (kind, declared, subject, gen, digest) =>
    (v.extendLog kind subject gen declared digest).wr uSvcDie Reg.ATT_CTL.RESULT
      (if 2048 ≤ v.rd uSvcDie Reg.ATT_LOG_STAT.COUNT then 6 else a.result)
  | none =>
    if a.report.isEmpty then v.wr uSvcDie Reg.ATT_CTL.RESULT a.result
    else (v.physWrite a.addr a.report).1.wr uSvcDie Reg.ATT_CTL.RESULT (if (v.physWrite a.addr a.report).2 = .done then a.result else 4)

theorem onAttDone_running : onAttDone s = State.attEnds { s with att := none } a := by
  unfold onAttDone
  rw [h]
  rfl

end

section
variable {v : State} {a : AttRun}

theorem attEnds_entry {kind subject gen : Nat} {declared : Bool} {digest : List Byte}
    (he : a.entry = some (kind, declared, subject, gen, digest)) :
    v.attEnds a = (v.extendLog kind subject gen declared digest).wr uSvcDie Reg.ATT_CTL.RESULT
      (if 2048 ≤ v.rd uSvcDie Reg.ATT_LOG_STAT.COUNT then 6 else a.result) := by
  unfold State.attEnds
  rw [he]

theorem attEnds_failed (he : a.entry = none) (hr : a.report = []) : v.attEnds a = v.wr uSvcDie Reg.ATT_CTL.RESULT a.result := by
  unfold State.attEnds
  rw [he, hr]
  rfl

theorem attEnds_report (he : a.entry = none) (hr : a.report ≠ []) :
    v.attEnds a = (v.physWrite a.addr a.report).1.wr uSvcDie Reg.ATT_CTL.RESULT
      (if (v.physWrite a.addr a.report).2 = .done then a.result else 4) := by
  unfold State.attEnds
  rw [he]
  exact if_neg (by rwa [List.isEmpty_iff])

end

/-! ### The obligation -/

theorem entropyBlock_acts {r : Entropy × Bool × Bool} {raw : BitVec 896} (hp : s.hasPower)
    (hr : s.entropy.health (rawBits raw) = r) :
    (s.entropy.state = .raw →
      Completes (.entropyBlock raw) s { s with entropy := { s.entropy with raw := (raw >>> 832).setWidth 64 } }) ∧
    (s.entropy.state = .healthy → r.2 = (false, false) → Completes (.entropyBlock raw) s (s.conditioned r.1 raw)) ∧
    (s.entropy.state = .healthy → r.2 ≠ (false, false) →
      Completes (.entropyBlock raw) s (State.healthFail { s with entropy := r.1 } r.2.1 r.2.2 false)) :=
  ⟨fun h => run_of_eq hp (onEntropyBlock_raw h),
    fun h hg => run_of_eq hp ((onEntropyBlock_healthy h hr).trans (if_neg (ne_true_of_eq_false (anyFailed_eq_false hg)))),
    fun h hb => run_of_eq hp ((onEntropyBlock_healthy h hr).trans (if_pos ((anyFailed_iff _).2 hb)))⟩

theorem startupTestDone_acts {r : Entropy × Bool × Bool} {raw : BitVec 65536} (hp : s.hasPower)
    (hs : s.entropy.state = .starting) (hr : s.entropy.health (rawBits raw) = r) :
    let a : State := { s with entropy := { r.1 with busy := none } }
    let ok : State := { a with entropy := { a.entropy with state := .healthy } }
    let bad := a.healthFail r.2.1 r.2.2 true
    let c : Instr := .startupTestDone raw
    (s.entropy.busy = none → r.2 = (false, false) → Completes c s ok) ∧
    (s.entropy.busy = none → r.2 ≠ (false, false) → Completes c s bad) ∧
    (s.entropy.busy.isSome = true → r.2 = (false, false) → Completes c s (ok.startupResult true false)) ∧
    (s.entropy.busy.isSome = true → r.2 ≠ (false, false) → Completes c s (bad.startupResult true true)) := by
  intro a ok bad c
  have passed (h : r.2 = (false, false)) : onStartupTestDone raw s = ok.startupResult s.entropy.busy.isSome false :=
    onStartupTestDone_passed hs hr h
  have failed (h : r.2 ≠ (false, false)) : onStartupTestDone raw s = bad.startupResult s.entropy.busy.isSome true :=
    onStartupTestDone_failed hs hr h
  refine ⟨fun hb h => run_of_eq hp ((passed h).trans ?_), fun hb h => run_of_eq hp ((failed h).trans ?_),
    fun hb h => run_of_eq hp ((passed h).trans ?_), fun hb h => run_of_eq hp ((failed h).trans ?_)⟩
  · rw [hb]
    rfl
  · rw [hb]
    rfl
  · rw [hb]
  · rw [hb]

/-- Settles O52: each command is judged by the state of the source, of the DRBG or of the attestation command in progress. The raw
word being the first 64 bits of the sample, and the STATUS of jobs while the source cannot serve, are log entry 87: these clauses are the
model's choice. -/
theorem entropyAndAttestationAct : Obligations.EntropyAndAttestationAct := by
  unfold Obligations.EntropyAndAttestationAct
  intro s sender seam kind subject hp
  refine ⟨fun raw => ?_, fun ha hb => ⟨?_, ?_⟩, fun raw hs => ?_,
    fun j d add hst hd hr => ⟨fun hj => run_of_eq hp (onGenerate_instance hst hd hr hj), fun hj =>
      run_of_eq hp (onReseed_instance hst hd hr hj)⟩,
    fun j st hst => ⟨fun hj => run_of_eq hp (onGenerate_refused hst hj), fun hj => run_of_eq hp (onReseed_refused hst hj)⟩,
    fun ha hn => ⟨?_, ?_, ?_⟩, fun a h => ⟨fun kd declared subj gen digest he => ?_, fun he hr => ?_, fun he hr => ?_⟩⟩
  · generalize hr : s.entropy.health (rawBits raw) = r
    exact entropyBlock_acts hp hr
  · exact run_of_eq hp ((command_of_admits ha).trans ((entropyCommand_idle hb).trans (if_pos rfl)))
  · exact run_of_eq hp ((command_of_admits ha).trans ((entropyCommand_idle hb).trans ((if_neg (by decide)).trans (if_pos rfl))))
  · generalize hr : s.entropy.health (rawBits raw) = r
    exact startupTestDone_acts hp hs hr
  · exact run_of_eq hp ((command_of_admits ha).trans (attCommand_idle hn))
  · exact run_of_eq hp ((command_of_admits ha).trans (attCommand_idle hn))
  · exact run_of_eq hp ((command_of_admits ha).trans (attCommand_idle hn))
  · exact run_of_eq hp ((onAttDone_running h).trans (attEnds_entry he))
  · exact run_of_eq hp ((onAttDone_running h).trans (attEnds_failed he hr))
  · exact run_of_eq hp ((onAttDone_running h).trans (attEnds_report he hr))

end Sys2Proof.Machine
end

section
/-! PROOFS. The cube arbiter (R431-R434, R448). -/

namespace Sys2Proof.Machine

variable {s : State} {n : Nat}

theorem cubeRequest_pends (hm : s.prunePend.mayRequest n = true) (hh : s.prunePend.holder ≠ some n) :
    s.cubeRequest n = s.prunePend.setPend n true := if_pos ⟨hm, hh⟩

theorem cubeRequest_ignored (h : s.prunePend.mayRequest n = false ∨ s.prunePend.holder = some n) : s.cubeRequest n = s.prunePend :=
  if_neg fun hb => h.elim (fun hm => Bool.false_ne_true (hm.symm.trans hb.1)) hb.2

section
variable (hh : s.holder = some n) (ht : s.now < s.leaseEnd)
include hh ht

theorem cubeRenew_renews : s.cubeRenew n =
    if decide (2 * (s.leaseEnd - s.now) < s.leaseLen) = true then s.leaseStart.stick uCube Reg.CUBE_ERR.LATE else s.leaseStart :=
  if_neg (not_or.2 ⟨not_not_intro hh, Nat.not_le.2 ht⟩)

theorem cubeRenew_late (h : 2 * (s.leaseEnd - s.now) < s.leaseLen) : s.cubeRenew n = s.leaseStart.stick uCube Reg.CUBE_ERR.LATE :=
  (cubeRenew_renews hh ht).trans (if_pos (decide_eq_true h))

theorem cubeRenew_timely (h : s.leaseLen ≤ 2 * (s.leaseEnd - s.now)) : s.cubeRenew n = s.leaseStart :=
  (cubeRenew_renews hh ht).trans (if_neg (by rw [decide_eq_true_iff]; exact Nat.not_lt.2 h))

end

theorem cubeRenew_refused (h : s.holder ≠ some n ∨ s.leaseEnd ≤ s.now) : s.cubeRenew n = s.bump uCube Reg.CUBE_COUNT.REFUSED_RENEW :=
  if_pos h

/-! ### Grant and expiry (R431, R432) -/

theorem onCubeGrant_nothing (h : s.prunePend.holder.isSome = true ∨ s.prunePend.cubePend = 0) : onCubeGrant s = s.prunePend := if_pos h

theorem onCubeGrant_grants (hh : s.prunePend.holder = none) (hp : s.prunePend.cubePend ≠ 0) :
    onCubeGrant s =
      let p := s.prunePend
      let g := if p.requestPends 0 then 0 else 1
      let a := (p.setPend g false).wr uCube Reg.CUBE_STAT.HOLDER g
      let b := ((a.count uCube Reg.CUBE_STAT.GEN).bump uCube Reg.CUBE_COUNT.GRANTS).leaseStart.wr uCube Reg.CUBE_CFG.SEAM0_WR 0
      State.cubeRecord { b with outbox := b.outbox ++ [Out.interrupt 0, Out.interrupt 1] } 0x01 :=
  if_neg (not_or.2 ⟨by rw [hh]; exact Bool.false_ne_true, hp⟩)

theorem onLeaseExpiry_expired (hh : s.holder.isSome = true) (ht : s.leaseEnd ≤ s.now) (hm : s.power.mResetting = false) :
    onLeaseExpiry s = if s.romRenews = true then s.leaseStart else s.leaseLost := if_pos ⟨hh, ht, hm⟩

theorem onLeaseExpiry_early (h : s.now < s.leaseEnd) : onLeaseExpiry s = s := if_neg fun hb => Nat.not_le.2 h hb.2.1

/-- Settles O53: each write of CUBE_OP by who holds the cube and when, a grant by what pends, an expiry by the time. The renewal of a
holder's lease by its boot ROM is log entry 45: that clause is the model's choice. -/
theorem cubeCommandsAct : Obligations.CubeCommandsAct := by
  unfold Obligations.CubeCommandsAct
  intro s n hp
  refine ⟨fun ha => ?_, ⟨fun h => run_of_eq hp (onCubeGrant_nothing h), fun hh hq => run_of_eq hp (onCubeGrant_grants hh hq)⟩,
    fun hh ht hm => ?_, fun h => run_of_eq hp (onLeaseExpiry_early h)⟩
  · have admitted {act : State → State} {t : State} (h : act s = t) : s.command (.steward n) uCube 0x098 act = t :=
      (command_of_admits ha).trans h
    exact ⟨fun hm hh => run_of_eq hp (admitted (cubeRequest_pends hm hh)), fun h => run_of_eq hp (admitted (cubeRequest_ignored h)),
      fun hh ht => ⟨fun h => run_of_eq hp (admitted (cubeRenew_late hh ht h)), fun h =>
        run_of_eq hp (admitted (cubeRenew_timely hh ht h))⟩,
      fun h => run_of_eq hp (admitted (cubeRenew_refused h)), fun h => run_of_eq hp (admitted (if_pos h)),
      fun h => run_of_eq hp (admitted (if_neg h))⟩
  · have expired := onLeaseExpiry_expired hh ht hm
    exact ⟨fun h => run_of_eq hp (expired.trans (if_neg (ne_true_of_eq_false h))), fun h => run_of_eq hp (expired.trans (if_pos h))⟩

end Sys2Proof.Machine
end

section
/-! PROOFS. The stewards' replication, boot ROMs and firmware floor (R435-R449). -/

namespace Sys2Proof.Machine

variable {s : State} {n : Nat}

/-! ### Replication starts (R437-R439, R447) -/

/-- The state after OP and LEN of STW_REPL_CTL have been written. -/
abbrev State.replWritten (s : State) (n op len : Nat) : State :=
  (s.wr (uSteward n) Reg.STW_REPL_CTL.OP op).wr (uSteward n) Reg.STW_REPL_CTL.LEN len

section
variable {op len : Nat} {act : State → State}

theorem replStart_busy (h : ((s.replWritten n op len).stw n).repl.isSome = true) : s.replStart n op len act = s.replWritten n op len :=
  if_pos h

variable (h : ((s.replWritten n op len).stw n).repl = none)
include h

theorem replStart_idle (ho : ¬(op = 0 ∨ op = 3)) :
    s.replStart n op len act =
      let v := s.replWritten n op len
      if op = 1 ∧ (4194176 < len ∨ 0x1000000 < v.rd (uSteward n) Reg.STW_REPL_SRC.SRC * 128 + len) then v.replResult n 3
      else if (!v.operates (uSteward (otherSteward n))) = true then v.peerAbsent n
      else if v.holder ≠ some n then v.replResult n 7
      else act v :=
  (if_neg (show ¬((s.replWritten n op len).stw n).repl.isSome = true by rw [h]; exact Bool.false_ne_true)).trans (if_neg ho)

theorem replStart_tooLong (ho : op = 1) (hl : 4194176 < len) : s.replStart n op len act = (s.replWritten n op len).replResult n 3 :=
  (replStart_idle h (by omega)).trans (if_pos ⟨ho, Or.inl hl⟩)

variable (ho : ¬(op = 0 ∨ op = 3))
  (hr : ¬(op = 1 ∧ (4194176 < len ∨ 0x1000000 < (s.replWritten n op len).rd (uSteward n) Reg.STW_REPL_SRC.SRC * 128 + len)))
include ho hr

theorem replStart_noPeer (hq : (s.replWritten n op len).operates (uSteward (otherSteward n)) = false) :
    s.replStart n op len act = (s.replWritten n op len).peerAbsent n :=
  (replStart_idle h ho).trans ((if_neg hr).trans (if_pos (by rw [hq]; rfl)))

variable (hq : (s.replWritten n op len).operates (uSteward (otherSteward n)) = true)
include hq

theorem replStart_notHolder (hh : (s.replWritten n op len).holder ≠ some n) :
    s.replStart n op len act = (s.replWritten n op len).replResult n 7 :=
  (replStart_idle h ho).trans ((if_neg hr).trans ((if_neg (by rw [hq]; decide)).trans (if_pos hh)))

theorem replStart_acts (hh : (s.replWritten n op len).holder = some n) :
    s.replStart n op len act = act (s.replWritten n op len) :=
  (replStart_idle h ho).trans ((if_neg hr).trans ((if_neg (by rw [hq]; decide)).trans (if_neg (not_not_intro hh))))

end

section
variable {source : List Byte} {bad : Bool}

theorem doJlog_full (h : s.ringFull n = true) : s.doJlog n source bad = s.replResult n 6 := if_pos h

theorem doJlog_room (h : s.ringFull n = false) (hb : bad = false) :
    s.doJlog n source bad =
      let j := s.rd (uSteward n) Reg.STW_NEXT_JSEQ.JSEQ
      let e := s.rd (uSteward n) Reg.STW_NEXT_EPOCH.EPOCH
      let front := natBytes 8 j ++ natBytes 8 (e - 1) ++ padTo 0x5C source
      s.setStw n { s.stw n with repl := some { op := 2, result := 1, writes := [(journalSlot j, marked front j true)] } } :=
  (if_neg (ne_true_of_eq_false h)).trans (if_neg (ne_true_of_eq_false hb))

end

/-! ### Replication ends (R437-R439) -/

section
variable {n : Fin 2}

theorem onReplDone_none (h : (s.stw n).repl = none) : onReplDone n s = s := by
  unfold onReplDone
  dsimp only
  rw [h]

/-- The last writes of a command are made and its RESULT reads 1. -/
def State.replCopied (s : State) (n : Nat) (r : Repl) : State :=
  let v := State.each r.writes (fun w x => x.putSram (otherSteward n) w.1 w.2) s
  (v.setStw n { v.stw n with repl := none }).replResult n 1

/-- The epoch number advances and the peer is in step. -/
def State.epochAdvances (v : State) (n : Nat) : State :=
  let e := v.rd (uSteward n) Reg.STW_NEXT_EPOCH.EPOCH
  let y := v.patchStepEnds (v.sramNum (otherSteward n) (epochSlot (e % 2) + 6) 1)
  let w := (y.count (uSteward n) Reg.STW_NEXT_EPOCH.EPOCH).bump (uSteward n) Reg.STW_COUNT.EPOCHS
  w.setStw n { w.stw n with peerSync := true }

variable {r : Repl} (h : (s.stw n).repl = some r)
include h

theorem onReplDone_running :
    onReplDone n s =
      if (!s.operates (uSteward (otherSteward n))) = true then s.replAbort n 5
      else if s.holder ≠ some n.val then (s.setStw n { s.stw n with repl := none }).replResult n 7
      else
        let v := s.replCopied n r
        if r.op = 1 then v.epochAdvances n
        else (v.count (uSteward n) Reg.STW_NEXT_JSEQ.JSEQ).bump (uSteward n) Reg.STW_COUNT.JLOGS := by
  unfold onReplDone
  dsimp only
  rw [h]
  rfl

theorem onReplDone_noPeer (hq : s.operates (uSteward (otherSteward n)) = false) : onReplDone n s = s.replAbort n 5 :=
  (onReplDone_running h).trans (if_pos (by rw [hq]; rfl))

variable (hq : s.operates (uSteward (otherSteward n)) = true)
include hq

theorem onReplDone_notHolder (hh : s.holder ≠ some n.val) :
    onReplDone n s = (s.setStw n { s.stw n with repl := none }).replResult n 7 :=
  (onReplDone_running h).trans ((if_neg (by rw [hq]; decide)).trans (if_pos hh))

theorem onReplDone_copies (hh : s.holder = some n.val) :
    onReplDone n s =
      let v := s.replCopied n r
      if r.op = 1 then v.epochAdvances n
      else (v.count (uSteward n) Reg.STW_NEXT_JSEQ.JSEQ).bump (uSteward n) Reg.STW_COUNT.JLOGS :=
  (onReplDone_running h).trans ((if_neg (by rw [hq]; decide)).trans (if_neg (not_not_intro hh)))

end

/-! ### Boot ROM and firmware floor (R444, R449) -/

section
variable {n : Fin 2} {flash : Bool} {a b : FlashSlot} (hb : (s.stw n).boot = .rom) (ho : s.operates (uSteward n) = true)
include hb ho

/-- A boot ROM asks for the cube, or renews its lease. -/
abbrev State.romAsks (s : State) (n : Nat) : State := if s.holder = some n then s.cubeRenew n else s.cubeRequest n

theorem bootRom_runs : ¬((s.stw n).boot ≠ .rom ∨ (!s.operates (uSteward n)) = true) := by
  rw [hb, ho]
  decide

theorem onBootRom_starts {isB : Bool} {gen : Nat} (hc : (s.romAsks n).bootChoice flash a b = .ok (isB, gen)) :
    onBootRom n flash a b s =
      let r := s.romAsks n
      let digest := sha384 (wholeImage (match (if isB then b else a) with | some l => l | none => []))
      let v := r.setStw n { r.stw n with
        boot := .running, slotB := isB, bootResult := if isB then 2 else 1, fwGen := gen, digest := digest }
      (v.extendLog 0x01 n gen false digest).bootRecord n := by
  refine (if_neg (bootRom_runs hb ho)).trans ?_
  rw [hc] <;> rfl

theorem onBootRom_halts {e : Nat} (hc : (s.romAsks n).bootChoice flash a b = .error e) :
    onBootRom n flash a b s =
      let r := s.romAsks n
      let v := if r.holder = some n.val then r.cubeRelease else r
      (((v.setStw n { v.stw n with boot := .halted, bootResult := e }).setPend n false).stick (uSteward n)
        Reg.STW_ERR.BOOT_FAIL).bootRecord n := by
  refine (if_neg (bootRom_runs hb ho)).trans ?_
  rw [hc]

end

section
variable {h : Nat} (hh : s.holder = some h)
include hh

theorem doRaise_refused (hg : (s.stw h).fwGen ≤ s.rd uSvcDie Reg.STW_FWFLOOR.FLOOR ∨ 64 ≤ s.rd uSvcDie Reg.STW_FWFLOOR.FLOOR) :
    s.doRaise = s.wr uSvcDie Reg.STW_FWFLOOR.RESULT 2 := by
  unfold State.doRaise
  rw [hh]
  exact if_pos hg

theorem doRaise_raises (hg : s.rd uSvcDie Reg.STW_FWFLOOR.FLOOR < (s.stw h).fwGen) (hf : s.rd uSvcDie Reg.STW_FWFLOOR.FLOOR < 64) :
    let v := (s.wr uSvcDie Reg.STW_FWFLOOR.FLOOR (min (s.stw h).fwGen 64)).wr uSvcDie Reg.STW_FWFLOOR.RESULT 1
    v.holder = some h →
      s.doRaise = v.tallyEvent (some (uSteward h)) 0x03 0x05 7 0xFF
        (payload8 1 (beBytes 4 (v.rd uCube Reg.CUBE_STAT.GEN) ++ beBytes 1 (v.rd uCube Reg.CUBE_STAT.HOLDER))) := by
  intro v hv
  unfold State.doRaise
  rw [hh]
  refine (if_neg (not_or.2 ⟨Nat.not_le.2 hg, Nat.not_le.2 hf⟩)).trans ?_
  dsimp only
  rw [show State.holder _ = some h from hv]

end

/-! ### The obligation -/

theorem epoch_acts {sender : Sender} {n : Fin 2} {len : BitVec 22} {mark : Byte} {source : List Byte} {bad : Bool} (hp : s.hasPower)
    (ha : Admits s sender (uSteward n) 0x098) :
    let w := s.replWritten n 1 len.toNat
    let c : Instr := .epoch sender n len mark source bad
    (w.stw n).repl = none →
      (4194176 < len.toNat → Completes c s (w.replResult n 3)) ∧
      (len.toNat ≤ 4194176 → w.rd (uSteward n) Reg.STW_REPL_SRC.SRC * 128 + len.toNat ≤ 0x1000000 →
        (w.operates (uSteward (otherSteward n)) = false → Completes c s (w.peerAbsent n)) ∧
        (w.operates (uSteward (otherSteward n)) = true → w.holder ≠ some n.val → Completes c s (w.replResult n 7)) ∧
        (w.operates (uSteward (otherSteward n)) = true → w.holder = some n.val →
          Completes c s (w.doEpoch n mark.toNat source bad))) := by
  intro w c hb
  have starts {t : State} (h : s.replStart n 1 len.toNat (fun s => s.doEpoch n mark.toNat source bad) = t) : Completes c s t :=
    run_of_eq hp ((command_of_admits ha).trans h)
  refine ⟨fun hl => starts (replStart_tooLong hb rfl hl), fun hl hr => ?_⟩
  have inRange : ¬((1 : Nat) = 1 ∧ (4194176 < len.toNat ∨ 0x1000000 < w.rd (uSteward n) Reg.STW_REPL_SRC.SRC * 128 + len.toNat)) := by
    omega
  exact ⟨fun hq => starts (replStart_noPeer hb (by decide) inRange hq),
    fun hq hh => starts (replStart_notHolder hb (by decide) inRange hq hh),
    fun hq hh => starts (replStart_acts hb (by decide) inRange hq hh)⟩

theorem replDone_acts {n : Fin 2} {r : Repl} (hp : s.hasPower) (h : (s.stw n).repl = some r) :
    (s.operates (uSteward (otherSteward n)) = false → Completes (.replDone n) s (s.replAbort n 5)) ∧
    (s.operates (uSteward (otherSteward n)) = true → s.holder ≠ some n.val →
      Completes (.replDone n) s ((s.setStw n { s.stw n with repl := none }).replResult n 7)) ∧
    (s.operates (uSteward (otherSteward n)) = true → s.holder = some n.val →
      let v := s.replCopied n r
      (r.op = 1 → Completes (.replDone n) s (v.epochAdvances n)) ∧
      (r.op ≠ 1 → Completes (.replDone n) s
        ((v.count (uSteward n) Reg.STW_NEXT_JSEQ.JSEQ).bump (uSteward n) Reg.STW_COUNT.JLOGS))) :=
  ⟨fun hq => run_of_eq hp (onReplDone_noPeer h hq), fun hq hh => run_of_eq hp (onReplDone_notHolder h hq hh), fun hq hh =>
    ⟨fun ho => run_of_eq hp ((onReplDone_copies h hq hh).trans (if_pos ho)), fun ho =>
      run_of_eq hp ((onReplDone_copies h hq hh).trans (if_neg ho))⟩⟩

/-- Settles O54: START passes its checks in their order, REPL_DONE by the peer and the holder, BOOT_ROM by the image chosen. The order
of the checks of a replication, the epoch in force NEXT_EPOCH - 1, and BOOT_ROM as one command with its renewal are log entry 45: these
clauses are the model's choice. -/
theorem stewardCommandsAct : Obligations.StewardCommandsAct := by
  unfold Obligations.StewardCommandsAct
  intro s sender n len mark source bad flash a b hp
  refine ⟨fun ha => ?_, fun h => run_of_eq hp (onReplDone_none h), fun r h => replDone_acts hp h,
    fun hb ho => ⟨fun isB gen hc => run_of_eq hp (onBootRom_starts hb ho hc), fun e hc => run_of_eq hp (onBootRom_halts hb ho hc)⟩,
    fun ha h hh => ⟨fun hg => run_of_eq hp ((command_of_admits ha).trans (doRaise_refused hh hg)), fun hg hf hv =>
      run_of_eq hp ((command_of_admits ha).trans (doRaise_raises hh hg hf hv))⟩⟩
  refine ⟨fun hb => run_of_eq hp ((command_of_admits ha).trans (replStart_busy hb)),
    fun hb => run_of_eq hp ((command_of_admits ha).trans (replStart_busy hb)), epoch_acts hp ha, fun hb hq hh => ?_⟩
  have logs : onJlog sender n len source bad s = (s.replWritten n 2 len.toNat).doJlog n source bad :=
    (command_of_admits ha).trans (replStart_acts hb (by decide) (fun h => absurd h.1 (by decide)) hq hh)
  exact ⟨fun hf => run_of_eq hp (logs.trans (doJlog_full hf)), fun hf hbad => run_of_eq hp (logs.trans (doJlog_room hf hbad))⟩

end Sys2Proof.Machine
end

section
/-! PROOFS. Fault reports at the root (R451-R456, R462, R472). -/

namespace Sys2Proof.Machine

variable {s : State} {u : UnitId}

/-! ### The report of a source that waits at its node (R452, R454) -/

/-- The oldest report of a source that waits at its node reaches the root, if one does. -/
def State.deliverReport (v : State) (u : UnitId) (i : Nat) : State :=
  match takeReport u i v.reports with
  | some (r, rest) => State.rootTake { v with reports := rest } r
  | none => v

theorem deliverReport_waiting {i : Nat} {r : Report} {rest : List Report} (h : takeReport u i s.reports = some (r, rest)) :
    s.deliverReport u i = State.rootTake { s with reports := rest } r := by
  unfold State.deliverReport
  rw [h]

section
variable {v : State} {r : Report} {w : Window}

theorem rootTake_tagged (h : (v.wireSeen r).taggedBy r = some w) (hf : haulerFault r = false) :
    v.rootTake r = ((v.wireSeen r).conseqReport r w).overflowRecord r.src.nodeInst := by
  unfold State.rootTake
  dsimp only
  rw [h]
  dsimp only
  rw [if_neg (ne_true_of_eq_false hf)]

theorem rootTake_taggedHauler (h : (v.wireSeen r).taggedBy r = some w) (hf : haulerFault r = true) :
    v.rootTake r = (((v.wireSeen r).conseqReport r w).haulerRecord r.src).overflowRecord r.src.nodeInst := by
  unfold State.rootTake
  dsimp only
  rw [h]
  dsimp only
  rw [if_pos hf]

theorem rootTake_plain (h : (v.wireSeen r).taggedBy r = none) :
    v.rootTake r = ((v.wireSeen r).plainReport r).overflowRecord r.src.nodeInst := by
  unfold State.rootTake
  dsimp only
  rw [h]

end

section
variable {index : BitVec 8} {peer : Option UnitId} {syndrome : Word} {held : Bool}

theorem onFaultReport_absent (hp : s.present u = false) : onFaultReport u index peer syndrome held s = s :=
  if_pos (by rw [hp]; rfl)

variable (hp : s.present u = true)
include hp

theorem unit_present : ¬(!s.present u) = true := by
  rw [hp]
  decide

theorem onFaultReport_waiting {r : Report} {rest : List Report} (h : takeReport u index.toNat s.reports = some (r, rest)) :
    onFaultReport u index peer syndrome held s = State.rootTake { s with reports := rest } r := by
  exact (if_neg (unit_present hp)).trans ((if_pos (by rw [h]; rfl)).trans (deliverReport_waiting h))

variable (h : takeReport u index.toNat s.reports = none)
include h

/-- With no report waiting, what rises is seen by the kind of its index. -/
theorem onFaultReport_rises :
    onFaultReport u index peer syndrome held s =
      let i := index.toNat
      if i = 0 then State.deliverReport ((s.wr u Reg.UNIT_STICKY.OWN 1).raise u 0 peer syndrome) u i
      else if i = 254 then State.deliverReport ((s.corrected u syndrome).arrayCorrected u syndrome) u i
      else match fieldOfIndex u i with
        | none => s
        | some f =>
          let v := s.setLive u i held
          if ((s.unit u).live.contains i && held) = true then v
          else
            State.deliverReport ((if u.type = .hauler ∧ f = Reg.HLR_FAULT.ISTORE_UNCORR then v else v.stick u f peer syndrome).ownReaction u f
              syndrome) u i := by
  refine (if_neg (unit_present hp)).trans ((if_neg (by rw [h]; exact Bool.false_ne_true)).trans ?_)
  rfl

section
variable {f : Field} (h0 : index.toNat ≠ 0) (h254 : index.toNat ≠ 254) (hf : fieldOfIndex u index.toNat = some f)
include h0 h254 hf

theorem onFaultReport_source :
    onFaultReport u index peer syndrome held s =
      let v := s.setLive u index.toNat held
      if ((s.unit u).live.contains index.toNat && held) = true then v
      else
        State.deliverReport ((if u.type = .hauler ∧ f = Reg.HLR_FAULT.ISTORE_UNCORR then v else v.stick u f peer syndrome).ownReaction
          u f syndrome) u index.toNat := by
  refine (onFaultReport_rises hp h).trans ((if_neg h0).trans ((if_neg h254).trans ?_))
  rw [hf]

theorem onFaultReport_up (hl : (s.unit u).live.contains index.toNat = true) (hh : held = true) :
    onFaultReport u index peer syndrome held s = s.setLive u index.toNat held :=
  (onFaultReport_source hp h h0 h254 hf).trans (if_pos (by rw [hl, hh]; rfl))

theorem onFaultReport_rising (hl : (s.unit u).live.contains index.toNat = false ∨ held = false) :
    onFaultReport u index peer syndrome held s =
      let v := s.setLive u index.toNat held
      State.deliverReport ((if u.type = .hauler ∧ f = Reg.HLR_FAULT.ISTORE_UNCORR then v else v.stick u f peer syndrome).ownReaction
        u f syndrome) u index.toNat := by
  refine (onFaultReport_source hp h h0 h254 hf).trans (if_neg fun hb => ?_)
  obtain ⟨hlive, hheld⟩ := Bool.and_eq_true_iff.1 hb
  exact hl.elim (fun hf => Bool.false_ne_true (hf.symm.trans hlive)) fun hf => Bool.false_ne_true (hf.symm.trans hheld)

end

theorem onFaultReport_unknown (h0 : index.toNat ≠ 0) (h254 : index.toNat ≠ 254) (hf : fieldOfIndex u index.toNat = none) :
    onFaultReport u index peer syndrome held s = s := by
  refine (onFaultReport_rises hp h).trans ((if_neg h0).trans ((if_neg h254).trans ?_))
  rw [hf]

end

theorem onWireFault_present (hp : s.present u = true) : onWireFault u s = (s.raise u 255).deliverReport u 255 :=
  if_neg (unit_present hp)

/-! ### Node queues, acknowledgements, and windows (R454, R456, R462) -/

section
variable {node : Fin 7}

theorem onNodeQueueEntry_none (h : (s.reportsWaiting.find? fun r => r.src.nodeInst == node.val) = none) :
    onNodeQueueEntry node s = s := by
  unfold onNodeQueueEntry
  rw [h]

theorem onNodeQueueEntry_enters {q r : Report} {rest : List Report}
    (h : (s.reportsWaiting.find? fun r => r.src.nodeInst == node.val) = some q)
    (hc : s.nodeCount node true + s.nodeCount node false < 64) (ht : takeReport q.src q.index s.reportsWaiting = some (r, rest)) :
    onNodeQueueEntry node s = { s with reportsWaiting := rest, reports := s.reports ++ [r] } := by
  unfold onNodeQueueEntry
  rw [h]
  refine (if_pos hc).trans ?_
  rw [ht]

end

theorem ackSlot_free {i : Nat} (h : s.canaries.look none i = none) : s.ackSlot i = s := by
  unfold State.ackSlot
  rw [h]

theorem ackSlot_canary {i : Nat} {c : Canary} (h : s.canaries.look none i = some c) :
    s.ackSlot i = ((s.bump uRoot Reg.FLT_LADDER.ACKS).ladderRecord c.src 0x02 i c.seq).dropCanary i := by
  unfold State.ackSlot
  rw [h]

/-- Is a window one of unit `u` that has ended? -/
def State.windowEnded (s : State) (u : UnitId) (w : Window) : Bool :=
  w.src == u && (match w.closeAt with | some t => decide (t ≤ s.now) | none => false)

/-- The summary record of a window that has ended, and new reports of the faults still present. -/
def State.windowCloses (s : State) (u : UnitId) (w : Window) : State :=
  let v : State := { s with windows := s.windows.filter fun (x : Window) => x.src != u }
  let v := v.tallyEvent (some u) 0x02 0x08 7 (v.ownerSeam u) (payload8 0 (beBytes 4 w.count))
  State.each u.subtree (fun x v => State.each (v.unit x).live (fun i v => v.raise x i) v) v

theorem onConseqWindowClose_eq :
    onConseqWindowClose u s = match s.windows.find? (s.windowEnded u) with
      | none => s
      | some w => s.windowCloses u w := rfl

theorem onConseqWindowClose_none (h : s.windows.find? (s.windowEnded u) = none) : onConseqWindowClose u s = s := by
  rw [onConseqWindowClose_eq, h]

theorem onConseqWindowClose_ended {w : Window} (h : s.windows.find? (s.windowEnded u) = some w) :
    onConseqWindowClose u s = s.windowCloses u w := by
  rw [onConseqWindowClose_eq, h]

/-! ### The obligation -/

section
variable {index : BitVec 8} {peer : Option UnitId} {syndrome : Word} {held : Bool} (hp : s.hasPower) (hu : s.present u = true)
include hp hu

theorem faultReport_waiting {r : Report} {rest : List Report} (h : takeReport u index.toNat s.reports = some (r, rest)) :
    let v := State.wireSeen { s with reports := rest } r
    let c : Instr := .faultReport u index peer syndrome held
    (∀ w, v.taggedBy r = some w → haulerFault r = false → Completes c s ((v.conseqReport r w).overflowRecord r.src.nodeInst)) ∧
    (∀ w, v.taggedBy r = some w → haulerFault r = true →
      Completes c s (((v.conseqReport r w).haulerRecord r.src).overflowRecord r.src.nodeInst)) ∧
    (v.taggedBy r = none → Completes c s ((v.plainReport r).overflowRecord r.src.nodeInst)) := by
  have waiting := onFaultReport_waiting (peer := peer) (syndrome := syndrome) (held := held) hu h
  exact ⟨fun w ht hf => run_of_eq hp (waiting.trans (rootTake_tagged ht hf)),
    fun w ht hf => run_of_eq hp (waiting.trans (rootTake_taggedHauler ht hf)),
    fun ht => run_of_eq hp (waiting.trans (rootTake_plain ht))⟩

theorem faultReport_rising (h : takeReport u index.toNat s.reports = none) :
    let i := index.toNat
    let c : Instr := .faultReport u index peer syndrome held
    (i = 0 → Completes c s (State.deliverReport ((s.wr u Reg.UNIT_STICKY.OWN 1).raise u 0 peer syndrome) u i)) ∧
    (i = 254 → Completes c s (State.deliverReport ((s.corrected u syndrome).arrayCorrected u syndrome) u i)) ∧
    (∀ f, i ≠ 0 → i ≠ 254 → fieldOfIndex u i = some f →
      let v := s.setLive u i held
      ((s.unit u).live.contains i = true → held = true → Completes c s v) ∧
      ((s.unit u).live.contains i = false ∨ held = false →
        (u.type = .hauler ∧ f = Reg.HLR_FAULT.ISTORE_UNCORR → Completes c s ((v.ownReaction u f syndrome).deliverReport u i)) ∧
        (¬ (u.type = .hauler ∧ f = Reg.HLR_FAULT.ISTORE_UNCORR) →
          Completes c s (((v.stick u f peer syndrome).ownReaction u f syndrome).deliverReport u i)))) ∧
    (i ≠ 0 → i ≠ 254 → fieldOfIndex u i = none → Completes c s s) := by
  intro i c
  have rises := onFaultReport_rises (peer := peer) (syndrome := syndrome) (held := held) hu h
  refine ⟨fun h0 => run_of_eq hp (rises.trans (if_pos h0)), fun h254 => run_of_eq hp (rises.trans ((if_neg ?_).trans (if_pos h254))),
    fun f h0 h254 hf => ⟨fun hl hh => run_of_eq hp (onFaultReport_up hu h h0 h254 hf hl hh), fun hl => ⟨fun ho => ?_, fun ho => ?_⟩⟩,
    fun h0 h254 hf => run_of_eq hp (onFaultReport_unknown hu h h0 h254 hf)⟩
  · exact fun h0 => absurd (h254.symm.trans h0) (by decide)
  · exact run_of_eq hp ((onFaultReport_rising hu h h0 h254 hf hl).trans (by dsimp only; rw [if_pos ho]))
  · exact run_of_eq hp ((onFaultReport_rising hu h h0 h254 hf hl).trans (by dsimp only; rw [if_neg ho]))

end

/-- Settles O55: what a report does at its node and at the root, by what waits, by the kind of its index and by the windows that are
open. A rail that is up already and stays up reporting nothing new is log entry 121, index 254 with its syndrome log entry 106: these
clauses are the model's choice. -/
theorem faultReportsReachTheRoot : Obligations.FaultReportsReachTheRoot := by
  unfold Obligations.FaultReportsReachTheRoot
  intro s sender u index peer syndrome held node slot hp
  refine ⟨⟨fun hu => run_of_eq hp (onFaultReport_absent hu), fun r rest hu h => faultReport_waiting hp hu h,
      fun hu h => faultReport_rising hp hu h, fun hu => run_of_eq hp (if_pos (by rw [hu]; rfl)),
      fun r rest hu h => run_of_eq hp ((onWireFault_present hu).trans (deliverReport_waiting h))⟩,
    fun h => run_of_eq hp (onNodeQueueEntry_none h), fun q r rest h hc ht => run_of_eq hp (onNodeQueueEntry_enters h hc ht),
    fun ha => ⟨fun h => ?_, fun c h => ?_⟩, fun ha => run_of_eq hp (command_of_admits ha),
    fun h => run_of_eq hp (onConseqWindowClose_none h), fun w h => run_of_eq hp (onConseqWindowClose_ended h)⟩
  · exact run_of_eq hp ((command_of_admits ha).trans (ackSlot_free h))
  · exact run_of_eq hp ((command_of_admits ha).trans (ackSlot_canary h))

end Sys2Proof.Machine
end

section
/-! PROOFS. The rungs of the escalation ladder (R459-R461). -/

namespace Sys2Proof.Machine

variable {s : State} {slot : Fin 64} {c : Canary} (hc : s.canaries.look none slot.val = some c)

/-! ### Each rung of a slot in use -/

section
include hc

theorem onCanaryExpiry_slot : onCanaryExpiry slot s = if c.rung = 0 ∧ c.expiry ≤ s.now then s.expire slot c else s := by
  unfold onCanaryExpiry
  rw [hc]

/-- The state after rung 2 has reset a unit, but for the reset itself. -/
def State.rung2Noted (s : State) (slot : Nat) (c : Canary) : State :=
  let r := ((s.bump uRoot Reg.FLT_LADDER.RESETS).rungActs c.src).ladderRecord c.src 0x04 slot c.seq
  r.setCanary slot (some { c with rung := 2, rungAt := r.now })

theorem onRung2_slot :
    onRung2 slot s =
      if c.rung = 1 ∧ c.rungAt + 10000 ≤ s.now then
        if c.src = uModule then (s.rung2Noted slot c).mStart else (s.rung2Noted slot c).resetRequest c.src
      else s := by
  unfold onRung2
  rw [hc]
  rfl

theorem onLadderCheck_slot :
    onLadderCheck slot s =
      let d := s.unit c.src
      if c.rung ≠ 2 ∨ d.resetting = true ∨ d.heldReset = true ∨ d.doneAt < c.rungAt ∨ s.now < d.doneAt + 10000 then s
      else if s.ownLive c.src = true then s.rung3 slot c
      else if s.checkLifts c.src = true then ((s.ladderRecord c.src 0x05 slot c.seq).unfence c.src).dropCanary slot
      else s.dropCanary slot := by
  unfold onLadderCheck
  rw [hc]

theorem onLadderResetTimeout_slot :
    onLadderResetTimeout slot s =
      if c.rung = 2 ∧ ((s.unit c.src).resetting = true ∨ (s.unit c.src).heldReset = true) ∧ c.rungAt + 1000000 ≤ s.now then
        s.rung3 slot c
      else s := by
  unfold onLadderResetTimeout
  rw [hc]

end

/-! ### What a rung does -/

theorem expire_rung4 {i : Nat} (h : rung4Only c.src = true ∨ s.otherGone c.src = true) : s.expire i c = s.rung4 i c := if_pos h

theorem expire_rung1 {i : Nat} (h4 : rung4Only c.src = false) (ho : s.otherGone c.src = false) :
    s.expire i c = (s.rung1 i c).setCanary i (some { c with rung := 1, rungAt := s.now }) :=
  if_neg (not_or.2 ⟨ne_true_of_eq_false h4, ne_true_of_eq_false ho⟩)

/-- Rung 3 of a die or a tile fences the unit itself. -/
theorem rung3_die {i : Nat} (h : c.src.type = .iodie ∨ c.src.type = .tile) :
    s.rung3 i c =
      ((((s.bump uRoot Reg.FLT_LADDER.PARENT_FENCES).rungActs c.src).ladderRecord c.src 0x06 i c.seq).fence c.src).dropCanary i := by
  unfold State.rung3
  rcases h with h | h
  · rw [h]
  · rw [h]

/-! ### The obligation -/

section
variable (hp : s.hasPower)
include hp hc

theorem canaryExpiry_acts (hr : c.rung = 0) (ht : c.expiry ≤ s.now) :
    (rung4Only c.src = true ∨ s.otherGone c.src = true → Completes (.canaryExpiry slot) s (s.rung4 slot c)) ∧
    (rung4Only c.src = false → s.otherGone c.src = false →
      let r := ((s.bump uRoot Reg.FLT_LADDER.FENCES).rungActs c.src).ladderRecord c.src 0x03 slot c.seq
      (c.src ≠ uModule → Completes (.canaryExpiry slot) s
        ((r.fence c.src).setCanary slot (some { c with rung := 1, rungAt := s.now }))) ∧
      (c.src = uModule → Completes (.canaryExpiry slot) s (r.setCanary slot (some { c with rung := 1, rungAt := s.now })))) := by
  have expires : onCanaryExpiry slot s = s.expire slot c := (onCanaryExpiry_slot hc).trans (if_pos ⟨hr, ht⟩)
  refine ⟨fun h => run_of_eq hp (expires.trans (expire_rung4 h)), fun h4 ho => ?_⟩
  have fences := expires.trans (expire_rung1 h4 ho)
  exact ⟨fun hm => run_of_eq hp (fences.trans (congrArg (State.setCanary · _ _) (if_neg hm))),
    fun hm => run_of_eq hp (fences.trans (congrArg (State.setCanary · _ _) (if_pos hm)))⟩

theorem ladderCheck_acts (hr : c.rung = 2) (hd : (s.unit c.src).resetting = false) (hh : (s.unit c.src).heldReset = false)
    (ha : c.rungAt ≤ (s.unit c.src).doneAt) (ht : (s.unit c.src).doneAt + 10000 ≤ s.now) :
    (s.ownLive c.src = true → Completes (.ladderCheck slot) s (s.rung3 slot c)) ∧
    (s.ownLive c.src = false → s.checkLifts c.src = true →
      Completes (.ladderCheck slot) s (((s.ladderRecord c.src 0x05 slot c.seq).unfence c.src).dropCanary slot)) ∧
    (s.ownLive c.src = false → s.checkLifts c.src = false → Completes (.ladderCheck slot) s (s.dropCanary slot)) := by
  have due : ¬(c.rung ≠ 2 ∨ (s.unit c.src).resetting = true ∨ (s.unit c.src).heldReset = true ∨ (s.unit c.src).doneAt < c.rungAt ∨
      s.now < (s.unit c.src).doneAt + 10000) := by
    simp [hr, hd, hh, Nat.not_lt.2 ha, Nat.not_lt.2 ht]
  have checks := (onLadderCheck_slot hc).trans (if_neg due)
  exact ⟨fun hl => run_of_eq hp (checks.trans (if_pos hl)),
    fun hl hu => run_of_eq hp (checks.trans ((if_neg (ne_true_of_eq_false hl)).trans (if_pos hu))),
    fun hl hu => run_of_eq hp (checks.trans ((if_neg (ne_true_of_eq_false hl)).trans (if_neg (ne_true_of_eq_false hu))))⟩

end

/-- Settles O56, rung by rung: before its time a rung does nothing, at its time it leaves its count, LADDER and its record. Rung 1 not
fencing the module page, and FENCES counted where the unit is fenced already, are log entry 79: these clauses are the model's choice. -/
theorem ladderRungsActInOrder : Obligations.LadderRungsActInOrder := by
  unfold Obligations.LadderRungsActInOrder
  intro s slot c hp hc
  refine ⟨fun hr ht => canaryExpiry_acts hc hp hr ht, fun h => run_of_eq hp ((onCanaryExpiry_slot hc).trans (if_neg ?_)),
    fun hr ht => ?_, fun h => run_of_eq hp ((onRung2_slot hc).trans (if_neg ?_)),
    fun hr hd hh ha ht => ladderCheck_acts hc hp hr hd hh ha ht,
    fun h => run_of_eq hp ((onLadderCheck_slot hc).trans (if_pos (h.imp_right fun h => .inr (.inr (.inr h))))),
    fun hr hd ht => run_of_eq hp ((onLadderResetTimeout_slot hc).trans (if_pos ⟨hr, hd, ht⟩)),
    fun h => run_of_eq hp ((onLadderResetTimeout_slot hc).trans (if_neg ?_)), rung3_die⟩
  · exact fun hb => h.elim (· hb.1) (Nat.not_lt.2 hb.2)
  · have noted := (onRung2_slot hc).trans (if_pos ⟨hr, ht⟩)
    exact ⟨fun hm => run_of_eq hp (noted.trans (if_pos hm)), fun hm => run_of_eq hp (noted.trans (if_neg hm))⟩
  · exact fun hb => h.elim (· hb.1) (Nat.not_lt.2 hb.2)
  · exact fun hb => h.elim (· hb.1) (Nat.not_lt.2 hb.2.2)

end Sys2Proof.Machine
end

section
/-! PROOFS. The Tally (R464-R470). -/

namespace Sys2Proof.Machine

variable {s : State}

/-! ### TALLY_WRITE (R465, R468) -/

section
variable {fails : Bool}

theorem tallyStep_empty (h : s.tallyBuf = []) : s.tallyStep fails = s := by
  unfold State.tallyStep
  rw [h]

/-- The oldest record has been written to its slot, or has left it torn. -/
def State.tallyStored (s : State) (r : TallyRec) (rest : List TallyRec) (fails : Bool) : State :=
  let slot (x : MramSlot) : State := { s with tallyBuf := rest, tallyStore := s.tallyStore.put .blank (r.seq % 262144) x }
  if fails then (slot .torn).stick uTally Reg.TLY_ERR.MRAM_FAIL else (slot (.record r)).bump uTally Reg.TLY_COUNT.WRITTEN

theorem tallyStep_record {r : TallyRec} {rest : List TallyRec} (h : s.tallyBuf = r :: rest) :
    s.tallyStep fails =
      let v := s.tallyStored r rest fails
      if v.lostPending = 0 then v
      else State.tallyEvent { v with lostPending := 0 } (some uTally) 0x0F 0x02 7 0xFF (payload8 0 (beBytes 8 v.lostPending)) := by
  unfold State.tallyStep
  rw [h]
  cases fails <;> rfl

end

/-! ### TLY_WRITE (R470) -/

/-- Is an event one that firmware may record? -/
theorem firmwareEvent_iff {e : Nat} : (!(decide (0x80 ≤ e / 256) || e == 0x0F01)) = true ↔ ¬(0x80 ≤ e / 256 ∨ e = 0x0F01) := by
  simp

section
variable {sender : Sender} {e : Nat} (he : s.rd uTally Reg.TLY_WRITE.EVENT = e)
include he

theorem tlyGo_refused (hc : e / 256 < 0x80) (hr : e ≠ 0x0F01) : s.tlyGo sender = s.wr uTally Reg.TLY_WRITE.RESULT 2 := by
  subst he
  exact if_pos (firmwareEvent_iff.2 (not_or.2 ⟨Nat.not_le.2 hc, hr⟩))

variable (hc : 0x80 ≤ e / 256 ∨ e = 0x0F01)
include hc

theorem tlyGo_full (hf : 256 ≤ s.tallyBuf.length) : s.tlyGo sender = s.wr uTally Reg.TLY_WRITE.RESULT 3 := by
  subst he
  exact (if_neg (mt firmwareEvent_iff.1 (not_not_intro hc))).trans (if_pos hf)

theorem tlyGo_enters (hf : s.tallyBuf.length < 256) :
    s.tlyGo sender =
      let payload := (List.range 4).flatMap fun i => beBytes 8 (s.rd uTally (Reg.TLY_WRITE_DATA.DATA.ix i))
      let src := if e = 0x0F01 then some uTally else s.recordWriter sender
      (s.tallyEvent src (e / 256) (e % 256) 7 (s.rd uTally Reg.TLY_WRITE.SEAM) payload false true).wr uTally Reg.TLY_WRITE.RESULT 1 := by
  subst he
  exact (if_neg (mt firmwareEvent_iff.1 (not_not_intro hc))).trans (if_neg (Nat.not_le.2 hf))

end

/-- Settles O57: the Tally writes its oldest record, and firmware's record enters it. A refused record that is not counted as lost, the
Tally as source of a time anchor, and a torn slot after one attempt are log entry 49: these clauses are the model's choice. -/
theorem tallyCommandsAct : Obligations.TallyCommandsAct := by
  unfold Obligations.TallyCommandsAct
  intro s sender fails event seam hp
  refine ⟨fun h => run_of_eq hp (tallyStep_empty h), fun r rest h => ?_, run_of_eq hp rfl, fun ha => ?_⟩
  · have writes := tallyStep_record (fails := fails) h
    exact ⟨fun hl => run_of_eq hp (writes.trans (if_pos hl)), fun hl => run_of_eq hp (writes.trans (if_neg hl))⟩
  · exact ⟨fun hc hr => run_of_eq hp ((command_of_admits ha).trans (tlyGo_refused rfl hc hr)),
      fun hc => ⟨fun hf => run_of_eq hp ((command_of_admits ha).trans (tlyGo_full rfl hc hf)), fun hf =>
        run_of_eq hp ((command_of_admits ha).trans (tlyGo_enters rfl hc hf))⟩⟩

end Sys2Proof.Machine
end
